-- ==== Sys2Proof/Word.lean ====
section
/-! DEFINITION. The word types of Lerior (R19, R79) and the shorthand for register numbers. -/
namespace Sys2Proof

/-- A byte of memory. -/
abbrev Byte := BitVec 8

/-- A 64-bit register or control word. -/
abbrev Word := BitVec 64

/-- An instruction word (R79), also the content of a plane or accumulator cell (R40, R152). -/
abbrev W32 := BitVec 32

/-- A 5-bit register or definition-table number (R81). -/
abbrev Reg := BitVec 5

/-- A mask register number (R81). -/
abbrev KReg := BitVec 3

end Sys2Proof
end

