-- ==== Sys2Proof/Config.lean ====
section
/-! DEFINITION. What one BW-S640-LQ fixes (R1, R364) and the free values: constants without a body, of which nothing can be proved. -/
namespace Sys2Proof
namespace Config

/-- Harts of the device (R1). -/
def numHarts : Nat := 2560
/-- Camps of the device (R1). -/
def numCamps : Nat := 40
/-- Bytes of device memory, 1.5 TiB (R358). -/
def hdmLen : Nat := 0x18000000000
/-- Save-page area from its start to the top of the HDM range: 40 MiB and the 8 MiB staging area above it (R336, R362). -/
def saveFromTop : Nat := 0x3000000
/-- The NVMe staging area, 8 MiB at the top of the HDM range (R362). -/
def stageFromTop : Nat := 0x800000
/-- Bytes of one save page (R336). -/
def savePage : Nat := 0x4000
/-- Base of the peer windows and the size of one (R363). -/
def peerBase : Nat := 0x0080000000000000
def peerLen : Nat := 0x20000000000
def peerTop : Nat := 0x0081000000000000
/-- The management block (R419). -/
def mgmtBase : Nat := 0x00E0000000000000
def mgmtLen : Nat := 0x1000000
/-- The local-store aperture (R173). -/
def apertureBase : Nat := 0x00F0000000000000
def apertureLen : Nat := 0x80000000
/-- One slot of the aperture, 2 MiB (R173). -/
def apertureSlot : Nat := 0x200000

/-- A byte read from a sector whose key slot was closed or reassigned after it was written (R417): free, a function of
the physical address, the slot and the generation of the slot's key. -/
opaque staleByte : Nat → Nat → Nat → Byte

/-- A byte of a device-key signature of an attestation report (R416): free, a function of the lower tree, of the one-time index, of the report that it
signs and of the place within the signature. -/
opaque signatureByte : Nat → Nat → List Byte → Nat → Byte

/-- The cycles from issue to completion of a sampled instruction (R392): free, a function of the core and of the records its
sampler has written. -/
opaque sampleCycles : Nat → Nat → BitVec 32

/-- The power budget of a tick, as Ridgepole estimates it (R413): free. -/
opaque budget : Nat → Nat

/-- The power that Ridgepole attributes to a camp at a clock step (R413): free, a function of the tick, of the camp and of the step. -/
opaque stepPower : Nat → Nat → Nat → Nat

/-- Whether the power draw or the coolant temperature threatens a limit at a tick (R414): free. -/
opaque limitThreatened : Nat → Bool

/-- The camp that stays below CODE 24 at a tick that would grant it to every camp (R2, R414): free. -/
opaque sparedCamp : Nat → Nat

/-- The routes to each chip, ports in order, that the start firmware sets (R366): free. -/
opaque startRoutes : List (Nat × List Nat)

/-- Which of the lines of a full set an L2 evicts, and an instruction cache drops; the manual states no policy (R1, R172, R95; log 74). -/
opaque l2Victim : Nat → Nat → Nat
/-- The same of an instruction cache. -/
opaque icacheVictim : Nat → Nat → Nat

end Config
end Sys2Proof
end

