-- ==== Sys2Proof/Syntax.lean ====
section
/-! DEFINITION. The syntax of the S640's steps: one constructor per row of spec/opcode_table.json, the instruction words first
(their operands are the fields of the word, R80, R81), then the device's events (their operands say which unit acts and what
an outside agent supplies). -/
namespace Sys2Proof

/-- The operations of the scalar atomics (R243), also made by the host at its home (R233). -/
inductive AtomicOp where
  | add | and | or | xor | min | max | minu | maxu | swap
  deriving DecidableEq, Repr

/-- What a write packet of the fabric carries (R367, R370, R372, R374). -/
inductive PacketBody where
  /-- Bytes of an L2 write-back or store into a peer window, at a device-memory offset. -/
  | bytes (offset : Nat) (data : List Byte)
  /-- An atomic into a peer window (R367): operation, width in bytes, operand. -/
  | atomic (offset : Nat) (op : AtomicOp) (n : Nat) (operand : Word)
  /-- One stored line of a migration, with its tag (R374). -/
  | line (offset : Nat) (tag : Byte) (stored : List Byte)
  /-- A remote-reduce packet (R370): remote address bits 56:0, VL, format code, block length, elements, scales, mask. -/
  | reduce (va : Word) (vl fmt blk : Nat) (elems scales : List Byte) (mask : Option (List Byte))
  /-- A packet of one rank's contribution to a collective (R372): GID, GEN, rank, the sender's OP, NRANK, ROOT, LEN and rank table, and bytes of
  its contribution from an offset on. -/
  | coll (gid gen rank op nrank root len : Nat) (table : List Nat) (off : Nat) (data : List Byte)
  deriving DecidableEq, Repr

/-- A write packet as it reaches its target (R365, R367). -/
structure Packet where
  src : Nat
  seq : Nat
  domain : Nat
  body : PacketBody
  deriving DecidableEq, Repr

/-- A firmware image (R415): its bytes, the version and the request to raise the rollback counter that they hold, the public key and the LMS
signature that come with it. -/
structure Firmware where
  bytes : List Byte
  version : Nat
  raises : Bool
  key : List Byte
  signature : List Byte
  deriving DecidableEq, Repr

/-- A staging slot as an entry of a completion queue names it (R362): the address of the queue, and the slot. -/
structure StagedSlot where
  cq : Word
  index : Nat
  deriving DecidableEq, Repr

/-- What the parts outside this model report to the start sequence (R411): for each step 1 to 11, whether the main method
and the alternate succeed. -/
structure StepTrial where
  main : Bool
  alt : Bool
  deriving DecidableEq, Repr

/-- A row of 256 of an SRAM array, or a row of a DRAM bank, that a test finds failing (R409). -/
structure RowFault where
  sram : Bool
  unit : Nat
  row : Nat
  deriving DecidableEq, Repr

/-- What the tests of the start find failing (R409, R411): physical cores, 84 a die, and rows. -/
structure Failing where
  cores : List Nat
  rows : List RowFault
  deriving DecidableEq, Repr

/-- Ridgepole's own estimates for a tick of clock grants (R413): the budget, and the power of each camp at each step. -/
structure PowerEstimate where
  budget : Nat
  powers : List (List Nat)
  deriving DecidableEq, Repr

/-- One constructor per row of the opcode table. -/
inductive Instr where
  /-- R101. -/
  | add (d a b : Reg)
  /-- R101. -/
  | sub (d a b : Reg)
  /-- R101. -/
  | and (d a b : Reg)
  /-- R101. -/
  | or (d a b : Reg)
  /-- R101. -/
  | xor (d a b : Reg)
  /-- R101. -/
  | sll (d a b : Reg)
  /-- R101. -/
  | srl (d a b : Reg)
  /-- R101. -/
  | sra (d a b : Reg)
  /-- R101. -/
  | slt (d a b : Reg)
  /-- R101. -/
  | sltu (d a b : Reg)
  /-- R101. -/
  | min (d a b : Reg)
  /-- R101. -/
  | max (d a b : Reg)
  /-- R101. -/
  | minu (d a b : Reg)
  /-- R101. -/
  | maxu (d a b : Reg)
  /-- R101. -/
  | mul (d a b : Reg)
  /-- R101. -/
  | mulh (d a b : Reg)
  /-- R101. -/
  | mulhu (d a b : Reg)
  /-- R102. -/
  | div (d a b : Reg)
  /-- R102. -/
  | divu (d a b : Reg)
  /-- R102. -/
  | rem (d a b : Reg)
  /-- R102. -/
  | remu (d a b : Reg)
  /-- R101. -/
  | clz (d a : Reg)
  /-- R101. -/
  | ctz (d a : Reg)
  /-- R101. -/
  | cpop (d a : Reg)
  /-- R101. -/
  | sel (d a b c : Reg)
  /-- R103. -/
  | addi (d a : Reg) (i : BitVec 15)
  /-- R103. -/
  | andi (d a : Reg) (i : BitVec 15)
  /-- R103. -/
  | ori (d a : Reg) (i : BitVec 15)
  /-- R103. -/
  | xori (d a : Reg) (i : BitVec 15)
  /-- R103. -/
  | slti (d a : Reg) (i : BitVec 15)
  /-- R103. -/
  | sltiu (d a : Reg) (i : BitVec 15)
  /-- R104. -/
  | slli (d a : Reg) (s : BitVec 6)
  /-- R104. -/
  | srli (d a : Reg) (s : BitVec 6)
  /-- R104. -/
  | srai (d a : Reg) (s : BitVec 6)
  /-- R105. -/
  | lui (d : Reg) (i : BitVec 20)
  /-- R105. -/
  | auipc (d : Reg) (i : BitVec 20)
  /-- R106. -/
  | faddF32 (d a b : Reg) (r : BitVec 5)
  /-- R106. -/
  | fsubF32 (d a b : Reg) (r : BitVec 5)
  /-- R106. -/
  | fmulF32 (d a b : Reg) (r : BitVec 5)
  /-- R106. -/
  | fdivF32 (d a b : Reg) (r : BitVec 5)
  /-- R106. -/
  | fsqrtF32 (d a : Reg) (r : BitVec 5)
  /-- R107. -/
  | fminF32 (d a b : Reg)
  /-- R107. -/
  | fmaxF32 (d a b : Reg)
  /-- R106. -/
  | feqF32 (d a b : Reg)
  /-- R106. -/
  | fltF32 (d a b : Reg)
  /-- R106. -/
  | fleF32 (d a b : Reg)
  /-- R67. -/
  | fcvtToI64F32 (d a : Reg) (r : BitVec 5)
  /-- R67. -/
  | fcvtToN64F32 (d a : Reg) (r : BitVec 5)
  /-- R106. -/
  | fcvtFromI64F32 (d a : Reg) (r : BitVec 5)
  /-- R106. -/
  | fcvtFromN64F32 (d a : Reg) (r : BitVec 5)
  /-- R106. -/
  | fcvtFromFloatF32 (d a : Reg) (r s : BitVec 5)
  /-- R106. -/
  | faddF16 (d a b : Reg) (r : BitVec 5)
  /-- R106. -/
  | fsubF16 (d a b : Reg) (r : BitVec 5)
  /-- R106. -/
  | fmulF16 (d a b : Reg) (r : BitVec 5)
  /-- R106. -/
  | fdivF16 (d a b : Reg) (r : BitVec 5)
  /-- R106. -/
  | fsqrtF16 (d a : Reg) (r : BitVec 5)
  /-- R107. -/
  | fminF16 (d a b : Reg)
  /-- R107. -/
  | fmaxF16 (d a b : Reg)
  /-- R106. -/
  | feqF16 (d a b : Reg)
  /-- R106. -/
  | fltF16 (d a b : Reg)
  /-- R106. -/
  | fleF16 (d a b : Reg)
  /-- R67. -/
  | fcvtToI64F16 (d a : Reg) (r : BitVec 5)
  /-- R67. -/
  | fcvtToN64F16 (d a : Reg) (r : BitVec 5)
  /-- R106. -/
  | fcvtFromI64F16 (d a : Reg) (r : BitVec 5)
  /-- R106. -/
  | fcvtFromN64F16 (d a : Reg) (r : BitVec 5)
  /-- R106. -/
  | fcvtFromFloatF16 (d a : Reg) (r s : BitVec 5)
  /-- R106. -/
  | faddBf16 (d a b : Reg) (r : BitVec 5)
  /-- R106. -/
  | fsubBf16 (d a b : Reg) (r : BitVec 5)
  /-- R106. -/
  | fmulBf16 (d a b : Reg) (r : BitVec 5)
  /-- R106. -/
  | fdivBf16 (d a b : Reg) (r : BitVec 5)
  /-- R106. -/
  | fsqrtBf16 (d a : Reg) (r : BitVec 5)
  /-- R107. -/
  | fminBf16 (d a b : Reg)
  /-- R107. -/
  | fmaxBf16 (d a b : Reg)
  /-- R106. -/
  | feqBf16 (d a b : Reg)
  /-- R106. -/
  | fltBf16 (d a b : Reg)
  /-- R106. -/
  | fleBf16 (d a b : Reg)
  /-- R67. -/
  | fcvtToI64Bf16 (d a : Reg) (r : BitVec 5)
  /-- R67. -/
  | fcvtToN64Bf16 (d a : Reg) (r : BitVec 5)
  /-- R106. -/
  | fcvtFromI64Bf16 (d a : Reg) (r : BitVec 5)
  /-- R106. -/
  | fcvtFromN64Bf16 (d a : Reg) (r : BitVec 5)
  /-- R106. -/
  | fcvtFromFloatBf16 (d a : Reg) (r s : BitVec 5)
  /-- R108. -/
  | fmadd (d a b c : Reg) (f : BitVec 2) (r : BitVec 3)
  /-- R109. -/
  | lb (d a : Reg) (i : BitVec 15)
  /-- R109. -/
  | lh (d a : Reg) (i : BitVec 15)
  /-- R109. -/
  | lw (d a : Reg) (i : BitVec 15)
  /-- R109. -/
  | ld (d a : Reg) (i : BitVec 15)
  /-- R109. -/
  | lbu (d a : Reg) (i : BitVec 15)
  /-- R109. -/
  | lhu (d a : Reg) (i : BitVec 15)
  /-- R109. -/
  | sb (d a : Reg) (i : BitVec 15)
  /-- R109. -/
  | sh (d a : Reg) (i : BitVec 15)
  /-- R109. -/
  | sw (d a : Reg) (i : BitVec 15)
  /-- R109. -/
  | sd (d a : Reg) (i : BitVec 15)
  /-- R112. -/
  | beq (a b : Reg) (o : BitVec 15)
  /-- R112. -/
  | bne (a b : Reg) (o : BitVec 15)
  /-- R112. -/
  | blt (a b : Reg) (o : BitVec 15)
  /-- R112. -/
  | bge (a b : Reg) (o : BitVec 15)
  /-- R112. -/
  | jal (d : Reg) (o : BitVec 20)
  /-- R112. -/
  | jalr (d a : Reg) (i : BitVec 15)
  /-- R117. -/
  | crr (d : Reg) (n : BitVec 12)
  /-- R117. -/
  | crw (d a : Reg) (n : BitVec 12)
  /-- R117. -/
  | crs (d a : Reg) (n : BitVec 12)
  /-- R117. -/
  | crc (d a : Reg) (n : BitVec 12)
  /-- R119. -/
  | exit
  /-- R120. -/
  | scall (a : Reg)
  /-- R121. -/
  | tret
  /-- R97. -/
  | icinv (a b : Reg)
  /-- R341. -/
  | yieldP
  /-- R124. -/
  | xlinv (a b : Reg)
  /-- R113. -/
  | loop (a b : Reg) (o : BitVec 15)
  /-- R135. -/
  | vaddVv (d a b : Reg) (f : BitVec 5) (y x : BitVec 1) (k : KReg)
  /-- R135. -/
  | vaddVx (d a b : Reg) (f : BitVec 5) (x : BitVec 1) (k : KReg)
  /-- R135. -/
  | vsubVv (d a b : Reg) (f : BitVec 5) (y x : BitVec 1) (k : KReg)
  /-- R135. -/
  | vsubVx (d a b : Reg) (f : BitVec 5) (x : BitVec 1) (k : KReg)
  /-- R135. -/
  | vmulVv (d a b : Reg) (f : BitVec 5) (y x : BitVec 1) (k : KReg)
  /-- R135. -/
  | vmulVx (d a b : Reg) (f : BitVec 5) (x : BitVec 1) (k : KReg)
  /-- R135. -/
  | vfmaVv (d a b : Reg) (f : BitVec 5) (y x : BitVec 1) (k : KReg)
  /-- R135. -/
  | vfmaVx (d a b : Reg) (f : BitVec 5) (x : BitVec 1) (k : KReg)
  /-- R135. -/
  | vmin (d a b : Reg) (f : BitVec 5) (y x : BitVec 1) (k : KReg)
  /-- R135. -/
  | vmax (d a b : Reg) (f : BitVec 5) (y x : BitVec 1) (k : KReg)
  /-- R135. -/
  | vdiv (d a b : Reg) (f : BitVec 5) (y x : BitVec 1) (k : KReg)
  /-- R135. -/
  | vsqrt (d a : Reg) (f : BitVec 5) (x : BitVec 1) (k : KReg)
  /-- R136. -/
  | vcmpeqVv (d : KReg) (a b : Reg) (f : BitVec 5) (y x : BitVec 1) (k : KReg)
  /-- R136. -/
  | vcmpneVv (d : KReg) (a b : Reg) (f : BitVec 5) (y x : BitVec 1) (k : KReg)
  /-- R136. -/
  | vcmpltVv (d : KReg) (a b : Reg) (f : BitVec 5) (y x : BitVec 1) (k : KReg)
  /-- R136. -/
  | vcmpleVv (d : KReg) (a b : Reg) (f : BitVec 5) (y x : BitVec 1) (k : KReg)
  /-- R136. -/
  | vcmpeqVx (d : KReg) (a b : Reg) (f : BitVec 5) (x : BitVec 1) (k : KReg)
  /-- R136. -/
  | vcmpneVx (d : KReg) (a b : Reg) (f : BitVec 5) (x : BitVec 1) (k : KReg)
  /-- R136. -/
  | vcmpltVx (d : KReg) (a b : Reg) (f : BitVec 5) (x : BitVec 1) (k : KReg)
  /-- R136. -/
  | vcmpleVx (d : KReg) (a b : Reg) (f : BitVec 5) (x : BitVec 1) (k : KReg)
  /-- R137. -/
  | vand (d a b : Reg) (w : BitVec 2) (y x : BitVec 1) (k : KReg)
  /-- R137. -/
  | vor (d a b : Reg) (w : BitVec 2) (y x : BitVec 1) (k : KReg)
  /-- R137. -/
  | vxor (d a b : Reg) (w : BitVec 2) (y x : BitVec 1) (k : KReg)
  /-- R137. -/
  | vandn (d a b : Reg) (w : BitVec 2) (y x : BitVec 1) (k : KReg)
  /-- R137. -/
  | vorn (d a b : Reg) (w : BitVec 2) (y x : BitVec 1) (k : KReg)
  /-- R138. -/
  | vsll (d a b : Reg) (s : BitVec 1) (w : BitVec 2) (x : BitVec 1) (k : KReg)
  /-- R138. -/
  | vsrl (d a b : Reg) (s : BitVec 1) (w : BitVec 2) (x : BitVec 1) (k : KReg)
  /-- R138. -/
  | vsra (d a b : Reg) (s : BitVec 1) (w : BitVec 2) (x : BitVec 1) (k : KReg)
  /-- R139. -/
  | vsel (d a b : Reg) (w : BitVec 2) (y x : BitVec 1) (k : KReg)
  /-- R140. -/
  | vclamp (d a b : Reg) (f : BitVec 5) (y x : BitVec 1) (k : KReg)
  /-- R141. -/
  | vcvt (d a : Reg) (f : BitVec 5) (x : BitVec 1) (k : KReg) (s : BitVec 5)
  /-- R142. -/
  | vcvtsn (d a b : Reg) (f : BitVec 5) (x : BitVec 1) (k : KReg)
  /-- R143. -/
  | vcvtsw (d a b : Reg) (f : BitVec 5) (y x : BitVec 1) (k : KReg)
  /-- R142. -/
  | vscale (d a : Reg) (f : BitVec 5) (x : BitVec 1) (k : KReg)
  /-- R144. -/
  | vredsum (d a b : Reg) (t : BitVec 3) (y x : BitVec 1) (k : KReg)
  /-- R144. -/
  | vredmax (d a b : Reg) (t : BitVec 3) (y x : BitVec 1) (k : KReg)
  /-- R144. -/
  | vredmin (d a b : Reg) (t : BitVec 3) (y x : BitVec 1) (k : KReg)
  /-- R145. -/
  | vcompress (d a : Reg) (w : BitVec 2) (x : BitVec 1) (k : KReg)
  /-- R145. -/
  | vexpand (d a : Reg) (w : BitVec 2) (x : BitVec 1) (k : KReg)
  /-- R146. -/
  | vconfl (d : KReg) (a : Reg) (f : BitVec 5) (x : BitVec 1) (k : KReg)
  /-- R147. -/
  | vslideup (d a b : Reg) (s : BitVec 1) (w : BitVec 2) (x : BitVec 1) (k : KReg)
  /-- R147. -/
  | vslidedn (d a b : Reg) (s : BitVec 1) (w : BitVec 2) (x : BitVec 1) (k : KReg)
  /-- R148. -/
  | vmv (d a : Reg) (w : BitVec 2) (x : BitVec 1) (k : KReg)
  /-- R148. -/
  | vbcast (d b : Reg) (w : BitVec 2)
  /-- R149. -/
  | vgetx (d a b : Reg) (w : BitVec 2)
  /-- R149. -/
  | vputx (d a b : Reg) (w : BitVec 2)
  /-- R150. -/
  | kand (d a b : KReg)
  /-- R150. -/
  | kor (d a b : KReg)
  /-- R150. -/
  | kxor (d a b : KReg)
  /-- R150. -/
  | kandn (d a b : KReg)
  /-- R150. -/
  | knot (d a : KReg)
  /-- R150. -/
  | kpop (d : Reg) (a : KReg)
  /-- R150. -/
  | kfirst (d : Reg) (a : KReg)
  /-- R151. -/
  | nawait (d a b : Reg)
  /-- R134. -/
  | vidx (d : Reg) (s : BitVec 10) (t : Reg) (f : BitVec 5)
  /-- R133. -/
  | setvl (d a : Reg) (g l : BitVec 2) (f : BitVec 5)
  /-- R131. -/
  | vdef (d a b : Reg)
  /-- R132. -/
  | vdgeta (d a : Reg)
  /-- R132. -/
  | vdgetb (d a : Reg)
  /-- R163. -/
  | mma (a : Reg) (v : BitVec 1) (f : BitVec 5) (o t : Reg)
  /-- R163. -/
  | mmas (a : Reg) (v : BitVec 1) (f : BitVec 5) (o t : Reg)
  /-- R163. -/
  | mmag (a : Reg) (v : BitVec 1) (f : BitVec 5) (o t : Reg)
  /-- R167. -/
  | aczero (o e : Reg)
  /-- R167. -/
  | acrd (d : Reg) (f : BitVec 5) (o : Reg)
  /-- R167. -/
  | acwr (a : Reg) (f : BitVec 5) (o : Reg)
  /-- R159. -/
  | tilerel (a : Reg)
  /-- R158. -/
  | tilewait (d a b : Reg) (c : BitVec 1)
  /-- R189. -/
  | vld (d a : Reg) (i : BitVec 15) (w : BitVec 2)
  /-- R189. -/
  | vst (d a : Reg) (i : BitVec 15) (w : BitVec 2)
  /-- R192. -/
  | vldm (d a : Reg) (w : BitVec 2) (k : KReg)
  /-- R192. -/
  | vlds (d a b : Reg) (w : BitVec 2) (k : KReg)
  /-- R193. -/
  | vldi (d a b : Reg) (w : BitVec 2) (y : BitVec 1) (k : KReg)
  /-- R193. -/
  | vldiw (d a b : Reg) (w : BitVec 2) (y : BitVec 1) (k : KReg)
  /-- R181. -/
  | vldro (d a : Reg) (w : BitVec 2) (k : KReg)
  /-- R192. -/
  | vstm (d a : Reg) (w : BitVec 2) (k : KReg)
  /-- R192. -/
  | vsts (d a b : Reg) (w : BitVec 2) (k : KReg)
  /-- R193. -/
  | vsti (d a b : Reg) (w : BitVec 2) (y : BitVec 1) (k : KReg)
  /-- R193. -/
  | vstiw (d a b : Reg) (w : BitVec 2) (y : BitVec 1) (k : KReg)
  /-- R198. -/
  | sqopen (d a b c : Reg)
  /-- R201. -/
  | sqclose (d a : Reg)
  /-- R200. -/
  | sqpop (d a b : Reg) (t : BitVec 1) (n : Reg)
  /-- R204. -/
  | vldz (d a b : Reg) (f : BitVec 5)
  /-- R206. -/
  | tfetch (d a b c : Reg)
  /-- R208. -/
  | acopy (d a b c : Reg)
  /-- R206. -/
  | tdrain (d a b c : Reg)
  /-- R210. -/
  | bankopSplit (d a b c : Reg)
  /-- R210. -/
  | bankopJoin (d a b c : Reg)
  /-- R210. -/
  | bankopXp8 (d a b c : Reg)
  /-- R210. -/
  | bankopXp16 (d a b c : Reg)
  /-- R210. -/
  | bankopDenc (d a b c : Reg)
  /-- R210. -/
  | bankopDdec (d a b c : Reg)
  /-- R211. -/
  | bankopZsum (d a b c : Reg)
  /-- R214. -/
  | fread (d a b c : Reg)
  /-- R244. -/
  | aadd (d a b : Reg) (w : BitVec 1) (s : BitVec 3) (o : BitVec 2)
  /-- R244. -/
  | aand (d a b : Reg) (w : BitVec 1) (s : BitVec 3) (o : BitVec 2)
  /-- R244. -/
  | aor (d a b : Reg) (w : BitVec 1) (s : BitVec 3) (o : BitVec 2)
  /-- R244. -/
  | axor (d a b : Reg) (w : BitVec 1) (s : BitVec 3) (o : BitVec 2)
  /-- R244. -/
  | amin (d a b : Reg) (w : BitVec 1) (s : BitVec 3) (o : BitVec 2)
  /-- R244. -/
  | amax (d a b : Reg) (w : BitVec 1) (s : BitVec 3) (o : BitVec 2)
  /-- R244. -/
  | aminu (d a b : Reg) (w : BitVec 1) (s : BitVec 3) (o : BitVec 2)
  /-- R244. -/
  | amaxu (d a b : Reg) (w : BitVec 1) (s : BitVec 3) (o : BitVec 2)
  /-- R244. -/
  | aswap (d a b : Reg) (w : BitVec 1) (s : BitVec 3) (o : BitVec 2)
  /-- R245. -/
  | acas (d a b c : Reg) (s : BitVec 3) (o : BitVec 2)
  /-- R248. -/
  | vgl (d a b : Reg) (w y : BitVec 1) (k : KReg)
  /-- R248. -/
  | vglw (d a b : Reg) (w y : BitVec 1) (k : KReg)
  /-- R249. -/
  | vsc (d a b : Reg) (w y : BitVec 1) (k : KReg)
  /-- R249. -/
  | vscw (d a b : Reg) (w y : BitVec 1) (k : KReg)
  /-- R251. -/
  | vscadd (d a b : Reg) (f : BitVec 5) (y : BitVec 1) (k : KReg)
  /-- R254. -/
  | fence (d a b : Reg) (s : BitVec 5)
  /-- R256. -/
  | bar (d a b : Reg) (s : BitVec 5)
  /-- R258. -/
  | waita (d a b : Reg) (s : BitVec 5)
  /-- R259. -/
  | vwaita (d a b : Reg) (s : BitVec 5)
  /-- R253. -/
  | phend (d b : Reg) (s : BitVec 5)
  /-- R280. -/
  | twaitTake (d b : Reg)
  /-- R281. -/
  | twait (d a b : Reg)
  /-- R303. -/
  | mgwait (d a b : Reg)
  /-- R261. -/
  | qsend (d a b : Reg) (s : BitVec 5)
  /-- R261. -/
  | qrecv (d a b : Reg) (s : BitVec 5)
  /-- R221. -/
  | lsync
  /-- R212. -/
  | roinv
  /-- R213. -/
  | cmread (d a : Reg)
  /-- R273. -/
  | tsub (d a b c : Reg)
  /-- R282. -/
  | tchk (d : Reg)
  /-- R283. -/
  | tdone (d : Reg)
  /-- R293. -/
  | mgopen (d a : Reg)
  /-- R302. -/
  | mgclose (d : Reg)
  /-- R302. -/
  | mgdrain (d : Reg)
  /-- R295. -/
  | mgpush (d a b : Reg) (y x : BitVec 1) (k : KReg)
  /-- R369. -/
  | fgather (d a b c : Reg)
  /-- R370. -/
  | freduce (d a b c : Reg)
  /-- R371. -/
  | fflag (d a b c : Reg)
  /-- R372. -/
  | fcoll (d a : Reg)
  /-- R398. -/
  | brk (n : BitVec 10)
  /-- R399. -/
  | trec (a b : Reg)
  /-- R400. -/
  | dget (d a : Reg)
  -- the device's events
  /-- R92. -/
  | illegalWord (w : W32)
  /-- R308: the sequencer of a core issues one queue head. -/
  | entryIssue (core : Nat)
  /-- R311: a lane group of a core starts an element group. -/
  | laneGroupStart (core lane : Nat)
  /-- R307: the oldest entry of a hart's queue completes and retires. -/
  | entryComplete (h : Nat)
  /-- R335: the trap of the oldest entry of a hart's queue is taken. -/
  | trapEntry (h : Nat)
  /-- R333: a pending pre-emption request stops a hart. -/
  | asyncStop (h : Nat)
  /-- R237: a wake makes a waiting hart attempt again. -/
  | waitWake (h : Nat)
  /-- R237: the deadline of a wait passes. -/
  | waitDeadlineExpiry (h : Nat)
  /-- R199: the access side of queue q of a hart completes an entry fetch. -/
  | streamEntryFetched (h q : Nat)
  /-- R207. -/
  | tileFillComplete (id : Nat)
  /-- R155. -/
  | tileFillFault (id : Nat)
  /-- R155. -/
  | tileDrainComplete (id : Nat)
  /-- R207. -/
  | tileDrainFault (id : Nat)
  /-- R209. -/
  | acopyComplete (id : Nat)
  /-- R187: the n-th line of a BANKOP's range. -/
  | bankopLineOperation (id n : Nat)
  /-- R188. -/
  | bankopComplete (id : Nat)
  /-- R214: for a KIND 3 object, the bytes the peer returns, or none where the peer refuses or cannot be reached (REASON). -/
  | freadComplete (id : Nat) (peer : List Byte) (reason : Nat)
  /-- R361: the NVMe command in a staging slot completes with a status. -/
  | nvmeCompletion (slot : StagedSlot) (status : Nat)
  /-- R251: the scatter-add unit of a core performs its oldest addition. -/
  | scatterAddPerform (core : Nat)
  /-- R298. -/
  | mergePassEnd (camp : Nat)
  /-- R291. -/
  | mergeDrainComplete (camp : Nat)
  /-- R178: a core's L2 writes back a line, or evicts it. -/
  | l2WriteBack (core line : Nat) (evict : Bool)
  /-- R179: the memory-side cache writes a line back to far memory. -/
  | mscEviction (line : Nat)
  /-- R233. -/
  | wideMarkExpire (line : Nat)
  /-- R276. -/
  | taskSummaryRetest (camp : Nat)
  /-- R319. -/
  | doorbellWrite (q : Nat) (tail : W32)
  /-- R322. -/
  | startRecordTake (q : Nat)
  /-- R324: the waiting record of a queue is granted on the harts the allocator chose. -/
  | launchGrant (q : Nat) (place : List Nat)
  /-- R324. -/
  | recordAged (q : Nat)
  /-- R325. -/
  | kernelEnd (k : Nat)
  /-- R359. -/
  | cxlMemRead (pa : Nat)
  /-- R359. -/
  | cxlMemWrite (pa : Nat) (data : List Byte)
  /-- R355: the next request of the ring is a MIGRATE. -/
  | migrate
  /-- R355: the copy of the request in progress ends. -/
  | migrateCopyDone
  /-- R356: the next request of the ring is a SHOOT. -/
  | shoot
  /-- R357. -/
  | shootDrained
  /-- R366: a flit of a port fails its CRC and is sent again; whether it is accepted then. -/
  | fabricFlitReplay (port : Nat) (ok : Bool)
  /-- R366. -/
  | fabricLinkDown (port : Nat)
  /-- R367. -/
  | fabricWritePacket (p : Packet)
  /-- R369, R365: a request for elements of a width code, at remote addresses, or at device-memory offsets of the module's peer
  window. -/
  | fabricReadRequest (src domain width : Nat) (window : Bool) (addrs : List Word)
  /-- R371: a flag packet: source, sequence, domain, address, value, and whether it adds. -/
  | fabricFlagApply (src seq domain : Nat) (va value : Word) (isAdd : Bool)
  /-- R369: the elements the targets returned (none where refused), and the reason of a refusal. -/
  | fgatherComplete (id : Nat) (elems : List (Option Word)) (reason : Nat)
  /-- R370: reason 0 for success. -/
  | freduceComplete (id reason : Nat)
  /-- R372. -/
  | fcollComplete (id : Nat)
  /-- R373: chip, and whether the halt was a fabric freeze. -/
  | haltNotice (chip : Nat) (freeze : Bool)
  /-- R373. -/
  | releaseNotice (chip : Nat)
  /-- R377: a DREQ word with OP 1. -/
  | debugHaltRequest (w : Word)
  /-- R378: a DREQ word with OP 2. -/
  | debugReleaseRequest (w : Word)
  /-- R383: a DREQ word with OP 3. -/
  | debugStepRequest (w : Word)
  /-- R378. -/
  | haltArrival (h : Nat)
  /-- R384. -/
  | stepReport (h : Nat)
  /-- R380. -/
  | debugInject (h : Nat) (w : W32)
  /-- R381. -/
  | stopUnitFire (h u : Nat)
  /-- R388. -/
  | triggerTick
  /-- R413: Ridgepole's estimates for the tick, and whether a limit of R414 is threatened. -/
  | ridgepoleGrantTick (power : PowerEstimate) (limit : Bool)
  /-- R411: what the parts tested report, step 1 first; the ports that fail to train, the cores and rows that fail, and the firmware images loaded. -/
  | powerOnStart (trials : List StepTrial) (ports : List Nat) (failed : Failing) (images : List Firmware)
  /-- R417. -/
  | keyctlOpen (slot : Nat)
  /-- R417. -/
  | keyctlClose (slot : Nat)
  /-- R425. -/
  | mergeAssignWrite (camp : Nat) (w : Word)
  /-- R420: bytes written at an offset within the block of queue q. -/
  | hostQueueCtlWrite (q off n : Nat) (v : Word)
  /-- R337. -/
  | preemptRequestPost (h : Nat) (w : Word)
  /-- R344: record number i of a hart: 0 to 15 copies, 16 and 17 streams, 18 the task. -/
  | engineRecordDiscard (h i : Nat)
  /-- R349: a store to SATP (field 0) or CTX (field 1) of a hart's translation record. -/
  | satpWrite (h field : Nat) (v : Word)
  /-- R393: a write of DGCTL of a context. -/
  | badgerEnable (ctx : Nat) (v : Word)
  /-- R19: n bytes written at an offset of the management block. -/
  | registerWrite (off n : Nat) (v : Word)
  /-- R233: a host atomic over CXL. -/
  | hostAtomic (pa : Nat) (op : AtomicOp) (n : Nat) (operand : Word)
  /-- R367: a write packet is acknowledged (reason 0), refused at its target (1, 2), or abandoned for want of a route (9). -/
  | fabricAcknowledgement (chip seq reason : Nat)
  /-- R416: the requester's nonce. -/
  | attestationReportRequest (nonce : List Byte)
  /-- R410. -/
  | powerLoss
  /-- R310: the data of the next group of a hart's issued load arrives. -/
  | loadDataArrival (h : Nat)
  deriving DecidableEq, Repr

end Sys2Proof
end

