-- ==== Sys2Proof/WellFormed.lean ====
section
/-! DEFINITION. Which terms of the syntax are steps of the device: for an instruction, the codes R82 and the opcode tables allow
(R92); for an event, units that exist (R1). -/
namespace Sys2Proof

/-- A rounding selection of R82: 0 to 4. -/
def okRound (r : BitVec 5) : Bool := decide (r.toNat ≤ 4)

/-- The source format of an FCVT from another float: 8 to 10 and not the opcode's own format (R84). -/
def okSource (own s : Nat) : Bool := decide (8 ≤ s) && decide (s ≤ 10) && s != own

/-- A format code of vector arithmetic: 0 to 10 (R87). -/
def okArith (f : BitVec 5) : Bool := decide (f.toNat ≤ 10)

/-- A format code that R27 does not reserve. -/
def okFormat (f : BitVec 5) : Bool := decide (f.toNat ≤ 14) || decide (16 ≤ f.toNat) && decide (f.toNat ≤ 22)

/-- Whether a term is a step of the device. -/
def Instr.wf : Instr → Bool
  | .add d a b => d ≠ 0 || a ≠ 0 || b ≠ 0
  | .sub _ _ _ => true
  | .and _ _ _ => true
  | .or _ _ _ => true
  | .xor _ _ _ => true
  | .sll _ _ _ => true
  | .srl _ _ _ => true
  | .sra _ _ _ => true
  | .slt _ _ _ => true
  | .sltu _ _ _ => true
  | .min _ _ _ => true
  | .max _ _ _ => true
  | .minu _ _ _ => true
  | .maxu _ _ _ => true
  | .mul _ _ _ => true
  | .mulh _ _ _ => true
  | .mulhu _ _ _ => true
  | .div _ _ _ => true
  | .divu _ _ _ => true
  | .rem _ _ _ => true
  | .remu _ _ _ => true
  | .clz _ _ => true
  | .ctz _ _ => true
  | .cpop _ _ => true
  | .sel _ _ _ _ => true
  | .addi _ _ _ => true
  | .andi _ _ _ => true
  | .ori _ _ _ => true
  | .xori _ _ _ => true
  | .slti _ _ _ => true
  | .sltiu _ _ _ => true
  | .slli _ _ _ => true
  | .srli _ _ _ => true
  | .srai _ _ _ => true
  | .lui _ _ => true
  | .auipc _ _ => true
  | .faddF32 _ _ _ r => okRound r
  | .fsubF32 _ _ _ r => okRound r
  | .fmulF32 _ _ _ r => okRound r
  | .fdivF32 _ _ _ r => okRound r
  | .fsqrtF32 _ _ r => okRound r
  | .fminF32 _ _ _ => true
  | .fmaxF32 _ _ _ => true
  | .feqF32 _ _ _ => true
  | .fltF32 _ _ _ => true
  | .fleF32 _ _ _ => true
  | .fcvtToI64F32 _ _ r => okRound r
  | .fcvtToN64F32 _ _ r => okRound r
  | .fcvtFromI64F32 _ _ r => okRound r
  | .fcvtFromN64F32 _ _ r => okRound r
  | .fcvtFromFloatF32 _ _ r s => okRound r && okSource 8 s.toNat
  | .faddF16 _ _ _ r => okRound r
  | .fsubF16 _ _ _ r => okRound r
  | .fmulF16 _ _ _ r => okRound r
  | .fdivF16 _ _ _ r => okRound r
  | .fsqrtF16 _ _ r => okRound r
  | .fminF16 _ _ _ => true
  | .fmaxF16 _ _ _ => true
  | .feqF16 _ _ _ => true
  | .fltF16 _ _ _ => true
  | .fleF16 _ _ _ => true
  | .fcvtToI64F16 _ _ r => okRound r
  | .fcvtToN64F16 _ _ r => okRound r
  | .fcvtFromI64F16 _ _ r => okRound r
  | .fcvtFromN64F16 _ _ r => okRound r
  | .fcvtFromFloatF16 _ _ r s => okRound r && okSource 9 s.toNat
  | .faddBf16 _ _ _ r => okRound r
  | .fsubBf16 _ _ _ r => okRound r
  | .fmulBf16 _ _ _ r => okRound r
  | .fdivBf16 _ _ _ r => okRound r
  | .fsqrtBf16 _ _ r => okRound r
  | .fminBf16 _ _ _ => true
  | .fmaxBf16 _ _ _ => true
  | .feqBf16 _ _ _ => true
  | .fltBf16 _ _ _ => true
  | .fleBf16 _ _ _ => true
  | .fcvtToI64Bf16 _ _ r => okRound r
  | .fcvtToN64Bf16 _ _ r => okRound r
  | .fcvtFromI64Bf16 _ _ r => okRound r
  | .fcvtFromN64Bf16 _ _ r => okRound r
  | .fcvtFromFloatBf16 _ _ r s => okRound r && okSource 10 s.toNat
  | .fmadd _ _ _ _ f r => decide (f.toNat ≤ 2) && decide (r.toNat ≤ 4)
  | .lb _ _ _ => true
  | .lh _ _ _ => true
  | .lw _ _ _ => true
  | .ld _ _ _ => true
  | .lbu _ _ _ => true
  | .lhu _ _ _ => true
  | .sb _ _ _ => true
  | .sh _ _ _ => true
  | .sw _ _ _ => true
  | .sd _ _ _ => true
  | .beq _ _ _ => true
  | .bne _ _ _ => true
  | .blt _ _ _ => true
  | .bge _ _ _ => true
  | .jal _ _ => true
  | .jalr _ _ _ => true
  | .crr _ _ => true
  | .crw _ _ _ => true
  | .crs _ _ _ => true
  | .crc _ _ _ => true
  | .exit => true
  | .scall _ => true
  | .tret => true
  | .icinv _ _ => true
  | .yieldP => true
  | .xlinv _ _ => true
  | .loop _ b o => decide (b.toNat ≤ 5) && decide (1 ≤ o.toNat) && decide (o.toNat ≤ 16383)
  | .vaddVv _ _ _ f _ _ _ => okArith f
  | .vaddVx _ _ _ f _ _ => okArith f
  | .vsubVv _ _ _ f _ _ _ => okArith f
  | .vsubVx _ _ _ f _ _ => okArith f
  | .vmulVv _ _ _ f _ _ _ => okArith f
  | .vmulVx _ _ _ f _ _ => okArith f
  | .vfmaVv _ _ _ f _ _ _ => okArith f
  | .vfmaVx _ _ _ f _ _ => okArith f
  | .vmin _ _ _ f _ _ _ => okArith f
  | .vmax _ _ _ f _ _ _ => okArith f
  | .vdiv _ _ _ f _ _ _ => [8, 9, 10].contains f.toNat
  | .vsqrt _ _ f _ _ => [8, 9, 10].contains f.toNat
  | .vcmpeqVv _ _ _ f _ _ _ => okArith f
  | .vcmpneVv _ _ _ f _ _ _ => okArith f
  | .vcmpltVv _ _ _ f _ _ _ => okArith f
  | .vcmpleVv _ _ _ f _ _ _ => okArith f
  | .vcmpeqVx _ _ _ f _ _ => okArith f
  | .vcmpneVx _ _ _ f _ _ => okArith f
  | .vcmpltVx _ _ _ f _ _ => okArith f
  | .vcmpleVx _ _ _ f _ _ => okArith f
  | .vand _ _ _ _ _ _ _ => true
  | .vor _ _ _ _ _ _ _ => true
  | .vxor _ _ _ _ _ _ _ => true
  | .vandn _ _ _ _ _ _ _ => true
  | .vorn _ _ _ _ _ _ _ => true
  | .vsll _ _ _ _ _ _ _ => true
  | .vsrl _ _ _ _ _ _ _ => true
  | .vsra _ _ _ _ _ _ _ => true
  | .vsel _ _ _ _ _ _ k => k ≠ 0
  | .vclamp _ _ _ f _ _ _ => okArith f
  | .vcvt _ _ f _ _ s => decide (f.toNat ≤ 13) && decide (s.toNat ≤ 13) && f ≠ s
  | .vcvtsn _ _ _ f _ _ => decide (f.toNat ≤ 8)
  | .vcvtsw _ _ _ f _ _ _ => decide (f.toNat ≤ 8)
  | .vscale _ _ f _ _ => decide (f.toNat ≤ 8)
  | .vredsum _ _ _ t _ _ _ => decide (t.toNat ≤ 6)
  | .vredmax _ _ _ t _ _ _ => decide (t.toNat ≤ 6)
  | .vredmin _ _ _ t _ _ _ => decide (t.toNat ≤ 6)
  | .vcompress _ _ _ _ _ => true
  | .vexpand _ _ _ _ _ => true
  | .vconfl _ _ f _ _ => [2, 3, 6, 7].contains f.toNat
  | .vslideup _ _ _ _ _ _ _ => true
  | .vslidedn _ _ _ _ _ _ _ => true
  | .vmv _ _ _ _ _ => true
  | .vbcast _ _ _ => true
  | .vgetx _ _ _ _ => true
  | .vputx _ _ _ _ => true
  | .kand _ _ _ => true
  | .kor _ _ _ => true
  | .kxor _ _ _ => true
  | .kandn _ _ _ => true
  | .knot _ _ => true
  | .kpop _ _ => true
  | .kfirst _ _ => true
  | .nawait _ _ _ => true
  | .vidx _ _ _ f => decide (f.toNat ≤ 7)
  | .setvl _ _ _ _ f => okFormat f
  | .vdef _ _ _ => true
  | .vdgeta _ _ => true
  | .vdgetb _ _ => true
  | .mma _ _ f _ _ => [0, 9, 10, 11, 12, 16, 17, 18, 19, 20, 21, 22].contains f.toNat
  | .mmas a _ f _ _ => [11, 12, 13].contains f.toNat && decide (a.toNat ≤ 29)
  | .mmag a _ f _ _ => [0, 9, 10, 11, 12].contains f.toNat && decide (a.toNat ≤ 30)
  | .aczero _ _ => true
  | .acrd _ f _ => [2, 8, 9, 10].contains f.toNat
  | .acwr _ f _ => [2, 8, 9, 10].contains f.toNat
  | .tilerel _ => true
  | .tilewait _ _ _ _ => true
  | .vld _ _ _ _ => true
  | .vst _ _ _ _ => true
  | .vldm _ _ _ _ => true
  | .vlds _ _ _ _ _ => true
  | .vldi _ _ _ _ _ _ => true
  | .vldiw _ _ _ _ _ _ => true
  | .vldro _ _ _ _ => true
  | .vstm _ _ _ _ => true
  | .vsts _ _ _ _ _ => true
  | .vsti _ _ _ _ _ _ => true
  | .vstiw _ _ _ _ _ _ => true
  | .sqopen _ _ _ _ => true
  | .sqclose _ _ => true
  | .sqpop _ _ _ _ _ => true
  | .vldz _ _ _ f => decide (f.toNat ≤ 7)
  | .tfetch _ _ _ _ => true
  | .acopy _ _ _ _ => true
  | .tdrain _ _ _ _ => true
  | .bankopSplit _ _ _ _ => true
  | .bankopJoin _ _ _ _ => true
  | .bankopXp8 _ _ _ _ => true
  | .bankopXp16 _ _ _ _ => true
  | .bankopDenc _ _ _ _ => true
  | .bankopDdec _ _ _ _ => true
  | .bankopZsum _ _ _ _ => true
  | .fread _ _ _ _ => true
  | .aadd _ _ _ _ s _ => decide (s.toNat ≤ 6)
  | .aand _ _ _ _ s _ => decide (s.toNat ≤ 6)
  | .aor _ _ _ _ s _ => decide (s.toNat ≤ 6)
  | .axor _ _ _ _ s _ => decide (s.toNat ≤ 6)
  | .amin _ _ _ _ s _ => decide (s.toNat ≤ 6)
  | .amax _ _ _ _ s _ => decide (s.toNat ≤ 6)
  | .aminu _ _ _ _ s _ => decide (s.toNat ≤ 6)
  | .amaxu _ _ _ _ s _ => decide (s.toNat ≤ 6)
  | .aswap _ _ _ _ s _ => decide (s.toNat ≤ 6)
  | .acas _ _ _ _ s _ => decide (s.toNat ≤ 6)
  | .vgl _ _ _ _ _ _ => true
  | .vglw _ _ _ _ _ _ => true
  | .vsc _ _ _ _ _ k => k ≠ 0
  | .vscw _ _ _ _ _ k => k ≠ 0
  | .vscadd _ _ _ f _ _ => [2, 3, 6, 7, 8].contains f.toNat
  | .fence _ _ _ s => decide (s.toNat ≤ 6)
  | .bar _ _ _ s => decide (1 ≤ s.toNat) && decide (s.toNat ≤ 6)
  | .waita _ _ _ s => decide (s.toNat ≤ 6)
  | .vwaita _ _ _ s => decide (s.toNat ≤ 6)
  | .phend _ _ s => decide (s.toNat ≤ 6)
  | .twaitTake _ _ => true
  | .twait _ a _ => a ≠ 0
  | .mgwait _ a _ => a ≠ 0
  | .qsend d _ _ s => decide (s.toNat ≤ 6) && decide (d.toNat % 2 = 0)
  | .qrecv d _ _ s => decide (s.toNat ≤ 6) && decide (d.toNat % 2 = 0)
  | .lsync => true
  | .roinv => true
  | .cmread _ _ => true
  | .tsub _ _ _ _ => true
  | .tchk _ => true
  | .tdone _ => true
  | .mgopen _ _ => true
  | .mgclose _ => true
  | .mgdrain _ => true
  | .mgpush _ _ _ _ _ k => k ≠ 0
  | .fgather _ _ _ _ => true
  | .freduce _ _ _ _ => true
  | .fflag _ _ _ _ => true
  | .fcoll _ _ => true
  | .brk _ => true
  | .trec _ _ => true
  | .dget _ _ => true
  | .illegalWord _ => true
  | .entryIssue core => decide (core < 640)
  | .laneGroupStart core lane => decide (core < 640) && decide (lane < 4)
  | .entryComplete h => decide (h < Config.numHarts)
  | .trapEntry h => decide (h < Config.numHarts)
  | .asyncStop h => decide (h < Config.numHarts)
  | .waitWake h => decide (h < Config.numHarts)
  | .waitDeadlineExpiry h => decide (h < Config.numHarts)
  | .streamEntryFetched h q => decide (h < Config.numHarts) && decide (q < 2)
  | .tileFillComplete _ => true
  | .tileFillFault _ => true
  | .tileDrainComplete _ => true
  | .tileDrainFault _ => true
  | .acopyComplete _ => true
  | .bankopLineOperation _ _ => true
  | .bankopComplete _ => true
  | .freadComplete _ _ _ => true
  | .nvmeCompletion slot _ => decide (slot.index < 64)
  | .scatterAddPerform core => decide (core < 640)
  | .mergePassEnd camp => decide (camp < Config.numCamps)
  | .mergeDrainComplete camp => decide (camp < Config.numCamps)
  | .l2WriteBack core _ _ => decide (core < 640)
  | .mscEviction _ => true
  | .wideMarkExpire _ => true
  | .taskSummaryRetest camp => decide (camp < Config.numCamps)
  | .doorbellWrite q _ => decide (q < 64)
  | .startRecordTake q => decide (q < 64)
  | .launchGrant q _ => decide (q < 64)
  | .recordAged q => decide (q < 64)
  | .kernelEnd _ => true
  | .cxlMemRead _ => true
  | .cxlMemWrite _ data => decide (data.length = 64)
  | .migrate => true
  | .migrateCopyDone => true
  | .shoot => true
  | .shootDrained => true
  | .fabricFlitReplay port _ => decide (port < 16)
  | .fabricLinkDown port => decide (port < 16)
  | .fabricWritePacket _ => true
  | .fabricReadRequest _ _ width _ _ => decide (width < 4)
  | .fabricFlagApply _ _ _ _ _ _ => true
  | .fgatherComplete _ _ _ => true
  | .freduceComplete _ _ => true
  | .fcollComplete _ => true
  | .haltNotice _ _ => true
  | .releaseNotice _ => true
  | .debugHaltRequest _ => true
  | .debugReleaseRequest _ => true
  | .debugStepRequest _ => true
  | .haltArrival h => decide (h < Config.numHarts)
  | .stepReport h => decide (h < Config.numHarts)
  | .debugInject h _ => decide (h < Config.numHarts)
  | .stopUnitFire h u => decide (h < Config.numHarts) && decide (u < 4)
  | .triggerTick => true
  | .ridgepoleGrantTick power _ => decide (power.powers.length = Config.numCamps)
  | .powerOnStart trials _ _ _ => decide (trials.length = 11)
  | .keyctlOpen slot => decide (slot < 4096)
  | .keyctlClose slot => decide (slot < 4096)
  | .mergeAssignWrite camp _ => decide (camp < Config.numCamps)
  | .hostQueueCtlWrite q _ _ _ => decide (q < 64)
  | .preemptRequestPost h _ => decide (h < Config.numHarts)
  | .engineRecordDiscard h i => decide (h < Config.numHarts) && decide (i < 19)
  | .satpWrite h field _ => decide (h < Config.numHarts) && decide (field < 2)
  | .badgerEnable _ _ => true
  | .registerWrite _ _ _ => true
  | .hostAtomic _ _ _ _ => true
  | .fabricAcknowledgement _ _ _ => true
  | .attestationReportRequest _ => true
  | .powerLoss => true
  | .loadDataArrival h => decide (h < Config.numHarts)

end Sys2Proof
end

