-- ==== Sys2Proof/Decode.lean ====
section
/-! DEFINITION. The decoder and the encoder of R79 to R92, and the byte order of a word in memory. -/
namespace Sys2Proof

/-- Why a word is no instruction (R92), or why no word could be read. -/
inductive Reject where
  /-- Fewer than four bytes. -/
  | short
  /-- The word 0x0000_0000. -/
  | zeroWord
  /-- A major opcode that R83 leaves unassigned, or 0x7F. -/
  | unassigned
  /-- A value of fn, or of a sub-field, that the opcode's table does not list. -/
  | unlisted
  /-- A field that must be zero is not. -/
  | nonzero
  /-- A code outside its list. -/
  | badCode
  deriving DecidableEq, Repr

/-- The six columns of R80 as numbers: bits 31:27, 26:22, 21:17, 16:12, 11:7 and 6:0. -/
structure Slots where
  fn : Nat
  c : Nat
  b : Nat
  a : Nat
  d : Nat
  op : Nat
  deriving DecidableEq, Repr

/-- The columns of a word. -/
def unpack (w : W32) : Slots :=
  ⟨w.toNat / 134217728 % 32, w.toNat / 4194304 % 32, w.toNat / 131072 % 32, w.toNat / 4096 % 32, w.toNat / 128 % 32,
    w.toNat % 128⟩

/-- The word with these columns. -/
def pack (fn c b a d op : Nat) : W32 :=
  .ofNat 32 (fn * 134217728 + c * 4194304 + b * 131072 + a * 4096 + d * 128 + op)

/-- A word with a 15-bit immediate or offset in bits 31:17. -/
def packI (i : BitVec 15) (a d op : Nat) : W32 := pack (i.toNat / 1024) (i.toNat / 32 % 32) (i.toNat % 32) a d op

/-- A word with a 20-bit immediate or offset in bits 31:12. -/
def packU (i : BitVec 20) (d op : Nat) : W32 :=
  pack (i.toNat / 32768) (i.toNat / 1024 % 32) (i.toNat / 32 % 32) (i.toNat % 32) d op

namespace Slots
/-- Bits 11:7. -/
def rd (s : Slots) : BitVec 5 := .ofNat _ s.d
/-- Bits 16:12. -/
def ra (s : Slots) : BitVec 5 := .ofNat _ s.a
/-- Bits 21:17. -/
def rb (s : Slots) : BitVec 5 := .ofNat _ s.b
/-- Bits 26:22. -/
def rc (s : Slots) : BitVec 5 := .ofNat _ s.c
/-- Bits 31:27. -/
def rf (s : Slots) : BitVec 5 := .ofNat _ s.fn
/-- imm15 or off15. -/
def i15 (s : Slots) : BitVec 15 := .ofNat _ (s.fn * 1024 + s.c * 32 + s.b)
/-- imm15[11:0]. -/
def i12 (s : Slots) : BitVec 12 := .ofNat _ (s.fn % 4 * 1024 + s.c * 32 + s.b)
/-- imm20 or off20. -/
def i20 (s : Slots) : BitVec 20 := .ofNat _ (s.fn * 32768 + s.c * 1024 + s.b * 32 + s.a)
/-- Bit 26 of format V. -/
def eb (s : Slots) : BitVec 1 := .ofNat _ (s.c / 16)
/-- Bit 25 of format V. -/
def ea (s : Slots) : BitVec 1 := .ofNat _ (s.c / 8 % 2)
/-- Bits 24:22 of format V. -/
def k (s : Slots) : BitVec 3 := .ofNat _ (s.c % 8)
end Slots

/-- An instruction whose fields marked zero must be zero. -/
def allZero (l : List Nat) (i : Instr) : Except Reject Instr := if l.all (· == 0) then .ok i else .error .nonzero

/-- The opcode map of R84 to R91. VMV (0x4A, fn[31:29] = 0) reads no vb: R87, R88 and R148 do not say what a nonzero vb or eb there does, and
the model takes such a word as ILLEGAL, as the rows beside it are (DESIGN CHOICE, log 81). So it does a nonzero eb in the imm5 forms of the shifts (0x3F)
and the slides (0x49), of which R88 says nothing (DESIGN CHOICE, log 81). -/
def decodeSlots (s : Slots) : Except Reject Instr :=
  match s.op with
  | 0x00 => match s.fn with
    | 0 => allZero [s.c] (.add s.rd s.ra s.rb)
    | 1 => allZero [s.c] (.sub s.rd s.ra s.rb)
    | 2 => allZero [s.c] (.and s.rd s.ra s.rb)
    | 3 => allZero [s.c] (.or s.rd s.ra s.rb)
    | 4 => allZero [s.c] (.xor s.rd s.ra s.rb)
    | 5 => allZero [s.c] (.sll s.rd s.ra s.rb)
    | 6 => allZero [s.c] (.srl s.rd s.ra s.rb)
    | 7 => allZero [s.c] (.sra s.rd s.ra s.rb)
    | 8 => allZero [s.c] (.slt s.rd s.ra s.rb)
    | 9 => allZero [s.c] (.sltu s.rd s.ra s.rb)
    | 10 => allZero [s.c] (.min s.rd s.ra s.rb)
    | 11 => allZero [s.c] (.max s.rd s.ra s.rb)
    | 12 => allZero [s.c] (.minu s.rd s.ra s.rb)
    | 13 => allZero [s.c] (.maxu s.rd s.ra s.rb)
    | 14 => allZero [s.c] (.mul s.rd s.ra s.rb)
    | 15 => allZero [s.c] (.mulh s.rd s.ra s.rb)
    | 16 => allZero [s.c] (.mulhu s.rd s.ra s.rb)
    | 17 => allZero [s.c] (.div s.rd s.ra s.rb)
    | 18 => allZero [s.c] (.divu s.rd s.ra s.rb)
    | 19 => allZero [s.c] (.rem s.rd s.ra s.rb)
    | 20 => allZero [s.c] (.remu s.rd s.ra s.rb)
    | 21 => allZero [s.b, s.c] (.clz s.rd s.ra)
    | 22 => allZero [s.b, s.c] (.ctz s.rd s.ra)
    | 23 => allZero [s.b, s.c] (.cpop s.rd s.ra)
    | 24 => .ok (.sel s.rd s.ra s.rb s.rc)
    | _ => .error .unlisted
  | 0x01 => .ok (.addi s.rd s.ra s.i15)
  | 0x02 => .ok (.andi s.rd s.ra s.i15)
  | 0x03 => .ok (.ori s.rd s.ra s.i15)
  | 0x04 => .ok (.xori s.rd s.ra s.i15)
  | 0x05 => .ok (.slti s.rd s.ra s.i15)
  | 0x06 => .ok (.sltiu s.rd s.ra s.i15)
  | 0x07 =>
    if s.c / 2 = 0 then allZero [s.fn] (.slli s.rd s.ra (.ofNat _ ((s.c % 2) * 32 + s.b)))
    else if s.c / 2 = 1 then allZero [s.fn] (.srli s.rd s.ra (.ofNat _ ((s.c % 2) * 32 + s.b)))
    else if s.c / 2 = 2 then allZero [s.fn] (.srai s.rd s.ra (.ofNat _ ((s.c % 2) * 32 + s.b)))
    else .error .unlisted
  | 0x08 => .ok (.lui s.rd s.i20)
  | 0x09 => .ok (.auipc s.rd s.i20)
  | 0x0A => match s.fn with
    | 0 => .ok (.faddF32 s.rd s.ra s.rb s.rc)
    | 1 => .ok (.fsubF32 s.rd s.ra s.rb s.rc)
    | 2 => .ok (.fmulF32 s.rd s.ra s.rb s.rc)
    | 3 => .ok (.fdivF32 s.rd s.ra s.rb s.rc)
    | 4 => allZero [s.b] (.fsqrtF32 s.rd s.ra s.rc)
    | 5 => allZero [s.c] (.fminF32 s.rd s.ra s.rb)
    | 6 => allZero [s.c] (.fmaxF32 s.rd s.ra s.rb)
    | 7 => allZero [s.c] (.feqF32 s.rd s.ra s.rb)
    | 8 => allZero [s.c] (.fltF32 s.rd s.ra s.rb)
    | 9 => allZero [s.c] (.fleF32 s.rd s.ra s.rb)
    | 10 => allZero [s.b] (.fcvtToI64F32 s.rd s.ra s.rc)
    | 11 => allZero [s.b] (.fcvtToN64F32 s.rd s.ra s.rc)
    | 12 => allZero [s.b] (.fcvtFromI64F32 s.rd s.ra s.rc)
    | 13 => allZero [s.b] (.fcvtFromN64F32 s.rd s.ra s.rc)
    | 14 => .ok (.fcvtFromFloatF32 s.rd s.ra s.rc s.rb)
    | _ => .error .unlisted
  | 0x0B => match s.fn with
    | 0 => .ok (.faddF16 s.rd s.ra s.rb s.rc)
    | 1 => .ok (.fsubF16 s.rd s.ra s.rb s.rc)
    | 2 => .ok (.fmulF16 s.rd s.ra s.rb s.rc)
    | 3 => .ok (.fdivF16 s.rd s.ra s.rb s.rc)
    | 4 => allZero [s.b] (.fsqrtF16 s.rd s.ra s.rc)
    | 5 => allZero [s.c] (.fminF16 s.rd s.ra s.rb)
    | 6 => allZero [s.c] (.fmaxF16 s.rd s.ra s.rb)
    | 7 => allZero [s.c] (.feqF16 s.rd s.ra s.rb)
    | 8 => allZero [s.c] (.fltF16 s.rd s.ra s.rb)
    | 9 => allZero [s.c] (.fleF16 s.rd s.ra s.rb)
    | 10 => allZero [s.b] (.fcvtToI64F16 s.rd s.ra s.rc)
    | 11 => allZero [s.b] (.fcvtToN64F16 s.rd s.ra s.rc)
    | 12 => allZero [s.b] (.fcvtFromI64F16 s.rd s.ra s.rc)
    | 13 => allZero [s.b] (.fcvtFromN64F16 s.rd s.ra s.rc)
    | 14 => .ok (.fcvtFromFloatF16 s.rd s.ra s.rc s.rb)
    | _ => .error .unlisted
  | 0x0C => match s.fn with
    | 0 => .ok (.faddBf16 s.rd s.ra s.rb s.rc)
    | 1 => .ok (.fsubBf16 s.rd s.ra s.rb s.rc)
    | 2 => .ok (.fmulBf16 s.rd s.ra s.rb s.rc)
    | 3 => .ok (.fdivBf16 s.rd s.ra s.rb s.rc)
    | 4 => allZero [s.b] (.fsqrtBf16 s.rd s.ra s.rc)
    | 5 => allZero [s.c] (.fminBf16 s.rd s.ra s.rb)
    | 6 => allZero [s.c] (.fmaxBf16 s.rd s.ra s.rb)
    | 7 => allZero [s.c] (.feqBf16 s.rd s.ra s.rb)
    | 8 => allZero [s.c] (.fltBf16 s.rd s.ra s.rb)
    | 9 => allZero [s.c] (.fleBf16 s.rd s.ra s.rb)
    | 10 => allZero [s.b] (.fcvtToI64Bf16 s.rd s.ra s.rc)
    | 11 => allZero [s.b] (.fcvtToN64Bf16 s.rd s.ra s.rc)
    | 12 => allZero [s.b] (.fcvtFromI64Bf16 s.rd s.ra s.rc)
    | 13 => allZero [s.b] (.fcvtFromN64Bf16 s.rd s.ra s.rc)
    | 14 => .ok (.fcvtFromFloatBf16 s.rd s.ra s.rc s.rb)
    | _ => .error .unlisted
  | 0x0D => .ok (.fmadd s.rd s.ra s.rb s.rc (.ofNat _ (s.fn / 8)) (.ofNat _ (s.fn % 8)))
  | 0x10 => .ok (.lb s.rd s.ra s.i15)
  | 0x11 => .ok (.lh s.rd s.ra s.i15)
  | 0x12 => .ok (.lw s.rd s.ra s.i15)
  | 0x13 => .ok (.ld s.rd s.ra s.i15)
  | 0x14 => .ok (.lbu s.rd s.ra s.i15)
  | 0x15 => .ok (.lhu s.rd s.ra s.i15)
  | 0x16 => .ok (.sb s.rd s.ra s.i15)
  | 0x17 => .ok (.sh s.rd s.ra s.i15)
  | 0x18 => .ok (.sw s.rd s.ra s.i15)
  | 0x19 => .ok (.sd s.rd s.ra s.i15)
  | 0x1A => .ok (.beq s.rd s.ra s.i15)
  | 0x1B => .ok (.bne s.rd s.ra s.i15)
  | 0x1C => .ok (.blt s.rd s.ra s.i15)
  | 0x1D => .ok (.bge s.rd s.ra s.i15)
  | 0x1E => .ok (.jal s.rd s.i20)
  | 0x1F => .ok (.jalr s.rd s.ra s.i15)
  | 0x20 =>
    if s.fn / 4 = 0 then allZero [s.a] (.crr s.rd s.i12)
    else if s.fn / 4 = 1 then .ok (.crw s.rd s.ra s.i12)
    else if s.fn / 4 = 2 then .ok (.crs s.rd s.ra s.i12)
    else if s.fn / 4 = 3 then .ok (.crc s.rd s.ra s.i12)
    else .error .unlisted
  | 0x21 => match s.fn with
    | 0 => allZero [s.d, s.a, s.b, s.c] .exit
    | 1 => allZero [s.d, s.b, s.c] (.scall s.ra)
    | 2 => allZero [s.d, s.a, s.b, s.c] .tret
    | 3 => allZero [s.d, s.c] (.icinv s.ra s.rb)
    | 4 => allZero [s.d, s.a, s.b, s.c] .yieldP
    | 5 => allZero [s.d, s.c] (.xlinv s.ra s.rb)
    | _ => .error .unlisted
  | 0x22 => .ok (.loop s.rd s.ra s.i15)
  | 0x30 => .ok (.vaddVv s.rd s.ra s.rb s.rf s.eb s.ea s.k)
  | 0x31 => allZero [s.c / 16] (.vaddVx s.rd s.ra s.rb s.rf s.ea s.k)
  | 0x32 => .ok (.vsubVv s.rd s.ra s.rb s.rf s.eb s.ea s.k)
  | 0x33 => allZero [s.c / 16] (.vsubVx s.rd s.ra s.rb s.rf s.ea s.k)
  | 0x34 => .ok (.vmulVv s.rd s.ra s.rb s.rf s.eb s.ea s.k)
  | 0x35 => allZero [s.c / 16] (.vmulVx s.rd s.ra s.rb s.rf s.ea s.k)
  | 0x36 => .ok (.vfmaVv s.rd s.ra s.rb s.rf s.eb s.ea s.k)
  | 0x37 => allZero [s.c / 16] (.vfmaVx s.rd s.ra s.rb s.rf s.ea s.k)
  | 0x38 => .ok (.vmin s.rd s.ra s.rb s.rf s.eb s.ea s.k)
  | 0x39 => .ok (.vmax s.rd s.ra s.rb s.rf s.eb s.ea s.k)
  | 0x3A => .ok (.vdiv s.rd s.ra s.rb s.rf s.eb s.ea s.k)
  | 0x3B => allZero [s.b, s.c / 16] (.vsqrt s.rd s.ra s.rf s.ea s.k)
  | 0x3C =>
    if s.d / 8 = 0 then .ok (.vcmpeqVv (.ofNat _ (s.d % 8)) s.ra s.rb s.rf s.eb s.ea s.k)
    else if s.d / 8 = 1 then .ok (.vcmpneVv (.ofNat _ (s.d % 8)) s.ra s.rb s.rf s.eb s.ea s.k)
    else if s.d / 8 = 2 then .ok (.vcmpltVv (.ofNat _ (s.d % 8)) s.ra s.rb s.rf s.eb s.ea s.k)
    else if s.d / 8 = 3 then .ok (.vcmpleVv (.ofNat _ (s.d % 8)) s.ra s.rb s.rf s.eb s.ea s.k)
    else .error .unlisted
  | 0x3D =>
    if s.d / 8 = 0 then allZero [s.c / 16] (.vcmpeqVx (.ofNat _ (s.d % 8)) s.ra s.rb s.rf s.ea s.k)
    else if s.d / 8 = 1 then allZero [s.c / 16] (.vcmpneVx (.ofNat _ (s.d % 8)) s.ra s.rb s.rf s.ea s.k)
    else if s.d / 8 = 2 then allZero [s.c / 16] (.vcmpltVx (.ofNat _ (s.d % 8)) s.ra s.rb s.rf s.ea s.k)
    else if s.d / 8 = 3 then allZero [s.c / 16] (.vcmpleVx (.ofNat _ (s.d % 8)) s.ra s.rb s.rf s.ea s.k)
    else .error .unlisted
  | 0x3E =>
    if s.fn / 4 = 0 then .ok (.vand s.rd s.ra s.rb (.ofNat _ (s.fn % 4)) s.eb s.ea s.k)
    else if s.fn / 4 = 1 then .ok (.vor s.rd s.ra s.rb (.ofNat _ (s.fn % 4)) s.eb s.ea s.k)
    else if s.fn / 4 = 2 then .ok (.vxor s.rd s.ra s.rb (.ofNat _ (s.fn % 4)) s.eb s.ea s.k)
    else if s.fn / 4 = 3 then .ok (.vandn s.rd s.ra s.rb (.ofNat _ (s.fn % 4)) s.eb s.ea s.k)
    else if s.fn / 4 = 4 then .ok (.vorn s.rd s.ra s.rb (.ofNat _ (s.fn % 4)) s.eb s.ea s.k)
    else .error .unlisted
  | 0x3F =>
    if s.fn / 8 = 0 then allZero [s.c / 16] (.vsll s.rd s.ra s.rb (.ofNat _ (s.fn / 4 % 2)) (.ofNat _ (s.fn % 4)) s.ea s.k)
    else if s.fn / 8 = 1 then allZero [s.c / 16] (.vsrl s.rd s.ra s.rb (.ofNat _ (s.fn / 4 % 2)) (.ofNat _ (s.fn % 4)) s.ea s.k)
    else if s.fn / 8 = 2 then allZero [s.c / 16] (.vsra s.rd s.ra s.rb (.ofNat _ (s.fn / 4 % 2)) (.ofNat _ (s.fn % 4)) s.ea s.k)
    else .error .unlisted
  | 0x40 => allZero [s.fn / 4] (.vsel s.rd s.ra s.rb (.ofNat _ (s.fn % 4)) s.eb s.ea s.k)
  | 0x41 => .ok (.vclamp s.rd s.ra s.rb s.rf s.eb s.ea s.k)
  | 0x42 => allZero [s.c / 16] (.vcvt s.rd s.ra s.rf s.ea s.k s.rb)
  | 0x43 => allZero [s.c / 16] (.vcvtsn s.rd s.ra s.rb s.rf s.ea s.k)
  | 0x44 => .ok (.vcvtsw s.rd s.ra s.rb s.rf s.eb s.ea s.k)
  | 0x45 => allZero [s.b, s.c / 16] (.vscale s.rd s.ra s.rf s.ea s.k)
  | 0x46 =>
    if s.fn / 8 = 0 then .ok (.vredsum s.rd s.ra s.rb (.ofNat _ (s.fn % 8)) s.eb s.ea s.k)
    else if s.fn / 8 = 1 then .ok (.vredmax s.rd s.ra s.rb (.ofNat _ (s.fn % 8)) s.eb s.ea s.k)
    else if s.fn / 8 = 2 then .ok (.vredmin s.rd s.ra s.rb (.ofNat _ (s.fn % 8)) s.eb s.ea s.k)
    else .error .unlisted
  | 0x47 =>
    if s.fn / 4 = 0 then allZero [s.b, s.c / 16] (.vcompress s.rd s.ra (.ofNat _ (s.fn % 4)) s.ea s.k)
    else if s.fn / 4 = 1 then allZero [s.b, s.c / 16] (.vexpand s.rd s.ra (.ofNat _ (s.fn % 4)) s.ea s.k)
    else .error .unlisted
  | 0x48 => allZero [s.d / 8, s.b, s.c / 16] (.vconfl (.ofNat _ (s.d % 8)) s.ra s.rf s.ea s.k)
  | 0x49 =>
    if s.fn / 8 = 0 then allZero [s.c / 16] (.vslideup s.rd s.ra s.rb (.ofNat _ (s.fn / 4 % 2)) (.ofNat _ (s.fn % 4)) s.ea s.k)
    else if s.fn / 8 = 1 then allZero [s.c / 16] (.vslidedn s.rd s.ra s.rb (.ofNat _ (s.fn / 4 % 2)) (.ofNat _ (s.fn % 4)) s.ea s.k)
    else .error .unlisted
  | 0x4A =>
    if s.fn / 4 = 0 then allZero [s.b, s.c / 16] (.vmv s.rd s.ra (.ofNat _ (s.fn % 4)) s.ea s.k)
    else if s.fn / 4 = 1 then allZero [s.a, s.c] (.vbcast s.rd s.rb (.ofNat _ (s.fn % 4)))
    else if s.fn / 4 = 2 then allZero [s.c] (.vgetx s.rd s.ra s.rb (.ofNat _ (s.fn % 4)))
    else if s.fn / 4 = 3 then allZero [s.c] (.vputx s.rd s.ra s.rb (.ofNat _ (s.fn % 4)))
    else .error .unlisted
  | 0x4B => match s.fn with
    | 0 => allZero [s.d / 8, s.a / 8, s.b / 8, s.c] (.kand (.ofNat _ (s.d % 8)) (.ofNat _ (s.a % 8)) (.ofNat _ (s.b % 8)))
    | 1 => allZero [s.d / 8, s.a / 8, s.b / 8, s.c] (.kor (.ofNat _ (s.d % 8)) (.ofNat _ (s.a % 8)) (.ofNat _ (s.b % 8)))
    | 2 => allZero [s.d / 8, s.a / 8, s.b / 8, s.c] (.kxor (.ofNat _ (s.d % 8)) (.ofNat _ (s.a % 8)) (.ofNat _ (s.b % 8)))
    | 3 => allZero [s.d / 8, s.a / 8, s.b / 8, s.c] (.kandn (.ofNat _ (s.d % 8)) (.ofNat _ (s.a % 8)) (.ofNat _ (s.b % 8)))
    | 4 => allZero [s.d / 8, s.a / 8, s.b, s.c] (.knot (.ofNat _ (s.d % 8)) (.ofNat _ (s.a % 8)))
    | 5 => allZero [s.a / 8, s.b, s.c] (.kpop s.rd (.ofNat _ (s.a % 8)))
    | 6 => allZero [s.a / 8, s.b, s.c] (.kfirst s.rd (.ofNat _ (s.a % 8)))
    | _ => .error .unlisted
  | 0x4C => allZero [s.c, s.fn] (.nawait s.rd s.ra s.rb)
  | 0x4D => .ok (.vidx s.rd (.ofNat _ (s.fn * 32 + s.c)) s.rb s.ra)
  | 0x50 => allZero [s.c / 16, s.fn] (.setvl s.rd s.ra (.ofNat _ (s.c / 4 % 4)) (.ofNat _ (s.c % 4)) s.rb)
  | 0x51 => match s.fn with
    | 0 => allZero [s.c] (.vdef s.rd s.ra s.rb)
    | 1 => allZero [s.b, s.c] (.vdgeta s.rd s.ra)
    | 2 => allZero [s.b, s.c] (.vdgetb s.rd s.ra)
    | _ => .error .unlisted
  | 0x58 =>
    if s.fn % 16 = 0 then .ok (.mma s.rd (.ofNat _ (s.fn / 16)) s.rc s.rb s.ra)
    else if s.fn % 16 = 1 then .ok (.mmas s.rd (.ofNat _ (s.fn / 16)) s.rc s.rb s.ra)
    else if s.fn % 16 = 2 then .ok (.mmag s.rd (.ofNat _ (s.fn / 16)) s.rc s.rb s.ra)
    else .error .unlisted
  | 0x59 => match s.fn with
    | 0 => allZero [s.d, s.c] (.aczero s.rb s.ra)
    | 1 => allZero [s.a] (.acrd s.rd s.rc s.rb)
    | 2 => allZero [s.a] (.acwr s.rd s.rc s.rb)
    | _ => .error .unlisted
  | 0x5A => allZero [s.d, s.b, s.c, s.fn] (.tilerel s.ra)
  | 0x5B => allZero [s.c / 2, s.fn] (.tilewait s.rd s.ra s.rb (.ofNat _ (s.c % 2)))
  | 0x60 | 0x61 | 0x62 | 0x63 => .ok (.vld s.rd s.ra s.i15 (.ofNat _ (s.op % 4)))
  | 0x64 | 0x65 | 0x66 | 0x67 => .ok (.vst s.rd s.ra s.i15 (.ofNat _ (s.op % 4)))
  | 0x68 =>
    if s.fn % 8 = 0 then allZero [s.b, s.c / 8] (.vldm s.rd s.ra (.ofNat _ (s.fn / 8)) s.k)
    else if s.fn % 8 = 1 then allZero [s.c / 8] (.vlds s.rd s.ra s.rb (.ofNat _ (s.fn / 8)) s.k)
    else if s.fn % 8 = 2 then allZero [s.c / 8 % 2] (.vldi s.rd s.ra s.rb (.ofNat _ (s.fn / 8)) s.eb s.k)
    else if s.fn % 8 = 3 then allZero [s.c / 8 % 2] (.vldiw s.rd s.ra s.rb (.ofNat _ (s.fn / 8)) s.eb s.k)
    else if s.fn % 8 = 4 then allZero [s.b, s.c / 8] (.vldro s.rd s.ra (.ofNat _ (s.fn / 8)) s.k)
    else .error .unlisted
  | 0x69 =>
    if s.fn % 8 = 0 then allZero [s.b, s.c / 8] (.vstm s.rd s.ra (.ofNat _ (s.fn / 8)) s.k)
    else if s.fn % 8 = 1 then allZero [s.c / 8] (.vsts s.rd s.ra s.rb (.ofNat _ (s.fn / 8)) s.k)
    else if s.fn % 8 = 2 then allZero [s.c / 8 % 2] (.vsti s.rd s.ra s.rb (.ofNat _ (s.fn / 8)) s.eb s.k)
    else if s.fn % 8 = 3 then allZero [s.c / 8 % 2] (.vstiw s.rd s.ra s.rb (.ofNat _ (s.fn / 8)) s.eb s.k)
    else .error .unlisted
  | 0x6A => match s.fn with
    | 0 => .ok (.sqopen s.rd s.ra s.rb s.rc)
    | 1 => allZero [s.b, s.c] (.sqclose s.rd s.ra)
    | _ => .error .unlisted
  | 0x6B => allZero [s.fn % 16] (.sqpop s.rd s.ra s.rb (.ofNat _ (s.fn / 16)) s.rc)
  | 0x6C => allZero [s.c] (.vldz s.rd s.ra s.rb s.rf)
  | 0x6D => match s.fn with
    | 0 => .ok (.tfetch s.rd s.ra s.rb s.rc)
    | 1 => .ok (.acopy s.rd s.ra s.rb s.rc)
    | 2 => .ok (.tdrain s.rd s.ra s.rb s.rc)
    | _ => .error .unlisted
  | 0x6E => match s.fn with
    | 0 => .ok (.bankopSplit s.rd s.ra s.rb s.rc)
    | 1 => .ok (.bankopJoin s.rd s.ra s.rb s.rc)
    | 2 => .ok (.bankopXp8 s.rd s.ra s.rb s.rc)
    | 3 => .ok (.bankopXp16 s.rd s.ra s.rb s.rc)
    | 4 => .ok (.bankopDenc s.rd s.ra s.rb s.rc)
    | 5 => .ok (.bankopDdec s.rd s.ra s.rb s.rc)
    | 6 => .ok (.bankopZsum s.rd s.ra s.rb s.rc)
    | _ => .error .unlisted
  | 0x6F => allZero [s.fn] (.fread s.rd s.ra s.rb s.rc)
  | 0x70 =>
    if s.fn % 16 = 0 then .ok (.aadd s.rd s.ra s.rb (.ofNat _ (s.fn / 16)) (.ofNat _ (s.c / 4)) (.ofNat _ (s.c % 4)))
    else if s.fn % 16 = 1 then .ok (.aand s.rd s.ra s.rb (.ofNat _ (s.fn / 16)) (.ofNat _ (s.c / 4)) (.ofNat _ (s.c % 4)))
    else if s.fn % 16 = 2 then .ok (.aor s.rd s.ra s.rb (.ofNat _ (s.fn / 16)) (.ofNat _ (s.c / 4)) (.ofNat _ (s.c % 4)))
    else if s.fn % 16 = 3 then .ok (.axor s.rd s.ra s.rb (.ofNat _ (s.fn / 16)) (.ofNat _ (s.c / 4)) (.ofNat _ (s.c % 4)))
    else if s.fn % 16 = 4 then .ok (.amin s.rd s.ra s.rb (.ofNat _ (s.fn / 16)) (.ofNat _ (s.c / 4)) (.ofNat _ (s.c % 4)))
    else if s.fn % 16 = 5 then .ok (.amax s.rd s.ra s.rb (.ofNat _ (s.fn / 16)) (.ofNat _ (s.c / 4)) (.ofNat _ (s.c % 4)))
    else if s.fn % 16 = 6 then .ok (.aminu s.rd s.ra s.rb (.ofNat _ (s.fn / 16)) (.ofNat _ (s.c / 4)) (.ofNat _ (s.c % 4)))
    else if s.fn % 16 = 7 then .ok (.amaxu s.rd s.ra s.rb (.ofNat _ (s.fn / 16)) (.ofNat _ (s.c / 4)) (.ofNat _ (s.c % 4)))
    else if s.fn % 16 = 8 then .ok (.aswap s.rd s.ra s.rb (.ofNat _ (s.fn / 16)) (.ofNat _ (s.c / 4)) (.ofNat _ (s.c % 4)))
    else .error .unlisted
  | 0x71 => .ok (.acas s.rd s.ra s.rb s.rc (.ofNat _ (s.fn / 4)) (.ofNat _ (s.fn % 4)))
  | 0x72 =>
    if s.fn % 2 = 0 ∧ s.fn / 4 = 1 then allZero [s.c / 8 % 2] (.vgl s.rd s.ra s.rb (.ofNat _ (s.fn / 2 % 2)) s.eb s.k)
    else if s.fn % 2 = 1 ∧ s.fn / 4 = 1 then allZero [s.c / 8 % 2] (.vglw s.rd s.ra s.rb (.ofNat _ (s.fn / 2 % 2)) s.eb s.k)
    else if s.fn % 2 = 0 ∧ s.fn / 4 = 3 then allZero [s.c / 8 % 2] (.vsc s.rd s.ra s.rb (.ofNat _ (s.fn / 2 % 2)) s.eb s.k)
    else if s.fn % 2 = 1 ∧ s.fn / 4 = 3 then allZero [s.c / 8 % 2] (.vscw s.rd s.ra s.rb (.ofNat _ (s.fn / 2 % 2)) s.eb s.k)
    else .error .unlisted
  | 0x73 => allZero [s.c / 8 % 2] (.vscadd s.rd s.ra s.rb s.rf s.eb s.k)
  | 0x74 =>
    if s.a = 0 ∧ s.fn = 5 then allZero [s.c] (.twaitTake s.rd s.rb)
    else if s.fn = 4 then allZero [s.a] (.phend s.rd s.rb s.rc)
    else if s.fn = 5 then allZero [s.c] (.twait s.rd s.ra s.rb)
    else if s.fn = 6 then allZero [s.c] (.mgwait s.rd s.ra s.rb)
    else if s.fn = 0 then .ok (.fence s.rd s.ra s.rb s.rc)
    else if s.fn = 1 then .ok (.bar s.rd s.ra s.rb s.rc)
    else if s.fn = 2 then .ok (.waita s.rd s.ra s.rb s.rc)
    else if s.fn = 3 then .ok (.vwaita s.rd s.ra s.rb s.rc)
    else .error .unlisted
  | 0x75 => match s.fn with
    | 0 => .ok (.qsend s.rd s.ra s.rb s.rc)
    | 1 => .ok (.qrecv s.rd s.ra s.rb s.rc)
    | _ => .error .unlisted
  | 0x76 => match s.fn with
    | 0 => allZero [s.d, s.a, s.b, s.c] .lsync
    | 1 => allZero [s.d, s.a, s.b, s.c] .roinv
    | 2 => allZero [s.b, s.c] (.cmread s.rd s.ra)
    | _ => .error .unlisted
  | 0x78 => allZero [s.fn] (.tsub s.rd s.ra s.rb s.rc)
  | 0x79 => match s.fn with
    | 0 => allZero [s.a, s.b, s.c] (.tchk s.rd)
    | 1 => allZero [s.a, s.b, s.c] (.tdone s.rd)
    | _ => .error .unlisted
  | 0x7A => match s.fn with
    | 0 => allZero [s.b, s.c] (.mgopen s.rd s.ra)
    | 1 => allZero [s.a, s.b, s.c] (.mgclose s.rd)
    | 2 => allZero [s.a, s.b, s.c] (.mgdrain s.rd)
    | _ => .error .unlisted
  | 0x7B => allZero [s.fn] (.mgpush s.rd s.ra s.rb s.eb s.ea s.k)
  | 0x7C => match s.fn with
    | 0 => .ok (.fgather s.rd s.ra s.rb s.rc)
    | 1 => .ok (.freduce s.rd s.ra s.rb s.rc)
    | 2 => .ok (.fflag s.rd s.ra s.rb s.rc)
    | 3 => allZero [s.b, s.c] (.fcoll s.rd s.ra)
    | _ => .error .unlisted
  | 0x7D => match s.fn with
    | 0 => allZero [s.d, s.a] (.brk (.ofNat _ (s.c * 32 + s.b)))
    | 1 => allZero [s.d, s.c] (.trec s.ra s.rb)
    | 2 => allZero [s.b, s.c] (.dget s.rd s.ra)
    | _ => .error .unlisted
  | _ => .error .unassigned

/-- A word as an instruction (R92). -/
def decode (w : W32) : Except Reject Instr :=
  if w = 0 then .error .zeroWord
  else
    match decodeSlots (unpack w) with
    | .error e => .error e
    | .ok i => if i.wf then .ok i else .error .badCode

/-- A word stored little-endian (R79). -/
def wordOfBytes (b0 b1 b2 b3 : Byte) : W32 :=
  .ofNat 32 (b0.toNat + 256 * b1.toNat + 65536 * b2.toNat + 16777216 * b3.toNat)

/-- The bytes of a word, lowest address first (R79). -/
def bytesOfWord (w : W32) : List Byte :=
  [.ofNat 8 w.toNat, .ofNat 8 (w.toNat / 256), .ofNat 8 (w.toNat / 65536), .ofNat 8 (w.toNat / 16777216)]

/-- The instruction at the front of some bytes, with the rest of them. -/
def decodeBytes : List Byte → Except Reject (Instr × List Byte)
  | b0 :: b1 :: b2 :: b3 :: l =>
    match decode (wordOfBytes b0 b1 b2 b3) with
    | .ok i => .ok (i, l)
    | .error e => .error e
  | _ => .error .short

/-- The instruction of a row of the opcode table: the row's bits as the hardware stores them, read by the decoder. -/
def decodeTableWord (nbits w : Nat) : Option Instr :=
  match decodeBytes (bytesOfWord (.ofNat 32 (w % 2 ^ nbits))) with
  | .ok (i, _) => some i
  | .error _ => none

/-- The word of an instruction, from R80 and the opcode map; an event of the device has no word. -/
def encode : Instr → W32
  | .add d a b => pack 0 0 b.toNat a.toNat d.toNat 0x00
  | .sub d a b => pack 1 0 b.toNat a.toNat d.toNat 0x00
  | .and d a b => pack 2 0 b.toNat a.toNat d.toNat 0x00
  | .or d a b => pack 3 0 b.toNat a.toNat d.toNat 0x00
  | .xor d a b => pack 4 0 b.toNat a.toNat d.toNat 0x00
  | .sll d a b => pack 5 0 b.toNat a.toNat d.toNat 0x00
  | .srl d a b => pack 6 0 b.toNat a.toNat d.toNat 0x00
  | .sra d a b => pack 7 0 b.toNat a.toNat d.toNat 0x00
  | .slt d a b => pack 8 0 b.toNat a.toNat d.toNat 0x00
  | .sltu d a b => pack 9 0 b.toNat a.toNat d.toNat 0x00
  | .min d a b => pack 10 0 b.toNat a.toNat d.toNat 0x00
  | .max d a b => pack 11 0 b.toNat a.toNat d.toNat 0x00
  | .minu d a b => pack 12 0 b.toNat a.toNat d.toNat 0x00
  | .maxu d a b => pack 13 0 b.toNat a.toNat d.toNat 0x00
  | .mul d a b => pack 14 0 b.toNat a.toNat d.toNat 0x00
  | .mulh d a b => pack 15 0 b.toNat a.toNat d.toNat 0x00
  | .mulhu d a b => pack 16 0 b.toNat a.toNat d.toNat 0x00
  | .div d a b => pack 17 0 b.toNat a.toNat d.toNat 0x00
  | .divu d a b => pack 18 0 b.toNat a.toNat d.toNat 0x00
  | .rem d a b => pack 19 0 b.toNat a.toNat d.toNat 0x00
  | .remu d a b => pack 20 0 b.toNat a.toNat d.toNat 0x00
  | .clz d a => pack 21 0 0 a.toNat d.toNat 0x00
  | .ctz d a => pack 22 0 0 a.toNat d.toNat 0x00
  | .cpop d a => pack 23 0 0 a.toNat d.toNat 0x00
  | .sel d a b c => pack 24 c.toNat b.toNat a.toNat d.toNat 0x00
  | .addi d a i => packI i a.toNat d.toNat 0x01
  | .andi d a i => packI i a.toNat d.toNat 0x02
  | .ori d a i => packI i a.toNat d.toNat 0x03
  | .xori d a i => packI i a.toNat d.toNat 0x04
  | .slti d a i => packI i a.toNat d.toNat 0x05
  | .sltiu d a i => packI i a.toNat d.toNat 0x06
  | .slli d a s => pack 0 (s.toNat / 32) (s.toNat % 32) a.toNat d.toNat 0x07
  | .srli d a s => pack 0 (s.toNat / 32 + 2) (s.toNat % 32) a.toNat d.toNat 0x07
  | .srai d a s => pack 0 (s.toNat / 32 + 4) (s.toNat % 32) a.toNat d.toNat 0x07
  | .lui d i => packU i d.toNat 0x08
  | .auipc d i => packU i d.toNat 0x09
  | .faddF32 d a b r => pack 0 r.toNat b.toNat a.toNat d.toNat 0x0A
  | .fsubF32 d a b r => pack 1 r.toNat b.toNat a.toNat d.toNat 0x0A
  | .fmulF32 d a b r => pack 2 r.toNat b.toNat a.toNat d.toNat 0x0A
  | .fdivF32 d a b r => pack 3 r.toNat b.toNat a.toNat d.toNat 0x0A
  | .fsqrtF32 d a r => pack 4 r.toNat 0 a.toNat d.toNat 0x0A
  | .fminF32 d a b => pack 5 0 b.toNat a.toNat d.toNat 0x0A
  | .fmaxF32 d a b => pack 6 0 b.toNat a.toNat d.toNat 0x0A
  | .feqF32 d a b => pack 7 0 b.toNat a.toNat d.toNat 0x0A
  | .fltF32 d a b => pack 8 0 b.toNat a.toNat d.toNat 0x0A
  | .fleF32 d a b => pack 9 0 b.toNat a.toNat d.toNat 0x0A
  | .fcvtToI64F32 d a r => pack 10 r.toNat 0 a.toNat d.toNat 0x0A
  | .fcvtToN64F32 d a r => pack 11 r.toNat 0 a.toNat d.toNat 0x0A
  | .fcvtFromI64F32 d a r => pack 12 r.toNat 0 a.toNat d.toNat 0x0A
  | .fcvtFromN64F32 d a r => pack 13 r.toNat 0 a.toNat d.toNat 0x0A
  | .fcvtFromFloatF32 d a r s => pack 14 r.toNat s.toNat a.toNat d.toNat 0x0A
  | .faddF16 d a b r => pack 0 r.toNat b.toNat a.toNat d.toNat 0x0B
  | .fsubF16 d a b r => pack 1 r.toNat b.toNat a.toNat d.toNat 0x0B
  | .fmulF16 d a b r => pack 2 r.toNat b.toNat a.toNat d.toNat 0x0B
  | .fdivF16 d a b r => pack 3 r.toNat b.toNat a.toNat d.toNat 0x0B
  | .fsqrtF16 d a r => pack 4 r.toNat 0 a.toNat d.toNat 0x0B
  | .fminF16 d a b => pack 5 0 b.toNat a.toNat d.toNat 0x0B
  | .fmaxF16 d a b => pack 6 0 b.toNat a.toNat d.toNat 0x0B
  | .feqF16 d a b => pack 7 0 b.toNat a.toNat d.toNat 0x0B
  | .fltF16 d a b => pack 8 0 b.toNat a.toNat d.toNat 0x0B
  | .fleF16 d a b => pack 9 0 b.toNat a.toNat d.toNat 0x0B
  | .fcvtToI64F16 d a r => pack 10 r.toNat 0 a.toNat d.toNat 0x0B
  | .fcvtToN64F16 d a r => pack 11 r.toNat 0 a.toNat d.toNat 0x0B
  | .fcvtFromI64F16 d a r => pack 12 r.toNat 0 a.toNat d.toNat 0x0B
  | .fcvtFromN64F16 d a r => pack 13 r.toNat 0 a.toNat d.toNat 0x0B
  | .fcvtFromFloatF16 d a r s => pack 14 r.toNat s.toNat a.toNat d.toNat 0x0B
  | .faddBf16 d a b r => pack 0 r.toNat b.toNat a.toNat d.toNat 0x0C
  | .fsubBf16 d a b r => pack 1 r.toNat b.toNat a.toNat d.toNat 0x0C
  | .fmulBf16 d a b r => pack 2 r.toNat b.toNat a.toNat d.toNat 0x0C
  | .fdivBf16 d a b r => pack 3 r.toNat b.toNat a.toNat d.toNat 0x0C
  | .fsqrtBf16 d a r => pack 4 r.toNat 0 a.toNat d.toNat 0x0C
  | .fminBf16 d a b => pack 5 0 b.toNat a.toNat d.toNat 0x0C
  | .fmaxBf16 d a b => pack 6 0 b.toNat a.toNat d.toNat 0x0C
  | .feqBf16 d a b => pack 7 0 b.toNat a.toNat d.toNat 0x0C
  | .fltBf16 d a b => pack 8 0 b.toNat a.toNat d.toNat 0x0C
  | .fleBf16 d a b => pack 9 0 b.toNat a.toNat d.toNat 0x0C
  | .fcvtToI64Bf16 d a r => pack 10 r.toNat 0 a.toNat d.toNat 0x0C
  | .fcvtToN64Bf16 d a r => pack 11 r.toNat 0 a.toNat d.toNat 0x0C
  | .fcvtFromI64Bf16 d a r => pack 12 r.toNat 0 a.toNat d.toNat 0x0C
  | .fcvtFromN64Bf16 d a r => pack 13 r.toNat 0 a.toNat d.toNat 0x0C
  | .fcvtFromFloatBf16 d a r s => pack 14 r.toNat s.toNat a.toNat d.toNat 0x0C
  | .fmadd d a b c f r => pack (f.toNat * 8 + r.toNat) c.toNat b.toNat a.toNat d.toNat 0x0D
  | .lb d a i => packI i a.toNat d.toNat 0x10
  | .lh d a i => packI i a.toNat d.toNat 0x11
  | .lw d a i => packI i a.toNat d.toNat 0x12
  | .ld d a i => packI i a.toNat d.toNat 0x13
  | .lbu d a i => packI i a.toNat d.toNat 0x14
  | .lhu d a i => packI i a.toNat d.toNat 0x15
  | .sb d a i => packI i a.toNat d.toNat 0x16
  | .sh d a i => packI i a.toNat d.toNat 0x17
  | .sw d a i => packI i a.toNat d.toNat 0x18
  | .sd d a i => packI i a.toNat d.toNat 0x19
  | .beq a b o => packI o b.toNat a.toNat 0x1A
  | .bne a b o => packI o b.toNat a.toNat 0x1B
  | .blt a b o => packI o b.toNat a.toNat 0x1C
  | .bge a b o => packI o b.toNat a.toNat 0x1D
  | .jal d o => packU o d.toNat 0x1E
  | .jalr d a i => packI i a.toNat d.toNat 0x1F
  | .crr d n => pack (n.toNat / 1024) (n.toNat / 32 % 32) (n.toNat % 32) 0 d.toNat 0x20
  | .crw d a n => pack (n.toNat / 1024 + 4) (n.toNat / 32 % 32) (n.toNat % 32) a.toNat d.toNat 0x20
  | .crs d a n => pack (n.toNat / 1024 + 8) (n.toNat / 32 % 32) (n.toNat % 32) a.toNat d.toNat 0x20
  | .crc d a n => pack (n.toNat / 1024 + 12) (n.toNat / 32 % 32) (n.toNat % 32) a.toNat d.toNat 0x20
  | .exit => pack 0 0 0 0 0 0x21
  | .scall a => pack 1 0 0 a.toNat 0 0x21
  | .tret => pack 2 0 0 0 0 0x21
  | .icinv a b => pack 3 0 b.toNat a.toNat 0 0x21
  | .yieldP => pack 4 0 0 0 0 0x21
  | .xlinv a b => pack 5 0 b.toNat a.toNat 0 0x21
  | .loop a b o => packI o b.toNat a.toNat 0x22
  | .vaddVv d a b f y x k => pack f.toNat (y.toNat * 16 + x.toNat * 8 + k.toNat) b.toNat a.toNat d.toNat 0x30
  | .vaddVx d a b f x k => pack f.toNat (x.toNat * 8 + k.toNat) b.toNat a.toNat d.toNat 0x31
  | .vsubVv d a b f y x k => pack f.toNat (y.toNat * 16 + x.toNat * 8 + k.toNat) b.toNat a.toNat d.toNat 0x32
  | .vsubVx d a b f x k => pack f.toNat (x.toNat * 8 + k.toNat) b.toNat a.toNat d.toNat 0x33
  | .vmulVv d a b f y x k => pack f.toNat (y.toNat * 16 + x.toNat * 8 + k.toNat) b.toNat a.toNat d.toNat 0x34
  | .vmulVx d a b f x k => pack f.toNat (x.toNat * 8 + k.toNat) b.toNat a.toNat d.toNat 0x35
  | .vfmaVv d a b f y x k => pack f.toNat (y.toNat * 16 + x.toNat * 8 + k.toNat) b.toNat a.toNat d.toNat 0x36
  | .vfmaVx d a b f x k => pack f.toNat (x.toNat * 8 + k.toNat) b.toNat a.toNat d.toNat 0x37
  | .vmin d a b f y x k => pack f.toNat (y.toNat * 16 + x.toNat * 8 + k.toNat) b.toNat a.toNat d.toNat 0x38
  | .vmax d a b f y x k => pack f.toNat (y.toNat * 16 + x.toNat * 8 + k.toNat) b.toNat a.toNat d.toNat 0x39
  | .vdiv d a b f y x k => pack f.toNat (y.toNat * 16 + x.toNat * 8 + k.toNat) b.toNat a.toNat d.toNat 0x3A
  | .vsqrt d a f x k => pack f.toNat (x.toNat * 8 + k.toNat) 0 a.toNat d.toNat 0x3B
  | .vcmpeqVv d a b f y x k => pack f.toNat (y.toNat * 16 + x.toNat * 8 + k.toNat) b.toNat a.toNat d.toNat 0x3C
  | .vcmpneVv d a b f y x k => pack f.toNat (y.toNat * 16 + x.toNat * 8 + k.toNat) b.toNat a.toNat (d.toNat + 8) 0x3C
  | .vcmpltVv d a b f y x k => pack f.toNat (y.toNat * 16 + x.toNat * 8 + k.toNat) b.toNat a.toNat (d.toNat + 16) 0x3C
  | .vcmpleVv d a b f y x k => pack f.toNat (y.toNat * 16 + x.toNat * 8 + k.toNat) b.toNat a.toNat (d.toNat + 24) 0x3C
  | .vcmpeqVx d a b f x k => pack f.toNat (x.toNat * 8 + k.toNat) b.toNat a.toNat d.toNat 0x3D
  | .vcmpneVx d a b f x k => pack f.toNat (x.toNat * 8 + k.toNat) b.toNat a.toNat (d.toNat + 8) 0x3D
  | .vcmpltVx d a b f x k => pack f.toNat (x.toNat * 8 + k.toNat) b.toNat a.toNat (d.toNat + 16) 0x3D
  | .vcmpleVx d a b f x k => pack f.toNat (x.toNat * 8 + k.toNat) b.toNat a.toNat (d.toNat + 24) 0x3D
  | .vand d a b w y x k => pack w.toNat (y.toNat * 16 + x.toNat * 8 + k.toNat) b.toNat a.toNat d.toNat 0x3E
  | .vor d a b w y x k => pack (w.toNat + 4) (y.toNat * 16 + x.toNat * 8 + k.toNat) b.toNat a.toNat d.toNat 0x3E
  | .vxor d a b w y x k => pack (w.toNat + 8) (y.toNat * 16 + x.toNat * 8 + k.toNat) b.toNat a.toNat d.toNat 0x3E
  | .vandn d a b w y x k => pack (w.toNat + 12) (y.toNat * 16 + x.toNat * 8 + k.toNat) b.toNat a.toNat d.toNat 0x3E
  | .vorn d a b w y x k => pack (w.toNat + 16) (y.toNat * 16 + x.toNat * 8 + k.toNat) b.toNat a.toNat d.toNat 0x3E
  | .vsll d a b s w x k => pack (s.toNat * 4 + w.toNat) (x.toNat * 8 + k.toNat) b.toNat a.toNat d.toNat 0x3F
  | .vsrl d a b s w x k => pack (s.toNat * 4 + w.toNat + 8) (x.toNat * 8 + k.toNat) b.toNat a.toNat d.toNat 0x3F
  | .vsra d a b s w x k => pack (s.toNat * 4 + w.toNat + 16) (x.toNat * 8 + k.toNat) b.toNat a.toNat d.toNat 0x3F
  | .vsel d a b w y x k => pack w.toNat (y.toNat * 16 + x.toNat * 8 + k.toNat) b.toNat a.toNat d.toNat 0x40
  | .vclamp d a b f y x k => pack f.toNat (y.toNat * 16 + x.toNat * 8 + k.toNat) b.toNat a.toNat d.toNat 0x41
  | .vcvt d a f x k s => pack f.toNat (x.toNat * 8 + k.toNat) s.toNat a.toNat d.toNat 0x42
  | .vcvtsn d a b f x k => pack f.toNat (x.toNat * 8 + k.toNat) b.toNat a.toNat d.toNat 0x43
  | .vcvtsw d a b f y x k => pack f.toNat (y.toNat * 16 + x.toNat * 8 + k.toNat) b.toNat a.toNat d.toNat 0x44
  | .vscale d a f x k => pack f.toNat (x.toNat * 8 + k.toNat) 0 a.toNat d.toNat 0x45
  | .vredsum d a b t y x k => pack t.toNat (y.toNat * 16 + x.toNat * 8 + k.toNat) b.toNat a.toNat d.toNat 0x46
  | .vredmax d a b t y x k => pack (t.toNat + 8) (y.toNat * 16 + x.toNat * 8 + k.toNat) b.toNat a.toNat d.toNat 0x46
  | .vredmin d a b t y x k => pack (t.toNat + 16) (y.toNat * 16 + x.toNat * 8 + k.toNat) b.toNat a.toNat d.toNat 0x46
  | .vcompress d a w x k => pack w.toNat (x.toNat * 8 + k.toNat) 0 a.toNat d.toNat 0x47
  | .vexpand d a w x k => pack (w.toNat + 4) (x.toNat * 8 + k.toNat) 0 a.toNat d.toNat 0x47
  | .vconfl d a f x k => pack f.toNat (x.toNat * 8 + k.toNat) 0 a.toNat d.toNat 0x48
  | .vslideup d a b s w x k => pack (s.toNat * 4 + w.toNat) (x.toNat * 8 + k.toNat) b.toNat a.toNat d.toNat 0x49
  | .vslidedn d a b s w x k => pack (s.toNat * 4 + w.toNat + 8) (x.toNat * 8 + k.toNat) b.toNat a.toNat d.toNat 0x49
  | .vmv d a w x k => pack w.toNat (x.toNat * 8 + k.toNat) 0 a.toNat d.toNat 0x4A
  | .vbcast d b w => pack (w.toNat + 4) 0 b.toNat 0 d.toNat 0x4A
  | .vgetx d a b w => pack (w.toNat + 8) 0 b.toNat a.toNat d.toNat 0x4A
  | .vputx d a b w => pack (w.toNat + 12) 0 b.toNat a.toNat d.toNat 0x4A
  | .kand d a b => pack 0 0 b.toNat a.toNat d.toNat 0x4B
  | .kor d a b => pack 1 0 b.toNat a.toNat d.toNat 0x4B
  | .kxor d a b => pack 2 0 b.toNat a.toNat d.toNat 0x4B
  | .kandn d a b => pack 3 0 b.toNat a.toNat d.toNat 0x4B
  | .knot d a => pack 4 0 0 a.toNat d.toNat 0x4B
  | .kpop d a => pack 5 0 0 a.toNat d.toNat 0x4B
  | .kfirst d a => pack 6 0 0 a.toNat d.toNat 0x4B
  | .nawait d a b => pack 0 0 b.toNat a.toNat d.toNat 0x4C
  | .vidx d s t f => pack (s.toNat / 32) (s.toNat % 32) t.toNat f.toNat d.toNat 0x4D
  | .setvl d a g l f => pack 0 (g.toNat * 4 + l.toNat) f.toNat a.toNat d.toNat 0x50
  | .vdef d a b => pack 0 0 b.toNat a.toNat d.toNat 0x51
  | .vdgeta d a => pack 1 0 0 a.toNat d.toNat 0x51
  | .vdgetb d a => pack 2 0 0 a.toNat d.toNat 0x51
  | .mma a v f o t => pack (v.toNat * 16) f.toNat o.toNat t.toNat a.toNat 0x58
  | .mmas a v f o t => pack (v.toNat * 16 + 1) f.toNat o.toNat t.toNat a.toNat 0x58
  | .mmag a v f o t => pack (v.toNat * 16 + 2) f.toNat o.toNat t.toNat a.toNat 0x58
  | .aczero o e => pack 0 0 o.toNat e.toNat 0 0x59
  | .acrd d f o => pack 1 f.toNat o.toNat 0 d.toNat 0x59
  | .acwr a f o => pack 2 f.toNat o.toNat 0 a.toNat 0x59
  | .tilerel a => pack 0 0 0 a.toNat 0 0x5A
  | .tilewait d a b c => pack 0 c.toNat b.toNat a.toNat d.toNat 0x5B
  | .vld d a i w => packI i a.toNat d.toNat (w.toNat + 0x60)
  | .vst d a i w => packI i a.toNat d.toNat (w.toNat + 0x64)
  | .vldm d a w k => pack (w.toNat * 8) k.toNat 0 a.toNat d.toNat 0x68
  | .vlds d a b w k => pack (w.toNat * 8 + 1) k.toNat b.toNat a.toNat d.toNat 0x68
  | .vldi d a b w y k => pack (w.toNat * 8 + 2) (y.toNat * 16 + k.toNat) b.toNat a.toNat d.toNat 0x68
  | .vldiw d a b w y k => pack (w.toNat * 8 + 3) (y.toNat * 16 + k.toNat) b.toNat a.toNat d.toNat 0x68
  | .vldro d a w k => pack (w.toNat * 8 + 4) k.toNat 0 a.toNat d.toNat 0x68
  | .vstm d a w k => pack (w.toNat * 8) k.toNat 0 a.toNat d.toNat 0x69
  | .vsts d a b w k => pack (w.toNat * 8 + 1) k.toNat b.toNat a.toNat d.toNat 0x69
  | .vsti d a b w y k => pack (w.toNat * 8 + 2) (y.toNat * 16 + k.toNat) b.toNat a.toNat d.toNat 0x69
  | .vstiw d a b w y k => pack (w.toNat * 8 + 3) (y.toNat * 16 + k.toNat) b.toNat a.toNat d.toNat 0x69
  | .sqopen d a b c => pack 0 c.toNat b.toNat a.toNat d.toNat 0x6A
  | .sqclose d a => pack 1 0 0 a.toNat d.toNat 0x6A
  | .sqpop d a b t n => pack (t.toNat * 16) n.toNat b.toNat a.toNat d.toNat 0x6B
  | .vldz d a b f => pack f.toNat 0 b.toNat a.toNat d.toNat 0x6C
  | .tfetch d a b c => pack 0 c.toNat b.toNat a.toNat d.toNat 0x6D
  | .acopy d a b c => pack 1 c.toNat b.toNat a.toNat d.toNat 0x6D
  | .tdrain d a b c => pack 2 c.toNat b.toNat a.toNat d.toNat 0x6D
  | .bankopSplit d a b c => pack 0 c.toNat b.toNat a.toNat d.toNat 0x6E
  | .bankopJoin d a b c => pack 1 c.toNat b.toNat a.toNat d.toNat 0x6E
  | .bankopXp8 d a b c => pack 2 c.toNat b.toNat a.toNat d.toNat 0x6E
  | .bankopXp16 d a b c => pack 3 c.toNat b.toNat a.toNat d.toNat 0x6E
  | .bankopDenc d a b c => pack 4 c.toNat b.toNat a.toNat d.toNat 0x6E
  | .bankopDdec d a b c => pack 5 c.toNat b.toNat a.toNat d.toNat 0x6E
  | .bankopZsum d a b c => pack 6 c.toNat b.toNat a.toNat d.toNat 0x6E
  | .fread d a b c => pack 0 c.toNat b.toNat a.toNat d.toNat 0x6F
  | .aadd d a b w s o => pack (w.toNat * 16) (s.toNat * 4 + o.toNat) b.toNat a.toNat d.toNat 0x70
  | .aand d a b w s o => pack (w.toNat * 16 + 1) (s.toNat * 4 + o.toNat) b.toNat a.toNat d.toNat 0x70
  | .aor d a b w s o => pack (w.toNat * 16 + 2) (s.toNat * 4 + o.toNat) b.toNat a.toNat d.toNat 0x70
  | .axor d a b w s o => pack (w.toNat * 16 + 3) (s.toNat * 4 + o.toNat) b.toNat a.toNat d.toNat 0x70
  | .amin d a b w s o => pack (w.toNat * 16 + 4) (s.toNat * 4 + o.toNat) b.toNat a.toNat d.toNat 0x70
  | .amax d a b w s o => pack (w.toNat * 16 + 5) (s.toNat * 4 + o.toNat) b.toNat a.toNat d.toNat 0x70
  | .aminu d a b w s o => pack (w.toNat * 16 + 6) (s.toNat * 4 + o.toNat) b.toNat a.toNat d.toNat 0x70
  | .amaxu d a b w s o => pack (w.toNat * 16 + 7) (s.toNat * 4 + o.toNat) b.toNat a.toNat d.toNat 0x70
  | .aswap d a b w s o => pack (w.toNat * 16 + 8) (s.toNat * 4 + o.toNat) b.toNat a.toNat d.toNat 0x70
  | .acas d a b c s o => pack (s.toNat * 4 + o.toNat) c.toNat b.toNat a.toNat d.toNat 0x71
  | .vgl d a b w y k => pack (w.toNat * 2 + 4) (y.toNat * 16 + k.toNat) b.toNat a.toNat d.toNat 0x72
  | .vglw d a b w y k => pack (w.toNat * 2 + 5) (y.toNat * 16 + k.toNat) b.toNat a.toNat d.toNat 0x72
  | .vsc d a b w y k => pack (w.toNat * 2 + 12) (y.toNat * 16 + k.toNat) b.toNat a.toNat d.toNat 0x72
  | .vscw d a b w y k => pack (w.toNat * 2 + 13) (y.toNat * 16 + k.toNat) b.toNat a.toNat d.toNat 0x72
  | .vscadd d a b f y k => pack f.toNat (y.toNat * 16 + k.toNat) b.toNat a.toNat d.toNat 0x73
  | .fence d a b s => pack 0 s.toNat b.toNat a.toNat d.toNat 0x74
  | .bar d a b s => pack 1 s.toNat b.toNat a.toNat d.toNat 0x74
  | .waita d a b s => pack 2 s.toNat b.toNat a.toNat d.toNat 0x74
  | .vwaita d a b s => pack 3 s.toNat b.toNat a.toNat d.toNat 0x74
  | .phend d b s => pack 4 s.toNat b.toNat 0 d.toNat 0x74
  | .twaitTake d b => pack 5 0 b.toNat 0 d.toNat 0x74
  | .twait d a b => pack 5 0 b.toNat a.toNat d.toNat 0x74
  | .mgwait d a b => pack 6 0 b.toNat a.toNat d.toNat 0x74
  | .qsend d a b s => pack 0 s.toNat b.toNat a.toNat d.toNat 0x75
  | .qrecv d a b s => pack 1 s.toNat b.toNat a.toNat d.toNat 0x75
  | .lsync => pack 0 0 0 0 0 0x76
  | .roinv => pack 1 0 0 0 0 0x76
  | .cmread d a => pack 2 0 0 a.toNat d.toNat 0x76
  | .tsub d a b c => pack 0 c.toNat b.toNat a.toNat d.toNat 0x78
  | .tchk d => pack 0 0 0 0 d.toNat 0x79
  | .tdone d => pack 1 0 0 0 d.toNat 0x79
  | .mgopen d a => pack 0 0 0 a.toNat d.toNat 0x7A
  | .mgclose d => pack 1 0 0 0 d.toNat 0x7A
  | .mgdrain d => pack 2 0 0 0 d.toNat 0x7A
  | .mgpush d a b y x k => pack 0 (y.toNat * 16 + x.toNat * 8 + k.toNat) b.toNat a.toNat d.toNat 0x7B
  | .fgather d a b c => pack 0 c.toNat b.toNat a.toNat d.toNat 0x7C
  | .freduce d a b c => pack 1 c.toNat b.toNat a.toNat d.toNat 0x7C
  | .fflag d a b c => pack 2 c.toNat b.toNat a.toNat d.toNat 0x7C
  | .fcoll d a => pack 3 0 0 a.toNat d.toNat 0x7C
  | .brk n => pack 0 (n.toNat / 32) (n.toNat % 32) 0 0 0x7D
  | .trec a b => pack 1 0 b.toNat a.toNat 0 0x7D
  | .dget d a => pack 2 0 0 a.toNat d.toNat 0x7D
  | .illegalWord _ => 0
  | .entryIssue _ => 0
  | .laneGroupStart _ _ => 0
  | .entryComplete _ => 0
  | .trapEntry _ => 0
  | .asyncStop _ => 0
  | .waitWake _ => 0
  | .waitDeadlineExpiry _ => 0
  | .streamEntryFetched _ _ => 0
  | .tileFillComplete _ => 0
  | .tileFillFault _ => 0
  | .tileDrainComplete _ => 0
  | .tileDrainFault _ => 0
  | .acopyComplete _ => 0
  | .bankopLineOperation _ _ => 0
  | .bankopComplete _ => 0
  | .freadComplete _ _ _ => 0
  | .nvmeCompletion _ _ => 0
  | .scatterAddPerform _ => 0
  | .mergePassEnd _ => 0
  | .mergeDrainComplete _ => 0
  | .l2WriteBack _ _ _ => 0
  | .mscEviction _ => 0
  | .wideMarkExpire _ => 0
  | .taskSummaryRetest _ => 0
  | .doorbellWrite _ _ => 0
  | .startRecordTake _ => 0
  | .launchGrant _ _ => 0
  | .recordAged _ => 0
  | .kernelEnd _ => 0
  | .cxlMemRead _ => 0
  | .cxlMemWrite _ _ => 0
  | .migrate  => 0
  | .migrateCopyDone  => 0
  | .shoot  => 0
  | .shootDrained  => 0
  | .fabricFlitReplay _ _ => 0
  | .fabricLinkDown _ => 0
  | .fabricWritePacket _ => 0
  | .fabricReadRequest _ _ _ _ _ => 0
  | .fabricFlagApply _ _ _ _ _ _ => 0
  | .fgatherComplete _ _ _ => 0
  | .freduceComplete _ _ => 0
  | .fcollComplete _ => 0
  | .haltNotice _ _ => 0
  | .releaseNotice _ => 0
  | .debugHaltRequest _ => 0
  | .debugReleaseRequest _ => 0
  | .debugStepRequest _ => 0
  | .haltArrival _ => 0
  | .stepReport _ => 0
  | .debugInject _ _ => 0
  | .stopUnitFire _ _ => 0
  | .triggerTick  => 0
  | .ridgepoleGrantTick _ _ => 0
  | .powerOnStart _ _ _ _ => 0
  | .keyctlOpen _ => 0
  | .keyctlClose _ => 0
  | .mergeAssignWrite _ _ => 0
  | .hostQueueCtlWrite _ _ _ _ => 0
  | .preemptRequestPost _ _ => 0
  | .engineRecordDiscard _ _ => 0
  | .satpWrite _ _ _ => 0
  | .badgerEnable _ _ => 0
  | .registerWrite _ _ _ => 0
  | .hostAtomic _ _ _ _ => 0
  | .fabricAcknowledgement _ _ _ => 0
  | .attestationReportRequest _ => 0
  | .powerLoss  => 0
  | .loadDataArrival _ => 0

end Sys2Proof
end

