-- ==== Sys2Proof/Machine/Flags.lean ====
section
/-! DEFINITION. The flags of FCTL (R31) as one byte of FCTL, and rounding modes (R63, R82). -/
namespace Sys2Proof.Machine

/-- A set of FCTL flags, at the bits R31 gives them. -/
abbrev Flags := BitVec 8

/-- Invalid operation. -/
def flagNV : Flags := 0x80
/-- Division by zero. -/
def flagDZ : Flags := 0x40
/-- Overflow, or saturation on narrowing. -/
def flagOF : Flags := 0x20
/-- Tiny inexact result. -/
def flagUF : Flags := 0x10
/-- Inexact result. -/
def flagNX : Flags := 0x08

/-- FCTL after an operation raised flags: they are set and none is cleared (R31). -/
def fctlSet (fctl : Word) (f : Flags) : Word := fctl ||| (f &&& 0xF8).setWidth 64

/-- What matrix instructions may set: NV and OF only (R66). -/
def matrixFlags (f : Flags) : Flags := f &&& (flagNV ||| flagOF)

/-- A rounding mode. -/
inductive RMode where
  | rne | rtz | rdn | rup
  deriving DecidableEq, Repr

/-- The mode FCTL.RM names (R31); the reserved codes cannot be written. -/
def rmOfFctl (fctl : Word) : RMode :=
  match fctl.toNat % 8 with
  | 1 => .rtz
  | 2 => .rdn
  | 3 => .rup
  | _ => .rne

/-- The mode a rounding selection names (R82): 0 is FCTL.RM. -/
def rmOfSelection (fctl : Word) (r : Nat) : RMode :=
  match r with
  | 0 => rmOfFctl fctl
  | 2 => .rtz
  | 3 => .rdn
  | 4 => .rup
  | _ => .rne

end Sys2Proof.Machine
end

