-- ==== Sys2Proof/Machine/FMap.lean ====
section
/-! DEFINITION. Finite maps from Nat as association lists in ascending key order: the form in which the state holds memory,
the plane and every sparse table. -/
namespace Sys2Proof.Machine

/-- Association list by ascending key. -/
abbrev FMap (β : Type) := List (Nat × β)

namespace FMap

variable {β : Type}

/-- The first entry of a key. -/
def find? : FMap β → Nat → Option β
  | [], _ => none
  | (k', v) :: m, k => if k' = k then some v else find? m k

/-- The value of a key, `d k` where the map lists none. -/
def get (d : Nat → β) (m : FMap β) (k : Nat) : β := (find? m k).getD (d k)

/-- Writes an entry at its place in the order. -/
def put : FMap β → Nat → β → FMap β
  | [], k, v => [(k, v)]
  | (k', v') :: m, k, v =>
    if k < k' then (k, v) :: (k', v') :: m
    else if k' = k then (k, v) :: m
    else (k', v') :: put m k v

/-- Removes every entry of a key. -/
def erase : FMap β → Nat → FMap β
  | [], _ => []
  | (k', v) :: m, k => if k' = k then erase m k else (k', v) :: erase m k

/-- Writes a value in canonical form: the value an unlisted key reads as is not listed. -/
def set [DecidableEq β] (d : Nat → β) (m : FMap β) (k : Nat) (v : β) : FMap β :=
  if v = d k then erase m k else put m k v

/-- Changes the value of a key. -/
def modify (d : Nat → β) (m : FMap β) (k : Nat) (f : β → β) : FMap β := put m k (f (get d m k))

/-- Keys strictly rising. -/
def sorted : FMap β → Bool
  | [] => true
  | [_] => true
  | (k, _) :: (k', v') :: m => decide (k < k') && sorted ((k', v') :: m)

/-- The canonical form: keys strictly rising and no entry equal to what an unlisted key reads as. -/
def wf [DecidableEq β] (d : Nat → β) (m : FMap β) : Bool :=
  sorted m && m.all fun e => decide (e.2 ≠ d e.1)

end FMap

/-- Physical memory: bytes by physical address (R364); an unlisted byte reads 0 (R180, log 2). -/
abbrev Memory := List Host.Cell

namespace Memory

/-- What an unlisted address reads as. -/
def unlisted : Nat → Byte := fun _ => 0

/-- One byte. -/
def read (m : Memory) (pa : Nat) : Byte := FMap.get unlisted m pa

/-- Writes one byte, keeping the canonical form. -/
def write (m : Memory) (pa : Nat) (v : Byte) : Memory := FMap.set unlisted m pa v

/-- The canonical form holds. -/
def wf (m : Memory) : Bool := FMap.wf unlisted m

end Memory
end Sys2Proof.Machine
end

