-- ==== Sys2Proof/Machine/Bytes.lean ====
section
/-! DEFINITION. Bytes, bit fields and numbers: byte order, fields, sign extension (R16, R59, R94). -/
namespace Sys2Proof.Machine

/-- The n low bytes of a number, lowest address first (R16, R59). -/
def leBytes : Nat → Nat → List Byte
  | 0, _ => []
  | n + 1, v => .ofNat 8 v :: leBytes n (v / 256)

/-- The number that bytes hold, lowest address first. -/
def leNat : List Byte → Nat
  | [] => 0
  | b :: l => b.toNat + 256 * leNat l

/-- Field [hi:lo] of a number. -/
def bits (v hi lo : Nat) : Nat := v / 2 ^ lo % 2 ^ (hi + 1 - lo)
/-- Bit i of a number. -/
def bit (v i : Nat) : Bool := v / 2 ^ i % 2 == 1
/-- The n-bit value v read as two's complement. -/
def sxi (n v : Nat) : Int := if v % 2 ^ n < 2 ^ (n - 1) then (v % 2 ^ n : Nat) else (v % 2 ^ n : Nat) - (2 ^ n : Nat)
/-- sext(v, n) to 64 bits (R16). -/
def sextN (n v : Nat) : Word := .ofInt 64 (sxi n v)
/-- The word read as two's complement. -/
def sx (w : Word) : Int := w.toInt
/-- An integer modulo 2^n. -/
def wrapN (n : Nat) (k : Int) : Nat := (k % (2 ^ n : Nat)).toNat
/-- A 64-bit word of a number. -/
def w64 (n : Nat) : Word := .ofNat 64 n
/-- Bytes a[i], a[i + 1], … of a list, n of them, 0 beyond its end. -/
def slice (l : List Byte) (i n : Nat) : List Byte := ((l.drop i).take n) ++ List.replicate (n - (l.length - i)) 0
/-- n bytes at offset i of a record as a number. -/
def fieldAt (l : List Byte) (i n : Nat) : Nat := leNat (slice l i n)
/-- A word with bits 63:57 copying bit 56 (R94). -/
def canonical (w : Word) : Word := (w.setWidth 57).signExtend 64
/-- Whether bits 63:57 of an address copy bit 56 (R347). -/
def isCanonical (w : Word) : Bool := canonical w == w
/-- The first n of l, padded with zeros. -/
def padTo (n : Nat) (l : List Byte) : List Byte := slice l 0 n

end Sys2Proof.Machine
end

