-- ==== Sys2Proof/Machine/Sha256.lean ====
section
/-! DEFINITION. SHA-256 as FIPS 180-4 gives it, which R394, R395 and R415 name. -/
namespace Sys2Proof.Machine

/-- The greatest number below 2^n above r whose power e is at most v. -/
def rootFrom (e : Nat) : Nat → Nat → Nat → Nat
  | 0, r, _ => r
  | n + 1, r, v => rootFrom e n (if (r + 2 ^ n) ^ e ≤ v then r + 2 ^ n else r) v

/-- The first 32 bits of the fractional part of the root e of a number. -/
def rootBits (e p : Nat) : Nat := rootFrom e 36 0 (p * 2 ^ (32 * e)) % 2 ^ 32

/-- The first 64 primes: below 312 a number that none of the primes up to 17 divides is one. -/
def firstPrimes : List Nat :=
  (List.range 312).filter fun n => decide (2 ≤ n) && [2, 3, 5, 7, 11, 13, 17].all fun d => n == d || n % d != 0

/-- A word of 32 bits turned right by n. -/
def turned (x n : Nat) : Nat := x / 2 ^ n + x % 2 ^ n * 2 ^ (32 - n)

/-- The XOR of a word turned right by several amounts, and of what `last` gives. -/
def spread (x : Nat) (turns : List Nat) (last : Nat) : Nat := turns.foldl (fun m n => m ^^^ turned x n) last

/-- Word t of the message schedule from the 16 before it, the nearest first. -/
def nextWord (near : List Nat) : Nat :=
  let at_ (k : Nat) : Nat := near.getD (k - 1) 0
  (at_ 16 + spread (at_ 15) [7, 18] (at_ 15 / 8) + at_ 7 + spread (at_ 2) [17, 19] (at_ 2 / 1024)) % 2 ^ 32

/-- k further words of the schedule, the nearest first. -/
def moreWords : Nat → List Nat → List Nat
  | 0, l => l
  | k + 1, l => moreWords k (nextWord l :: l)

/-- The eight working words of the hash. -/
structure Digest where
  a : Nat
  b : Nat
  c : Nat
  d : Nat
  e : Nat
  f : Nat
  g : Nat
  h : Nat

/-- A step with a constant and a word of the schedule: the words move down, a and e are new. -/
def Digest.step (v : Digest) (kw : Nat) : Digest :=
  let chosen := (v.e &&& v.f) + ((2 ^ 32 - 1 - v.e) &&& v.g)
  let most := (v.a &&& (v.b ||| v.c)) ||| (v.b &&& v.c)
  let t := v.h + spread v.e [6, 11, 25] 0 + chosen + kw
  ⟨(t + spread v.a [2, 13, 22] 0 + most) % 2 ^ 32, v.a, v.b, v.c, (v.d + t) % 2 ^ 32, v.e, v.f, v.g⟩

/-- The sums of two sets of working words. -/
def Digest.plus (v w : Digest) : Digest :=
  let add (x y : Nat) : Nat := (x + y) % 2 ^ 32
  ⟨add v.a w.a, add v.b w.b, add v.c w.c, add v.d w.d, add v.e w.e, add v.f w.f, add v.g w.g, add v.h w.h⟩

/-- The words before the first block: square roots of the first eight primes. -/
def Digest.first : Digest :=
  let r (i : Nat) : Nat := rootBits 2 (firstPrimes.getD i 0)
  ⟨r 0, r 1, r 2, r 3, r 4, r 5, r 6, r 7⟩

/-- The n low bytes of a number, highest first. -/
def beBytes (n v : Nat) : List Byte := (leBytes n v).reverse

/-- The words after a block of 64 bytes: 64 steps with the cube roots of the first 64 primes. -/
def Digest.block (v : Digest) (blk : List Byte) : Digest :=
  let words := (List.range 16).map fun i => leNat (slice blk (4 * i) 4).reverse
  v.plus (((moreWords 48 words.reverse).reverse.zip (firstPrimes.map (rootBits 3))).foldl (fun u p => u.step (p.1 + p.2)) v)

/-- The words after n blocks. -/
def Digest.blocks : Nat → Digest → List Byte → Digest
  | 0, v, _ => v
  | n + 1, v, l => Digest.blocks n (v.block (l.take 64)) (l.drop 64)

/-- SHA-256 of a message: padded by a bit 1, zeros and its length in bits to whole blocks. -/
def sha256 (m : List Byte) : List Byte :=
  let padded := m ++ [0x80] ++ List.replicate ((119 - m.length % 64) % 64) 0 ++ beBytes 8 (8 * m.length)
  let v := Digest.blocks (padded.length / 64) Digest.first padded
  [v.a, v.b, v.c, v.d, v.e, v.f, v.g, v.h].flatMap (beBytes 4)

end Sys2Proof.Machine
end

