-- ==== Sys2Proof/Machine/State.lean ====
section
/-! DEFINITION. The state of the S640 as plain data: harts, cores, camps and the device's units, with the values of reset. -/
namespace Sys2Proof.Machine

/-- Why a step stops the machine. -/
inductive Fault where
  /-- Raised by `step` alone, where the module has no power (R410) and no outside event is left to come: safe. -/
  | noPower
  deriving DecidableEq, Repr

/-- Why a step has no meaning. -/
inductive Refusal where
  /-- An instruction of the table to which the model gives no meaning yet (raised by its arm of `exec`): safe. -/
  | notModelled (mnemonic : String)
  deriving DecidableEq, Repr

/-! ### Hart -/

/-- Two words of a definition-table entry (R43). -/
structure Def where
  w0 : Word
  w1 : Word
  deriving DecidableEq, Repr

/-- An armed loop level (R113). -/
structure LoopLevel where
  start : Word
  fin : Word
  counter : Reg
  deriving DecidableEq, Repr

/-- Whether a hart runs (R323 to R325). -/
inductive RunState where
  | idle | running | ended
  deriving DecidableEq, Repr

/-- The root and identity under which an access is translated (R347): issuing hart, privilege, root word, context, and the context's KEYSLOT as
its launch read it (R316, R418). -/
structure XCtx where
  h : Nat
  sup : Bool
  root : Word
  ctx : Nat
  key : Nat
  deriving DecidableEq, Repr

/-- A trap as an instruction raises it: the cause, TVAL, and the element it concerns (TRAPEI.NONE = 0). -/
structure Trap where
  code : Nat
  tval : Word
  elem : Option Nat
  deriving DecidableEq, Repr

/-- A page that a memory instruction of the queue translated (R192, R193): its virtual page of 4 KiB, the reason it was refused (0 for none, 8
where a table entry is uncorrectable), the physical address of its first byte, the level and the G bit of the leaf entry that maps it (R353), and the
identifier of the address space it was translated in. -/
structure Frame where
  page : Nat
  reason : Nat
  pa : Nat
  level : Nat
  global : Bool
  asid : Nat
  deriving DecidableEq, Repr

/-- What a sampled instruction will record as it completes (R392): words P0 and P3, and the translations that walked. `ticket` numbers, within its
core, an instruction that issued in this tick to a gated sampler whose window may yet open in the tick (R391). -/
structure Sample where
  p0 : Word
  tmiss : Nat
  stride : Word
  ticket : Option Nat
  deriving DecidableEq, Repr

/-- An entry of a hart's vector queue (R307): the instruction, its PC, the copies of VTYPE and VL and the values of its scalar
operands; what the scalar side must be put back to (R331); and how far the entry has come: its number in the core's issue
order, ESTART and one past its last element as it issued, the definition table its names are resolved in (R48), the elements of an indexed
access already done (R30), the pages it translated once its probe is settled (R192, R193), the entries it follows group by group (R53) and those it follows whole, the groups begun on each lane
group (R311; of an entry performed as one unit, 1 once it is begun and 2 once it is done), the rows of the matrix engine done, the groups of a load
whose data has arrived (R310), the elements performed one by one in groups not finished, the flags of what was performed by first element, the trap it has raised, and whether it has completed (R307). -/
structure QEntry where
  instr : Instr
  pc : Word
  vtype : Word
  vl : Nat
  va : Word
  vb : Word
  vc : Word
  vd : Word
  xs : Vector Word 32
  loops : Vector (Option LoopLevel) 6
  sflags : Word
  issued : Option Nat
  startsAt : Nat
  len : Nat
  defs : Vector Def 32
  edone : BitVec 8192
  settled : Bool
  frames : List Frame
  whole : Bool
  chain : List Nat
  follow : List Nat
  begun : Vector Nat 4
  arrived : Nat
  landed : List Nat
  parts : List Nat
  flags : List (Nat × BitVec 8)
  trap : Option Trap
  sampled : Option Sample
  ended : Bool
  deriving DecidableEq, Repr

/-- A wait in progress (R237): the instruction stands at the hart's PC. D, t0 and the mode were read at its begin; `order` is its place among
arrivals, `tries` its attempts, `obj` the object register's value, `data` the value expected or sent, `gen` the generation of a barrier
or the watched words of a VWAITA, `pa` its record, `hi` and `lo` what an escalation reports (R242), and `given` a status that its home has
already given it while the hart was frozen (R241). -/
structure Wait where
  instr : Instr
  dreg : Reg
  breg : Reg
  deadline : Word
  t0 : Word
  absMode : Bool
  order : Nat
  tries : Nat
  obj : Word
  data : Word
  gen : Nat
  pa : Nat
  scope : Option Nat
  bar : Bool
  hi : Word
  lo : Word
  given : Option Word
  deriving DecidableEq, Repr

/-- A stream queue (R198, R199); `pctx` is the context running as it was parked (R343). -/
structure Stream where
  base : Word
  stride : Word
  desc : Word
  fetched : Nat
  popped : Nat
  full : BitVec 16
  faulted : Bool
  done : Bool
  objVa : Word
  objPa : Option Nat
  x : XCtx
  pc : Word
  parked : Bool
  pctx : Nat := 0
  deriving DecidableEq, Repr

/-- A parked task record (R343). -/
structure ParkedTask where
  ctx : Nat
  id : Nat
  deriving DecidableEq, Repr

/-- A stop unit (R381). -/
structure StopUnit where
  w0 : Word
  w1 : Word
  fired : Bool
  deriving DecidableEq, Repr

/-- A step in progress (R383, R384): operations from this number on belong to it; the instruction once it has committed. -/
structure StepRequest where
  firstOp : Nat
  done : Option Instr
  deriving DecidableEq, Repr

/-- The decoder of a VLDZ (R203, R205): `pos` is 8 × IN + BITPOS, `pend` the bytes held, `fresh` the bytes this run has appended to the window (newest
first), `outs` the elements filled and not yet written to the plane (newest first), `next` the element that the run fills next; `spent` once it gives
no more, `broken` where the record fails its check. -/
structure Dz where
  limit : Nat
  pos : Nat
  st : Nat
  err : Nat
  final : Nat
  pend : List Byte
  clen : Nat
  cdist : Nat
  wpos : Nat
  wfill : Nat
  codes : List Nat
  fresh : List Byte
  outs : List Nat
  next : Nat
  spent : Bool
  broken : Bool
  deriving DecidableEq, Repr

/-- A hart (R22, R348, R379). `skid` is present from the arrival of a halt until the hart stops: the instructions it has retired and the elements it
has performed since. `dz` is the decoder of the VLDZ in progress. `tileSince` is the clock at which a TILEWAIT came to its turn behind entries that have
not retired (R158). -/
structure Hart where
  run : RunState
  kernel : Option Nat
  supEnded : Bool
  x : Vector Word 32
  pc : Word
  k : Vector (BitVec 8192) 8
  vtype : Word
  vl : Word
  estart : Word
  fctl : Word
  dlmode : Word
  dlstat : Word
  rtime : Word
  dlcap : Word
  dlesc : Word
  pwbase : Word
  pwlen : Word
  pwctl : Word
  hstat : Word
  tcause : Word
  tval : Word
  trappc : Word
  trapei : Word
  edone : BitVec 8192
  fmask : BitVec 8192
  smiss : BitVec 8192
  defs : Vector Def 32
  loops : Vector (Option LoopLevel) 6
  grpCeil : Nat
  queue : List QEntry
  wait : Option Wait
  tileSince : Option Word
  links : List Nat
  lanes : Vector Nat 64
  dropped : Nat
  addLines : List Nat
  task : Option Nat
  parkedTask : Option ParkedTask
  streams : Vector (Option Stream) 2
  satp : Word
  ctx : Nat
  xreason : Nat
  batch : List (Word × Nat)
  preempt : Option Word
  fetchBuf : FMap W32
  loopBuf : FMap W32
  share : Nat
  vcount : Nat
  issuable : Bool
  frozen : Bool
  dstat : Word
  dskid : Word
  dctl : Word
  dinj : Word
  stops : Vector StopUnit 4
  stepping : Option StepRequest
  skid : Option (Nat × Nat)
  dz : Option Dz
  deriving DecidableEq, Repr

/-! ### Core -/

/-- State of a tile (R154). -/
inductive TileState where
  | empty | filling | ready | draining
  deriving DecidableEq, Repr

/-- An entry of the tile table (R154). -/
structure Tile where
  st : TileState
  owner : Option Nat
  flt : Bool
  uses : Nat
  deriving DecidableEq, Repr

/-- A sector held in an L2 (R178): for each byte its value and whether this core's stores wrote it (R217). -/
abbrev Sector := Vector (Byte × Bool) 64

/-- A footprint (R17): absolute plane rows and cells, both ends included. -/
structure Foot where
  r0 : Nat
  r1 : Nat
  c0 : Nat
  c1 : Nat
  deriving DecidableEq, Repr

/-- The cells of one name of an instruction, as elements lo to hi - 1 of a placed shape (R44): bits of an element, the plane row of
the window's row 0, the origin, rows, columns, and 0 for rectangles, 1 and -1 for the two diagonals. -/
structure Shape where
  w : Nat
  base : Nat
  row0 : Int
  col0 : Int
  rows : Nat
  cols : Nat
  step : Int
  deriving DecidableEq, Repr

/-- A name as an instruction uses it from element lo to hi - 1. -/
structure Use where
  shape : Shape
  lo : Nat
  hi : Nat
  deriving DecidableEq, Repr

/-- An entry of the pending-write list (R51): the hart, the instruction's number in the core's issue order, its destinations, its sources,
whether a later instruction may chain on it, and those of its destinations that are not written element for element. -/
structure PendingWrite where
  h : Nat
  seq : Nat
  chains : Bool
  dsts : List Use
  srcs : List Use
  spread : List Use
  deriving DecidableEq, Repr

/-- A cached translation (R353): virtual page number at its level, ASID, leaf entry and level. -/
structure TlbEntry where
  vpn : Nat
  asid : Nat
  pte : Word
  level : Nat
  deriving DecidableEq, Repr

/-- An entry of the monitor table (R257); `near` where its home is the core's own L2 (R216). -/
structure Monitor where
  h : Nat
  line : Nat
  near : Bool
  woken : Bool
  deriving DecidableEq, Repr

/-- A scatter-add addition handed to a unit and not yet performed (R251): its hart, the kernel the hart then ran, its instruction's PC and number in
the core's issue order. -/
structure PendingAdd where
  h : Nat
  kernel : Option Nat
  pc : Word
  lane : Nat
  va : Word
  pa : Nat
  fmt : Nat
  value : Word
  seq : Nat
  deriving DecidableEq, Repr

/-- A vector store handed to the store queue of an L2 slice and not yet performed (R220, R307), with the PC and the context of its instruction. -/
structure HeldStore where
  h : Nat
  pc : Word
  ctx : Nat
  va : Word
  pa : Nat
  data : List Byte
  deriving DecidableEq, Repr

/-- A line with bytes that a hart's accesses of one class of R254, scalar or vector, stored and that wait for the memory-side home. -/
structure Owed where
  h : Nat
  vector : Bool
  line : Nat
  deriving DecidableEq, Repr

/-- A core (R40, R152, R154, R178, R181, R220, R254, R353, R391). `gated` are the instructions of this tick that a gated sampler has still to count. -/
structure Core where
  plane : FMap W32
  acc : FMap W32
  tiles : FMap Tile
  l2 : FMap Sector
  ro : FMap (List Byte)
  icache : FMap W32
  pend : List PendingWrite
  issues : Nat
  monitors : List Monitor
  perms : List Nat
  tlb : List TlbEntry
  pinned : List TlbEntry
  adds : List PendingAdd
  stores : List HeldStore
  owed : List Owed
  arbM : Nat
  lastMatrix : Nat
  samp0 : Word
  sampDone : Word
  sampCount : Nat
  gated : Nat
  badPlane : List Nat
  badAcc : List Nat
  badL2 : List Nat
  badFetch : List Nat
  deriving DecidableEq, Repr

/-! ### Camp -/

/-- State of a task (R278). -/
inductive TaskState where
  | waiting | ready | running
  deriving DecidableEq, Repr

/-- A live task (R270 to R279). Ranges are (base, length); `summaries` are the addresses of the nonzero SUMA words. -/
structure Task where
  id : Nat
  kernel : Nat
  ctx : Nat
  x : XCtx
  entry : Word
  abse : Word
  wdraw : Word
  cls : Nat
  keep : Bool
  reads : List (Nat × Nat)
  writes : List (Nat × Nat)
  summaries : List Nat
  g0 : Word
  g1 : Word
  obj : Word
  objPa : Nat
  st : TaskState
  path : Nat
  w : Bool
  demand : Nat
  late : Nat
  raised : List Nat
  deriving DecidableEq, Repr

/-- State of a merge network (R291). -/
inductive MergeState where
  | free | opened | closing | closed | draining
  deriving DecidableEq, Repr

/-- An entry of a merge (R290). -/
structure MEntry where
  row : Nat
  col : Nat
  val : W32
  port : Nat
  seq : Nat
  deriving DecidableEq, Repr

/-- A merge network (R289 to R301). `runs` are the spilled runs of the current half as (first record, records), `done` the bytes of the output area
that the drain has written ahead of its end (R304). -/
structure Merge where
  st : MergeState
  owner : Option (Nat × Option Nat)
  x : XCtx
  mode : Nat
  kk : Nat
  out : Word
  outcap : Nat
  spill : Word
  half : Nat
  store : List MEntry
  runs : List (Nat × Nat)
  cur : Nat
  used : Nat
  spilled : Nat
  seqs : Vector Nat 16
  accepted : Nat
  refused : Nat
  fullFlag : Bool
  failed : Nat
  passes : Nat
  closeObj : Option (Word × Nat)
  drainObj : Option (Word × Nat)
  drainRecorded : Bool
  done : List Nat
  deriving DecidableEq, Repr

/-- A watchpoint (R385). -/
structure Watch where
  addr : Word
  cfg : Word
  value : Word
  deriving DecidableEq, Repr

/-- A Spoor ring (R389); `lostReported` counts the drops already reported by LOST records. -/
structure Ring where
  base : Word
  cfg : Word
  head : Word
  tail : Word
  lost : Word
  mirror : Word
  lostReported : Nat
  deriving DecidableEq, Repr

/-- A camp (R270, R289, R385, R389, R425). -/
structure Camp where
  entrypc : Word
  sroot : Word
  floor : Byte
  ceil : Byte
  weight : Byte
  code : Byte
  mergeCtx : Nat
  mergeV : Bool
  mergeBusy : Bool
  tasks : List Task
  tlate : FMap Nat
  merge : Merge
  watches : Vector Watch 8
  ring : Ring
  deriving DecidableEq, Repr

/-! ### Device -/

/-- The record that a host queue has taken and not yet granted (R324); `stale` where the queue has been put into service anew since (R420). -/
structure WaitingRecord where
  ctx : Nat
  kimg : Word
  ser : Bool
  share : Nat
  vlceil : Nat
  harts : Nat
  cores : Nat
  dies : Nat
  entry : Word
  args : List Word
  levels : List (Nat × Nat × Nat)
  defs : List (Nat × Def)
  image : List Byte
  cpl : Word
  tent : Nat
  nobj : Nat
  slots : List Bool
  x : XCtx
  camps : Word
  pwin : Word
  plen : Word
  dlcap : Word
  dlesc : Nat
  aged : Bool
  stale : Bool
  order : Nat
  since : Nat
  deriving DecidableEq, Repr

/-- A host queue (R319, R420); `posted` gives the arrival order and time of each record posted and not yet taken. -/
structure HostQueue where
  base : Word
  ctx : Nat
  lcap : Byte
  en : Bool
  err : Bool
  head : W32
  tail : W32
  record : Option WaitingRecord
  last : Option Nat
  posted : List (Nat × Nat)
  deriving DecidableEq, Repr

/-- A context's block and digest (R393, R420), and the KEYSLOT, TENT and NOBJ of its record as its latest launch read them (R316). -/
structure Context where
  record : Word
  objtab : Word
  domain : Nat
  dbind : Bool
  export_ : Word
  keySlot : Nat
  tent : Nat
  nobj : Nat
  bdg : Bool
  bdgPending : Option Bool
  digest : List Byte
  folds : Nat
  refusedPages : Nat
  deriving DecidableEq, Repr

/-- What a hart that has ended left open, where its slot has been given to another kernel since (R324, R325). -/
structure Leftover where
  h : Nat
  streams : List Stream
  parked : Option ParkedTask
  deriving DecidableEq, Repr

/-- A kernel that has been granted and has not ended (R325, R394): its queue, its harts and those that live, CPL of its record. -/
structure Kernel where
  id : Nat
  ctx : Nat
  image : Word
  queue : Nat
  place : List Nat
  live : List Nat
  left : List Leftover
  cpl : Word
  tent : Nat
  nobj : Nat
  supervisorEnded : Bool
  dirty : List Nat
  x : XCtx
  deriving DecidableEq, Repr

/-- What an engine operation does (R206 to R214, R368 to R372). -/
inductive OpKind where
  | fill (tile : Nat) (va : Word) (rb : Nat) (pitch : Word)
  | drain (tile : Nat) (va : Word) (rb : Nat) (pitch : Word)
  | copy (src dst : Word) (desc : List Byte) (now : Option Nat)
  | bankop (fn : Nat) (start : Word) (len : Nat) (arg : Word) (done : List Nat) (nonzero : Bool) (faulted : Nat)
  | fread (handle : Nat) (entry : List Byte) (off : Nat) (len : Nat) (dst : Word) (blocks : List (Nat × Nat)) (failed : Nat)
  | fgather (list : Word) (dst : Word) (width count : Nat)
  | freduce (dst : Word) (vl fmt blk : Nat) (elems scales : List Byte) (mask : Option (List Byte)) (seq : Nat)
    (now : Option Nat)
  | fflag (dst : Word) (value : Word) (isAdd : Bool) (seq : Nat)
  | fcoll (desc : List Byte) (table : List Nat) (now : Option Nat) (seqs : List (Nat × Nat))
  deriving DecidableEq, Repr

/-- An engine operation that has issued and not ended (R195, R196); `pc` is its command's, `done` the pieces of it performed ahead of its end
(R232), `pctx` the context running as it was parked (R343). -/
structure Op where
  id : Nat
  h : Nat
  kernel : Option Nat
  x : XCtx
  kind : OpKind
  objVa : Word
  objPa : Option Nat
  pc : Word
  prog : Nat
  parked : Option Nat
  done : List Nat
  pctx : Nat := 0
  deriving DecidableEq, Repr

/-- A migration or shootdown in progress (R355, R356), with the translations it removed from each core. -/
structure XRequest where
  isShoot : Bool
  va : Word
  asid : Nat
  all : Bool
  pte : Nat
  frame : Nat
  toDevice : Bool
  cpl : Nat
  span : Nat
  original : Word
  removed : List (Nat × TlbEntry)
  deriving DecidableEq, Repr

/-- An event on its way to the ring of a camp (R389, R390): its fields, and DTIME when it happened; `ticket` where it is the record of an instruction of
a core that its gated sampler may not have sampled. -/
structure SpoorEvent where
  camp : Nat
  kind : Nat
  ctx : Nat
  src : Nat
  pc : Word
  time : Word
  ps : List Word
  ticket : Option (Nat × Nat)
  deriving DecidableEq, Repr

/-- A trigger unit (R387). -/
structure Trigger where
  cfg : Word
  cmp : Word
  wins : Nat
  isOpen : Bool
  deriving DecidableEq, Repr

/-- A key slot (R417): open, and the generation of its key. -/
structure KeySlot where
  isOpen : Bool
  gen : Nat
  deriving DecidableEq, Repr

/-- An agent's hold of a wide mark (R233): a kernel, or an external agent with the time of its last atomic. -/
inductive MarkHolder where
  | kernel (k : Nat)
  | external (since : Nat)
  deriving DecidableEq, Repr

/-- What a source chip's packets have done here (R367): the highest sequence below which all are applied, and those above. -/
structure Received where
  below : Nat
  above : List Nat
  deriving DecidableEq, Repr

/-- What this chip has sent to a target (R367): next sequence, the unacknowledged ones, and the sequence from which a halt of the chip holds what its
engines send (R373). -/
structure Sent where
  next : Nat
  unacked : List Nat
  holdFrom : Nat
  deriving DecidableEq, Repr

/-- A Kwaren port (R366). -/
structure Port where
  up : Bool
  replays : Nat
  linkSeq : Nat
  deriving DecidableEq, Repr

/-- A packet of a contribution to a collective (R372, R366): the chip and the domain it came from, the sender's descriptor fields and rank table, and
its bytes from an offset on. -/
structure Contribution where
  src : Nat
  domain : Nat
  gid : Nat
  gen : Nat
  rank : Nat
  op : Nat
  nrank : Nat
  root : Nat
  len : Nat
  table : List Nat
  off : Nat
  data : List Byte
  deriving DecidableEq, Repr

/-- The fabric side of the module (R363 to R373): `held` while the chip is halted at the device domain, `notice` the halt notice it has sent and
whether that one freezes, `reply` the answer to the last request of a peer, `routes` the ports to a chip in order, `closed` the pages of other
chips that refuse requests. `stalled` marks a step that would send a write packet which has no place or is held: the step does not take place. -/
structure Fabric where
  chip : Nat
  ports : Vector Port 16
  recv : FMap Received
  sent : FMap Sent
  halted : List (Nat × Bool)
  colls : List Contribution
  held : Bool
  notice : Option Bool
  reply : List (Option Word)
  routes : FMap (List Nat)
  closed : List (Nat × Nat)
  stalled : Bool
  deriving DecidableEq, Repr

/-- A staging slot lent to an NVMe command (R362): operation, its byte range within the object, and the completion queue it was submitted with. -/
structure Staging where
  op : Nat
  first : Nat
  len : Nat
  cq : Word
  deriving DecidableEq, Repr

/-- The queue state the device keeps for a KIND 2 handle (R362). -/
structure NvmeQueue where
  sq : Word
  cq : Word
  db : Word
  tail : Nat
  head : Nat
  phase : Bool
  deriving DecidableEq, Repr

/-- A failed row and the spare row of its array or bank that it maps to (R409). -/
structure RowRepair where
  fault : RowFault
  spare : Nat
  deriving DecidableEq, Repr

/-- A failed core and the spare core of its die, 0 to 3, that takes its numbers; none where the die has no spare left for it (R409). -/
structure CoreRepair where
  core : Nat
  spare : Option Nat
  deriving DecidableEq, Repr

/-- One copy of the start record (R410): sequence number, outcomes, counts, the repair maps, and the hash that was written with them. -/
structure StartRecord where
  seq : Nat
  outcomes : Vector Nat 16
  counts : Vector Nat 16
  rows : List RowRepair
  cores : List CoreRepair
  hash : List Byte
  deriving DecidableEq, Repr

/-- The bytes of a copy that its hash covers; the manual gives them no layout (DESIGN CHOICE, log 90). -/
def StartRecord.bytes (r : StartRecord) : List Byte :=
  leBytes 8 r.seq ++ r.outcomes.toList.map (BitVec.ofNat 8) ++ r.counts.toList.map (BitVec.ofNat 8) ++
    (r.rows.flatMap fun x => (if x.fault.sram then 1 else 0) :: leBytes 4 x.fault.unit ++ leBytes 4 x.fault.row ++ leBytes 1 x.spare) ++
    r.cores.flatMap fun x => 2 :: leBytes 2 x.core ++ leBytes 1 (x.spare.getD 255)

/-- The copy with the hash of its bytes. -/
def StartRecord.sealed (r : StartRecord) : StartRecord := { r with hash := sha256 r.bytes }

/-- The copy of a first start in which every step's main method succeeded and every part was sound. -/
def StartRecord.sound : StartRecord :=
  StartRecord.sealed ⟨1, Vector.ofFn fun i => if i.val < 11 then 1 else 0, Vector.replicate 16 0, [], [], []⟩

/-- A copy that was never written: its hash fails. -/
def StartRecord.blank : StartRecord := ⟨0, Vector.replicate 16 0, Vector.replicate 16 0, [], [], []⟩

/-- A halt in Ridgepole's order that has not reached its harts (R377, R378): harts, cause, unit, and DTIME when it was posted. -/
structure HaltOrder where
  harts : List Nat
  cause : Nat
  unit : Nat
  time : Word
  deriving DecidableEq, Repr

/-- What is fused in the I/O dies (R415): the SHA-256 hash of the public key that firmware is signed with, and the rollback counter. -/
structure Fuses where
  keyHash : List Byte
  rollback : Nat
  deriving DecidableEq, Repr

/-- The attestation side (R416): the one-time index, the number of the lower tree that the latest step 8 created, the measurements, and the report last
released. -/
structure Attest where
  index : Nat
  tree : Nat
  measurements : List (List Byte)
  report : List Byte
  deriving DecidableEq, Repr

/-- The events of the device, as a schedule names them: the rows of the table that no instruction word stands for. -/
inductive Event where
  /-- R308: the sequencer of a core issues one queue head. -/
  | entryIssue (core : Nat)
  /-- R311: a lane group of a core starts an element group. -/
  | laneGroupStart (core lane : Nat)
  /-- R307: the oldest entry of a hart's queue completes and retires. -/
  | entryComplete (h : Nat)
  /-- R335: the trap of the oldest entry of a hart's queue is taken. -/
  | trapEntry (h : Nat)
  /-- R333: a pending pre-emption request stops a hart. -/
  | asyncStop (h : Nat)
  /-- R237: a wake makes a waiting hart attempt again. -/
  | waitWake (h : Nat)
  /-- R237: the deadline of a wait passes. -/
  | waitDeadlineExpiry (h : Nat)
  /-- R199: the access side of queue q of a hart completes an entry fetch. -/
  | streamEntryFetched (h q : Nat)
  /-- R207. -/
  | tileFillComplete (id : Nat)
  /-- R155. -/
  | tileFillFault (id : Nat)
  /-- R155. -/
  | tileDrainComplete (id : Nat)
  /-- R207. -/
  | tileDrainFault (id : Nat)
  /-- R209. -/
  | acopyComplete (id : Nat)
  /-- R187: the n-th line of a BANKOP's range. -/
  | bankopLineOperation (id n : Nat)
  /-- R188. -/
  | bankopComplete (id : Nat)
  /-- R214: for a KIND 3 object, the bytes the peer returns, or none where the peer refuses or cannot be reached (REASON). -/
  | freadComplete (id : Nat) (peer : List Byte) (reason : Nat)
  /-- R361: the NVMe command in a staging slot completes with a status. -/
  | nvmeCompletion (slot : StagedSlot) (status : Nat)
  /-- R251: the scatter-add unit of a core performs its oldest addition. -/
  | scatterAddPerform (core : Nat)
  /-- R298. -/
  | mergePassEnd (camp : Nat)
  /-- R291. -/
  | mergeDrainComplete (camp : Nat)
  /-- R178: a core's L2 writes back a line, or evicts it. -/
  | l2WriteBack (core line : Nat) (evict : Bool)
  /-- R179: the memory-side cache writes a line back to far memory. -/
  | mscEviction (line : Nat)
  /-- R233. -/
  | wideMarkExpire (line : Nat)
  /-- R276. -/
  | taskSummaryRetest (camp : Nat)
  /-- R319. -/
  | doorbellWrite (q : Nat) (tail : W32)
  /-- R322. -/
  | startRecordTake (q : Nat)
  /-- R324: the waiting record of a queue is granted on the harts the allocator chose. -/
  | launchGrant (q : Nat) (place : List Nat)
  /-- R324. -/
  | recordAged (q : Nat)
  /-- R325. -/
  | kernelEnd (k : Nat)
  /-- R359. -/
  | cxlMemRead (pa : Nat)
  /-- R359. -/
  | cxlMemWrite (pa : Nat) (data : List Byte)
  /-- R355: the next request of the ring is a MIGRATE. -/
  | migrate
  /-- R355: the copy of the request in progress ends. -/
  | migrateCopyDone
  /-- R356: the next request of the ring is a SHOOT. -/
  | shoot
  /-- R357. -/
  | shootDrained
  /-- R366: a flit of a port fails its CRC and is sent again; whether it is accepted then. -/
  | fabricFlitReplay (port : Nat) (ok : Bool)
  /-- R366. -/
  | fabricLinkDown (port : Nat)
  /-- R367. -/
  | fabricWritePacket (p : Packet)
  /-- R369, R365: a request for elements of a width code, at remote addresses, or at device-memory offsets of the module's peer
  window. -/
  | fabricReadRequest (src domain width : Nat) (window : Bool) (addrs : List Word)
  /-- R371: a flag packet: source, sequence, domain, address, value, and whether it adds. -/
  | fabricFlagApply (src seq domain : Nat) (va value : Word) (isAdd : Bool)
  /-- R369: the elements the targets returned (none where refused), and the reason of a refusal. -/
  | fgatherComplete (id : Nat) (elems : List (Option Word)) (reason : Nat)
  /-- R370: reason 0 for success. -/
  | freduceComplete (id reason : Nat)
  /-- R372. -/
  | fcollComplete (id : Nat)
  /-- R373: chip, and whether the halt was a fabric freeze. -/
  | haltNotice (chip : Nat) (freeze : Bool)
  /-- R373. -/
  | releaseNotice (chip : Nat)
  /-- R377: a DREQ word with OP 1. -/
  | debugHaltRequest (w : Word)
  /-- R378: a DREQ word with OP 2. -/
  | debugReleaseRequest (w : Word)
  /-- R383: a DREQ word with OP 3. -/
  | debugStepRequest (w : Word)
  /-- R378. -/
  | haltArrival (h : Nat)
  /-- R384. -/
  | stepReport (h : Nat)
  /-- R380. -/
  | debugInject (h : Nat) (w : W32)
  /-- R381. -/
  | stopUnitFire (h u : Nat)
  /-- R388. -/
  | triggerTick
  /-- R413: Ridgepole's estimates for the tick, and whether a limit of R414 is threatened. -/
  | ridgepoleGrantTick (power : PowerEstimate) (limit : Bool)
  /-- R411: what the parts tested report, step 1 first; the ports that fail to train, the cores and rows that fail, and the firmware images loaded. -/
  | powerOnStart (trials : List StepTrial) (ports : List Nat) (failed : Failing) (images : List Firmware)
  /-- R417. -/
  | keyctlOpen (slot : Nat)
  /-- R417. -/
  | keyctlClose (slot : Nat)
  /-- R425. -/
  | mergeAssignWrite (camp : Nat) (w : Word)
  /-- R420: bytes written at an offset within the block of queue q. -/
  | hostQueueCtlWrite (q off n : Nat) (v : Word)
  /-- R337. -/
  | preemptRequestPost (h : Nat) (w : Word)
  /-- R344: record number i of a hart: 0 to 15 copies, 16 and 17 streams, 18 the task. -/
  | engineRecordDiscard (h i : Nat)
  /-- R349: a store to SATP (field 0) or CTX (field 1) of a hart's translation record. -/
  | satpWrite (h field : Nat) (v : Word)
  /-- R393: a write of DGCTL of a context. -/
  | badgerEnable (ctx : Nat) (v : Word)
  /-- R19: n bytes written at an offset of the management block. -/
  | registerWrite (off n : Nat) (v : Word)
  /-- R233: a host atomic over CXL. -/
  | hostAtomic (pa : Nat) (op : AtomicOp) (n : Nat) (operand : Word)
  /-- R367: a write packet is acknowledged (reason 0), refused at its target (1, 2), or abandoned for want of a route (9). -/
  | fabricAcknowledgement (chip seq reason : Nat)
  /-- R416: the requester's nonce. -/
  | attestationReportRequest (nonce : List Byte)
  /-- R410. -/
  | powerLoss
  /-- R310: the data of the next group of a hart's issued load arrives. -/
  | loadDataArrival (h : Nat)
  deriving DecidableEq, Repr

/-- Which agent acts next, and the choices the manual leaves among listed outcomes (R4). -/
inductive Agenda where
  /-- A hart commits its next instruction; an instruction for the queue runs whole. -/
  | run (h : Nat)
  /-- A hart commits its next instruction; an instruction for the queue stays there. -/
  | enqueue (h : Nat)
  /-- A device event of the table. -/
  | event (e : Event)
  /-- Device time passes. -/
  | time (ns : Nat)
  /-- From now on a step takes this much device time. -/
  | pace (ns : Nat)
  /-- A hart fetches words ahead of its PC into its fetch buffer (R95). -/
  | prefetch (h : Nat)
  /-- The instruction cache of a core drops a word (R95). -/
  | icacheDrop (core pa : Nat)
  /-- The instruction cache of a core takes a word anew from L2 (R96). -/
  | icacheLoad (core pa : Nat)
  /-- The loop buffer of a hart drops what it holds (R116). -/
  | loopDrop (h : Nat)
  /-- A halt posted in Ridgepole's order reaches a hart, which goes on to its stop (R378). -/
  | arrive (h : Nat)
  /-- Element i of the n-th entry of a hart's queue is performed by itself (R191, R333). -/
  | element (h n i : Nat)
  /-- The data of group j of the n-th entry of a hart's queue, a load, arrives (R310). -/
  | dataOf (h n j : Nat)
  /-- From now on the slices' store queues keep what they are handed and a fence waits, or both are done at once (R220, R254). -/
  | slowStores (on : Bool)
  /-- A slice performs the n-th store that a core's store queues hold (R220). -/
  | sliceStore (core n : Nat)
  /-- The matrix engine of a core finishes the next row of the instruction it holds (R163). -/
  | matrixRow (core : Nat)
  /-- The translation cache of a core drops an entry (R353). -/
  | tlbDrop (core n : Nat)
  /-- The read-only buffer of a core drops a sector (R181). -/
  | roDrop (core sector : Nat)
  /-- A copy makes progress by up to n bytes (R195). -/
  | opProgress (id n : Nat)
  /-- Piece n of an engine operation is performed ahead of its end, with the bytes that another chip returned for it (R232). -/
  | opPiece (id n : Nat) (data : List Byte)
  /-- A pending addition of a core, the n-th, is performed where no earlier one meets its bytes (R251). -/
  | addition (core n : Nat)
  /-- The drain of a merge network writes n bytes of its output from an offset on ahead of its end (R304). -/
  | mergePiece (camp off n : Nat)
  /-- A sector of memory becomes uncorrectable (R405). -/
  | poison (sector : Nat)
  /-- A 32-bit word of a local store becomes uncorrectable (R405). -/
  | poisonLocal (word : Nat)
  /-- An error is corrected and counted in the error log: where it was found, its location, its address, the hart (R405). -/
  | corrected (src : Nat) (loc : Word) (pa id : Nat)
  /-- A row of an SRAM array or of a DRAM bank fails at run time (R409). -/
  | rowFails (sram : Bool) (unit row : Nat)
  /-- A core fails at run time (R409). -/
  | coreFails (core : Nat)
  /-- A start whose record is cut short: the power is lost while the record is written (R410). -/
  | startCut (trials : List StepTrial) (ports : List Nat) (failed : Failing) (images : List Firmware)
  /-- A plane cell becomes uncorrectable (R405). -/
  | poisonPlane (core cell : Nat)
  /-- An accumulator cell becomes uncorrectable (R405). -/
  | poisonAcc (core cell : Nat)
  /-- A 32-bit word of the copy that a core's L2 holds becomes uncorrectable. -/
  | poisonL2 (core word : Nat)
  /-- A word of a core's instruction cache becomes uncorrectable. -/
  | poisonFetch (core pa : Nat)
  /-- The host or a peer writes a byte of its own memory. -/
  | foreign (pa : Nat) (v : Byte)
  /-- Another chip refuses requests to a page of its memory from now on, or does so no more (R365). -/
  | peerPage (chip page : Nat) (closed : Bool)
  deriving DecidableEq, Repr

/-- The whole device. `recordB` says that copy B of the start record is in force (R410); `heldCamps` and `heldBefore` are the camps that held a resident
hart in this tick of clock grants and in the one before (R413). `bad` are the uncorrectable sectors of memory, `badLocal` the uncorrectable 32-bit
words of the local stores (R405). `ticked` holds, once the triggers of this tick have been evaluated, the kinds that its windows record and, in bit 8,
whether gated samplers count in it, `spoorQueue` the tick's events on their way to the rings (R387, R388). -/
structure State where
  agenda : List Agenda
  cur : Nat
  stepNs : Nat
  defer : Bool
  slow : Bool
  inject : Option (Nat × W32)
  retests : List Nat
  power : Bool
  dtime : Word
  mem : Memory
  tags : FMap Byte
  bad : List Nat
  badLocal : List Nat
  mscDirty : List Nat
  marks : FMap (List MarkHolder)
  keys : FMap KeySlot
  sectorKeys : FMap (Nat × Nat)
  frameKeys : Word
  hdm : Nat
  harts : FMap Hart
  cores : FMap Core
  camps : FMap Camp
  health : Word
  tick : Nat
  heldCamps : List Nat
  heldBefore : List Nat
  errHead : Nat
  errRing : FMap (List Byte)
  startA : StartRecord
  startB : StartRecord
  recordB : Bool
  attest : Attest
  ringBase : Word
  ringLcap : Word
  ringHead : Word
  ringTail : Word
  xreqs : List XRequest
  queues : FMap HostQueue
  contexts : FMap Context
  kernels : List Kernel
  nextKernel : Nat
  nextTask : Nat
  nextOp : Nat
  arrivals : Nat
  ops : List Op
  staging : FMap Staging
  nvme : FMap NvmeQueue
  dreq : Word
  halts : List HaltOrder
  triggers : Vector Trigger 8
  trigEvents : List (BitVec 16)
  ticked : Option (BitVec 9)
  spoorQueue : List SpoorEvent
  fabric : Fabric
  fuses : Fuses
  hostReply : Option (List Byte)
  deriving DecidableEq, Repr

/-! ### Reset -/

namespace Hart

/-- Hart h before its first start (R22 to R39; log 1 for what the manual gives no reset value). -/
def reset (h : Nat) : Hart where
  run := .idle
  kernel := none
  supEnded := false
  x := Vector.replicate 32 0
  pc := 0
  k := Vector.replicate 8 0
  vtype := 0x4000
  vl := 0
  estart := 0
  fctl := 0
  dlmode := 0
  dlstat := 0
  rtime := 0
  dlcap := 0x05F5E100
  dlesc := 8
  pwbase := BitVec.ofNat 64 (64 * (h % 4))
  pwlen := 64
  pwctl := 0
  hstat := 1
  tcause := 0
  tval := 0
  trappc := 0
  trapei := 0x8000000000000000
  edone := 0
  fmask := 0
  smiss := 0
  defs := Vector.replicate 32 ⟨0, 0⟩
  loops := Vector.replicate 6 none
  grpCeil := 3
  queue := []
  wait := none
  tileSince := none
  links := []
  lanes := Vector.replicate 64 0
  dropped := 0
  addLines := []
  task := none
  parkedTask := none
  streams := Vector.replicate 2 none
  satp := 0
  ctx := 0
  xreason := 0
  batch := []
  preempt := none
  fetchBuf := []
  loopBuf := []
  share := 1
  vcount := 0
  issuable := false
  frozen := false
  dstat := 0
  dskid := 0
  dctl := 0
  dinj := 0
  stops := Vector.replicate 4 ⟨0, 0, false⟩
  stepping := none
  skid := none
  dz := none

end Hart

namespace Tile
/-- R154. -/
def reset : Nat → Tile := fun _ => ⟨.empty, none, false, 0⟩
end Tile

namespace Core
/-- R40, R152, R154. -/
def reset : Nat → Core := fun _ =>
  { plane := [], acc := [], tiles := [], l2 := [], ro := [], icache := [], pend := [], issues := 0, monitors := [], perms := [],
    tlb := [], pinned := [], adds := [], stores := [], owed := [], arbM := 0, lastMatrix := 3, samp0 := 0, sampDone := 0, sampCount := 0, gated := 0, badPlane := [],
    badAcc := [], badL2 := [], badFetch := [] }
end Core

namespace Merge
/-- R289, R291. -/
def reset : Merge :=
  { st := .free, owner := none, x := ⟨0, true, 0, 0, 0⟩, mode := 0, kk := 0, out := 0, outcap := 0, spill := 0, half := 0,
    store := [], runs := [], cur := 0, used := 0, spilled := 0, seqs := Vector.replicate 16 0, accepted := 0, refused := 0,
    fullFlag := false, failed := 0, passes := 0, closeObj := none, drainObj := none, drainRecorded := false, done := [] }
end Merge

namespace Camp
/-- R385, R389, R425. -/
def reset : Nat → Camp := fun _ =>
  { entrypc := 0, sroot := 0, floor := 0, ceil := 24, weight := 1, code := 0, mergeCtx := 0, mergeV := false,
    mergeBusy := false, tasks := [], tlate := [], merge := Merge.reset, watches := Vector.replicate 8 ⟨0, 0, 0⟩,
    ring := ⟨0, 6, 0, 0, 0, 0, 0⟩ }
end Camp

namespace HostQueue
/-- R420. -/
def reset : Nat → HostQueue := fun _ => ⟨0, 0, 0, false, false, 0, 0, none, none, []⟩
end HostQueue

namespace Context
/-- R393, R420. -/
def reset : Nat → Context := fun _ => ⟨0, 0, 0, false, 0, 0, 0, 0, false, none, List.replicate 32 0, 0, 0⟩
end Context

namespace KeySlot
/-- R418: slot 0 is opened by step 8 of the start, every other slot is closed. -/
def reset : Nat → KeySlot := fun n => ⟨n == 0, 0⟩
end KeySlot

/-- The device after a successful start (R411): no kernel has been launched and every hart is idle. -/
def State.reset : State where
  agenda := []
  cur := 0
  stepNs := 1
  defer := false
  slow := false
  inject := none
  retests := []
  power := true
  dtime := 0
  mem := []
  tags := []
  bad := []
  badLocal := []
  mscDirty := []
  marks := []
  keys := []
  sectorKeys := []
  frameKeys := 0
  hdm := 0
  harts := []
  cores := []
  camps := []
  health := 1
  tick := 0
  heldCamps := []
  heldBefore := []
  errHead := 0
  errRing := []
  startA := StartRecord.sound
  startB := StartRecord.blank
  recordB := false
  attest := ⟨0, 0, [], []⟩
  ringBase := 0
  ringLcap := 0
  ringHead := 0
  ringTail := 0
  xreqs := []
  queues := []
  contexts := []
  kernels := []
  nextKernel := 0
  nextTask := 0
  nextOp := 0
  arrivals := 0
  ops := []
  staging := []
  nvme := []
  dreq := 0
  halts := []
  triggers := Vector.replicate 8 ⟨0xC000C00000000000, 0, 0, false⟩
  trigEvents := []
  ticked := none
  spoorQueue := []
  fabric := ⟨0, Vector.replicate 16 ⟨true, 0, 0⟩, [], [], [], [], false, none, [], [], [], false⟩
  fuses := ⟨List.replicate 32 0, 0⟩
  hostReply := none

end Sys2Proof.Machine
end

