-- ==== Sys2Proof/Machine/Ops.lean ====
section
/-! DEFINITION. The shared operations: access to harts, cores and camps, registers, bytes, the physical address map, line
compression, the homes of memory, L2, marks and links, the error log, taking an exception and returning from one. -/
namespace Sys2Proof.Machine

/-- The outcome of a step. -/
abbrev Out := Host.Outcome State Fault Refusal

/-! ### Units -/

/-- A hart. -/
def State.hart (s : State) (h : Nat) : Hart := FMap.get Hart.reset s.harts h
/-- A core; core c holds harts 4c to 4c + 3. -/
def State.core (s : State) (c : Nat) : Core := FMap.get Core.reset s.cores c
/-- A camp; camp p holds cores 16p to 16p + 15. -/
def State.camp (s : State) (p : Nat) : Camp := FMap.get Camp.reset s.camps p
/-- A host queue. -/
def State.queue (s : State) (q : Nat) : HostQueue := FMap.get HostQueue.reset s.queues q
/-- A context's block. -/
def State.context (s : State) (x : Nat) : Context := FMap.get Context.reset s.contexts x
/-- A key slot. -/
def State.keySlot (s : State) (n : Nat) : KeySlot := FMap.get KeySlot.reset s.keys n

def State.setHart (s : State) (h : Nat) (v : Hart) : State := { s with harts := FMap.put s.harts h v }
def State.setCore (s : State) (c : Nat) (v : Core) : State := { s with cores := FMap.put s.cores c v }
def State.setCamp (s : State) (p : Nat) (v : Camp) : State := { s with camps := FMap.put s.camps p v }
def State.setQueue (s : State) (q : Nat) (v : HostQueue) : State := { s with queues := FMap.put s.queues q v }
def State.setContext (s : State) (x : Nat) (v : Context) : State := { s with contexts := FMap.put s.contexts x v }

def State.modHart (s : State) (h : Nat) (f : Hart → Hart) : State := s.setHart h (f (s.hart h))
def State.modCore (s : State) (c : Nat) (f : Core → Core) : State := s.setCore c (f (s.core c))
def State.modCamp (s : State) (p : Nat) (f : Camp → Camp) : State := s.setCamp p (f (s.camp p))

/-- The acting hart. -/
def State.h (s : State) : Hart := s.hart s.cur
/-- The acting hart replaced. -/
def State.setH (s : State) (v : Hart) : State := s.setHart s.cur v
/-- The acting hart changed. -/
def State.modH (s : State) (f : Hart → Hart) : State := s.setHart s.cur (f s.h)

/-- The core of a hart (R22, R375). -/
def coreOf (h : Nat) : Nat := h / 4
/-- The camp of a hart. -/
def campOf (h : Nat) : Nat := h / 64
/-- The aperture slot of a core (R173): (die ≪ 7) | (camp ≪ 4) | core. -/
def slotOfCore (c : Nat) : Nat := c / 80 * 128 + c / 16 % 5 * 16 + c % 16
/-- HARTID of a hart (R38). -/
def hartId (h : Nat) : Nat := h / 320 * 8192 + h / 64 % 5 * 1024 + h / 4 % 16 * 64 + h % 4

/-! ### Registers -/

/-- x[r]; x0 reads 0 (R22). -/
def Hart.getX (a : Hart) (r : Reg) : Word := if r = 0 then 0 else a.x[r.toNat]
/-- x[r] := v; a write to x0 is discarded (R99). -/
def Hart.setX (a : Hart) (r : Reg) (v : Word) : Hart := if r = 0 then a else { a with x := a.x.set r.toNat v }
/-- k[r]. -/
def Hart.getK (a : Hart) (r : KReg) : BitVec 8192 := a.k[r.toNat]
/-- k[r] := v. -/
def Hart.setK (a : Hart) (r : KReg) (v : BitVec 8192) : Hart := { a with k := a.k.set r.toNat v }
/-- An entry of the definition table (R43). -/
def Hart.getDef (a : Hart) (r : Reg) : Def := a.defs[r.toNat]
/-- The stream queue q replaced. -/
def Hart.setStream (q : Nat) (v : Option Stream) (a : Hart) : Hart :=
  { a with streams := Vector.ofFn fun i => if i.val = q then v else a.streams[i] }
/-- HSTAT.PRV (R38). -/
def Hart.sup (a : Hart) : Bool := a.hstat.getLsbD 0
/-- VL as a number (R28). -/
def Hart.vlNat (a : Hart) : Nat := a.vl.toNat
/-- ESTART as a number (R30). -/
def Hart.es (a : Hart) : Nat := a.estart.toNat

/-! ### Status words -/

/-- A status word (R18): code in bits 7:0, detail at its final position. -/
def status (code detail : Nat) : Word := w64 (code + detail)
def codeOK : Nat := 0
def codeTIMEOUT : Nat := 1
def codePARTIAL : Nat := 2
def codeWITHDRAWN : Nat := 3
def codeFULL : Nat := 4
def codePARTNER : Nat := 5
def codeSCOPE : Nat := 6
def codeFAULTED : Nat := 7
/-- The pending value of a completion object (R196). -/
def pendingWord : Word := 0xFFFFFFFFFFFFFFFF

/-! ### The physical address map (R364) -/

/-- What a physical address reaches. -/
inductive Place where
  | device (off : Nat)
  | host
  | peer (chip off : Nat)
  | mgmt (off : Nat)
  | local_ (slot off : Nat)
  | nothing
  deriving DecidableEq, Repr

/-- The range of R364 that holds an address; the module's own peer window is its device memory (R363), and offsets of a window from 1.5 TiB on reach
nothing at their target. -/
def State.place (s : State) (pa : Nat) : Place :=
  if s.hdm ≤ pa ∧ pa < s.hdm + Config.hdmLen then .device (pa - s.hdm)
  else if pa < Config.peerBase then .host
  else if pa < Config.peerTop then
    let chip := (pa - Config.peerBase) / Config.peerLen
    let off := (pa - Config.peerBase) % Config.peerLen
    if chip == s.fabric.chip && decide (off < Config.hdmLen) then .device off else .peer chip off
  else if Config.mgmtBase ≤ pa ∧ pa < Config.mgmtBase + Config.mgmtLen then .mgmt (pa - Config.mgmtBase)
  else if Config.apertureBase ≤ pa ∧ pa < Config.apertureBase + Config.apertureLen then
    .local_ ((pa - Config.apertureBase) / Config.apertureSlot) ((pa - Config.apertureBase) % Config.apertureSlot)
  else .nothing

/-- The address under which memory keeps a byte: the module's own window is folded onto its device memory (R363). -/
def State.fold (s : State) (pa : Nat) : Nat :=
  match s.place pa with
  | .device off => s.hdm + off
  | _ => pa

/-- The copy of the start record in force (R410). -/
def State.startRecord (s : State) : StartRecord := if s.recordB then s.startB else s.startA

/-- Cores that no spare replaced: they are disabled (R409). -/
def StartRecord.deadCores (r : StartRecord) : List Nat := r.cores.filterMap fun x => if x.spare.isNone then some x.core else none

/-- Whether a core number is an enabled core (R38, R409). -/
def State.coreEnabled (s : State) (c : Nat) : Bool := decide (c < 640) && !s.startRecord.deadCores.contains c

/-- The enabled core an aperture slot belongs to (R173). -/
def State.slotCore (s : State) (slot : Nat) : Option Nat :=
  let c := slot / 128 * 80 + slot / 16 % 8 * 16 + slot % 16
  if slot / 16 % 8 < 5 && s.coreEnabled c then some c else none

/-- Physical address of the save-page area (R336). -/
def State.saveBase (s : State) : Nat := s.hdm + Config.hdmLen - Config.saveFromTop
/-- Physical address of the NVMe staging area (R362). -/
def State.stageBase (s : State) : Nat := s.hdm + Config.hdmLen - Config.stageFromTop
/-- Physical address of a byte of a hart's save page (R336). -/
def State.savePa (s : State) (h off : Nat) : Nat := s.saveBase + Config.savePage * h + off

/-! ### Line compression (R182 to R185) -/

/-- The n-byte little-endian words of some bytes, k of them. -/
def chunks (n : Nat) : Nat → List Byte → List Nat
  | 0, _ => []
  | k + 1, l => leNat (l.take n) :: chunks n k (l.drop n)

/-- Whether every n-byte word minus word 0 lies in d signed bytes (R183). -/
def deltasFit (n d : Nat) (ws : List Nat) : Bool :=
  let m := 2 ^ (8 * n)
  let half := 2 ^ (8 * d - 1)
  ws.all fun w => let x := (w + m - ws.headD 0) % m; decide (x < half) || decide (m - half ≤ x)

/-- The tag of the encoding that the encoder takes (R184). -/
def encodeTag (line : List Byte) : Byte :=
  if line.all (· == 0) then 0x00
  else
    let w8 := chunks 8 32 line
    if w8.all (· == w8.headD 0) then 0x11
    else if deltasFit 8 1 w8 then 0x12
    else
      let w4 := chunks 4 64 line
      if deltasFit 4 1 w4 then 0x24
      else if deltasFit 8 2 w8 then 0xA3
      else if deltasFit 4 2 w4 then 0x35
      else 0xC6

/-- A tag the encoder writes; any other makes its line uncorrectable (R182). -/
def tagOk (t : Byte) : Bool := [0x00, 0x11, 0x12, 0x24, 0xA3, 0x35, 0xC6].contains t
/-- The RAW tag. -/
def tagRaw : Byte := 0xC6
/-- The error tag (R406). -/
def tagError : Byte := 0xFF

/-- The stored bytes of a line under a tag, whole sectors (R183). -/
def storeLine (t : Byte) (line : List Byte) : List Byte :=
  let deltas (n d : Nat) (ws : List Nat) : List Byte :=
    leBytes n (ws.headD 0) ++ ws.flatMap fun w => leBytes d ((w + 2 ^ (8 * n) - ws.headD 0) % 2 ^ (8 * n))
  if t = 0x00 then []
  else if t = 0x11 then padTo 64 (line.take 8)
  else if t = 0x12 then padTo 64 (deltas 8 1 (chunks 8 32 line))
  else if t = 0x24 then padTo 128 (deltas 4 1 (chunks 4 64 line))
  else if t = 0xA3 then padTo 128 (deltas 8 2 (chunks 8 32 line))
  else if t = 0x35 then padTo 192 (deltas 4 2 (chunks 4 64 line))
  else padTo 256 line

/-- The line that stored bytes expand to (R183). -/
def expandLine (t : Byte) (st : List Byte) : List Byte :=
  let expand (n d k : Nat) : List Byte :=
    (chunks d k (st.drop n)).flatMap fun x => leBytes n (wrapN (8 * n) (leNat (st.take n) + sxi (8 * d) x))
  if t = 0x00 then List.replicate 256 0
  else if t = 0x11 then (List.replicate 32 (padTo 8 st)).flatten
  else if t = 0x12 then expand 8 1 32
  else if t = 0x24 then expand 4 1 64
  else if t = 0xA3 then expand 8 2 32
  else if t = 0x35 then expand 4 2 64
  else padTo 256 st

/-! ### The memory-side home (R179, R185, R217) -/

/-- The tag of a line: ZERO after the start (R180). -/
def State.tag (s : State) (line : Nat) : Byte := FMap.get (fun _ => 0) s.tags line

/-- The key slot the frame-key table names for a frame of device memory (R417, R419); the base 0 names no table, and the save pages and the staging
area are under slot 0 (R362, R418). -/
def State.frameSlot (s : State) (pa : Nat) : Nat :=
  if s.frameKeys = 0 || decide (s.hdm + Config.hdmLen - Config.saveFromTop ≤ pa) then 0
  else
    let e := s.frameKeys.toNat + 2 * ((pa - s.hdm) / 4096)
    (s.mem.read e).toNat + 256 * (s.mem.read (e + 1)).toNat % 4096

/-- A byte at its home. A line with the ZERO tag has no stored sector; a sector stored under another key than the one now in
force reads as bytes nothing is known of (R417). -/
def State.homeByte (s : State) (pa : Nat) : Byte :=
  match s.place pa with
  | .device off =>
    let p := s.hdm + off
    if s.tag (p / 256) = 0 then 0
    else
      let slot := s.frameSlot p
      let k := s.keySlot slot
      if k.isOpen && FMap.get (fun _ => (0, 0)) s.sectorKeys (p / 64) == (slot, k.gen) then s.mem.read p
      else Config.staleByte p slot k.gen
  | _ => s.mem.read pa

/-- n bytes at their home. -/
def State.homeBytes (s : State) (pa n : Nat) : List Byte := (List.range n).map fun i => s.homeByte (pa + i)

/-- Whether reading an address meets uncorrectable data, and the SRC of R334: 4 the line's tag, 3 a local store, 0 memory. -/
def State.badAt (s : State) (pa : Nat) : Option Nat :=
  let p := s.fold pa
  match s.place p with
  | .device _ => if !tagOk (s.tag (p / 256)) then some 4 else if s.bad.contains (p / 64) then some 0 else none
  | .local_ _ _ => if s.badLocal.contains (p / 4) then some 3 else none
  | _ => if s.bad.contains (p / 64) then some 0 else none

/-- Entries of the error log (R408). -/
def State.logError (s : State) (srcLoc : Word) (pa kind id : Nat) : State :=
  let e := leBytes 8 s.dtime.toNat ++ leBytes 8 srcLoc.toNat ++ leBytes 8 pa ++ leBytes 1 kind ++ leBytes 2 id ++
    List.replicate 5 0
  let ucnt := s.health.toNat / 256 % 4096
  let hl := if kind == 1 && ucnt != 4095 then s.health + 256 else s.health
  { s with
    errRing := FMap.put s.errRing (s.errHead % 256) e
    errHead := s.errHead + 1
    health := if 256 ≤ s.errHead then hl ||| 4 else hl }

/-- SRC and LOC as TVAL of MACHINE_CHECK has them (R334). -/
def mcValue (later : Bool) (src loc : Nat) : Word :=
  w64 ((if later then 2 ^ 63 else 0) + src * 2 ^ 60 + loc % 2 ^ 57)

/-- Bytes of one line written to plain storage. -/
def writeCells (m : Memory) (pa : Nat) : List (Nat × Byte) → Memory
  | [] => m
  | (o, b) :: l => writeCells (m.write (pa + o) b) pa l

/-- The external hold of a wide mark, removed (R233). -/
def MarkHolder.isExternal : MarkHolder → Bool
  | .external _ => true
  | .kernel _ => false

/-- An uncorrectable error that an agent found, in the log (R408): LOC is its virtual address, or a byte offset in a local store. -/
def State.logBad (s : State) (src : Nat) (va : Word) (pa id : Nat) : State :=
  let loc := if src = 3 then (s.fold pa - Config.apertureBase) % Config.apertureSlot else va.toNat
  s.logError (mcValue false src loc) (s.fold pa / 64 * 64) 1 id

/-- A write of some bytes of one line of 256 bytes at its home, as (offset in the line, byte); the second part is false where
it is refused (R185, R407). `found` is the virtual address and the number of the agent that a refusal is logged with (R408); `whole` makes it
a full-line write though the bytes that no store wrote stay as the home has them (R178, R217). -/
def State.homeMerge (s : State) (line : Nat) (ws : List (Nat × Byte)) (found : Word × Nat := (0, 0xFFFF)) (whole : Bool := false) :
    State × Bool :=
  let base := line * 256
  match s.place base with
  | .device off =>
    let p := s.hdm + off
    let ln := p / 256
    let full := whole || decide (256 ≤ ws.length)
    let t := s.tag ln
    if !full && !tagOk t then (s.logBad 4 found.1 (p + (ws.headD (0, 0)).1) found.2, false)
    else
      let touched := ws.map fun w => (p + w.1) / 64
      let old := if 256 ≤ ws.length then [] else (List.range 256).map fun i => (i, s.homeByte (p + i))
      let kept := if t = tagRaw ∧ ¬full then old.filter fun w => touched.contains ((p + w.1) / 64) else old
      let m := writeCells (writeCells s.mem p kept) p ws
      let line' := (List.range 256).map fun i => m.read (p + i)
      let t' := if full || t ≠ tagRaw then encodeTag line' else t
      let slot := s.frameSlot p
      let key := (slot, (s.keySlot slot).gen)
      let secs := if full || t ≠ tagRaw then (List.range 4).map (p / 64 + ·) else touched
      let s1 := { s with
        mem := m
        tags := FMap.set (fun _ => 0) s.tags ln t'
        sectorKeys := secs.foldl (fun a x => FMap.set (fun _ => (0, 0)) a x key) s.sectorKeys
        mscDirty := if s.mscDirty.contains ln then s.mscDirty else ln :: s.mscDirty }
      (if full then
        { s1 with
          bad := s1.bad.filter fun x => x / 4 != ln
          marks := FMap.set (fun _ => []) s1.marks ln
            ((FMap.get (fun _ => []) s1.marks ln).filter fun m => !m.isExternal) }
       else s1, true)
  | .nothing => (s, false)
  | _ =>
    let gone (w : Nat) : Bool := [0, 1, 2, 3].all fun i => ws.any fun x => base + x.1 == 4 * w + i
    ({ s with
      mem := writeCells s.mem base ws
      badLocal := s.badLocal.filter fun w => !gone w }, true)

/-- Bytes paired with their offsets from i up. -/
def numbered : Nat → List Byte → List (Nat × Byte)
  | _, [] => []
  | i, b :: l => (i, b) :: numbered (i + 1) l

/-- A write of consecutive bytes at their homes, a line at a time; n bounds the lines. -/
def homeWriteN (found : Word × Nat) : Nat → State → Nat → List Byte → State × Bool
  | 0, s, _, _ => (s, true)
  | n + 1, s, pa, bs =>
    if bs.isEmpty then (s, true)
    else
      let k := 256 - pa % 256
      let r := s.homeMerge (pa / 256) (numbered (pa % 256) (bs.take k)) found
      let r' := homeWriteN found n r.1 (pa + k) (bs.drop k)
      (r'.1, r.2 && r'.2)

/-- A write of consecutive bytes at their homes. -/
def State.homeWrite (s : State) (pa : Nat) (bs : List Byte) (found : Word × Nat := (0, 0xFFFF)) : State × Bool :=
  homeWriteN found (bs.length / 256 + 2) s pa bs

/-! ### Wide marks and links (R233, R247) -/

/-- Whether a line carries the wide mark: an external hold ends 1 ms after its last renewal. -/
def State.marked (s : State) (line : Nat) : Bool :=
  (FMap.get (fun _ => []) s.marks line).any fun
    | .kernel _ => true
    | .external t => decide (s.dtime.toNat < t + 1000000)

/-- Ends the links that the harts of a core hold on a line. -/
def State.dropLinks (s : State) (c line : Nat) : State :=
  [0, 1, 2, 3].foldl (fun s i => let h := 4 * c + i
    if (s.hart h).links.contains line then s.modHart h fun a => { a with links := a.links.filter (· != line) } else s) s

/-! ### L2 (R178, R217) -/

/-- Fills a sector from its home where the core does not hold it. -/
def State.l2Fill (s : State) (c sec : Nat) : State :=
  match FMap.find? (s.core c).l2 sec with
  | some _ => s
  | none =>
    let v : Sector := Vector.ofFn fun i => (s.homeByte (64 * sec + i.val), false)
    s.modCore c fun k => { k with l2 := FMap.put k.l2 sec v, badL2 := k.badL2.filter (· / 16 != sec) }

/-- Allocates a sector without a fill, for a store that covers the whole of it (R178). -/
def State.l2Claim (s : State) (c sec : Nat) : State :=
  let v : Sector := Vector.replicate 64 (0, false)
  s.modCore c fun k => { k with l2 := FMap.put k.l2 sec v, badL2 := k.badL2.filter (· / 16 != sec) }

/-- A byte as a core's L2 holds it, else as its home holds it. -/
def State.l2Byte (s : State) (c pa : Nat) : Byte :=
  match FMap.find? (s.core c).l2 (pa / 64) with
  | some v => (v[pa % 64]'(Nat.mod_lt _ (by decide))).1
  | none => s.homeByte pa

/-- Whether L2 holds the bytes of this place; the local stores are their own home at every scope (R173). -/
def Place.cached : Place → Bool
  | .device _ => true
  | .host => true
  | .peer _ _ => true
  | _ => false

/-- Whether a core's access to an address meets uncorrectable data, with its SRC: in the copy its L2 holds, else at the home. -/
def State.badHeld (s : State) (c pa : Nat) : Option Nat :=
  let p := s.fold pa
  if (s.place p).cached && (FMap.find? (s.core c).l2 (p / 64)).isSome then
    if (s.core c).badL2.contains (p / 4) then some 0 else none
  else s.badAt p

/-- Writes a byte into a sector already filled. -/
def State.l2Put (s : State) (c pa : Nat) (b : Byte) : State :=
  s.modCore c fun k =>
    match FMap.find? k.l2 (pa / 64) with
    | some v => { k with l2 := FMap.put k.l2 (pa / 64) (v.set (pa % 64) (b, true) (Nat.mod_lt _ (by decide))) }
    | none => k

/-- Fills every sector that bytes [pa, pa + n) touch. -/
def State.l2FillRange (s : State) (c pa n : Nat) : State :=
  if n = 0 then s
  else (List.range ((pa + n - 1) / 64 - pa / 64 + 1)).foldl (fun s i => s.l2Fill c (pa / 64 + i)) s

/-- An ordinary read of n bytes through a core (R216: at core scope). -/
def State.coreRead (s : State) (c pa n : Nat) : State × List Byte :=
  let p := s.fold pa
  if (s.place p).cached then
    let s := s.l2FillRange c p n
    (s, (List.range n).map fun i => s.l2Byte c (p + i))
  else (s, (List.range n).map fun i => s.mem.read (p + i))

/-- The words of a list that n bytes from p on do not cover whole: one written whole has new check bits (R405). -/
def leftWords (l : List Nat) (p n : Nat) : List Nat := l.filter fun w => !(decide (p ≤ 4 * w) && decide (4 * w + 4 ≤ p + n))

/-- A write of bytes that no L2 holds: a local store's. -/
def State.localWrite (s : State) (p : Nat) (bs : List Byte) : State :=
  { s with
    mem := writeCells s.mem p (numbered 0 bs)
    badLocal := leftWords s.badLocal p bs.length }

/-- An ordinary write of bytes through a core (R178). -/
def State.coreWrite (s : State) (c pa : Nat) (bs : List Byte) : State :=
  let p := s.fold pa
  if (s.place p).cached then
    ((numbered 0 bs).foldl (fun s w => s.l2Put c (p + w.1) w.2) (s.l2FillRange c p bs.length)).modCore c fun k =>
      { k with badL2 := leftWords k.badL2 p bs.length }
  else s.localWrite p bs

/-- The bytes of a sector that this core's stores wrote (R217). -/
def dirtyBytes (sec : Nat) (v : Sector) : List (Nat × Byte) :=
  (List.range 64).filterMap fun i => if h : i < 64 then if v[i].2 then some (sec % 4 * 64 + i, v[i].1) else none else none

/-- The sector with no byte dirty. -/
def cleanSector (v : Sector) : Sector := v.map fun b => (b.1, false)

/-- Gives a write packet to a chip its sequence number (R367). -/
def State.countPacket (s : State) (chip : Nat) : State :=
  let d := FMap.get (fun _ => ⟨0, [], 0⟩) s.fabric.sent chip
  { s with fabric := { s.fabric with sent := FMap.put s.fabric.sent chip ⟨d.next + 1, d.unacked ++ [d.next], d.holdFrom⟩ } }

/-- Whether a write packet to a chip may be sent now: the chip this one is on is not halted (R373) and fewer than 4,096 are unacknowledged (R367). -/
def State.mayPost (s : State) (chip : Nat) : Bool :=
  !s.fabric.held && decide ((FMap.get (fun _ => ⟨0, [], 0⟩) s.fabric.sent chip).unacked.length < 4096)

/-- The port that packets to a chip take: the first of its routes, at most four, that is up; none where the chip is unreachable (R366). -/
def State.route (s : State) (chip : Nat) : Option Nat :=
  ((FMap.get (fun _ => [0, 1, 2, 3]) s.fabric.routes chip).take 4).find? fun p => ((s.fabric.ports.toList[p]?).map (·.up)).getD false

/-- Whether bytes of a peer window refuse every request: offsets that reach nothing or an area no request reaches, pages whose chip refuses, a chip
without a route (R363, R365, R366). -/
def State.peerGone (s : State) (pa n : Nat) : Bool :=
  match s.place pa with
  | .peer chip off =>
    chip == s.fabric.chip || decide (Config.hdmLen - Config.saveFromTop < off + n) || (s.route chip).isNone ||
      s.fabric.closed.contains (chip, off / 4096)
  | _ => false

/-- Whether a request of a context to bytes of a peer window is refused: it carries the domain the context is bound to (R365). -/
def State.peerRefuses (s : State) (ctx pa n : Nat) : Bool :=
  match s.place pa with
  | .peer _ _ => s.peerGone pa n || ctx == 0 || !(s.context ctx).dbind
  | _ => false

/-- Whether filling the sectors of [pa, pa + n) that a core does not hold, and that are not covered whole where `store` is set, is refused by
another chip. -/
def State.fillRefused (s : State) (c ctx pa n : Nat) (store : Bool) : Bool :=
  match s.place pa with
  | .peer _ _ =>
    s.peerRefuses ctx pa n && ((List.range ((pa + n - 1) / 64 - pa / 64 + 1)).map (pa / 64 + ·)).any fun x =>
      (FMap.find? (s.core c).l2 x).isNone && !(store && decide (pa ≤ x * 64) && decide (x * 64 + 64 ≤ pa + n))
  | _ => false

/-- A write packet is sent; where it may not be, the step that would send it stalls. -/
def State.post (s : State) (pa : Nat) : State :=
  match s.place pa with
  | .peer chip _ =>
    if chip == s.fabric.chip then s
    else if s.mayPost chip then s.countPacket chip
    else { s with fabric := { s.fabric with stalled := true } }
  | _ => s

/-- What a full-line write-back sends beside the dirty bytes: where the home's own are uncorrectable, the clean bytes of its sectors, which it
repairs (R217, R407). -/
def State.repairBytes (s : State) (line : Nat) (secs : List (Nat × Sector)) : List (Nat × Byte) :=
  (secs.filter fun e => (s.badAt (64 * e.1)).isSome).flatMap fun e =>
    (List.range 64).filterMap fun i => if h : i < 64 then
      (if e.2[i].2 then none else some (64 * e.1 - 256 * line + i, e.2[i].1)) else none

/-- Writes back the dirty bytes of one line and leaves its sectors clean: the home merges only those bytes (R217). A write-back of all four
sectors is a full-line write, any other a partial one (R178). A sector uncorrectable in the L2 is not sent, and its line takes the error tag
(R406). A peer that refuses it keeps its bytes (R365; DESIGN CHOICE, log 77: nothing sees the refusal of a write-back). -/
def State.writeBackLine (s : State) (c line : Nat) : State :=
  let secs := (List.range 4).map (4 * line + ·)
  let held := secs.filterMap fun x => (FMap.find? (s.core c).l2 x).map fun v => (x, v)
  let dirty := held.filter fun e => !(dirtyBytes e.1 e.2).isEmpty
  if dirty.isEmpty then s
  else
    let good := dirty.filter fun e => !(s.core c).badL2.any fun w => w / 16 == e.1
    let whole := good.length == 4
    let ws := good.flatMap (fun e => dirtyBytes e.1 e.2) ++ if whole then s.repairBytes line good else []
    let s1 := if ws.isEmpty || s.peerGone (line * 256) 256 then s else (s.homeMerge line ws (0, 0xFFFF) whole).1
    let s2 := s1.post (line * 256)
    let s3 := if good.length = dirty.length then s2
      else
        let s3 := (dirty.filter fun e => !good.contains e).foldl (fun s e => s.logError (w64 0) (64 * e.1) 1 0xFFFF) s2
        match s.place (line * 256) with
        | .device _ => { s3 with tags := FMap.set (fun _ => 0) s3.tags line tagError }
        | _ => s3
    s3.modCore c fun k =>
      { k with
        l2 := dirty.foldl (fun m e => FMap.put m e.1 (cleanSector e.2)) k.l2
        owed := k.owed.filter (·.line != line) }

/-- The lines a core's L2 holds, in ascending order. -/
def Core.lines (k : Core) : List Nat := (k.l2.map fun e => e.1 / 4).eraseDups

/-- Drops the sectors of one line, writing back the dirty ones. -/
def State.evictLine (s : State) (c line : Nat) : State :=
  (s.writeBackLine c line).modCore c fun k => { k with l2 := k.l2.filter fun e => e.1 / 4 != line }

/-- Clean bytes of a dirty sector are fetched again; a clean sector is dropped (R224). -/
def State.refreshSector (s : State) (e : Nat × Sector) : Option (Nat × Sector) :=
  if (dirtyBytes e.1 e.2).isEmpty then none
  else some (e.1, Vector.ofFn fun i => if e.2[i].2 then e.2[i] else (s.homeByte (64 * e.1 + i.val), false))

/-- The uncorrectable words of a core's L2 after its dirty sectors were fetched again: a word with clean bytes takes the state of its home, one whose
bytes are all dirty keeps its own, and one that mixes both keeps an error of either (R224, R406). -/
def State.refreshBad (s : State) (k : Core) : List Nat :=
  k.l2.flatMap fun e =>
    let home := (s.badAt (64 * e.1)).isSome
    let own := k.badL2.filter (· / 16 == e.1)
    if (own.isEmpty && !home) || (dirtyBytes e.1 e.2).isEmpty then []
    else (List.range 16).filterMap fun j =>
      let w := 16 * e.1 + j
      let d := [0, 1, 2, 3].map fun i => ((e.2.toList[4 * j + i]?).map (·.2)).getD false
      if (home && !d.all id) || (own.contains w && d.any id) then some w else none

/-- The effect of an acquire of a core at a scope (R224). -/
def State.acquire (s : State) (c scope : Nat) : State :=
  if scope < 2 then s else s.modCore c fun k => { k with l2 := k.l2.filterMap s.refreshSector, badL2 := s.refreshBad k }

/-- Performs a write at the memory-side home for a core: its own dirty bytes of the line go first, and its copy is dropped. -/
def State.homeWriteVia (s : State) (c pa : Nat) (bs : List Byte) : State × Bool :=
  let p := s.fold pa
  if (s.place p).cached then ((s.evictLine c (p / 256)).evictLine c ((p + bs.length - 1) / 256)).homeWrite p bs
  else (s.localWrite p bs, true)

/-! ### The save page (R336) -/

/-- Writes bytes of a hart's save page at the home; a copy the hart's core holds is dropped first. -/
def State.saveWrite (s : State) (h off : Nat) (bs : List Byte) : State :=
  (s.homeWriteVia (coreOf h) (s.savePa h off) bs).1

/-! ### Parking (R342, R343) -/

/-- Bytes an ACOPY copies in all. -/
def copyTotal (desc : List Byte) : Nat := fieldAt desc 0 4 * fieldAt desc 4 4 * fieldAt desc 8 4 * fieldAt desc 12 4

/-- The free copy records of a hart. -/
def State.freeRecord (s : State) (h : Nat) : Option Nat :=
  (List.range 16).find? fun i => !s.ops.any fun o => o.h == h && o.parked == some i

/-- Parks one copy operation of a hart with its record. -/
def State.parkCopy (s : State) (o : Op) : State :=
  match o.kind, s.freeRecord o.h with
  | .copy src dst desc _, some i =>
    if o.parked = none && decide (16384 < copyTotal desc - o.prog) then
      let rec_ := leBytes 1 1 ++ leBytes 1 0 ++ leBytes 2 (s.hart o.h).ctx ++ leBytes 4 0 ++ leBytes 8 o.objVa.toNat ++
        leBytes 8 src.toNat ++ leBytes 8 dst.toNat ++ leBytes 8 o.prog ++ List.replicate 24 0 ++ padTo 64 desc
      { s with ops := s.ops.map fun (p : Op) => if p.id == o.id then { p with parked := some i, pctx := (s.hart o.h).ctx } else p }.saveWrite o.h
        (0x1000 + 128 * i) rec_
    else s
  | _, _ => s

/-- Parks the stream queue q of a hart where it is open. -/
def State.parkStream (s : State) (h q : Nat) (st : Option Stream) (objVa : Word) : State :=
  match st with
  | none => s
  | some v =>
    if v.parked then s
    else
      let full := v.full.toNat
      let rec_ := leBytes 1 1 ++ leBytes 1 0 ++ leBytes 2 (s.hart h).ctx ++ leBytes 4 0 ++ leBytes 8 objVa.toNat ++
        leBytes 8 v.base.toNat ++ leBytes 8 v.stride.toNat ++ leBytes 8 v.desc.toNat ++ leBytes 4 v.fetched ++
        leBytes 4 v.popped ++ leBytes 2 full ++ leBytes 1 (if v.faulted then 1 else 0) ++ List.replicate 77 0
      (s.modHart h (Hart.setStream q (some { v with parked := true, pctx := (s.hart h).ctx }))).saveWrite h (0x1800 + 128 * q) rec_

/-- Parks the current task of a hart: it stays RUNNING and the hart has no current task. The manual gives a hart one task record: a task that it still
holds parked, for another context, loses the record to the new one and stays RUNNING (DESIGN CHOICE, log 88). -/
def State.parkTask (s : State) (h : Nat) : State :=
  match (s.hart h).task with
  | none => s
  | some id =>
    match (s.camp (campOf h)).tasks.find? (·.id == id) with
    | none => s
    | some t =>
      let rec_ := leBytes 1 1 ++ leBytes 1 0 ++ leBytes 2 (s.hart h).ctx ++ leBytes 4 0 ++ leBytes 8 t.id ++
        leBytes 8 t.obj.toNat ++ leBytes 1 t.path ++ List.replicate 7 0
      (s.modHart h fun a => { a with task := none, parkedTask := some ⟨a.ctx, id⟩ }).saveWrite h 0x1900 rec_

/-- What a PREEMPT or YIELD trap does to the operations of a hart (R342). -/
def State.park (s : State) (h : Nat) : State :=
  let s1 := (s.ops.filter fun o => o.h == h && o.kernel == (s.hart h).kernel).foldl (fun s o => s.parkCopy o) s
  let a := s1.hart h
  let s2 := s1.parkStream h 0 a.streams[0] ((a.streams[0].map (·.objVa)).getD 0)
  let b := s2.hart h
  let s3 := s2.parkStream h 1 b.streams[1] ((b.streams[1].map (·.objVa)).getD 0)
  s3.parkTask h

/-! ### Taking an exception (R328, R331, R335) -/

def causeIllegal : Nat := 1
def causeMisalignedFetch : Nat := 2
def causeFetchFault : Nat := 3
def causeMisalignedData : Nat := 4
def causeLoadFault : Nat := 5
def causeStoreFault : Nat := 6
def causeIndexFault : Nat := 7
def causeMachineCheck : Nat := 8
def causePlaneOwner : Nat := 9
def causePlaneBounds : Nat := 10
def causeNameEmpty : Nat := 11
def causeNameWidth : Nat := 12
def causeTileState : Nat := 13
def causeMatrixShape : Nat := 14
def causeEngineArg : Nat := 15
def causeStreamEmpty : Nat := 16
def causeTaskState : Nat := 17
def causeMergeState : Nat := 18
def causeSyscall : Nat := 19
def causeYield : Nat := 20
def causeDeadlineCap : Nat := 21
def causeDeadlineEsc : Nat := 22
def causeBreakpoint : Nat := 23
def causePreempt : Nat := 32

/-- TCAUSE (R38, R328): ASYNC for PREEMPT only. -/
def tcauseOf (code : Nat) : Word := w64 (code + if code = causePreempt then 2 ^ 63 else 0)

/-- TRAPEI (R38). -/
def trapeiOf (elem : Option Nat) : Word :=
  match elem with
  | none => 0x8000000000000000
  | some e => w64 (e % 16384)

/-- The registers of a hart after a trap is taken (R335): saved privilege, cause, value and PC; the supervisor's entry. -/
def Hart.trapTo (a : Hart) (entry : Word) (t : Trap) (pc : Word) : Hart :=
  { a with
    hstat := if a.sup then 3 else 1
    tcause := tcauseOf t.code
    tval := t.tval
    trappc := canonical pc &&& ~~~3
    trapei := trapeiOf t.elem
    loops := Vector.replicate 6 none
    links := []
    wait := none
    tileSince := none
    pc := entry }

/-- Takes a trap on a hart with the point at `pc` (R335). -/
def State.takeTrap (s : State) (h : Nat) (t : Trap) (pc : Word) : State :=
  let s := s.modHart h fun a => a.trapTo (s.camp (campOf h)).entrypc t pc
  if t.code = causePreempt ∨ t.code = causeYield then s.park h else s

/-- Records the reason of a translation refusal in the translation record (R348). -/
def State.setReason (s : State) (h reason : Nat) : State := s.modHart h fun a => { a with xreason := reason }

/-! ### Returning from an exception (R121, R344) -/

/-- Restarts the parked operations of a hart whose context is the running one, and clears the V bytes of their records. -/
def State.restart (s : State) (h : Nat) : State :=
  let ctx := (s.hart h).ctx
  let recs := s.ops.filterMap fun o => if o.h == h && o.pctx == ctx then o.parked else none
  let s1 := { s with ops := s.ops.map fun (o : Op) =>
    if o.h == h && o.parked.isSome && o.pctx == ctx then { o with parked := none } else o }
  let s2 := recs.foldl (fun s i => s.saveWrite h (0x1000 + 128 * i) [0]) s1
  let s3 := [0, 1].foldl (fun s q =>
    let a := s.hart h
    match a.streams.toList[q]?.join with
    | some v => if v.parked && v.pctx == ctx then
        (s.modHart h (Hart.setStream q (some { v with parked := false }))).saveWrite h (0x1800 + 128 * q) [0]
      else s
    | none => s) s2
  match (s3.hart h).parkedTask with
  | some p => if p.ctx == ctx then
      (s3.modHart h fun a => { a with task := some p.id, parkedTask := none }).saveWrite h 0x1900 [0]
    else s3
  | none => s3

/-- The registers of a hart after a return from a trap (R121): PRV becomes PPRV and the PC becomes TRAPPC. -/
def Hart.returnFrom (a : Hart) : Hart :=
  { a with hstat := if a.hstat.getLsbD 1 then 3 else 0, pc := a.trappc, loops := Vector.replicate 6 none }

/-- The pre-emption request a hart may take: in a step it stays pending until the hart's release (R378). -/
def Hart.mayPreempt (a : Hart) : Option Word := if a.stepping.isSome then none else a.preempt

/-- Returns from a trap. A request pending when the return reaches kernel privilege is taken at once, before any parked
operation restarts (R337, R344). -/
def State.returnTrap (s : State) (h : Nat) : State :=
  let s1 := s.modHart h Hart.returnFrom
  let a := s1.hart h
  if a.sup then s1
  else
    match a.mayPreempt with
    | some w => (s1.modHart h fun a => { a with preempt := none }).takeTrap h ⟨causePreempt, w, none⟩ a.pc
    | none => s1.restart h

end Sys2Proof.Machine
end

