-- ==== Sys2Proof/Machine/Translate.lean ====
section
/-! DEFINITION. Address translation (R347 to R354): the Sv57 walk, its refusals in their order, and the translation cache. -/
namespace Sys2Proof.Machine

/-- The kinds of access that R351 distinguishes. -/
inductive Access where
  | fetch | load | store
  deriving DecidableEq, Repr

/-- What a translation gives: a physical address, a refusal of R350, or an uncorrectable entry. -/
inductive Xlat where
  | ok (pa : Nat)
  | refused (reason : Nat)
  | uncorrectable (entry : Nat)
  deriving DecidableEq, Repr

/-- A kernel that has not ended. -/
def State.kernel (s : State) (k : Nat) : Option Kernel := s.kernels.find? (·.id == k)

/-- The kernel that a hart runs for a context, where that is the kernel's own. -/
def State.kernelOf (s : State) (k : Option Nat) (ctx : Nat) : Option Kernel := (k.bind s.kernel).filter fun x => x.ctx == ctx

/-- The KEYSLOT of a context for a kernel: as the kernel's launch read it, for any other context as its latest launch did (R316). -/
def State.keySlotFor (s : State) (k : Option Nat) (ctx : Nat) : Nat :=
  match s.kernelOf k ctx with
  | some x => x.x.key
  | none => (s.context ctx).keySlot

/-- TENT of a context for a hart, in the same way. -/
def State.tent (s : State) (h : Nat) : Nat :=
  match s.kernelOf (s.hart h).kernel (s.hart h).ctx with
  | some x => x.tent
  | none => (s.context (s.hart h).ctx).tent

/-- NOBJ of a context for a hart, in the same way. -/
def State.handles (s : State) (h : Nat) : Nat :=
  match s.kernelOf (s.hart h).kernel (s.hart h).ctx with
  | some x => x.nobj
  | none => (s.context (s.hart h).ctx).nobj

/-- The root and identity under which a hart's accesses are translated now (R347). -/
def State.xctx (s : State) (h : Nat) : XCtx :=
  let a := s.hart h
  ⟨h, a.sup, if a.sup then (s.camp (campOf h)).sroot else a.satp, a.ctx, s.keySlotFor a.kernel a.ctx⟩

/-- A page-table entry's fields (R350). -/
structure Pte where
  hi : Nat
  ppn : Nat
  rsw : Nat
  d : Bool
  a : Bool
  u : Bool
  x : Bool
  w : Bool
  r : Bool
  v : Bool
  deriving DecidableEq, Repr

/-- The fields of an entry. -/
def pteOf (e : Word) : Pte :=
  let n := e.toNat
  ⟨bits n 63 54, bits n 53 10, bits n 9 8, bit n 7, bit n 6, bit n 4, bit n 3, bit n 2, bit n 1, bit n 0⟩

/-- R, W or X set. -/
def Pte.leaf (p : Pte) : Bool := p.r || p.w || p.x

/-- Reason 1 of R350 for an entry at a level. -/
def Pte.malformed (p : Pte) (level : Nat) : Bool :=
  p.hi != 0 || (p.w && !p.r) || (!p.v && decide (p.rsw < 2)) || (!p.v && decide (2 ≤ p.rsw) && !(p.leaf && level == 0)) ||
    (p.v && p.rsw != 0 && (!p.leaf || level != 0)) || (p.v && decide (2 ≤ p.rsw) && level == 0) ||
    (level == 0 && !p.leaf) || (p.leaf && p.ppn % 2 ^ (9 * level) != 0)

/-- The permissions of R351. -/
def Pte.permits (p : Pte) (sup : Bool) (acc : Access) : Bool :=
  (sup || p.u) && match acc with
    | .fetch => p.x
    | .load => p.r
    | .store => p.r && p.w

/-- Reason 6 of R350 for the address a leaf maps to. -/
def State.mapsNothing (s : State) (x : XCtx) (pa : Nat) : Bool :=
  match s.place pa with
  | .nothing => true
  | .device off => decide (Config.hdmLen - Config.saveFromTop ≤ off)
  | .local_ slot _ =>
    match s.slotCore slot with
    | some c => c / 16 != campOf x.h
    | none => true
  | .mgmt _ => !x.sup
  | _ => false

/-- Reason 7 of R350: a frame of another context's key slot. -/
def State.foreignKey (s : State) (x : XCtx) (pa : Nat) : Bool :=
  match s.place pa with
  | .device off =>
    let slot := s.frameSlot (s.hdm + off)
    !x.sup && slot != 0 && slot != x.key
  | _ => false

/-- The conditions on a leaf in the order of R350: 1, 4, 3, 2, 5, 6, 7. -/
def State.leafCheck (s : State) (x : XCtx) (acc : Access) (va level : Nat) (p : Pte) : Xlat :=
  let pa := p.ppn * 4096 + va % 2 ^ (12 + 9 * level)
  if p.malformed level then .refused 1
  else if !p.v && p.rsw == 2 then .refused 4
  else if p.v && p.rsw == 1 then .refused 3
  else if !p.permits x.sup acc then .refused 2
  else if !p.a || (acc == .store && !p.d) then .refused 5
  else if s.mapsNothing x pa then .refused 6
  else if s.foreignKey x pa then .refused 7
  else .ok (s.fold pa)

/-- Whether reading an entry at a physical address is refused (R350). -/
def State.entryRefused (s : State) (pa : Nat) : Bool :=
  match s.place pa with
  | .device _ => false
  | .host => false
  | .peer _ _ => s.peerGone pa 8
  | _ => true

/-- The walk from a level down, and the leaf it ends at. -/
def State.walk (s : State) (x : XCtx) (acc : Access) (va : Nat) : Nat → Nat → Xlat × Option (Nat × Word)
  | 0, table =>
    let e := table * 4096 + 8 * bits va 20 12
    if s.entryRefused e then (.refused 6, none)
    else if (s.badAt e).isSome then (.uncorrectable (s.fold e), none)
    else
      let w := w64 (leNat (s.homeBytes e 8))
      (s.leafCheck x acc va 0 (pteOf w), some (0, w))
  | n + 1, table =>
    let e := table * 4096 + 8 * bits va (20 + 9 * (n + 1)) (12 + 9 * (n + 1))
    if s.entryRefused e then (.refused 6, none)
    else if (s.badAt e).isSome then (.uncorrectable (s.fold e), none)
    else
      let w := w64 (leNat (s.homeBytes e 8))
      let p := pteOf w
      if p.malformed (n + 1) then (.refused 1, none)
      else if p.leaf then (s.leafCheck x acc va (n + 1) p, some (n + 1, w))
      else s.walk x acc va n p.ppn

/-- The address-space identifier of a root word. -/
def asidOf (root : Word) : Nat := bits root.toNat 59 44

/-- Whether a cached translation covers an address under an identifier (R353): an entry with G set matches every one. -/
def TlbEntry.covers (t : TlbEntry) (va asid : Nat) : Bool :=
  t.vpn == va % 2 ^ 57 / 2 ^ (12 + 9 * t.level) && (t.asid == asid || bit t.pte.toNat 5)

/-- A cached translation that grants the access. -/
def State.tlbHit (s : State) (x : XCtx) (acc : Access) (va : Nat) : Option Nat :=
  ((s.core (coreOf x.h)).tlb.filter fun t => t.covers va (asidOf x.root)).findSome? fun t =>
    match s.leafCheck x acc va t.level (pteOf t.pte) with
    | .ok pa => some pa
    | _ => none

/-- Translates an address under a root (R347, R350, R353). The second part is a translation to keep. -/
def State.translate (s : State) (x : XCtx) (va : Word) (acc : Access) : Xlat × Option TlbEntry :=
  if x.sup && decide (va.toNat < Config.savePage) then (.ok (s.savePa x.h va.toNat), none)
  else if !isCanonical va then (.refused 1, none)
  else if bits x.root.toNat 63 60 != 10 then (.refused 1, none)
  else
    match s.tlbHit x acc va.toNat with
    | some pa => (.ok pa, none)
    | none =>
      let r := s.walk x acc va.toNat 4 (bits x.root.toNat 43 0)
      match r with
      | (.ok pa, some (level, pte)) =>
        (.ok pa, some ⟨va.toNat % 2 ^ 57 / 2 ^ (12 + 9 * level), asidOf x.root, pte, level⟩)
      | (o, _) => (o, none)

/-- Whether translating an address reads table entries. -/
def State.walks (s : State) (x : XCtx) (va : Word) (acc : Access) : Bool :=
  !(x.sup && decide (va.toNat < Config.savePage)) && isCanonical va && bits x.root.toNat 63 60 == 10 && (s.tlbHit x acc va.toNat).isNone

/-- The entries of a walk are read with acquire at host scope (R350, R224). -/
def State.walkAcquire (s : State) (x : XCtx) (va : Word) (acc : Access) : State :=
  if s.walks x va acc then s.acquire (coreOf x.h) 6 else s

/-- The level of the leaf entry that an address meets, 0 where its walk ends at none. -/
def State.leafLevel (s : State) (x : XCtx) (va : Word) (acc : Access) : Nat :=
  if s.walks x va acc then ((s.walk x acc va.toNat 4 (bits x.root.toNat 43 0)).2.map (·.1)).getD 0
  else
    (((s.core (coreOf x.h)).tlb.find? fun t => t.covers va.toNat (asidOf x.root) && match s.leafCheck x acc va.toNat t.level (pteOf t.pte) with
      | .ok _ => true
      | _ => false).map (·.level)).getD 0

/-- The leaf entry under which an address is translated. -/
def State.leafEntry (s : State) (x : XCtx) (va : Word) (acc : Access) : Option TlbEntry :=
  if s.walks x va acc then (s.translate x va acc).2
  else (s.core (coreOf x.h)).tlb.find? fun t => t.covers va.toNat (asidOf x.root) && match s.leafCheck x acc va.toNat t.level (pteOf t.pte) with
    | .ok _ => true
    | _ => false

/-- The translation of a completion object or of a barrier's record stays known to the core while it is held (R356). -/
def State.pin (s : State) (x : XCtx) (va : Word) (acc : Access) : State :=
  match s.leafEntry x va acc with
  | none => s
  | some t => s.modCore (coreOf x.h) fun c => { c with pinned := if c.pinned.contains t then c.pinned else t :: c.pinned }

/-- Keeps a translation in the core's cache (R353). -/
def State.keep (s : State) (h : Nat) (t : Option TlbEntry) : State :=
  match t with
  | none => s
  | some e => s.modCore (coreOf h) fun c => { c with tlb := if c.tlb.contains e then c.tlb else e :: c.tlb }

/-- Removes the cached translations of a core that cover an address under an identifier, or under every one (R124, R356). -/
def State.tlbDrop (s : State) (c va asid : Nat) (all : Bool) : State :=
  s.modCore c fun k => { k with tlb := k.tlb.filter fun t =>
    !(t.vpn == va % 2 ^ 57 / 2 ^ (12 + 9 * t.level) && (all || t.asid == asid || bit t.pte.toNat 5)) }

end Sys2Proof.Machine
end

