-- ==== Sys2Proof/Machine/Hooks.lean ====
section
/-! DEFINITION. What follows an access where it is performed: Spoor events and their rings (R389, R390), watchpoints (R385, R386), trigger
events (R387), lost links (R247), woken monitors (R257), Badger's dirty set (R394), and which stores are refused (R156, R199,
R297). -/
namespace Sys2Proof.Machine

/-! ### Spoor (R389, R390) -/

/-- Sends an event to the ring of a camp, where the ring is enabled and takes the context's events. The record is written at the end of the tick,
once it is known which windows were open in it (R388). -/
def State.spoor (s : State) (camp kind ctx src : Nat) (pc : Word) (ps : List Word) (ticket : Option (Nat × Nat) := none) : State :=
  let c := (s.camp camp).ring.cfg.toNat
  if bit c 6 && (bits c 39 24 == 0 || bits c 39 24 == ctx) then
    { s with spoorQueue := s.spoorQueue ++ [⟨camp, kind, ctx, src, pc, s.dtime, ps, ticket⟩] }
  else s

/-! ### The freeze (R378, R379) -/

/-- DSTAT at a stop; IERR stays. -/
def dstatOf (a : Hart) (cause unit : Nat) (exact undr : Bool) : Word :=
  w64 (a.ctx % 65536 * 2 ^ 48 + a.es % 2 ^ 14 * 2 ^ 26 + (if exact then 2 ^ 25 else 0) + (if undr then 2 ^ 24 else 0) +
    (if a.dstat.getLsbD 23 then 2 ^ 23 else 0) + cause % 8 * 2 ^ 20 + unit % 16 * 65536 + 1)

/-- A hart that has stopped becomes frozen, with DSTAT, DSKID and a HALT record; its loop levels are idle (R115) and its links end
(R247). Nothing changes where it is frozen already (R378), as under an injected BRK. -/
def State.freeze (s : State) (h cause unit : Nat) (exact undr : Bool) (instrs elems : Nat) : State :=
  let a := s.hart h
  if a.frozen then s
  else
    let d := dstatOf a cause unit exact undr
    let k := w64 (elems % 2 ^ 32 * 2 ^ 32 + instrs % 2 ^ 32)
    let s1 := s.modHart h fun a =>
      { a with frozen := true, stepping := none, skid := none, dstat := d, dskid := k, loops := Vector.replicate 6 none, links := [] }
    s1.spoor (campOf h) 4 a.ctx (hartId h) a.pc [d, k]

/-! ### Halts and trigger events (R377, R387) -/

/-- The harts of a domain (R377): 0 hart, 1 core, 2 camp, 3 die, 4 device; TGT is laid out as HARTID. -/
def domainHarts (dom tgt : Nat) : List Nat :=
  let die := bits tgt 15 13
  let camp := bits tgt 12 10
  let core := bits tgt 9 6
  let base := 320 * die + 64 * camp + 4 * core
  match dom with
  | 0 => if camp < 5 then [base + tgt % 4] else []
  | 1 => if camp < 5 then (List.range 4).map (base + ·) else []
  | 2 => if camp < 5 then (List.range 64).map (320 * die + 64 * camp + ·) else []
  | 3 => (List.range 320).map (320 * die + ·)
  | 4 => List.range 2560
  | _ => []

/-- The first sequence to a chip that waits for a place among the 4,096 that may be unacknowledged, or the next one. -/
def Sent.firstUnsent (d : Sent) : Nat := (d.unacked.drop 4096).headD d.next

/-- A halt of the device domain holds what the chip has not sent yet, and its Ridgepole sends a notice, which freezes its receivers or does not (R373). -/
def State.hold (s : State) (freeze : Bool) : State :=
  if s.fabric.held then { s with fabric := { s.fabric with notice := some (freeze || s.fabric.notice == some true) } }
  else { s with fabric := { s.fabric with
    held := true
    notice := some freeze
    sent := s.fabric.sent.map fun (e : Nat × Sent) => (e.1, { e.2 with holdFrom := e.2.firstUnsent }) } }

/-- Posts a halt to Ridgepole's order. -/
def State.postHalt (s : State) (hs : List Nat) (cause unit : Nat) (freeze : Bool := false) : State :=
  if hs.isEmpty then s
  else
    let s1 := { s with halts := s.halts ++ [⟨hs, cause, unit, s.dtime⟩] }
    if hs.length = Config.numHarts then s1.hold freeze else s1

/-- Delivers an event to the triggers. -/
def State.trigEvent (s : State) (kind index : Nat) : State :=
  { s with trigEvents := s.trigEvents ++ [.ofNat 16 (kind * 16384 + index % 16384)] }

/-! ### Watchpoints (R385, R386) -/

/-- Who makes an access: a hart, a slice for the vector store of a hart with its PC and context, an engine with the PC of its command, 0 where none is
meant. -/
inductive Agent where
  | hart (h : Nat)
  | store (h : Nat) (pc : Word) (ctx : Nat)
  | engine (h : Nat) (pc : Word)
  | writeBack (core : Nat)
  | host
  | fabric (chip : Nat)
  | device
  deriving DecidableEq, Repr

/-- The camp whose cores the agent belongs to. -/
def Agent.camp : Agent → Option Nat
  | .hart h => some (campOf h)
  | .store h _ _ => some (campOf h)
  | .engine h _ => some (campOf h)
  | .writeBack c => some (c / 16)
  | _ => none

/-- The hart a halt of ACT 1 meets. -/
def Agent.haltHart : Agent → Option Nat
  | .hart h => some h
  | .store h _ _ => some h
  | .engine h _ => some h
  | _ => none

/-- The kind bit of an access (R386): 0 load, 1 store, 2 atomic, 3 engine. -/
def Agent.kindBit (a : Agent) (store atomic : Bool) : Nat :=
  match a with
  | .engine _ _ => 3
  | .device => 3
  | .writeBack _ => 1
  | _ => if atomic then 2 else if store then 1 else 0

/-- The access code of a WATCH record (R390). -/
def Agent.accessCode (a : Agent) (store atomic : Bool) : Nat :=
  match a with
  | .hart _ => if atomic then 2 else if store then 1 else 0
  | .store _ _ _ => 1
  | .engine _ _ => if store then 4 else 3
  | .device => if store then 4 else 3
  | .writeBack _ => 5
  | .host => 6
  | .fabric chip => 7 + chip * 256

/-- A byte as the agent's access finds it: through its core's L2, or at the home. -/
def State.viewByte (s : State) (ag : Agent) (atHome : Bool) (pa : Nat) : Byte :=
  if atHome then s.homeByte pa
  else match ag with
    | .hart h => s.l2Byte (coreOf h) pa
    | .store h _ _ => s.l2Byte (coreOf h) pa
    | .engine h _ => s.l2Byte (coreOf h) pa
    | _ => s.homeByte pa

/-- One watchpoint matched against an access of the bytes `at_`, folded as memory keeps them (R363); s0 and s1 are the states before and after it. -/
def State.watchOne (s0 s1 : State) (ag : Agent) (atHome store atomic : Bool) (at_ : Nat → Bool) (camp w : Nat) (wt : Watch) : State :=
  let c := wt.cfg.toNat
  let word := s1.fold (wt.addr.toNat / 8 * 8)
  let bytes := bits c 63 56
  let isLocal := match s1.place word with
    | .local_ _ _ => true
    | _ => false
  let isDev := match s1.place word with
    | .device _ => true
    | _ => false
  let here := isLocal || (isDev && (atHome || ag.camp == some camp))
  let own := match ag with
    | .writeBack k => k / 16 == camp
    | _ => false
  let touches := (List.range 8).any fun i => bit bytes i && at_ (word + i)
  let after := (List.range 8).map fun i => s1.viewByte ag atHome (word + i)
  let value := leBytes 8 wt.value.toNat
  let same := (List.range 8).all fun i => !bit bytes i || slice after i 1 == slice value i 1
  if !(bit c 0 && here && !own && touches && bit (bits c 55 52) (ag.kindBit store atomic) && (!bit c 51 || same)) then s1
  else
    let before := (List.range 8).map fun i => s0.viewByte ag atHome (word + i)
    let src := (ag.haltHart.map hartId).getD 0xFFFF
    let ctx := match ag with
      | .store _ _ ctx => ctx
      | _ => (ag.haltHart.map fun h => (s1.hart h).ctx).getD 0
    let pc := match ag with
      | .hart h => (s1.hart h).pc
      | .store _ pc _ => pc
      | .engine _ pc => pc
      | _ => 0
    let s2 := s1.spoor camp 2 ctx src pc
      [w64 word, w64 (leNat before), w64 (leNat after), w64 (ag.accessCode store atomic + w * 16)]
    let act := bits c 50 48
    let s3 := match act with
      | 1 => match ag.haltHart with
        | some h => s2.postHalt [h] 3 w
        | none => s2
      | 2 => s2.postHalt (domainHarts (bits c 47 45) (bits c 44 29)) 3 w
      | _ => s2
    if act = 1 ∨ act = 2 ∨ act = 3 then s3.trigEvent 0 (8 * camp + w) else s3

/-- Every enabled watchpoint of the device matched against an access of some bytes. -/
def State.watchBytes (s0 s1 : State) (ag : Agent) (atHome store atomic : Bool) (at_ : Nat → Bool) : State :=
  s1.camps.foldl (fun s e =>
    (List.range 8).foldl (fun s w =>
      match e.2.watches.toList[w]? with
      | some wt => if bit wt.cfg.toNat 0 then State.watchOne s0 s ag atHome store atomic at_ e.1 w wt else s
      | none => s) s) s1

/-- Every enabled watchpoint of the device matched against an access of n bytes at pa. -/
def State.watch (s0 s1 : State) (ag : Agent) (atHome store atomic : Bool) (pa n : Nat) : State :=
  let p := s1.fold pa
  State.watchBytes s0 s1 ag atHome store atomic fun q => decide (p ≤ q) && decide (q < p + n)

/-! ### Links, monitors, retests -/

/-- Ends the links of every hart but one on a line, optionally of the harts of one core only (R247). -/
def State.loseLinks (s : State) (line : Nat) (except : Option Nat) (only : Option Nat) : State :=
  { s with harts := s.harts.map fun (e : Nat × Hart) =>
    if e.2.links.contains line && some e.1 != except && (only.isNone || only == some (coreOf e.1)) then
      (e.1, { e.2 with links := e.2.links.filter (· != line) }) else e }

/-- Wakes the monitor entries on a line at one home (R257): the L2 bank of a core, or the memory-side home or local-store bank. -/
def State.wake (s : State) (line : Nat) (l2 : Option Nat) : State :=
  { s with cores := s.cores.map fun (e : Nat × Core) =>
    (e.1, { e.2 with monitors := e.2.monitors.map fun m =>
      if m.line = line ∧ (if m.near then l2 = some e.1 else l2 = none) then { m with woken := true } else m }) }

/-- Marks the camps of which a waiting task has a summary word on the line for a retest (R276). -/
def State.noteRetests (s : State) (line : Nat) : State :=
  let hit := s.camps.filterMap fun e =>
    if e.2.tasks.any (fun t => t.st == .waiting && t.summaries.any fun va =>
      match (s.translate t.x (w64 va) .load).1 with
      | .ok pa => pa / 256 == line
      | _ => false) then some e.1 else none
  { s with retests := s.retests ++ hit.filter fun c => !s.retests.contains c }

/-- The lines an access of n bytes meets. -/
def linesOf (pa n : Nat) : List Nat := if n = 0 then [] else (List.range ((pa + n - 1) / 256 - pa / 256 + 1)).map (pa / 256 + ·)

/-- What follows a store, atomic or engine write where it is performed. -/
def State.afterStore (s0 s1 : State) (ag : Agent) (atHome atomic : Bool) (pa n : Nat) : State :=
  let s2 := State.watch s0 s1 ag atHome true atomic pa n
  let hart := match ag with
    | .hart h => some h
    | .store h _ _ => some h
    | _ => none
  let isLocal := match s2.place pa with
    | .local_ _ _ => true
    | _ => false
  let only := if atHome || isLocal then none else ag.haltHart.map coreOf
  (linesOf pa n).foldl (fun s l =>
    let s := (s.loseLinks l hart only).wake l only
    if atHome || isLocal then s.noteRetests l else s) s2

/-- What follows a load where it is performed. -/
def State.afterLoad (s : State) (ag : Agent) (atHome : Bool) (pa n : Nat) : State := State.watch s s ag atHome false false pa n

/-! ### Spill regions (R297, R298) -/

/-- Whether bytes lie in the spill region of a merge network that is not FREE, other than that of camp `own`. -/
def State.inSpill (s : State) (pa n : Nat) (own : Option Nat) : Bool :=
  s.camps.any fun e =>
    let m := e.2.merge
    m.st != .free && m.half != 0 && own != some e.1 &&
      (List.range ((4096 + 2 * m.half + 4095) / 4096)).any fun i =>
        match (s.translate m.x (m.spill + w64 (4096 * i)) .store).1 with
        | .ok p => decide (pa < p / 4096 * 4096 + 4096) && decide (p / 4096 * 4096 < pa + n)
        | _ => false

/-- A core's copy of a line is dropped. -/
def State.dropLine (s : State) (c line : Nat) : State :=
  s.modCore c fun k =>
    { k with
      l2 := k.l2.filter fun e => e.1 / 4 != line
      owed := k.owed.filter (·.line != line) }

/-- A write-back of a line performed with what follows it at the memory-side home. A home that refuses it, for a spill region, keeps its bytes, and
the core's copy is dropped (R298; DESIGN CHOICE, log 73). -/
def State.writeBack (s : State) (c line : Nat) : State :=
  let secs := (List.range 4).map (4 * line + ·)
  let ds := secs.flatMap fun x => match FMap.find? (s.core c).l2 x with
    | some v => dirtyBytes x v
    | none => []
  match ds with
  | [] => s
  | _ =>
    if s.inSpill (256 * line) 256 none then s.dropLine c line
    else
    let s1 := s.writeBackLine c line
    let s2 := State.watchBytes s s1 (.writeBack c) true true false fun q => q / 256 == line && ds.any fun d => d.1 == q % 256
    let s3 := { s2 with harts := s2.harts.map fun (e : Nat × Hart) =>
      if e.2.links.contains line && coreOf e.1 != c then (e.1, { e.2 with links := e.2.links.filter (· != line) }) else e }
    (s3.wake line none).noteRetests line

/-- A core gives up link permission for a line: its dirty bytes go home first and its harts lose their links on it (R247). -/
def State.giveUp (s : State) (c line : Nat) : State :=
  ((s.writeBack c line).modCore c fun k => { k with perms := k.perms.filter (· != line) }).dropLinks c line

/-- Revokes link permission for a line from every core that holds it (R233). -/
def State.revoke (s : State) (line : Nat) : State :=
  s.cores.foldl (fun s e => if e.2.perms.contains line then s.giveUp e.1 line else s) s

/-- Sets the wide mark of a device-memory line for a setter. -/
def State.setMark (s : State) (line : Nat) (m : MarkHolder) : State :=
  let old := (FMap.get (fun _ => []) s.marks line).filter fun x => !(m.isExternal && x.isExternal) && x != m
  { s with marks := FMap.put s.marks line (m :: old) }.revoke line

/-- The wide mark where a home is a memory-side channel of the device. -/
def State.markAt (s : State) (pa : Nat) (m : MarkHolder) : State :=
  match s.place pa with
  | .device _ => s.setMark (s.fold pa / 256) m
  | _ => s

/-! ### The store queues (R220) -/

/-- Notes the lines of a store that a hart made in its core's L2, while the memory takes its time (R254). -/
def State.noteOwed (s : State) (h : Nat) (vector : Bool) (pa n : Nat) : State :=
  if s.slow && (s.place pa).cached then
    s.modCore (coreOf h) fun k => { k with owed := ((linesOf (s.fold pa) n).map fun l => ⟨h, vector, l⟩) ++ k.owed }
  else s

/-- The L2 slice of an address (R176). -/
def sliceOf (pa : Nat) : Nat := pa / 256 % 4

/-- Performs a vector store at its core-scope home: the oldest in its store queue. -/
def State.performHeld (s : State) (c : Nat) (r : HeldStore) : State :=
  let s1 := s.modCore c fun k => { k with stores := k.stores.erase r }
  if s1.fillRefused c r.ctx r.pa r.data.length true then s1
  else match (if r.data.length = 64 || (leftWords (s1.core c).badL2 r.pa r.data.length).length = (s1.core c).badL2.length then s1.badHeld c r.pa else none) with
  | some src => s1.logBad src r.va r.pa (hartId r.h)
  | none =>
    State.afterStore s1 ((s1.coreWrite c r.pa r.data).noteOwed r.h true r.pa r.data.length) (.store r.h r.pc r.ctx) false false r.pa r.data.length

/-- Performs the stores that the queues of a core hold and a test picks, in order. -/
def State.landIf (s : State) (c : Nat) (f : HeldStore → Bool) : State :=
  ((s.core c).stores.filter f).foldl (fun s r => s.performHeld c r) s

/-- Performs every store that the queues of a core hold. -/
def State.land (s : State) (c : Nat) : State := s.landIf c fun _ => true

/-- Performs the stores of a hart that the queues of its core hold. -/
def State.landOwn (s : State) (h : Nat) : State := s.landIf (coreOf h) fun r => r.h == h

/-- Performs the stores of every core. -/
def State.landAll (s : State) : State := s.cores.foldl (fun s e => s.land e.1) s

/-- Before an access of a hart is performed: its stores in the queues of the slices where one of them meets it (R111, R218). -/
def State.landMet (s : State) (h pa n : Nat) : State :=
  let l := (s.core (coreOf h)).stores.filter fun r => r.h == h
  let met := l.filter fun r => decide (r.pa < s.fold pa + n) && decide (s.fold pa < r.pa + r.data.length)
  s.landIf (coreOf h) fun r => r.h == h && met.any fun q => sliceOf q.pa == sliceOf r.pa

/-- Before an access of an agent is performed at its core. -/
def State.landFor (s : State) (ag : Agent) (pa n : Nat) : State :=
  match ag with
  | .hart h => s.landMet h pa n
  | _ => s

/-- The n-th store that the queues of a core hold is performed where none of its hart goes before it in its slice's queue. -/
def State.landNth (s : State) (c n : Nat) : State :=
  match (s.core c).stores[n]? with
  | some r =>
    if ((s.core c).stores.take n).any fun q => q.h == r.h && sliceOf q.pa == sliceOf r.pa then s else s.performHeld c r
  | none => s

/-- Writes back every dirty line of a core, with what follows, once its store queues are empty. -/
def State.flush (s : State) (c : Nat) : State :=
  let s1 := s.land c
  (s1.core c).lines.foldl (fun s l => s.writeBack c l) s1

/-- A release of a core at a scope (R223). -/
def State.releaseAt (s : State) (c scope : Nat) : State :=
  if scope < 2 then s.land c else s.flush c

/-! ### Badger's dirty set (R394) -/

/-- Inserts a number into an ascending list without repeats. -/
def insertNat (n : Nat) : List Nat → List Nat
  | [] => [n]
  | m :: l => if n < m then n :: m :: l else if n = m then m :: l else m :: insertNat n l

/-- Adds the pages of a write of n bytes at a virtual address to a kernel's dirty set while its context's digests are on. -/
def State.noteDirty (s : State) (k : Option Nat) (va : Word) (n : Nat) : State :=
  match k with
  | none => s
  | some id =>
    { s with kernels := s.kernels.map fun (x : Kernel) =>
      if x.id == id && (s.context x.ctx).bdg then
        { x with dirty := insertNat ((va.toNat + n - 1) / 4096) (insertNat (va.toNat / 4096) x.dirty) } else x }

/-! ### Refused stores -/

/-- Whether bytes of a local store belong to a tile that is not EMPTY (R156). -/
def State.tileBusy (s : State) (core off n : Nat) : Bool :=
  n != 0 && (List.range ((off + n - 1) / 4096 - off / 4096 + 1)).any fun i =>
    (FMap.get Tile.reset (s.core core).tiles (off / 4096 + i)).st != .empty

/-- Byte offset and length of the slot area of an open queue (R198). -/
def Stream.area (v : Stream) : Nat × Nat := (bits v.desc.toNat 34 24 * 1024, 2 * 2 ^ bits v.desc.toNat 21 20 * 1024)

/-- Whether bytes of a local store lie in the slot area of an open queue of a hart of the core (R199). -/
def State.inStreamArea (s : State) (core off n : Nat) : Bool :=
  let meets (v : Stream) : Bool := decide (off < v.area.1 + v.area.2) && decide (v.area.1 < off + n)
  [0, 1, 2, 3].any (fun i => (s.hart (4 * core + i)).streams.toList.any fun q => q.any meets) ||
    s.kernels.any fun k => k.left.any fun l => coreOf l.h == core && l.streams.any meets

/-- Whether a store is refused where it would be performed: a tile in use, a slot area, the staging area (R362), a spill region; the merge
network of camp `own` may store to its own spill region. -/
def State.storeRefused (s : State) (pa n : Nat) (own : Option Nat := none) : Bool :=
  (match s.place pa with
    | .local_ slot off =>
      match s.slotCore slot with
      | some c => s.tileBusy c off n || s.inStreamArea c off n
      | none => true
    | .device off => decide (0 < n) && decide (Config.hdmLen - Config.stageFromTop < off + n)
    | _ => false) || s.inSpill pa n own

/-! ### Stores of the device's own units -/

/-- A store of a unit of the device at a home: completion objects and words, records, frames; whether it was performed. -/
def State.deviceStore (s : State) (atomic : Bool) (pa : Nat) (bs : List Byte) (ag : Agent := .device) (own : Option Nat := none) :
    State × Bool :=
  if s.storeRefused pa bs.length own || s.peerGone pa bs.length then (s, false)
  else
    let r := s.homeWrite pa bs
    let s1 := if r.2 then r.1.post pa else r.1
    (if r.2 then State.afterStore s s1 ag true atomic pa bs.length else s1, r.2)

/-- The store of a unit that nothing waits for. -/
def State.unitStore (s : State) (pa : Nat) (bs : List Byte) : State := (s.deviceStore false pa bs).1

/-! ### Spoor's rings (R389, R390) -/

/-- LCAP as it reads: values outside 6 to 24 read as 6. -/
def Ring.lcap (r : Ring) : Nat :=
  let l := bits r.cfg.toNat 4 0
  if 6 ≤ l ∧ l ≤ 24 then l else 6

/-- Whether a write packet to an address would find a place. -/
def State.hasPlace (s : State) (pa : Nat) : Bool :=
  match s.place pa with
  | .peer chip _ => s.mayPost chip
  | _ => true

/-- Stores one record and the MIRROR word; the second part is false where the ring is full or the store is refused. -/
def State.ringStore (s : State) (e : SpoorEvent) : State × Bool :=
  let r := (s.camp e.camp).ring
  let cap := 2 ^ r.lcap
  let full := !bit r.cfg.toNat 5 && decide (cap ≤ r.head.toNat - r.tail.toNat)
  let lost (s : State) : State := s.modCamp e.camp fun c => { c with ring := { c.ring with lost := c.ring.lost + 1 } }
  let pa := r.base.toNat + 64 * (r.head.toNat % cap)
  let holds := match s.place pa with
    | .nothing => false
    | .mgmt _ => false
    | _ => true
  if full || !holds || !s.hasPlace pa then (lost s, false)
  else
    let body := leBytes 8 e.time.toNat ++ leBytes 1 e.kind ++ leBytes 3 r.head.toNat ++ leBytes 2 e.ctx ++ leBytes 2 e.src ++
      leBytes 8 e.pc.toNat ++ padTo 40 (e.ps.flatMap fun w => leBytes 8 w.toNat)
    let w := s.deviceStore false pa body
    if !w.2 then (lost w.1, false)
    else
      let s1 := w.1.modCamp e.camp fun c => { c with ring := { c.ring with head := c.ring.head + 1 } }
      (if r.mirror = 0 then s1 else s1.unitStore r.mirror.toNat (leBytes 8 (r.head.toNat + 1)), true)

/-- The core of a HARTID. -/
def coreOfId (id : Nat) : Nat := id / 8192 * 80 + id / 1024 % 8 * 16 + id / 64 % 16

/-- A SAMPLE record that was stored counts for its core's sampler (R391). -/
def SpoorEvent.count (e : SpoorEvent) (s : State) : State :=
  if e.kind = 5 then s.modCore (coreOfId e.src) fun k => { k with sampDone := k.sampDone + 1 } else s

/-- An event reaches its ring: recorded where the ring's mask or that of a window open in the tick holds its kind, after a LOST record where
records were dropped since the last one. -/
def State.recordEvent (live : BitVec 9) (s : State) (e : SpoorEvent) : State :=
  let r := (s.camp e.camp).ring
  if !(bit r.cfg.toNat (16 + e.kind - 1) || live.getLsbD (e.kind - 1)) then s
  else
    let l := if r.lost.toNat = r.lostReported then (s, true)
      else s.ringStore { e with kind := 8, src := 0xFFFF, pc := 0, ps := [r.lost - w64 r.lostReported] }
    if !l.2 then l.1
    else
      let s1 := if r.lost.toNat = r.lostReported then l.1
        else l.1.modCamp e.camp fun c => { c with ring := { c.ring with lostReported := r.lost.toNat } }
      let q := s1.ringStore e
      if q.2 then e.count q.1 else q.1

/-- The events of a tick reach their rings. -/
def State.recordAll (s : State) (live : BitVec 9) : State :=
  s.spoorQueue.foldl (State.recordEvent live) { s with spoorQueue := [] }

end Sys2Proof.Machine
end

