-- ==== Sys2Proof/Machine/Mgmt.lean ====
section
/-! DEFINITION. The management block (R419 to R421, R425), the debug hub space (R375 to R393), and what a write of each of their
registers does. -/
namespace Sys2Proof.Machine

/-- A 64-bit register after n bytes of v are written at byte `o` of it. -/
def mergeWord (old : Word) (o n : Nat) (v : Word) : Word :=
  let m := (2 ^ (8 * n) - 1) * 2 ^ (8 * o)
  (old &&& ~~~(w64 m)) ||| (w64 (v.toNat % 2 ^ (8 * n) * 2 ^ (8 * o)))

/-! ### Pre-emption, merge assignment, keys, digests -/

/-- Posts a pre-emption request; a pending one is replaced (R337). -/
def State.postPreempt (s : State) (h : Nat) (w : Word) : State :=
  if h < Config.numHarts then s.modHart h fun a => { a with preempt := some w } else s

/-- State code of a merge network (R291, R425). -/
def MergeState.code : MergeState → Nat
  | .free => 0
  | .opened => 1
  | .closing => 2
  | .closed => 3
  | .draining => 4

/-- The merge-assignment word of a camp (R425). -/
def Camp.mergeWord (c : Camp) : Word :=
  w64 (c.merge.st.code * 2 ^ 33 + (if c.mergeBusy then 2 ^ 32 else 0) + (if c.mergeV then 65536 else 0) + c.mergeCtx)

/-- A write of the merge-assignment word: it takes effect only while the network is FREE (R425, R345). -/
def State.mergeAssign (s : State) (camp : Nat) (w : Word) : State :=
  if camp < Config.numCamps then
    s.modCamp camp fun c =>
      if c.merge.st = .free then
        { c with mergeCtx := bits w.toNat 15 0, mergeV := bit w.toNat 16, mergeBusy := false }
      else { c with mergeBusy := true }
  else s

/-- A KEYCTL write (R417): opening fills the slot with a new key, closing erases it; slot 0 is never written (R418). -/
def State.keyctl (s : State) (v : Word) : State :=
  let slot := bits v.toNat 11 0
  let k := s.keySlot slot
  if slot = 0 then s
  else if bit v.toNat 16 && !bit v.toNat 17 then { s with keys := FMap.put s.keys slot ⟨true, k.gen + 1⟩ }
  else if bit v.toNat 17 && !bit v.toNat 16 then { s with keys := FMap.put s.keys slot ⟨false, k.gen⟩ }
  else s

/-- DGCTL of a context after the fold that held it back (R393). -/
def Context.applyBdg (c : Context) (v : Bool) : Context :=
  if v && !c.bdg then
    { c with bdg := true, bdgPending := none, digest := List.replicate 32 0, folds := 0, refusedPages := 0 }
  else { c with bdg := v, bdgPending := none }

/-- A write of DGCTL: held back while a kernel of the context runs (R393). -/
def State.dgctl (s : State) (ctx : Nat) (v : Word) : State :=
  if 1 ≤ ctx ∧ ctx ≤ 65535 then
    let b := bit v.toNat 0
    if s.kernels.any fun k => k.ctx == ctx then s.setContext ctx { s.context ctx with bdgPending := some b }
    else s.setContext ctx ((s.context ctx).applyBdg b)
  else s

/-! ### Host queues and doorbells (R319, R420) -/

/-- The first 24 bytes of a host-queue block. -/
def HostQueue.image (q : HostQueue) : List Byte :=
  leBytes 8 q.base.toNat ++ leBytes 2 q.ctx ++ [q.lcap, .ofNat 8 ((if q.en then 1 else 0) + if q.err then 2 else 0)] ++
    leBytes 4 q.head.toNat ++ leBytes 4 q.tail.toNat ++ List.replicate 4 0

/-- Bytes overwritten in a list. -/
def overwrite (l : List Byte) (i : Nat) (bs : List Byte) : List Byte :=
  l.take i ++ bs ++ l.drop (i + bs.length)

/-- A host-queue block after n bytes of v are written at an offset (R420). -/
def HostQueue.write (q : HostQueue) (off n : Nat) (v : Word) : HostQueue :=
  let img := overwrite q.image off (leBytes n v.toNat)
  let ctl := (fieldAt img 11 1)
  let ctlWritten := decide (off ≤ 11) && decide (11 < off + n)
  let en' := if ctlWritten then bit ctl 0 else q.en
  let q1 : HostQueue :=
    if q.en then q
    else { q with base := w64 (fieldAt img 0 8), ctx := fieldAt img 8 2, lcap := .ofNat 8 (fieldAt img 10 1 % 16) }
  let q2 := if ctlWritten && bit ctl 1 then { q1 with err := false } else q1
  if en' && !q.en then
    if q2.lcap.toNat < 1 ∨ 12 < q2.lcap.toNat ∨ q2.base.toNat % 128 ≠ 0 then q
    else { q2 with en := true, head := 0, tail := 0, posted := [], record := q2.record.map fun r => { r with stale := true } }
  else { q2 with en := en' }

/-- A write within the block of a host queue. -/
def State.hostQueueWrite (s : State) (q off n : Nat) (v : Word) : State :=
  if q < 64 ∧ off + n ≤ 24 ∧ n ≤ 8 then s.setQueue q ((s.queue q).write off n v) else s

/-- Whether a ring's TAIL is accepted (R319): within its capacity of 2^lcap records from HEAD, and not behind the last one. -/
def tailOkay (lcap : Nat) (head old new : W32) : Bool :=
  decide ((new - head).toNat ≤ 2 ^ lcap) && decide ((old - head).toNat ≤ (new - head).toNat)

/-- A doorbell write of a TAIL (R319): each record it posts arrives now. -/
def HostQueue.doorbell (q : HostQueue) (tail : W32) (order now : Nat) : HostQueue :=
  if !q.en || q.ctx == 0 then { q with err := true }
  else
    if tailOkay q.lcap.toNat q.head q.tail tail then
      { q with tail := tail, posted := q.posted ++ List.replicate (tail - q.tail).toNat (order, now) }
    else { q with err := true }

/-- A write of a doorbell page. -/
def State.doorbell (s : State) (q : Nat) (tail : W32) : State :=
  if q < 64 then
    { s.setQueue q ((s.queue q).doorbell tail s.arrivals s.dtime.toNat) with arrivals := s.arrivals + 1 }
  else s

/-- A write of TAIL of the translation ring (R355). -/
def State.ringDoorbell (s : State) (v : Word) : State :=
  if tailOkay (s.ringLcap.toNat % 16) (s.ringHead.setWidth 32) (s.ringTail.setWidth 32) (v.setWidth 32) then
    { s with ringTail := w64 (v.toNat % 2 ^ 32) }
  else s

/-! ### Debug requests (R377, R378, R383) -/

/-- Releases frozen harts and drops halts that have not stopped them; a release of the device ends what its halt held, and a notice says so (R373). -/
def State.releaseHarts (s : State) (hs : List Nat) : State :=
  let s1 := hs.foldl (fun s h =>
    if (s.hart h).frozen then s.modHart h fun a => { a with frozen := false, dstat := a.dstat &&& ~~~1 }
    else if (s.hart h).skid.isSome then s.modHart h fun a => { a with skid := none }
    else s) s
  { s1 with
    halts := s1.halts.filterMap fun (o : HaltOrder) =>
      let r := o.harts.filter fun h => !hs.contains h
      if r.isEmpty then none else some { o with harts := r }
    fabric := if hs.length = Config.numHarts then { s1.fabric with held := false, notice := none } else s1.fabric }

/-- A step request for a frozen hart (R383). -/
def State.stepHart (s : State) (h : Nat) : State :=
  if (s.hart h).frozen then
    s.modHart h fun a => { a with frozen := false, stepping := some ⟨s.nextOp, none⟩, dstat := a.dstat &&& ~~~1 }
  else s

/-- A write of DREQ (R377). -/
def State.dreqPost (s : State) (w : Word) : State :=
  let n := w.toNat
  let s := { s with dreq := w64 (n % 2 ^ 32 / 2 ^ 24 * 2 ^ 24 + n % 65536) }
  let dom := bits n 27 25
  if 5 ≤ dom then s
  else match bits n 31 28 with
    | 1 => s.postHalt (domainHarts dom (bits n 15 0)) 1 0 (bit n 24)
    | 2 => s.releaseHarts (domainHarts dom (bits n 15 0))
    | 3 => if dom = 0 then (domainHarts 0 (bits n 15 0)).foldl State.stepHart s else s
    | _ => s

/-! ### The hub space (R375) -/

/-- A register of a hart's hub block. -/
def Hart.hubRead (a : Hart) (o : Nat) : Word :=
  if o = 0 then a.dstat
  else if o = 8 then a.dskid
  else if o = 0x10 then a.dctl
  else if o = 0x18 then a.dinj
  else if 0x40 ≤ o ∧ o < 0x80 then
    match a.stops.toList[(o - 0x40) / 16]? with
    | some u => if o % 16 = 0 then u.w0 else u.w1
    | none => 0
  else if 0x80 ≤ o ∧ o < 0x180 then (if a.frozen then a.getX (.ofNat 5 ((o - 0x80) / 8)) else 0)
  else 0

/-- A stop unit written; a stop at an entry is forgotten. -/
def Hart.setStop (a : Hart) (i : Nat) (f : StopUnit → StopUnit) : Hart :=
  { a with stops := Vector.ofFn fun j => if j.val = i then f a.stops[j] else a.stops[j] }

/-- A write of a register of a hart's hub block. -/
def Hart.hubWrite (a : Hart) (o : Nat) (v : Word) : Hart :=
  if o = 0x10 then { a with dctl := v &&& 1 }
  else if o = 0x18 then { a with dinj := v }
  else if 0x40 ≤ o ∧ o < 0x80 then
    a.setStop ((o - 0x40) / 16) fun u =>
      if o % 16 = 0 then { u with w0 := (canonical v &&& ~~~3) ||| (v &&& 1), fired := false }
      else { u with w1 := v &&& 0xFFFF000000003FFF, fired := false }
  else if 0x80 ≤ o ∧ o < 0x180 then (if a.frozen then a.setX (.ofNat 5 ((o - 0x80) / 8)) v else a)
  else a

/-- A register of a camp's hub block: watchpoints, ring and samplers. -/
def State.campHubRead (s : State) (camp o : Nat) : Word :=
  let c := s.camp camp
  if o < 0x100 then
    match c.watches.toList[o / 32]? with
    | some w => match o % 32 with
      | 0 => w.addr
      | 8 => w.cfg
      | 16 => w.value
      | _ => 0
    | none => 0
  else if 0x800 ≤ o ∧ o < 0x900 then
    let k := s.core (16 * camp + (o - 0x800) / 16)
    if o % 16 = 0 then k.samp0 else k.sampDone
  else match o with
    | 0x400 => c.ring.base
    | 0x408 => (c.ring.cfg &&& ~~~31) ||| w64 c.ring.lcap
    | 0x410 => c.ring.head
    | 0x418 => c.ring.tail
    | 0x420 => c.ring.lost
    | 0x428 => c.ring.mirror
    | _ => 0

/-- A watchpoint word written (R385). -/
def Watch.write (w : Watch) (o : Nat) (v : Word) : Watch :=
  match o with
  | 0 => { w with addr := v &&& ~~~7 }
  | 8 => { w with cfg := v &&& 0xFFFFFFFFE0000001 }
  | 16 => { w with value := v }
  | _ => w

/-- A write of a register of a camp's hub block. -/
def State.campHubWrite (s : State) (camp o : Nat) (v : Word) : State :=
  if o < 0x100 then
    s.modCamp camp fun c =>
      { c with watches := Vector.ofFn fun i => if i.val = o / 32 then c.watches[i].write (o % 32) v else c.watches[i] }
  else if 0x800 ≤ o ∧ o < 0x900 then
    if o % 16 = 0 then
      s.modCore (16 * camp + (o - 0x800) / 16) fun k => { k with samp0 := v &&& 0xFFFF00000003FFFF, sampCount := 0 }
    else s
  else match o with
    | 0x400 => s.modCamp camp fun c => { c with ring := { c.ring with base := v } }
    | 0x408 => s.modCamp camp fun c => { c with ring := { c.ring with cfg := v &&& 0x000000FFFFFF007F } }
    | 0x418 => s.modCamp camp fun c => { c with ring := { c.ring with tail := v } }
    | 0x428 => s.modCamp camp fun c => { c with ring := { c.ring with mirror := v } }
    | _ => s

/-- A register of a trigger unit (R387). -/
def Trigger.read (t : Trigger) (o : Nat) : Word :=
  match o with
  | 0 => t.cfg
  | 8 => t.cmp
  | 16 => w64 (t.wins * 2 ^ 32 + if t.isOpen then 1 else 0)
  | _ => 0

/-- A register of the hub space at a multiple of 8. -/
def State.hubRead (s : State) (o : Nat) : Word :=
  if o < 0x140000 then (s.hart (o / 512)).hubRead (o % 512)
  else if o < 0x140000 + 4096 * 40 then s.campHubRead ((o - 0x140000) / 4096) ((o - 0x140000) % 4096)
  else if o = 0x170000 then s.dreq
  else if 0x170100 ≤ o ∧ o < 0x170200 then
    match s.triggers.toList[(o - 0x170100) / 32]? with
    | some t => t.read (o % 32)
    | none => 0
  else if 0x200000 ≤ o ∧ o < 0x300000 then
    let c := s.context ((o - 0x200000) / 16)
    if o % 16 = 0 then (if c.bdg then 1 else 0) else w64 (c.folds % 2 ^ 32 * 2 ^ 32 + c.refusedPages % 2 ^ 32)
  else 0

/-- A write of a register of the hub space at a multiple of 8. A write of DINJ leaves the word to be executed (R380). -/
def State.hubWrite (s : State) (o : Nat) (v : Word) : State :=
  if o < 0x140000 then
    let s1 := s.modHart (o / 512) fun a => a.hubWrite (o % 512) v
    if o % 512 = 0x18 then { s1 with inject := some (o / 512, v.setWidth 32) } else s1
  else if o < 0x140000 + 4096 * 40 then s.campHubWrite ((o - 0x140000) / 4096) ((o - 0x140000) % 4096) v
  else if o = 0x170000 then s.dreqPost v
  else if 0x170100 ≤ o ∧ o < 0x170200 then
    { s with triggers := Vector.ofFn fun i =>
      if i.val = (o - 0x170100) / 32 then
        let t := s.triggers[i]
        match o % 32 with
        | 0 => { t with cfg := v }
        | 8 => { t with cmp := v }
        | _ => t
      else s.triggers[i] }
  else if 0x200000 ≤ o ∧ o < 0x300000 then (if o % 16 = 0 then s.dgctl ((o - 0x200000) / 16) v else s)
  else s

/-! ### The management block (R419) -/

/-- A register of a camp block (R425). -/
def Camp.blockRead (c : Camp) (o : Nat) : Word :=
  match o with
  | 0 => c.entrypc
  | 8 => c.sroot
  | 16 => w64 (c.floor.toNat + 256 * c.ceil.toNat + 65536 * c.weight.toNat + 16777216 * c.code.toNat)
  | 24 => c.mergeWord
  | _ => 0

/-- A register of a context block (R420). -/
def Context.blockRead (c : Context) (o : Nat) : Word :=
  match o with
  | 0 => c.record
  | 8 => c.objtab
  | 16 => w64 (c.domain + if c.dbind then 65536 else 0)
  | 24 => c.export_
  | _ => 0

/-- A register of the management block at a multiple of 8. -/
def State.mgmtRead (s : State) (o : Nat) : Word :=
  if o = 0 then s.health
  else if o = 8 then w64 s.errHead
  else if o = 0x10 then w64 s.stageBase
  else if o = 0x18 then w64 s.saveBase
  else if 0x1000 ≤ o ∧ o < 0x3000 then
    w64 (fieldAt (FMap.get (fun _ => List.replicate 32 0) s.errRing ((o - 0x1000) / 32)) (o % 32) 8)
  else if 0x10000 ≤ o ∧ o < 0x10000 + 64 * 40 then (s.camp ((o - 0x10000) / 64)).blockRead (o % 64)
  else if 0x20000 ≤ o ∧ o < 0x20000 + 8 * 2560 then ((s.hart ((o - 0x20000) / 8)).preempt).getD 0
  else if o = 0x30000 then s.ringBase
  else if o = 0x30008 then s.ringLcap
  else if o = 0x30010 then s.ringHead
  else if o = 0x30018 then s.ringTail
  else if o = 0x60000 then s.frameKeys
  else if 0x70000 ≤ o ∧ o < 0x70000 + 64 * 64 then w64 (fieldAt (s.queue ((o - 0x70000) / 64)).image (o % 64) 8)
  else if 0x80000 ≤ o ∧ o < 0x80000 + 4096 * 64 ∧ o % 4096 = 0 then
    (s.queue ((o - 0x80000) / 4096)).tail.setWidth 64
  else if 0x200020 ≤ o ∧ o < 0x400000 then (s.context ((o - 0x200000) / 32)).blockRead (o % 32)
  else if 0x400000 ≤ o then s.hubRead (o - 0x400000)
  else 0

/-- A write of a whole register of the management block, of which the bytes from `b`, n of them, were written. -/
def State.mgmtWriteWord (s : State) (o b n : Nat) (v : Word) : State :=
  if o = 0 then { s with health := s.health &&& ~~~(v &&& 0xC) }
  else if 0x10000 ≤ o ∧ o < 0x10000 + 64 * 40 then
    let p := (o - 0x10000) / 64
    match o % 64 with
    | 0 => s.modCamp p fun c => { c with entrypc := canonical v &&& ~~~3 }
    | 8 => s.modCamp p fun c => { c with sroot := v }
    | 16 => s.modCamp p fun c =>
      { c with
        floor := .ofNat 8 (bits v.toNat 4 0)
        ceil := .ofNat 8 (bits v.toNat 12 8)
        weight := .ofNat 8 (bits v.toNat 23 16) }
    | 24 => s.mergeAssign p v
    | _ => s
  else if 0x20000 ≤ o ∧ o < 0x20000 + 8 * 2560 then s.postPreempt ((o - 0x20000) / 8) v
  else if o = 0x30000 then { s with ringBase := v }
  else if o = 0x30008 then { s with ringLcap := v &&& 15 }
  else if o = 0x30018 then s.ringDoorbell v
  else if o = 0x50000 then s.keyctl v
  else if o = 0x60000 then { s with frameKeys := v }
  else if 0x80000 ≤ o ∧ o < 0x80000 + 4096 * 64 then
    (if o % 4096 = 0 ∧ b = 0 ∧ 4 ≤ n then s.doorbell ((o - 0x80000) / 4096) (v.setWidth 32) else s)
  else if 0x200020 ≤ o ∧ o < 0x400000 then
    let x := (o - 0x200000) / 32
    let c := s.context x
    match o % 32 with
    | 0 => s.setContext x { c with record := v &&& ~~~0xFE }
    | 8 =>
      -- the entries of another table are registered anew (R362)
      { s.setContext x { c with objtab := v } with nvme := s.nvme.filter fun (e : Nat × NvmeQueue) => e.1 / 4096 != x }
    | 16 => s.setContext x { c with domain := bits v.toNat 15 0, dbind := bit v.toNat 16 }
    | 24 => s.setContext x { c with export_ := v &&& ~~~0xF00 }
    | _ => s
  else if 0x400000 ≤ o then s.hubWrite (o - 0x400000) v
  else s

/-- A write of n bytes of one aligned word of 8 bytes of the management block. -/
def State.mgmtPart (s : State) (off n : Nat) (v : Word) : State :=
  if 0x70000 ≤ off ∧ off < 0x70000 + 64 * 64 then s.hostQueueWrite ((off - 0x70000) / 64) (off % 64) n v
  else
    let o := off / 8 * 8
    let w1c := o = 0
    let old := if w1c ∨ o = 0x50000 then 0 else s.mgmtRead o
    s.mgmtWriteWord o (off % 8) n (mergeWord old (off % 8) n v)

/-- A write of n bytes, aligned to n, at an offset of the management block. -/
def State.mgmtWrite (s : State) (off n : Nat) (v : Word) : State :=
  if n = 0 ∨ 8 < n ∨ off % n ≠ 0 then s else s.mgmtPart off n v

/-- A store of any bytes within the management block: word by word of 8 bytes, in ascending order, where it is no aligned write of one. -/
def mgmtStoreN : Nat → State → Nat → List Byte → State
  | 0, s, _, _ => s
  | k + 1, s, off, bs =>
    if bs.isEmpty then s
    else
      let n := Nat.min (8 - off % 8) bs.length
      mgmtStoreN k (s.mgmtPart off n (w64 (leNat (bs.take n)))) (off + n) (bs.drop n)
def State.mgmtStore (s : State) (off : Nat) (bs : List Byte) : State := mgmtStoreN bs.length s off bs

/-- n bytes of the management block. -/
def State.mgmtBytes (s : State) (off n : Nat) : List Byte :=
  (List.range n).map fun i => .ofNat 8 ((s.mgmtRead ((off + i) / 8 * 8)).toNat / 2 ^ (8 * ((off + i) % 8)))

end Sys2Proof.Machine
end

