-- ==== Sys2Proof/Machine/Access.lean ====
section
/-! DEFINITION. Loads, stores and atomics at virtual addresses, by harts and engines (R110, R174, R190, R217, R244), writes at a
memory-side home, and completion objects (R196). -/
namespace Sys2Proof.Machine

/-- Why an access is not performed. -/
inductive MemErr where
  /-- Translation refuses it, with a reason of R350. -/
  | refused (reason : Nat)
  /-- The bytes refuse stores (R156, R199, R297). -/
  | noStore
  /-- Uncorrectable data, with the SRC of R334 and the physical address. -/
  | bad (src pa : Nat)
  /-- A table entry met uncorrectable by a held translation, not yet in the log. -/
  | badWalk (entry : Nat)
  deriving DecidableEq, Repr

/-- An access's result with the state after it. -/
abbrev Res (α : Type) := State × Except MemErr α

/-- The refusal of a request by another chip, or of one that finds no route to it: an engine's REASON 1, and of a hart's access, whose trap the
manual does not name, reason 6 in its translation record (DESIGN CHOICE, log 77). -/
def peerError : MemErr := .refused 6

/-- Translates an address and keeps the translation. -/
def State.probe (s : State) (x : XCtx) (va : Word) (acc : Access) : Res Nat :=
  let r := s.translate x va acc
  let s := s.walkAcquire x va acc
  match r with
  | (.ok pa, t) => (s.keep x.h t, .ok pa)
  | (.refused r, _) => (s, .error (.refused r))
  | (.uncorrectable e, _) => (s.logBad 0 va e (hartId x.h), .error (.bad 0 e))

/-- The first byte of a range that an examination finds uncorrectable, with its SRC: a sector at a time, and word by word where `fine` says that its
words differ (R405). -/
def firstBad (fine : Nat → Bool) (f : Nat → Option Nat) (pa n : Nat) : Option (Nat × Nat) :=
  if n = 0 then none
  else ((List.range ((pa + n - 1) / 64 - pa / 64 + 1)).flatMap fun i =>
    let x := pa / 64 + i
    let lo := Nat.max pa (64 * x)
    if fine lo then ((List.range 16).map fun j => Nat.max lo (64 * x + 4 * j)).filter fun p => decide (p < pa + n) else [lo]).findSome? fun p =>
      (f p).map fun src => (src, p)

/-- Whether a word of an address's sector is uncorrectable in a local store. -/
def State.mixedAt (s : State) (pa : Nat) : Bool := s.badLocal.any fun w => w / 16 == s.fold pa / 64
/-- Whether one is there, or in the L2 of a core. -/
def State.mixedHeld (s : State) (c pa : Nat) : Bool := s.mixedAt pa || (s.core c).badL2.any fun w => w / 16 == s.fold pa / 64

/-- The first uncorrectable byte of a range at its home. -/
def State.badRange (s : State) (pa n : Nat) : Option (Nat × Nat) := firstBad s.mixedAt s.badAt pa n

/-- The first uncorrectable byte of a range that a core loads. -/
def State.badLoad (s : State) (c pa n : Nat) : Option (Nat × Nat) := firstBad (s.mixedHeld c) (s.badHeld c) pa n

/-- Whether a store of n bytes at pa writes the word or the sector of a byte without reading it: a sector covered whole is written without a fill
(R178), and a word covered whole that the L2 or a local store holds takes new check bits (R405). -/
def State.writtenWhole (s : State) (c pa n p : Nat) : Bool :=
  let q := s.fold p
  (decide (pa ≤ p / 64 * 64) && decide (p / 64 * 64 + 64 ≤ pa + n) && (s.place q).cached) ||
    (decide (pa ≤ p / 4 * 4) && decide (p / 4 * 4 + 4 ≤ pa + n) && (!(s.place q).cached || (FMap.find? (s.core c).l2 (q / 64)).isSome))

/-- The first uncorrectable byte of a range that a core stores to. -/
def State.badStore (s : State) (c pa n : Nat) : Option (Nat × Nat) :=
  firstBad (s.mixedHeld c) (fun p => if s.writtenWhole c pa n p then none else s.badHeld c p) pa n

/-- The report of a read by a unit of the device that meets uncorrectable data (R406, R408). -/
def State.noteBad (s : State) (va : Word) (pa n : Nat) : State :=
  match s.badRange pa n with
  | some (src, b) => s.logBad src va b 0xFFFF
  | none => s

/-- The sectors that an ordinary store covers whole and cannot fill are allocated without a fill. -/
def State.claimRange (s : State) (c pa n : Nat) : State :=
  ((List.range ((pa + n - 1) / 64 - pa / 64 + 1)).map (pa / 64 + ·)).foldl
    (fun s x => if pa ≤ x * 64 ∧ x * 64 + 64 ≤ pa + n ∧ (s.badHeld c (x * 64)).isSome then s.l2Claim c (s.fold (x * 64) / 64) else s) s

/-- The number that an agent's errors are logged with (R408). -/
def Agent.logId (ag : Agent) : Nat := (ag.haltHart.map hartId).getD 0xFFFF

/-- An ordinary load of n bytes at a physical address, by a core's agent (R216 to R219). -/
def State.loadPa (s : State) (ag : Agent) (c : Nat) (va : Word) (pa n : Nat) : Res (List Byte) :=
  match s.place pa with
  | .mgmt off => (s, .ok (s.mgmtBytes off n))
  | .nothing => (s, .error (.refused 6))
  | _ =>
    let s := s.landFor ag pa n
    match s.badLoad c pa n with
    | some (src, p) => (s.logBad src va p ag.logId, .error (.bad src p))
    | none =>
      let r := s.coreRead c pa n
      (r.1.afterLoad ag false pa n, .ok r.2)

/-- What a fence of an agent's hart has to wait for is noted. -/
def State.noteOwedBy (s : State) (ag : Agent) (vector : Bool) (pa n : Nat) : State :=
  match ag with
  | .hart h => s.noteOwed h vector pa n
  | _ => s

/-- An ordinary store at a physical address, by a core's agent. -/
def State.storePa (s : State) (ag : Agent) (c : Nat) (va : Word) (pa : Nat) (bs : List Byte) (vector : Bool := false) : Res Unit :=
  match s.place pa with
  | .mgmt off => (s.mgmtStore off bs, .ok ())
  | .nothing => (s, .error (.refused 6))
  | _ =>
    if s.storeRefused pa bs.length then (s, .error .noStore)
    else
      let s := s.landFor ag pa bs.length
      match s.badStore c pa bs.length with
      | some (src, p) => (s.logBad src va p ag.logId, .error (.bad src p))
      | none =>
        (State.afterStore s (((s.claimRange c pa bs.length).coreWrite c pa bs).noteOwedBy ag vector pa bs.length) ag false false pa bs.length,
          .ok ())

/-! ### The translation record (R348) -/

/-- Words of the translation record at a multiple of 8 (R348); everything else from 0x1A00 on reads as zero. -/
def Hart.translationWord (a : Hart) (o : Nat) : Word :=
  if o = 0x1A00 then a.satp
  else if o = 0x1A08 then w64 a.ctx
  else if o = 0x1A10 then w64 (a.xreason % 8)
  else if 0x1A40 ≤ o ∧ o < 0x1AC0 then
    match a.batch[(o - 0x1A40) / 8]? with
    | some (p, r) => w64 (p.toNat / 4096 * 4096 + r % 8)
    | none => 0
  else 0

/-- One byte of it. -/
def Hart.translationByte (a : Hart) (o : Nat) : Byte := .ofNat 8 (a.translationWord (o / 8 * 8) >>> (8 * (o % 8))).toNat

/-- A write of SATP (field 0) or CTX (field 1): the hart's own copies of fetched words go (R349). -/
def Hart.setTranslation (a : Hart) (field : Nat) (v : Word) : Hart :=
  if field = 0 then { a with satp := v, fetchBuf := [], loopBuf := [] } else { a with ctx := v.toNat % 65536, fetchBuf := [], loopBuf := [] }

/-- Whether an address made under a root lies in the translation record or in what reads as zero after it. -/
def XCtx.inTranslation (x : XCtx) (va : Word) : Bool := x.sup && decide (0x1A00 ≤ va.toNat) && decide (va.toNat < 0x4000)

/-- The offset of a physical address in the part of a hart's save page that the device keeps (R343, R348): no other address of a hart maps there
(R350). -/
def State.recordOff (s : State) (h pa : Nat) : Option Nat :=
  if s.savePa h 0x1000 ≤ pa ∧ pa < s.savePa h 0x4000 then some (pa - s.savePa h 0) else none

/-- Bytes of the save page from 0x1A00 on, as they read. -/
def State.translationBytes (s : State) (h off n : Nat) : List Byte := (List.range n).map fun i => (s.hart h).translationByte (off + i)

/-- A store there: its bytes of SATP and CTX are written once the hart's stores are performed at core scope (R349), all others ignore it. -/
def State.translationStore (s : State) (h off : Nat) (bs : List Byte) : State :=
  [0, 1].foldl (fun s f =>
    let o := 0x1A00 + 8 * f
    if o < off + bs.length ∧ off < o + 8 then
      (s.landOwn h).modHart h fun a => a.setTranslation f (w64 (leNat ((List.range 8).map fun i =>
        if off ≤ o + i ∧ o + i < off + bs.length then bs.getD (o + i - off) 0 else a.translationByte (o + i))))
    else s) s

/-- An ordinary load at a virtual address. -/
def State.memLoad (s : State) (ag : Agent) (x : XCtx) (va : Word) (n : Nat) : Res (List Byte) :=
  if x.inTranslation va then (s, .ok (s.translationBytes x.h va.toNat n))
  else
    match s.probe x va .load with
    | (s, .error e) => (s, .error e)
    | (s, .ok pa) => if s.fillRefused (coreOf x.h) x.ctx pa n false then (s, .error peerError) else s.loadPa ag (coreOf x.h) va pa n

/-- Loads of consecutive bytes, a sector at a time; the error carries how many bytes were read before it. -/
def loadRunN : Nat → State → Agent → XCtx → Word → Nat → State × List Byte × Option MemErr
  | 0, s, _, _, _, _ => (s, [], none)
  | f + 1, s, ag, x, va, n =>
    if n = 0 then (s, [], none)
    else
      let k := Nat.min n (64 - va.toNat % 64)
      match s.memLoad ag x va k with
      | (s, .error e) => (s, [], some e)
      | (s, .ok bs) =>
        match loadRunN f s ag x (va + w64 k) (n - k) with
        | (s, l, e) => (s, bs ++ l, e)

/-- Loads of n consecutive bytes. -/
def State.loadRun (s : State) (ag : Agent) (x : XCtx) (va : Word) (n : Nat) : State × List Byte × Option MemErr :=
  loadRunN (n / 64 + 2) s ag x va n

/-! ### At the memory-side home -/

/-- Evicts a line from a core's L2: the dirty bytes go home, the copy is dropped and the core's links on it end (R178, R247). -/
def State.evict (s : State) (c line : Nat) : State :=
  (((s.writeBack c line).modCore c fun k =>
    { k with l2 := k.l2.filter (fun e => e.1 / 4 != line), perms := k.perms.filter (· != line) })).dropLinks c line

/-- A write of bytes within one line at its home by a core's agent, the core's own dirty bytes first. -/
def State.homeStore (s : State) (ag : Agent) (atomic : Bool) (c : Nat) (va : Word) (pa : Nat) (bs : List Byte) : State × Bool :=
  let s1 := if (s.place pa).cached then s.evict c (pa / 256) else s
  let r := if s.peerGone pa bs.length then (s1, false)
    else if (s.place pa).cached then s1.homeWrite pa bs (va, ag.logId)
    else (s1.localWrite pa bs, true)
  let s2 := r.1.post pa
  (if r.2 then State.afterStore s1 s2 ag true atomic pa bs.length else s2, r.2)

/-- The holder of a wide mark that an access of a hart makes (R233). -/
def State.markHolder (s : State) (h : Nat) : MarkHolder :=
  match (s.hart h).kernel with
  | some k => .kernel k
  | none => .external s.dtime.toNat

/-- A scalar atomic of n bytes at a physical address, at home(pa, scope) as one step: `f` gives the new value, or none where the
access only loads (R222, R244, R245); one at another chip is a write packet either way (R367). At the memory-side home it sets the wide mark of its line first, which takes a permission away (R233,
R247). The steps of BAR, QSEND and QRECV are such atomics too, those among them that only read (DESIGN CHOICE, log 63). -/
def State.atomicPa (s : State) (h scope : Nat) (va : Word) (pa n : Nat) (f : Nat → Option Nat) : Res Nat :=
  let c := coreOf h
  match s.place pa with
  | .mgmt off =>
    let old := leNat (s.mgmtBytes off n)
    (match f old with
      | some v => s.mgmtWrite off n (w64 v)
      | none => s, .ok old)
  | .nothing => (s, .error (.refused 6))
  | p =>
    if s.storeRefused pa n then (s, .error .noStore)
    else if (decide (scope < 2) && s.fillRefused (coreOf h) (s.hart h).ctx pa n false) || (decide (2 ≤ scope) && s.peerRefuses (s.hart h).ctx pa n) then
      (s, .error peerError)
    else
      let near := decide (scope < 2) || !p.cached
      let s := s.landMet h pa n
      let s := if near then s else s.evict c (pa / 256)
      match s.badLoad c pa n with
      | some (src, b) => (s.logBad src va b (hartId h), .error (.bad src b))
      | none =>
        if near then
          let r := s.coreRead c pa n
          let old := leNat r.2
          match f old with
          | some v => (State.afterStore r.1 ((r.1.coreWrite c pa (leBytes n v)).noteOwed h false pa n) (.hart h) false true pa n, .ok old)
          | none => (State.watch r.1 r.1 (.hart h) false true true pa n, .ok old)
        else
          let s := s.markAt pa (s.markHolder h)
          let old := leNat (s.homeBytes pa n)
          (match f old with
            | some v => (s.homeStore (.hart h) true c va pa (leBytes n v)).1
            | none => (State.watch s s (.hart h) true true true pa n).post pa, .ok old)

/-- A read of n bytes at home(pa, scope), for waits (R258). -/
def State.homeLoad (s : State) (h scope : Nat) (va : Word) (pa n : Nat) : Res (List Byte) :=
  if (s.xctx h).inTranslation va then (s, .ok (s.translationBytes h va.toNat n))
  else if scope < 2 then if s.fillRefused (coreOf h) (s.hart h).ctx pa n false then (s, .error peerError) else s.loadPa (.hart h) (coreOf h) va pa n
  else if s.peerRefuses (s.hart h).ctx pa n then (s, .error peerError)
  else
    match s.place pa with
    | .mgmt off => (s, .ok (s.mgmtBytes off n))
    | .nothing => (s, .error (.refused 6))
    | p =>
      let s := s.landMet h pa n
      let s := if p.cached then s.evict (coreOf h) (pa / 256) else s
      match s.badRange pa n with
      | some (src, b) => (s.logBad src va b (hartId h), .error (.bad src b))
      | none => (s.afterLoad (.hart h) true pa n, .ok (s.homeBytes pa n))

/-! ### Completion objects (R196) -/

/-- Writes a completion object once, with release at device scope: every byte of the core goes home first. Bytes that refuse stores by then keep
their value (R156). One in the part of a save page that the device keeps writes SATP and CTX there and nothing else (R343, R348; DESIGN CHOICE, log
64). -/
def State.writeObject (s : State) (h : Nat) (kernel : Option Nat) (objVa : Word) (objPa : Option Nat) (v : Word)
    (pc : Word := 0) : State :=
  match objPa with
  | none => s
  | some pa =>
    let s1 := s.flush (coreOf h)
    match s1.recordOff h pa with
    | some off => s1.translationStore h off (leBytes 8 v.toNat)
    | none =>
    if s1.storeRefused pa 8 then s1
    else ((s1.homeStore (.engine h pc) false (coreOf h) objVa pa (leBytes 8 v.toNat)).1).noteDirty kernel objVa 8

/-- The REASON of an engine fault (R196). -/
def MemErr.reason : MemErr → Nat
  | .refused _ => 1
  | .noStore => 3
  | .bad _ _ => 2
  | .badWalk _ => 2

/-- The status word of an engine operation (R196): PROG, REASON, CODE. -/
def engineStatus (code reason prog : Nat) : Word := w64 (code + reason * 256 + prog % 2 ^ 48 * 65536)

/-- The engine that performs an operation. -/
def Op.agent (o : Op) : Agent := .engine o.h o.pc

/-- Ends an engine operation with its object. -/
def State.endOp (s : State) (o : Op) (v : Word) : State :=
  let s1 := { s with ops := s.ops.filter fun p => p.id != o.id }
  s1.writeObject o.h o.kernel o.objVa o.objPa v o.pc

/-! ### Traps of an access (R110, R334, R348) -/

/-- The trap that a hart's access raises, with REASON recorded where translation refused it. -/
def State.accessTrap (s : State) (h : Nat) (store : Bool) (va : Word) (e : MemErr) : State × Trap :=
  match e with
  | .refused r => (s.setReason h r, ⟨if store then causeStoreFault else causeLoadFault, va, none⟩)
  | .noStore => (s, ⟨causeStoreFault, va, none⟩)
  | .bad src pa =>
    let loc := if src = 3 then (pa - Config.apertureBase) % Config.apertureSlot else va.toNat
    (s, ⟨causeMachineCheck, mcValue false src loc, none⟩)
  | .badWalk e => (s.logBad 0 va e (hartId h), ⟨causeMachineCheck, mcValue false 0 va.toNat, none⟩)

end Sys2Proof.Machine
end

