-- ==== Sys2Proof/Machine/Fetch.lean ====
section
/-! DEFINITION. Fetching an instruction (R94 to R98): translation, the fetch and loop buffers of the hart and the instruction
cache of the core. -/
namespace Sys2Proof.Machine

/-- What a fetch gives. -/
inductive Fetched where
  | word (w : W32)
  | trap (t : Trap)
  deriving DecidableEq, Repr

/-- Words from an address on. -/
def wordsAt : Nat → List Nat → List (Nat × W32)
  | _, [] => []
  | pa, w :: l => (pa, .ofNat 32 w) :: wordsAt (pa + 4) l

/-- The words of a sector, read through a core's L2 for its instruction cache: those the cache lacks. -/
def State.icacheSector (s : State) (c pa : Nat) : State :=
  let good (p : Nat) : Bool := (s.badHeld c p).isNone
  if !((List.range 16).map fun i => pa + 4 * i).any good then s
  else
    let r := s.coreRead c pa 64
    let ws := (wordsAt pa (chunks 4 16 r.2)).filter fun w => (FMap.find? (s.core c).icache w.1).isNone && good w.1
    r.1.modCore c fun k =>
      { k with
        icache := ws.foldl (fun m w => FMap.put m w.1 w.2) k.icache
        badFetch := k.badFetch.filter fun b => !ws.any (·.1 == b) }

/-- Fills the instruction-cache line that holds a physical address from the core's L2 (R95); what is uncorrectable is not delivered (R182). -/
def State.icacheFill (s : State) (c pa : Nat) : State :=
  [0, 64, 128, 192].foldl (fun s o => s.icacheSector c (pa / 256 * 256 + o)) s

/-- Whether a core can fetch from an address: memory, a peer that answers, or a local store. -/
def State.fetchable (s : State) (pa : Nat) : Bool :=
  match s.place pa with
  | .mgmt _ => false
  | .nothing => false
  | _ => !s.peerGone pa 4

/-- The instruction cache of a core takes a word from L2: one it holds anew, as a line dropped and filled again would, or one of a line that it fills
ahead of a fetch (R95, R96). -/
def State.icacheRefresh (s : State) (c pa : Nat) : State :=
  if pa % 4 ≠ 0 || !s.fetchable pa || (s.badHeld c pa).isSome then s
  else
    let r := s.coreRead c pa 4
    r.1.modCore c fun k =>
      { k with
        icache := FMap.put k.icache pa (.ofNat 32 (leNat r.2))
        badFetch := k.badFetch.filter (· != pa) }

/-- A word through the instruction cache of a core. -/
def State.icacheWord (s : State) (c pa : Nat) : State × W32 :=
  match FMap.find? (s.core c).icache pa with
  | some w => (s, w)
  | none =>
    let s1 := s.icacheFill c pa
    (s1, FMap.get (fun _ => 0) (s1.core c).icache pa)

/-- Whether the fetch of a word meets uncorrectable data: in the instruction cache where it holds the word, else where it is filled
from (R405, R406). -/
def State.badWord (s : State) (c pa : Nat) : Bool :=
  if (FMap.find? (s.core c).icache pa).isSome then (s.core c).badFetch.contains pa else (s.badHeld c pa).isSome

/-- A fetch of a hart's word at an address, past its fetch buffer. -/
def State.fetchAt (s : State) (h : Nat) (va : Word) : State × Fetched :=
  match s.probe (s.xctx h) va .fetch with
  | (s, .error (.refused r)) => (s.setReason h r, .trap ⟨causeFetchFault, va, none⟩)
  | (s, .error _) => (s, .trap ⟨causeMachineCheck, mcValue false 0 va.toNat, none⟩)
  | (s, .ok pa) =>
    match s.badWord (coreOf h) pa with
    | true => (s.logBad 5 va pa (hartId h),
        .trap ⟨causeMachineCheck, mcValue false 5 va.toNat, none⟩)
    | false =>
      let r := s.icacheWord (coreOf h) pa
      (r.1, .word r.2)

/-- Whether a level's range holds an address. -/
def LoopLevel.holds (l : LoopLevel) (t : Word) : Bool := decide ((t - l.start).toNat ≤ (l.fin - l.start).toNat)

/-- A hart's own copies of words are named by address and privilege, whose root they were translated under (R94, R347). -/
def fetchKey (sup : Bool) (va : Word) : Nat := 2 * va.toNat + if sup then 1 else 0

/-- Whether an address lies in an armed body of at most 64 words, which the loop buffer serves (R116). -/
def Hart.looping (a : Hart) (va : Word) : Bool :=
  a.loops.any fun l => l.any fun l => decide ((l.fin - l.start).toNat < 256) && l.holds va

/-- The hart's own copy of a word: in its fetch buffer, or for an armed body in its loop buffer (R95, R116). -/
def Hart.ownWord (a : Hart) (va : Word) : Option W32 :=
  let k := fetchKey a.sup va
  (FMap.find? a.fetchBuf k).or (if a.looping va then FMap.find? a.loopBuf k else none)

/-- The loop buffer takes a word of an armed body as the hart executes it; it holds 64. -/
def Hart.loopTake (a : Hart) (va : Word) (w : W32) : Hart :=
  { a with loopBuf := FMap.put (if 64 ≤ a.loopBuf.length then [] else a.loopBuf) (fetchKey a.sup va) w }

/-- What a fetch gave is kept for the body it belongs to. -/
def State.keepWord (s : State) (h : Nat) (va : Word) (f : Fetched) : State :=
  match f with
  | .word w => if (s.hart h).looping va && (FMap.find? (s.hart h).loopBuf (fetchKey (s.hart h).sup va)).isNone then
      s.modHart h fun a => a.loopTake va w else s
  | .trap _ => s

/-- The word at a hart's PC: its own copy where it holds one (R95). -/
def State.fetch (s : State) (h : Nat) : State × Fetched :=
  let pc := (s.hart h).pc
  let r : State × Fetched := match (s.hart h).ownWord pc with
    | some w => (s, .word w)
    | none => s.fetchAt h pc
  (r.1.keepWord h pc r.2, r.2)

/-- Fetches up to 16 words from the PC on into the fetch buffer (R95); it ends at the first that cannot be fetched. -/
def prefetchN : Nat → State → Nat → Word → State
  | 0, s, _, _ => s
  | n + 1, s, h, va =>
    match s.fetchAt h va with
    | (s1, .word w) =>
      prefetchN n (s1.modHart h fun a => { a with fetchBuf := FMap.put a.fetchBuf (fetchKey a.sup va) w }) h (va + 4)
    | (_, .trap _) => s

/-- Fetches ahead. -/
def State.prefetch (s : State) (h : Nat) : State :=
  prefetchN 16 (s.modHart h fun a => { a with fetchBuf := [] }) h (s.hart h).pc

/-- The physical address a leaf entry gives an address, whatever it permits. -/
def State.leafPa (s : State) (va level : Nat) (pte : Word) : Nat := s.fold ((pteOf pte).ppn * 4096 + va % 2 ^ (12 + 9 * level))

/-- The physical addresses that an address of a hart may have been fetched from, whatever its entries permit now: none where the walk ends at
no leaf. -/
def State.framesOf (s : State) (x : XCtx) (va : Nat) : Option (List Nat) :=
  if x.sup && decide (va < Config.savePage) then some [s.savePa x.h va]
  else
    let held := (s.core (coreOf x.h)).tlb.filter fun t => t.covers va (asidOf x.root)
    match (s.walk x .fetch va 4 (bits x.root.toNat 43 0)).2 with
    | some (level, pte) => if (pteOf pte).malformed level then none else some (s.leafPa va level pte :: held.map fun t => s.leafPa va t.level t.pte)
    | none => none

/-- The physical bytes of whole lines that the part of [va, va + n) in its i-th page maps to: first byte and one past the last of each frame. -/
def State.linesOfPage (s : State) (h : Nat) (va n i : Nat) : Option (List (Nat × Nat)) :=
  let base := (va / 4096 + i) * 4096
  let lo := Nat.max va base - base
  let hi := Nat.min (va + n) (base + 4096) - base
  (s.framesOf (s.xctx h) base).map fun l => l.map fun pa => (pa + lo / 256 * 256, pa + (hi + 255) / 256 * 256)

/-- Invalidates the cached words of a core that lie in [va, va + n) as the hart translates it, or all of them for n = 0, and
discards the hart's own copies (R97). A range above 1 MiB, or with a page that no leaf maps, drops the whole cache: a word dropped early is only
fetched again. -/
def State.icacheInvalidate (s : State) (h : Nat) (va : Word) (n : Nat) : State :=
  let c := coreOf h
  let s1 := s.modHart h fun a => { a with fetchBuf := [], loopBuf := [] }
  let rs := if n = 0 ∨ 1048576 < n then [none]
    else (List.range ((va.toNat % 4096 + n - 1) / 4096 + 1)).map fun i => s.linesOfPage h va.toNat n i
  let gone (pa : Nat) : Bool := rs.any fun r => match r with
    | none => true
    | some l => l.any fun f => decide (f.1 ≤ pa) && decide (pa < f.2)
  s1.modCore c fun k => { k with icache := k.icache.filter fun e => !gone e.1 }

end Sys2Proof.Machine
end

