-- ==== Sys2Proof/Machine/Plane.lean ====
section
/-! DEFINITION. The plane and its names (R40 to R56, R125, R126): formats, definition-table entries, shapes, the checks of a name,
footprints, alignment, and reading and writing an element. -/
namespace Sys2Proof.Machine

/-! ### Formats (R27, R41) -/

/-- Bits of an element of a format code. -/
def fmtWidth (code : Nat) : Nat :=
  match code with
  | 0 | 4 | 11 | 12 | 14 => 8
  | 1 | 5 | 9 | 10 => 16
  | 2 | 6 | 8 => 32
  | 3 | 7 => 64
  | 13 => 4
  | _ => 1

/-- Whether R27 gives the code a format. -/
def fmtOk (code : Nat) : Bool := decide (code ≤ 14) || decide (16 ≤ code) && decide (code ≤ 22)

/-- Bits that a width code names (R88). -/
def widthOf (code : BitVec 2) : Nat := 8 * 2 ^ code.toNat

/-- Columns of an element width in one row (R41). -/
def columns (w : Nat) : Nat := 8192 / w

/-- VLMAX for a VTYPE (R45). -/
def vlmax (vtype : Word) : Nat :=
  Nat.min (columns (fmtWidth (bits vtype.toNat 15 11)) * 2 ^ bits vtype.toNat 10 9) 8192

/-- The block length of a VTYPE (R26): 0 for none. -/
def blkLen (vtype : Word) : Nat :=
  match bits vtype.toNat 8 7 with
  | 0 => 0
  | b => 8 * 2 ^ b

/-! ### Entries (R43, R44) -/

def Def.kind (d : Def) : Nat := bits d.w0.toNat 63 61
def Def.fmt (d : Def) : Nat := bits d.w0.toNat 60 56
def Def.row0 (d : Def) : Int := sxi 10 (bits d.w0.toNat 55 46)
def Def.col0 (d : Def) : Int := sxi 15 (bits d.w0.toNat 45 31)
def Def.rows (d : Def) : Nat := bits d.w0.toNat 30 22
def Def.cols (d : Def) : Nat := bits d.w0.toNat 21 8
def Def.drow (d : Def) : Int := sxi 8 (bits d.w1.toNat 23 16)
def Def.dcol (d : Def) : Int := sxi 15 (bits d.w1.toNat 14 0)
def Def.width (d : Def) : Nat := fmtWidth d.fmt

/-- An entry that gives a shape: a kind, a format, no reserved bit, no unused field, and the limits of R44. -/
def Def.wf (d : Def) : Bool :=
  let res := bits d.w0.toNat 7 0 == 0 && bits d.w1.toNat 63 24 == 0 && !bit d.w1.toNat 15
  let rows256 := decide (1 ≤ d.rows) && decide (d.rows ≤ 256)
  let still := d.w1 == 0
  res && fmtOk d.fmt &&
    match d.kind with
    | 1 => still && d.col0 == 0 && d.cols == 0 && [1, 2, 4, 8].contains d.rows
    | 2 | 3 | 4 => still && d.cols == 0 && rows256
    | 5 => still && rows256 && decide (1 ≤ d.cols) && decide (d.cols ≤ columns d.width)
    | 6 => rows256 && decide (1 ≤ d.cols) && decide (d.cols ≤ columns d.width)
    | _ => false

/-- First plane row of a hart's window and its rows W (R35, R36, R42). -/
def Hart.base (a : Hart) : Nat := a.pwbase.toNat % 256
def Hart.windowRows (a : Hart) : Nat := Nat.min (a.base + Nat.min (bits a.pwlen.toNat 8 0) 256) 256 - a.base

/-- The shape of an entry in a window. -/
def Def.shape (d : Def) (base : Nat) : Shape :=
  let w := d.width
  match d.kind with
  | 1 => ⟨w, base, d.row0, 0, d.rows, columns w, 0⟩
  | 2 => ⟨w, base, d.row0, d.col0, d.rows, 1, 0⟩
  | 3 => ⟨w, base, d.row0, d.col0, d.rows, 1, 1⟩
  | 4 => ⟨w, base, d.row0, d.col0, d.rows, 1, -1⟩
  | _ => ⟨w, base, d.row0, d.col0, d.rows, d.cols, 0⟩

/-- N, the number of elements. -/
def Shape.count (p : Shape) : Nat := p.rows * p.cols

/-- Position of element e (R44). -/
def Shape.pos (p : Shape) (e : Nat) : Int × Int :=
  if p.step = 0 then (p.row0 + (e / p.cols : Nat), p.col0 + (e % p.cols : Nat)) else (p.row0 + e, p.col0 + p.step * e)

/-- The lowest-numbered element outside a window of `rows` rows. -/
def Shape.firstOutside (p : Shape) (rows : Nat) : Option Nat :=
  let P := columns p.w
  if p.row0 < 0 ∨ (rows : Int) ≤ p.row0 ∨ p.col0 < 0 ∨ (P : Int) ≤ p.col0 then some 0
  else
    let down := rows - p.row0.toNat
    let right := P - p.col0.toNat
    if p.step = 0 then
      if right < p.cols then some right else if down < p.rows then some (down * p.cols) else none
    else
      let m := Nat.min down (if p.step = 1 then right else p.col0.toNat + 1)
      if m < p.rows then some m else none

/-! ### PLANE_BOUNDS and NAME_WIDTH (R46, R47, R125, R126) -/

/-- TVAL of PLANE_BOUNDS. -/
def boundsTval (reason entry elem : Nat) (pos : Int × Int) : Word :=
  w64 (Nat.min elem 16383 * 2 ^ 48 + wrapN 16 pos.2 * 2 ^ 32 + wrapN 16 pos.1 * 65536 + reason * 32 + entry)

/-- PLANE_BOUNDS for an element. -/
def boundsTrap (reason : Nat) (entry : Reg) (p : Shape) (e : Nat) : Trap :=
  ⟨causePlaneBounds, boundsTval reason entry.toNat e (p.pos e), none⟩

/-- PLANE_BOUNDS for an entry that is empty or malformed. -/
def emptyTrap (entry : Reg) : Trap := ⟨causePlaneBounds, boundsTval 3 entry.toNat 0 (0, 0), none⟩

/-- How an instruction uses a name: entry, position (R126), element width, elements the shape must hold, whether it is the destination,
its empty-action bit, whether the instruction uses element e of it for element e of the destination (R129), the elements its
footprint covers, and whether it is a destination whose elements are not written in the order of the instruction's own. -/
structure Name where
  entry : Reg
  pos : Nat
  w : Nat
  need : Nat
  dest : Bool := false
  empty : Bool := false
  align : Bool := true
  lo : Nat
  hi : Nat
  spread : Bool := false
  deriving DecidableEq, Repr

/-- The shape a name has now. -/
def Name.shape (a : Hart) (n : Name) : Shape := (a.getDef n.entry).shape a.base

/-- R46 at use. -/
def Name.bounds (a : Hart) (n : Name) : Option Trap :=
  let d := a.getDef n.entry
  if !d.wf then some (emptyTrap n.entry)
  else
    let p := d.shape a.base
    match p.firstOutside a.windowRows with
    | some e => some (boundsTrap 1 n.entry p e)
    | none => if p.count < n.need then some (boundsTrap 2 n.entry p p.count) else none

/-- R125. -/
def Name.widthCheck (a : Hart) (n : Name) : Option Trap :=
  let have_ := (a.getDef n.entry).width
  if have_ = n.w then none else some ⟨causeNameWidth, w64 (have_ * 65536 + n.w * 256 + n.pos * 32 + n.entry.toNat), none⟩

/-- Every name of an instruction against R46 and then against R125 (R128). -/
def checkNames (a : Hart) (l : List Name) : Option Trap :=
  (l.findSome? (Name.bounds a)).or (l.findSome? (Name.widthCheck a))

/-- R37 and R339: at kernel privilege the window must be owned by the running context. -/
def Hart.owns (a : Hart) : Bool := a.sup || (a.pwctl.getLsbD 0 && bits a.pwctl.toNat 31 16 == a.ctx)

/-- PLANE_OWNER. -/
def ownerTrap : Trap := ⟨causePlaneOwner, 0, none⟩

/-- The owner check. -/
def checkOwner (a : Hart) : Option Trap := if a.owns then none else some ownerTrap

/-- A definition replaced or refused (R131). -/
def checkDef (a : Hart) (entry : Reg) (d : Def) : Option Trap :=
  if d.w0 = 0 ∧ d.w1 = 0 then none
  else if !d.wf then some (emptyTrap entry)
  else
    let p := d.shape a.base
    match p.firstOutside a.windowRows with
    | some e => some (boundsTrap 0 entry p e)
    | none => none

/-- A window advanced by its steps (R49): a sum that does not fit its field wraps there (DESIGN CHOICE, log 71). -/
def Def.advance (d : Def) : Def :=
  if d.kind = 6 then
    let r := wrapN 10 (d.row0 + d.drow)
    let c := wrapN 15 (d.col0 + d.dcol)
    { d with w0 := w64 (d.w0.toNat - bits d.w0.toNat 55 31 * 2 ^ 31 + (r * 2 ^ 15 + c) * 2 ^ 31) }
  else d

/-! ### Footprints (R50) and alignment (R53, R55) -/

/-- The footprint of a use: none where it covers no element. -/
def Use.foot (u : Use) : Option Foot :=
  if u.hi ≤ u.lo then none
  else
    let p := u.shape
    let a := p.pos u.lo
    let b := p.pos (u.hi - 1)
    let r0 := p.base + a.1.toNat
    let r1 := p.base + b.1.toNat
    let c0 := if p.step = 0 ∧ r0 ≠ r1 then p.col0.toNat else Nat.min a.2.toNat b.2.toNat
    let c1 := if p.step = 0 ∧ r0 ≠ r1 then p.col0.toNat + p.cols - 1 else Nat.max a.2.toNat b.2.toNat
    some ⟨r0, r1, c0 * p.w / 32, (c1 * p.w + p.w - 1) / 32⟩

/-- Two footprints intersect (R17). -/
def Foot.meets (a b : Foot) : Bool :=
  decide (a.r0 ≤ b.r1) && decide (b.r0 ≤ a.r1) && decide (a.c0 ≤ b.c1) && decide (b.c0 ≤ a.c1)

/-- Two uses meet. -/
def Use.meets (a b : Use) : Bool :=
  match a.foot, b.foot with
  | some x, some y => x.meets y
  | _, _ => false

/-- Element-aligned over a range (R53): element e of both occupies the same bits. -/
def Use.aligned (a b : Use) (lo hi : Nat) : Bool :=
  a.shape.w == b.shape.w && a.shape.base == b.shape.base &&
    ((a.shape.row0 == b.shape.row0 && a.shape.col0 == b.shape.col0 && a.shape.step == b.shape.step &&
        a.shape.cols == b.shape.cols) ||
      (List.range (hi - lo)).all fun i => a.shape.pos (lo + i) == b.shape.pos (lo + i))

/-! ### Elements (R41) -/

/-- Number of a plane cell. -/
def cellKey (row cell : Nat) : Nat := 256 * row + cell

/-- A cell of a core's plane. -/
def Core.cell (c : Core) (k : Nat) : Nat := (FMap.get (fun _ => 0) c.plane k).toNat

/-- A cell's bits replaced. -/
def Core.putCell (c : Core) (k v : Nat) : Core := { c with plane := FMap.set (fun _ => 0) c.plane k (.ofNat 32 v) }

/-- A cell written whole: its check bits are new. -/
def Core.setCell (c : Core) (k v : Nat) : Core :=
  { c.putCell k v with badPlane := c.badPlane.filter (· != k) }

/-- The cell of element e of a shape, and the lowest bit within it. -/
def Shape.cellOf (p : Shape) (e : Nat) : Nat × Nat :=
  let q := p.pos e
  let b := q.2.toNat * p.w
  (cellKey (p.base + q.1.toNat) (b / 32), b % 32)

/-- An uncorrectable cell among those of an element. -/
def Core.badElem (c : Core) (p : Shape) (e : Nat) : Option Nat :=
  let k := (p.cellOf e).1
  if c.badPlane.contains k then some k else if p.w = 64 && c.badPlane.contains (k + 1) then some (k + 1) else none

/-- The bits of element e. -/
def Core.elem (c : Core) (p : Shape) (e : Nat) : Nat :=
  let q := p.cellOf e
  if p.w = 64 then c.cell q.1 + c.cell (q.1 + 1) * 2 ^ 32 else c.cell q.1 / 2 ^ q.2 % 2 ^ p.w

/-- Element e written. A write of part of a cell leaves the cell's other bits, and its state of error. -/
def Core.setElem (c : Core) (p : Shape) (e v : Nat) : Core :=
  let q := p.cellOf e
  if p.w = 64 then (c.setCell q.1 (v % 2 ^ 32)).setCell (q.1 + 1) (v / 2 ^ 32 % 2 ^ 32)
  else if p.w = 32 then c.setCell q.1 (v % 2 ^ 32)
  else
    let old := c.cell q.1
    c.putCell q.1 (old - old / 2 ^ q.2 % 2 ^ p.w * 2 ^ q.2 + v % 2 ^ p.w * 2 ^ q.2)

/-- MACHINE_CHECK for an uncorrectable plane cell (R334). -/
def planeCheck (k : Nat) : Trap := ⟨causeMachineCheck, mcValue false 1 k, none⟩

end Sys2Proof.Machine
end

