-- ==== Sys2Proof/Machine/Operands.lean ====
section
/-! DEFINITION. How a word commits on the scalar side: the end check of loop levels, redirects, traps at the commit, and the
instructions that wait for the queue (R99, R112 to R115, R329, R330). -/
namespace Sys2Proof.Machine

/-! ### Loop levels (R113 to R115) -/

/-- The end check of levels n - 1 down to 0 at the word at the PC (R114). -/
def Hart.endCheck : Nat → Hart → Hart
  | 0, a => { a with pc := a.pc + 4 }
  | n + 1, a =>
    match a.loops.toList[n]?.join with
    | none => a.endCheck n
    | some l =>
      if l.fin ≠ a.pc then a.endCheck n
      else if a.getX l.counter ≠ 0 then { a.setX l.counter (a.getX l.counter - 1) with pc := l.start }
      else { a with loops := a.loops.set! n none }.endCheck n

/-- Execution goes on at PC + 4, or at the back edge of a level (R114). -/
def Hart.advance (a : Hart) : Hart :=
  if a.loops.all (·.isNone) then { a with pc := a.pc + 4 } else a.endCheck 6

/-- A redirect: levels whose range lacks the target become idle (R115). -/
def Hart.redirect (a : Hart) (t : Word) : Hart :=
  { a with
    loops := a.loops.map fun l => l.filter (·.holds t)
    pc := t }

/-! ### Commit -/

/-- A scalar instruction commits: its effect on the hart, then the PC goes on. -/
def commit (s : State) (f : Hart → Hart) : Out := .next (s.modH fun a => (f a).advance)

/-- Writes x[d] and goes on. -/
def writeX (s : State) (d : Reg) (v : Word) : Out := commit s fun a => a.setX d v

/-- A trap at the commit of a scalar instruction: it is taken once every earlier entry has retired (R330); until then the hart holds
the instruction. `s1` carries what the access that failed did. -/
def raiseIn (s s1 : State) (t : Trap) : Out :=
  if s.h.queue.isEmpty then .next (s1.takeTrap s.cur t s.h.pc) else .next s

/-- A trap at the commit of a scalar instruction. -/
def raise (s : State) (t : Trap) : Out := raiseIn s s t

/-- ILLEGAL with the instruction's word (R92). -/
def illegalOf (w : W32) : Trap := ⟨causeIllegal, w.setWidth 64, none⟩

/-- ILLEGAL for an instruction. -/
def illegal (s : State) (i : Instr) : Out := raise s (illegalOf (encode i))

/-- A held instruction: it commits only when every earlier entry has retired (R329). -/
def held (s : State) (k : State → Out) : Out := if s.h.queue.isEmpty then k s else .next s

/-! ### Immediates (R80, R103) -/

/-- sext(imm15, 15). -/
def simm (i : BitVec 15) : Word := i.signExtend 64
/-- 4 × sext(off15, 15). -/
def off15 (o : BitVec 15) : Word := 4 * o.signExtend 64
/-- 4 × sext(off20, 20). -/
def off20 (o : BitVec 20) : Word := 4 * o.signExtend 64

end Sys2Proof.Machine
end

