-- ==== Sys2Proof/Machine/Queue.lean ====
section
/-! DEFINITION. The vector queue of a hart (R51 to R57, R307 to R315, R329 to R334): what an instruction of the queue is made of,
its entry, its issue, its element groups, its completion, and the unwinding of the scalar side. -/
namespace Sys2Proof.Machine

/-- What performing elements gives: the state, the flags of the elements performed, and the trap at an element. -/
structure Done where
  state : State
  flags : Flags := 0
  trap : Option Trap := none

/-- What issue asks of the core: a plane instruction, the matrix engine, an engine operation, or nothing. -/
inductive QKind where
  | plane | matrix | engine | other
  deriving DecidableEq, Repr

/-- What a sampler sees of a vector memory instruction (R392): its class, its active elements, the addresses it accesses, its stride. -/
structure Trace where
  cls : Nat
  elems : Nat
  addrs : List Word
  stride : Word := 0
  deriving DecidableEq, Repr

/-- An instruction of the queue: what it needs to issue, its checks in order, the elements it performs and what its completion does.
`run s h e lo hi` performs elements lo to hi - 1 of entry e of hart h. -/
structure QOp where
  kind : QKind := .plane
  /-- The scalar side waits until the entry has retired. -/
  waits : Bool := false
  /-- The instruction begins at ESTART and is tied to an element when it traps (R30, R38). -/
  elems : Bool := true
  /-- Width of an element in bits, for element groups and the charge (R309); 0 for an instruction charged one beat. -/
  width : Nat := 0
  ra : Reg := 0
  rb : Reg := 0
  rc : Reg := 0
  rd : Reg := 0
  /-- R339 applies. -/
  owner : Bool := true
  /-- Checks before every name check. -/
  pre : Hart → QEntry → Option Trap := fun _ _ => none
  names : Hart → QEntry → List Name := fun _ _ => []
  /-- Checks after the name checks. -/
  post : State → Nat → QEntry → State × Option Trap := fun s _ _ => (s, none)
  /-- One past the last element, settled as the entry issues; rows for a matrix instruction. -/
  len : Hart → QEntry → Nat := fun _ e => e.vl
  /-- Elements of a group where the width does not say: 1 for the rows of a matrix instruction. -/
  group : Nat := 0
  /-- Charged one row of each group, G beats, whatever its length: the plane write of SQPOP (R309). -/
  oneRow : Bool := false
  /-- The name whose format gives the width of an element, where the instruction does not (R309). -/
  byName : Option Reg := none
  /-- Performed as one unit (R311). -/
  unit_ : Bool := false
  /-- The lane group of an instruction performed as one unit (R309). -/
  lane : Hart → QEntry → Nat := fun _ _ => 0
  /-- A group is performed as its data arrives, a row as the matrix engine comes to it. -/
  inOrder : Bool := false
  /-- The data of a load that decodes a stream: each group follows the one below. -/
  serial : Bool := false
  /-- Loads and stores of memory, stores among them, and pushes to a port (R111, R191, R220, R296). -/
  memory : Bool := false
  stores : Bool := false
  port : Bool := false
  /-- Physical address and bytes of each access that elements lo to hi - 1 make; none where any address may be meant. -/
  places : State → Nat → QEntry → Nat → Nat → Option (List (Nat × Nat)) := fun _ _ _ _ _ => some []
  /-- Two elements of a store write one byte: its groups start in ascending order (R191). -/
  overlaps : State → Nat → QEntry → Bool := fun _ _ _ => false
  /-- Mask registers read, whether every bit of them is, and the one written (R130). -/
  kr : List KReg := []
  kall : Bool := false
  kw : Option KReg := none
  /-- `post` and `frames` read masks, and with `indexed` the index name: they wait for what writes them (R130, R193). -/
  probes : Bool := false
  indexed : Bool := false
  /-- What else must hold for the entry to issue. -/
  ready : State → Nat → QEntry → Bool := fun _ _ _ => true
  /-- Elements lo to hi - 1 find room in the units they are handed to. -/
  room : State → Nat → QEntry → Nat → Nat → Bool := fun _ _ _ _ _ => true
  /-- A later entry may chain on this one. -/
  chains : State → Nat → QEntry → Bool := fun _ _ _ => true
  /-- For a vector memory instruction, what a sampler sees of it (R391, R392). -/
  trace : State → Nat → QEntry → Option Trace := fun _ _ _ => none
  /-- The pages translated as the entry issues (R192, R193). -/
  frames : State → Nat → QEntry → List Frame := fun _ _ _ => []
  start : State → Nat → QEntry → State := fun s _ _ => s
  /-- The definition table as later entries of the queue find it (R48, R49). -/
  redefine : QEntry → Hart → Hart := fun _ a => a
  /-- The first element at or after one at which a stop may fall (R71, R205). -/
  grain : State → Nat → QEntry → Nat → Nat := fun _ _ _ n => n
  run : State → Nat → QEntry → Nat → Nat → Done
  /-- The trap that comes after the last element (R193). -/
  closing : State → Nat → QEntry → State × Option Trap := fun s _ _ => (s, none)
  /-- What a stop at an element leaves in the restart registers (R57). -/
  stopAt : QEntry → Hart → Nat → Hart := fun _ a n => { a with estart := w64 n }
  /-- What a stop inside it writes to memory (R205). -/
  leave : State → Nat → QEntry → State := fun s _ _ => s
  finish : State → Nat → QEntry → State := fun s _ _ => s
  /-- What its completion does to the hart at once, though earlier entries have not retired (R249). -/
  atEnd : Hart → Hart := fun a => a
  /-- It takes or uses the hart's links, and writes SMISS (R247 to R251): such entries keep their order. -/
  links : Bool := false

/-- A vector instruction: it takes ESTART and leaves 0 (R30), and its trap carries ESTART in TRAPEI (R38, R331). VGETX and VPUTX are vector
instructions without elements of their own. -/
def QOp.vector (op : QOp) : Bool := op.elems || op.kind == .plane

/-! ### Entries -/

/-- The entry of an instruction that commits on a hart (R307). -/
def newEntry (i : Instr) (op : QOp) (a : Hart) : QEntry :=
  { instr := i, pc := a.pc, vtype := a.vtype, vl := a.vlNat, va := a.getX op.ra, vb := a.getX op.rb, vc := a.getX op.rc,
    vd := a.getX op.rd, xs := a.x, loops := a.loops, sflags := a.fctl, issued := none,
    startsAt := if op.vector then a.es else 0, len := 0, defs := a.defs, edone := 0, settled := true, frames := [], whole := false, chain := [],
    follow := [], begun := Vector.replicate 4 0, arrived := 0, landed := [], parts := [], flags := [], trap := none, sampled := none,
    ended := false }

/-- The checks of an entry that need no mask and no index (R37, R46, R125). -/
def QOp.early (op : QOp) (a : Hart) (e : QEntry) : Option Trap :=
  ((if op.owner then checkOwner a else none).or (op.pre a e)).or (checkNames a (op.names a e))

/-- The checks of an entry in their order (R128, R37). -/
def QOp.check (op : QOp) (s : State) (h : Nat) (e : QEntry) : State × Option Trap :=
  match op.early (s.hart h) e with
  | some t => (s, some t)
  | none => op.post s h e

/-- A name as a use. -/
def Name.use (a : Hart) (n : Name) : Use := ⟨n.shape a, n.lo, n.hi⟩

/-- R55: a destination meets a source that is not aligned with it. -/
def QOp.indivisible (op : QOp) (a : Hart) (e : QEntry) : Bool :=
  let ns := op.names a e
  (ns.filter (·.dest)).any fun d => ns.any fun n =>
    !n.dest && (n.use a).meets (d.use a) && !(n.align && (n.use a).aligned (d.use a) n.lo n.hi)

/-! ### The comparisons of issue (R52, R53) -/

/-- What the pending-write list lets a ready instruction do. -/
inductive IssueTest where
  | wait
  | empty (t : Trap)
  | go (chain follow : List Nat)
  deriving DecidableEq, Repr

/-- The listed entries a use meets. -/
def Core.meets (c : Core) (u : Use) (dest : Bool) : List PendingWrite :=
  c.pend.filter fun p => p.dsts.any (·.meets u) || (dest && p.srcs.any (·.meets u))

/-- The listed entry a name chains on (R53): the only one it meets, whose destination it is aligned with. The second part is true where it follows
the whole of that entry (R54): the name is a destination and meets a source of that entry otherwise, or it meets a destination that the entry does not
write element for element, the name of VCOMPRESS or a name of scales. -/
def Core.chainOn (c : Core) (h : Nat) (a : Hart) (n : Name) : Option (Nat × Bool) :=
  let u := n.use a
  match c.meets u n.dest with
  | [p] =>
    if p.h == h && p.chains && n.align && p.dsts.any (·.meets u) && p.dsts.all (fun d => !d.meets u || u.aligned d n.lo n.hi) then
      some (p.seq, p.spread.any (·.meets u) || (n.dest && p.srcs.any fun q => q.meets u && !u.aligned q n.lo n.hi)) else none
  | _ => none

/-- R52 and R53 for the names of an instruction. Where both va and vb meet listed writes with their empty-action bits set, NAME_EMPTY
reports va: the manual gives no order (DESIGN CHOICE, log 82). -/
def Core.issueTest (c : Core) (h : Nat) (a : Hart) (ns : List Name) : IssueTest :=
  let held := ns.filter fun n => !(c.meets (n.use a) n.dest).isEmpty && (c.chainOn h a n).isNone
  match held.find? (fun n => n.empty && !n.dest) with
  | some n => .empty ⟨causeNameEmpty, w64 ((n.pos - 1) * 32 + n.entry.toNat), none⟩
  | none =>
    let l := ns.filterMap (c.chainOn h a)
    if held.isEmpty then .go (l.map (·.1)) ((l.filter (·.2)).map (·.1)) else .wait

/-- Operations a hart has issued that have not ended (R195). -/
def State.opCount (s : State) (h : Nat) : Nat :=
  (s.ops.filter fun o => o.h == h && o.kernel == (s.hart h).kernel).length +
    ((s.hart h).streams.toList.filter fun q => q.any (!·.done)).length

/-- The harts of a core. -/
def hartsOf (core : Nat) : List Nat := [4 * core, 4 * core + 1, 4 * core + 2, 4 * core + 3]

/-- Whether the matrix engine of a core is free: the instruction it took last has completed (R315). -/
def State.engineFree (s : State) (core : Nat) : Bool :=
  (hartsOf core).all fun h => (s.hart h).queue.all fun e =>
    e.issued.isNone || e.ended || match e.instr with
      | .mma .. | .mmas .. | .mmag .. | .aczero .. | .acrd .. | .acwr .. => false
      | _ => true

/-- Whether the units an instruction needs let it issue (R308): an entry of the pending-write list where it has names, the matrix
engine, room for an operation. -/
def State.unitsFree (s : State) (h : Nat) (k : QKind) (named : Bool) : Bool :=
  (!named || decide ((s.core (coreOf h)).pend.length < 32)) &&
    match k with
    | .matrix => s.engineFree (coreOf h)
    | .engine => decide (s.opCount h < 16)
    | _ => true

/-- What an issue finds: the comparisons of R52 and R53, then the units. -/
def State.issueTest (s : State) (h : Nat) (op : QOp) (e : QEntry) : IssueTest :=
  let a := s.hart h
  match (s.core (coreOf h)).issueTest h a (op.names a e) with
  | .go l f => if s.unitsFree h op.kind (!(op.names a e).isEmpty) && op.ready s h e then .go l f else .wait
  | t => t

/-! ### Traps -/

/-- The trap of an entry: tied to the element it stopped at for a vector instruction (R38). -/
def QOp.trapOf (op : QOp) (e : QEntry) (t : Trap) : Trap :=
  { t with elem := if op.vector then some (t.elem.getD e.startsAt) else none }

/-- The restart registers at a stop at an element: for a vector instruction that has begun; its checks change none (R126, R192). -/
def QOp.stop (op : QOp) (e : QEntry) (a : Hart) (elem : Nat) : Hart := if op.vector && e.issued.isSome then op.stopAt e a elem else a

/-- The trap as it is taken: TRAPEI.INDEX is ESTART (R38). -/
def QOp.trapAt (op : QOp) (a : Hart) (t : Trap) : Trap := if op.vector then { t with elem := some a.es } else t

/-! ### Uses of tiles (R154, R155) -/

/-- The tile an issued matrix instruction uses. -/
def QEntry.tileUse (e : QEntry) : Option Nat :=
  match e.instr with
  | .mma .. | .mmas .. | .mmag .. => if e.issued.isSome && !e.ended then some (e.va.toNat % 512) else none
  | _ => none

/-- The entry of a tile. -/
def Core.tile (c : Core) (t : Nat) : Tile := FMap.get Tile.reset c.tiles t

/-- The entry of a tile, replaced. -/
def Core.setTile (c : Core) (t : Nat) (v : Tile) : Core := { c with tiles := FMap.set Tile.reset c.tiles t v }

/-- The use counts of the tiles of some entries, less one each. -/
def Core.dropUses (c : Core) (l : List QEntry) : Core :=
  (l.filterMap (·.tileUse)).foldl (fun c t => c.setTile t { c.tile t with uses := (c.tile t).uses - 1 }) c

/-- An entry completes or stops: its use of a tile ends. -/
def State.dropUses (s : State) (h : Nat) (l : List QEntry) : State := s.modCore (coreOf h) fun c => c.dropUses l

/-! ### Samplers (R391, R392) -/

/-- A page as a translation covers it: its number at its level, and the level. -/
def State.pageAt (s : State) (h : Nat) (va : Word) : Nat × Nat :=
  let x := s.xctx h
  match (s.core (coreOf h)).tlb.find? fun t => t.covers va.toNat (asidOf x.root) with
  | some t => (t.vpn, t.level)
  | none => (va.toNat / 4096, 0)

/-- Physical address of an element, 0 where its page is refused. -/
def State.tracePa (s : State) (h : Nat) (store : Bool) (va : Word) : Nat :=
  match (s.translate (s.xctx h) va (if store then .store else .load)).1 with
  | .ok pa => pa
  | _ => 0

/-- The record of a sampled instruction; `before` is the state before its translations, whose cached ones it did not walk for. -/
def State.sampleOf (before s : State) (h : Nat) (store : Bool) (t : Trace) : Sample :=
  let lines := (t.addrs.map fun va => s.tracePa h store va / 256).eraseDups
  let pages := (t.addrs.map (s.pageAt h)).eraseDups
  let banks := (lines.map (· % 64)).eraseDups
  let walks := (t.addrs.filter fun va =>
    (before.tlbHit (before.xctx h) (if store then .store else .load) va.toNat).isNone).map (s.pageAt h)
  { p0 := w64 (t.cls * 2 ^ 60 + t.elems % 2 ^ 14 * 2 ^ 46 + lines.length % 2 ^ 14 * 2 ^ 32 + pages.length % 2 ^ 14 * 2 ^ 18 +
      (lines.length - banks.length) % 2 ^ 14 * 2 ^ 4)
    tmiss := walks.eraseDups.length
    stride := if t.cls = 2 then t.stride else 0
    ticket := none }

/-- Whether the sampler of a core takes the instructions of a context. -/
def State.sampling (s : State) (core ctx : Nat) : Bool :=
  let v := (s.core core).samp0.toNat
  bit v 0 && bits v 16 1 != 0 && (bits v 63 48 == 0 || bits v 63 48 == ctx)

/-- Whether this tick is one in which a window with SAMP is open (R388, R391): none while its triggers have still to be evaluated. -/
def State.gateOpen (s : State) : Option Bool :=
  if (s.triggers.toList.any fun t => t.isOpen && bit t.cfg.toNat 23) || s.ticked.any (·.getLsbD 8) then some true
  else if s.ticked.isSome || !s.triggers.toList.any fun t => bit t.cfg.toNat 0 && bit t.cfg.toNat 23 then some false
  else none

/-- A sampler counts an instruction; true for the one that brings its count to PERIOD. -/
def Core.countIssue (k : Core) : Core × Bool :=
  if bits k.samp0.toNat 16 1 ≤ k.sampCount + 1 then ({ k with sampCount := 0 }, true) else ({ k with sampCount := k.sampCount + 1 }, false)

/-- A vector memory instruction issues: the sampler counts it, and samples the one that brings its count to PERIOD. -/
def QOp.noteIssue (op : QOp) (before s : State) (h : Nat) (e : QEntry) : State × Option Sample :=
  match op.trace s h e with
  | none => (s, none)
  | some t =>
    let core := coreOf h
    if !s.sampling core (s.hart h).ctx then (s, none)
    else
      let v := State.sampleOf before s h op.stores t
      match if bit (s.core core).samp0.toNat 17 then s.gateOpen else some true with
      | some false => (s, none)
      | some true =>
        let r := (s.core core).countIssue
        (s.setCore core r.1, if r.2 then some v else none)
      | none => (s.modCore core fun k => { k with gated := k.gated + 1 }, some { v with ticket := some (s.core core).gated })

/-- The SAMPLE record of an instruction that completes; its cycles are free. -/
def State.emitSample (s : State) (h : Nat) (e : QEntry) : State :=
  match e.sampled with
  | none => s
  | some v =>
    let core := coreOf h
    let elems := bits v.p0.toNat 59 46
    let cyc := (Config.sampleCycles core ((s.core core).sampDone.toNat + s.spoorQueue.length)).toNat
    let p1 := w64 (cyc * 2 ^ 32 + (if elems = 0 then 0 else cyc * 65536 / elems % 2 ^ 32))
    s.spoor (campOf h) 5 (s.hart h).ctx (hartId h) e.pc [v.p0, p1, w64 v.tmiss, v.stride] (v.ticket.map fun n => (core, n))

/-- What becomes of the instruction with a ticket of a core: its record stands, or it was not sampled. -/
def State.settleTicket (s : State) (core n : Nat) (sampled : Bool) : State :=
  let fix (v : Sample) : Option Sample := if v.ticket = some n then (if sampled then some { v with ticket := none } else none) else some v
  let s1 := (hartsOf core).foldl (fun s h => s.modHart h fun a =>
    { a with queue := a.queue.map fun e => { e with sampled := e.sampled.bind fix } }) s
  { s1 with spoorQueue := s1.spoorQueue.filterMap fun (e : SpoorEvent) =>
    if e.ticket = some (core, n) then (if sampled then some { e with ticket := none } else none) else some e }

/-- The instructions with tickets from n on, k of them, are counted in order of issue. -/
def countTickets (core : Nat) : Nat → Nat → State → State
  | 0, _, s => s
  | k + 1, n, s =>
    let r := (s.core core).countIssue
    countTickets core k (n + 1) ((s.setCore core r.1).settleTicket core n r.2)

/-- The gated samplers count the instructions of this tick, or do not, once its triggers have been evaluated (R391). -/
def State.closeGates (s : State) (count : Bool) : State :=
  s.cores.foldl (fun s e =>
    let n := e.2.gated
    if n = 0 then s
    else
      let t := if count then countTickets e.1 n 0 s else (List.range n).foldl (fun s i => s.settleTicket e.1 i false) s
      t.modCore e.1 fun k => { k with gated := 0 }) s

/-! ### An instruction run whole at its commit -/

/-- A trap of an instruction that runs whole: the flags of the elements performed stand, ESTART is the element. -/
def QOp.trapWhole (op : QOp) (s : State) (e : QEntry) (f : Flags) (t : Trap) : State :=
  let t := op.trapOf e t
  let s1 := ((if e.issued.isSome then op.leave s s.cur e else s).dropUses s.cur [e]).modH fun a =>
    op.stop e { a with fctl := fctlSet a.fctl f } (t.elem.getD 0)
  s1.takeTrap s.cur (op.trapAt s1.h t) e.pc

/-- What a vector instruction leaves in ESTART when it completes (R30). -/
def QOp.completed (op : QOp) (f : Flags) (a : Hart) : Hart :=
  let a := { a with fctl := fctlSet a.fctl f }
  if op.vector then { a with estart := 0 } else a

/-- The instruction completes and the scalar side goes on. -/
def QOp.retire (op : QOp) (s : State) (e : QEntry) (f : Flags) : State :=
  ((op.finish ((s.dropUses s.cur [e]).modH fun a => op.atEnd (op.redefine e (op.completed f a))) s.cur e).emitSample s.cur e).modH Hart.advance

/-- What an issue does first: an engine command forks once the hart's earlier stores are performed at core scope (R230). -/
def QOp.begin_ (op : QOp) (s : State) (h : Nat) (e : QEntry) : State :=
  op.start (if op.kind = .engine then s.landOwn h else s) h e

/-- An instruction performed whole. -/
def QOp.whole (op : QOp) (s : State) (e : QEntry) : State :=
  let r := op.run (op.begin_ s s.cur e) s.cur e e.startsAt e.len
  match r.trap with
  | some t => op.trapWhole r.state e r.flags t
  | none =>
    match op.closing r.state s.cur e with
    | (s1, some t) => op.trapWhole s1 e r.flags t
    | (s1, none) => op.retire s1 e r.flags

/-- The instruction enters the queue; the scalar side goes on unless it waits there (R307). -/
def QOp.enter (op : QOp) (s : State) (e : QEntry) : State :=
  s.modH fun a => let b := { a with queue := a.queue ++ [e] }; if op.waits then b else b.advance

/-- Charge in beats (R309). -/
def QOp.charge (op : QOp) (e : QEntry) : Nat :=
  if op.oneRow then 2 ^ bits e.vtype.toNat 10 9
  else if op.width = 0 then (if op.kind = .matrix then 0 else 1)
  else
    let g := 2 ^ bits e.vtype.toNat 10 9
    g * ((e.vl * op.width + 8192 * g - 1) / (8192 * g))

/-- Whether no hart of a core has an entry in its queue: no other head is there for the sequencer to choose (R313). -/
def State.quietCore (s : State) (core : Nat) : Bool := (hartsOf core).all fun g => (s.hart g).queue.isEmpty

/-- The charge of an instruction that is its core's only head (R313): its hart joins at m and is charged, m rises to its count, and no count
passes m + 56. A matrix instruction is the one served last (R315). -/
def State.charged (s : State) (h cost : Nat) (matrix : Bool) : State :=
  let c := coreOf h
  let a := s.hart h
  let v := (if a.issuable then a.vcount else Nat.max a.vcount (s.core c).arbM) + cost * (8 / Nat.max a.share 1)
  let m := Nat.max (s.core c).arbM v
  let s1 := (s.modHart h fun a => { a with vcount := v, issuable := false }).modCore c fun k =>
    { k with
      arbM := m
      lastMatrix := if matrix then h % 4 else k.lastMatrix }
  (hartsOf c).foldl (fun s g =>
    if m + 56 < (s.hart g).vcount then s.modHart g fun a => { a with vcount := m + 56 } else s) s1

/-- The entry as it stands once it has issued alone. -/
def QOp.issuedAlone (op : QOp) (s : State) (e : QEntry) (smp : Option Sample) : QEntry :=
  { e with
    whole := op.indivisible s.h e, len := op.len s.h e, frames := op.frames s s.cur e, issued := some 0, sampled := smp }

/-- An instruction of the queue commits (R307): it runs whole where no queue of the core holds an entry, nothing makes it wait and the
schedule does not keep it; else it enters the queue. -/
def commitQueued (i : Instr) (op : QOp) (s : State) : Out :=
  let a := s.h
  let e := newEntry i op a
  if 64 ≤ a.queue.length then .next s
  else if s.defer || !s.quietCore (coreOf s.cur) then .next (op.enter s e)
  else
    match op.check s s.cur e with
    | (s1, some t) => .next (op.trapWhole s1 e 0 t)
    | (s1, none) =>
      match s1.issueTest s.cur op e with
      | .wait => .next (op.enter s e)
      | .empty t => .next (op.trapWhole s1 e 0 t)
      | .go _ _ =>
        let r := op.noteIssue s s1 s.cur e
        .next (op.whole (r.1.charged s.cur (op.charge e) (op.kind == .matrix)) (op.issuedAlone s1 e r.2))

/-! ### Element groups (R309 to R311) -/

/-- Elements of a group. -/
def QOp.groupSize (op : QOp) (e : QEntry) : Nat :=
  if op.group ≠ 0 then op.group
  else if op.width = 0 then 8192
  else 2048 / (op.byName.map fun r => fmtWidth (bits (e.defs[r.toNat]).w0.toNat 60 56)).getD op.width

/-- First and one past the last group of an entry. -/
def QOp.groups (op : QOp) (e : QEntry) : Nat × Nat :=
  (e.startsAt / op.groupSize e, (e.len + op.groupSize e - 1) / op.groupSize e)

/-- The first group of a lane group at or after j0. -/
def laneFirst (j0 l : Nat) : Nat := j0 + (l + 4 - j0 % 4) % 4

/-- Whether an entry is performed as one unit. -/
def QOp.single (op : QOp) (e : QEntry) : Bool := op.unit_ || op.width == 0 && op.group == 0 || e.whole

/-- Whether an entry is an indivisible instruction with elements: everything it does is done as its first element is performed, since its sources
are read before it writes (R56), and its elements then count as written one by one (R311, R403). -/
def QOp.counts (op : QOp) (e : QEntry) : Bool := e.whole && op.elems && !op.unit_ && (op.width != 0 || op.group != 0)

/-- Whether group j of an issued entry has been performed. -/
def QOp.groupDone (op : QOp) (e : QEntry) (j : Nat) : Bool :=
  let j0 := (op.groups e).1
  if op.single e then e.begun[0] == 2
  else if op.kind == .matrix then decide (j < j0 + e.arrived)
  else if op.inOrder then e.landed.contains j
  else decide (laneFirst j0 (j % 4) + 4 * (e.begun[j % 4]'(Nat.mod_lt _ (by decide))) > j)

/-- Groups not yet performed, ascending. -/
def QOp.left (op : QOp) (e : QEntry) : List Nat :=
  if e.ended then []
  else if op.single e then (if e.begun[0] = 2 then [] else [0])
  else
    let g := op.groups e
    ((List.range (g.2 - g.1)).map (g.1 + ·)).filter fun j => !op.groupDone e j

/-- Elements lo to hi - 1. -/
def elemRange (lo hi : Nat) : List Nat := (List.range (hi - lo)).map (lo + ·)

/-- The elements of group j, from ESTART on. -/
def QOp.bounds (op : QOp) (e : QEntry) (j : Nat) : Nat × Nat :=
  if op.single e then (e.startsAt, e.len) else (Nat.max e.startsAt (j * op.groupSize e), Nat.min e.len ((j + 1) * op.groupSize e))

/-- Ascending numbers as runs of consecutive ones, each with the number after its last. -/
def runsOf : List Nat → List (Nat × Nat)
  | [] => []
  | i :: l =>
    match runsOf l with
    | (lo, hi) :: r => if lo = i + 1 then (i, hi) :: r else (i, i + 1) :: (lo, hi) :: r
    | [] => [(i, i + 1)]

/-- What of group j has not been performed one by one. -/
def QOp.rest (op : QOp) (e : QEntry) (j : Nat) : List (Nat × Nat) :=
  let r := op.bounds e j
  if e.parts.any fun i => decide (r.1 ≤ i) && decide (i < r.2) then runsOf ((elemRange r.1 r.2).filter fun i => !e.parts.contains i) else [r]

/-- The first element not performed, counting from ESTART. -/
def QOp.reached (op : QOp) (e : QEntry) : Nat :=
  match op.left e with
  | [] => e.len
  | j :: _ => ((op.rest e j).head?.map (·.1)).getD (op.bounds e j).2

/-- Whether the entry has performed anything. -/
def QOp.begunAny (op : QOp) (e : QEntry) : Bool :=
  let g := op.groups e
  !e.parts.isEmpty || if op.single e then decide (0 < e.begun[0]) else decide ((op.left e).length < g.2 - g.1)

/-- The highest group of an entry performed in whole or in part, plus one. -/
def QOp.topGroup (op : QOp) (e : QEntry) : Nat :=
  let g := op.groups e
  ((List.range (g.2 - g.1)).map (g.1 + ·)).foldl
    (fun m j => if op.groupDone e j || e.parts.any (fun i => i / op.groupSize e == j) then j + 1 else m) g.1

/-- Whether what has been performed is one run from ESTART on (R333). -/
def QOp.contiguous (op : QOp) (e : QEntry) : Bool :=
  let n := op.reached e
  op.single e || (e.parts.all (fun i => decide (i < n)) && decide (op.topGroup e ≤ (n + op.groupSize e - 1) / op.groupSize e))

/-- The earlier trap of two by element. -/
def earlierTrap (a b : Option Trap) : Option Trap :=
  match a, b with
  | some x, some y => if (y.elem.getD 0) < (x.elem.getD 0) then some y else some x
  | some x, none => some x
  | none, y => y

/-- The queue entry with a number in the issue order, changed. -/
def State.modEntry (s : State) (h seq : Nat) (f : QEntry → QEntry) : State :=
  s.modHart h fun a => { a with queue := a.queue.map fun e => if e.issued == some seq then f e else e }

/-- Performs something of an entry: its names are resolved in the table it issued with, an indexed access has its own EDONE, and what is
recorded of it has its PC (R48, R30, R390). -/
def QOp.under {β : Type} (op : QOp) (s : State) (h : Nat) (e : QEntry) (f : State → State × β) : State × β :=
  if op.kind == .plane || op.kind == .matrix then
    let a := s.hart h
    let r := f (s.modHart h fun b => { b with pc := e.pc, defs := e.defs, edone := if op.indexed then e.edone else b.edone })
    let done := (r.1.hart h).edone
    let s1 := r.1.modHart h fun b => { b with pc := a.pc, defs := a.defs, edone := if op.indexed then a.edone else b.edone }
    (if op.indexed then s1.modEntry h (e.issued.getD 0) fun q => { q with edone := done } else s1, r.2)
  else f s

/-- Runs of elements performed in turn until one traps: the flags of each by its first element, and the trap. -/
def QOp.runAll (op : QOp) (h : Nat) (e : QEntry) : List (Nat × Nat) → State → State × List (Nat × Flags) × Option Trap
  | [], s => (s, [], none)
  | r :: l, s =>
    let d := op.run s h e r.1 r.2
    match d.trap with
    | some t => (d.state, [(r.1, d.flags)], some t)
    | none =>
      let q := op.runAll h e l d.state
      (q.1, (r.1, d.flags) :: q.2.1, q.2.2)

/-- An issued entry completes or stops being listed: its pending writes and its use of a tile end (R51, R155). -/
def State.unlist (s : State) (h : Nat) (seq : Option Nat) : State :=
  s.modCore (coreOf h) fun k => { k with pend := k.pend.filter fun p => !(p.h == h && (seq.isNone || seq == some p.seq)) }

/-- The entry completes once its last group has been performed and no page of it was refused (R307, R332). -/
def QOp.endIfDone (op : QOp) (s : State) (h seq : Nat) : State :=
  match (s.hart h).queue.find? (·.issued == some seq) with
  | some e =>
    if e.settled && e.trap.isNone && !e.ended && (op.left e).isEmpty && e.frames.all (·.reason == 0) then
      (((s.dropUses h [e]).modHart h op.atEnd).modEntry h seq fun q => { q with ended := true }).unlist h (some seq)
    else s
  | none => s

/-- Elements that a hart performs between the arrival of a halt and its stop are counted (R379). -/
def State.skidElems (s : State) (h n : Nat) : State :=
  if (s.hart h).skid.isSome then s.modHart h fun a => { a with skid := a.skid.map fun k => (k.1, k.2 + n) } else s

/-- How many elements of some ranges are performed, up to the element of a trap. -/
def countBelow (l : List (Nat × Nat)) (t : Option Trap) : Nat :=
  match t with
  | none => l.foldl (fun n r => n + (r.2 - r.1)) 0
  | some t => l.foldl (fun n r => n + (Nat.min r.2 (t.elem.getD 0) - r.1)) 0

/-- The element that the decoder of a VLDZ fills next. -/
def State.dzNext (s : State) (h : Nat) (e : QEntry) : Nat := ((s.hart h).dz.map (·.next)).getD e.startsAt

/-- How many elements of an entry were performed between two states. -/
def QOp.counted (op : QOp) (s t : State) (h : Nat) (e : QEntry) (l : List (Nat × Nat)) (x : Option Trap) : Nat :=
  if op.serial then t.dzNext h e - s.dzNext h e else countBelow l x

/-- Whether nothing of an entry is left to be performed: its groups are done, or the decoder gives no more (R204). -/
def QOp.through (op : QOp) (s : State) (h : Nat) (e : QEntry) : Bool :=
  (op.left e).isEmpty || (op.serial && (s.hart h).dz.any fun d => d.spent || decide (e.vl ≤ d.next))

/-- The elements of some ranges performed: of an indivisible entry everything is done with its first element. -/
def QOp.runs (op : QOp) (s : State) (h : Nat) (e : QEntry) (l : List (Nat × Nat)) : State × List (Nat × Flags) × Option Trap :=
  if op.counts e then
    if e.begun[0] = 0 then op.under s h e fun s => op.runAll h e [op.bounds e 0] s else (s, [], none)
  else op.under s h e fun s => op.runAll h e l s

/-- Performs what is left of group j of an issued entry, as one step; a schedule may part it by elements, with evictions, other harts and stops
between them (`State.performElement`). -/
def QOp.perform (op : QOp) (s : State) (h : Nat) (e : QEntry) (j : Nat) : State :=
  let b := op.bounds e j
  let seq := e.issued.getD 0
  let r := op.runs s h e (op.rest e j)
  let mark (e : QEntry) : QEntry :=
    { e with
      begun := if op.single e then e.begun.set 0 2
        else if op.inOrder then e.begun
        else e.begun.set (j % 4) (e.begun[j % 4]'(Nat.mod_lt _ (by decide)) + 1) (Nat.mod_lt _ (by decide))
      arrived := e.arrived + 1
      landed := if op.inOrder && op.kind == .plane then j :: e.landed else e.landed
      parts := e.parts.filter fun i => !(decide (b.1 ≤ i) && decide (i < b.2))
      flags := r.2.1 ++ e.flags
      trap := earlierTrap e.trap (r.2.2.map (op.trapOf e)) }
  op.endIfDone ((r.1.modEntry h seq mark).skidElems h (op.counted s r.1 h e (op.rest e j) r.2.2)) h seq

/-- Performs elements lo to hi - 1 of a group of an issued entry by themselves. -/
def QOp.performPart (op : QOp) (s : State) (h : Nat) (e : QEntry) (lo hi : Nat) : State :=
  let r := op.runs s h e [(lo, hi)]
  let mark (q : QEntry) : QEntry :=
    { q with
      begun := if op.single q then q.begun.set 0 (if e.len - e.startsAt ≤ q.parts.length + (hi - lo) then 2 else 1) else q.begun
      parts := if r.2.2.isSome then q.parts else elemRange lo hi ++ q.parts
      flags := r.2.1 ++ q.flags
      trap := earlierTrap q.trap (r.2.2.map (op.trapOf q)) }
  let s1 := (r.1.modEntry h (e.issued.getD 0) mark).skidElems h (op.counted s r.1 h e [(lo, hi)] r.2.2)
  if op.single e then op.endIfDone s1 h (e.issued.getD 0) else s1

/-! ### Issue (R308, R313, R315) -/

/-- A list with the first of one entry replaced. -/
def replaceFirst (old new : QEntry) : List QEntry → List QEntry
  | [] => []
  | q :: l => if q = old then new :: l else q :: replaceFirst old new l

/-- Whether a stop unit is enabled for an instruction (R381). -/
def StopUnit.on (u : StopUnit) (a : Hart) (pc : Word) : Bool :=
  u.w0.getLsbD 0 && (u.w0 &&& ~~~3) == pc && (bits u.w1.toNat 63 48 == 0 || bits u.w1.toNat 63 48 == a.ctx)
/-- ELEM of a stop unit. -/
def StopUnit.elem (u : StopUnit) : Nat := bits u.w1.toNat 13 0
/-- A unit has fired on the entry at which it stops the hart. -/
def Hart.markFired (i : Nat) (a : Hart) : Hart := a.setStop i fun u => { u with fired := true }
/-- The units of an entry that has completed may fire again. -/
def Hart.clearFired (pc : Word) (a : Hart) : Hart :=
  if a.stops.any (·.fired) then
    { a with stops := a.stops.map fun u => if u.w0 &&& ~~~3 = pc then { u with fired := false } else u }
  else a
/-- No later entry chains on an entry that a stop unit names with ELEM > 0 (R381). -/
def Hart.stopAhead (a : Hart) (pc : Word) : Bool := a.stops.toList.any fun u => u.on a pc && u.elem != 0

/-- Whether everything performed of an entry lies below an element. -/
def QOp.below (op : QOp) (e : QEntry) (n : Nat) : Bool :=
  let g := op.groups e
  e.parts.all (fun i => decide (i < n)) &&
    if op.single e then e.begun[0] == 0
    else ((List.range (g.2 - g.1)).map (g.1 + ·)).all fun j => !op.groupDone e j || decide ((op.bounds e j).2 ≤ n)

/-- A stop by a unit at an element (R382): an indexed form stops there though the element may be inactive, with EDONE 0. -/
def QOp.stopUnit (op : QOp) (e : QEntry) (a : Hart) (n : Nat) : Hart :=
  if op.indexed then { a with estart := w64 n, edone := 0 } else op.stop e a n

/-- Whether a stop unit is enabled for an entry: the elements of an indexed form are then performed in ascending order (R382). -/
def Hart.unitOn (a : Hart) (e : QEntry) : Bool := a.stops.toList.any fun u => u.on a e.pc

/-- An entry issues with its number in the core's order: its names are resolved, its footprints listed, ESTART moves into it, and the table
is as its advance leaves it for those after it. A late entry has its probe before it yet (R130, R193), and no later one chains on a late indexed entry
until its pages are known and none is refused (R332). -/
def QOp.issue (op : QOp) (s : State) (h : Nat) (e : QEntry) (chain follow : List Nat) (late : Bool) (smp : Option Sample) : State :=
  let a := s.hart h
  let c := s.core (coreOf h)
  let seq := c.issues
  let ns := op.names a e
  let e1 := { e with
    issued := some seq, chain := chain, follow := follow, whole := op.indivisible a e, len := op.len a e, defs := a.defs, edone := a.edone
    settled := !late, frames := if late then [] else op.frames s h e, sampled := smp }
  let listed := !ns.isEmpty
  let p : PendingWrite := ⟨h, seq, !(late && op.indexed) && op.chains s h e && !a.stopAhead e.pc, (ns.filter (·.dest)).map (·.use a),
    (ns.filter fun n => !n.dest).map (·.use a), (ns.filter (·.spread)).map (·.use a)⟩
  let s1 := s.modCore (coreOf h) fun k =>
    { k with issues := seq + 1, pend := if listed then k.pend ++ [p] else k.pend }
  let s2 := s1.modHart h fun a =>
    op.redefine e1 { a with
      queue := replaceFirst e e1 a.queue
      estart := if op.vector then 0 else a.estart
      edone := if op.indexed then 0 else a.edone }
  op.endIfDone (op.begin_ s2 h e1) h seq

/-! ### Completion and unwinding -/

/-- The flags of what lies below element n of an entry. -/
def QOp.flagsBelow (op : QOp) (e : QEntry) (n : Nat) : Flags :=
  (e.flags.filter fun f => op.single e || decide (f.1 < n)).foldl (fun a f => a ||| f.2) 0

/-- The oldest entry of a hart retires (R307): its flags join FCTL, and what later entries would put back. -/
def QOp.retireOldest (op : QOp) (s : State) (h : Nat) (e : QEntry) : State :=
  let f := op.flagsBelow e (e.len + 1)
  let s1 := s.modHart h fun a =>
    { a with
      stops := (a.clearFired e.pc).stops
      skid := a.skid.map fun k => (k.1 + 1, k.2)
      fctl := fctlSet a.fctl f
      queue := (a.queue.drop 1).map fun q => { q with sflags := fctlSet q.sflags f } }
  let s2 := if e.ended then s1 else ((s1.dropUses h [e]).modHart h op.atEnd).unlist h e.issued
  let s3 := (op.finish s2 h e).emitSample h e
  if op.waits then s3.modHart h Hart.advance else s3

/-- What an entry that has not retired leaves undone: SQPOP, which runs again, pops the same entry again (R200, R331). -/
def Hart.unpop (a : Hart) (e : QEntry) : Hart :=
  match e.instr with
  | .sqpop .. =>
    match a.streams.toList[e.va.toNat]?.join with
    | some v => Hart.setStream e.va.toNat (some { v with popped := Nat.min v.popped e.vb.toNat }) a
    | none => a
  | _ => a

/-- Unwinds a hart to the oldest entry of its queue, stopped at an element (R331, R333), by a unit or otherwise: the definition table is as the
entries before it leave it (R57). -/
def QOp.unwind (op : QOp) (s : State) (h : Nat) (e : QEntry) (elem : Nat) (unit : Bool := false) : State :=
  let stop (a : Hart) : Hart := if unit then op.stopUnit e a elem else op.stop e a elem
  let s1 := ((if e.issued.isSome then op.leave s h e else s).dropUses h (s.hart h).queue).modHart h fun a =>
    { (a.queue.foldl Hart.unpop (if e.issued.isSome then stop { a with edone := if op.indexed then e.edone else a.edone } else a)) with
      x := e.xs, loops := e.loops, vtype := e.vtype, vl := w64 e.vl, pc := e.pc, queue := [], issuable := false, tileSince := none
      defs := if e.issued.isSome then e.defs else a.defs
      fctl := fctlSet e.sflags (op.flagsBelow e elem) }
  s1.unlist h none

end Sys2Proof.Machine
end

