-- ==== Sys2Proof/Machine/WaitBase.lean ====
section
/-! DEFINITION. Waits in common (R13, R34, R237 to R242): deadlines, how a wait finishes, escalates and is abandoned. -/
namespace Sys2Proof.Machine

/-! ### Deadlines (R17, R238, R239) -/

/-- The clock a wait's deadline counts (R34). -/
def State.waitClock (s : State) (h : Nat) (abs : Bool) : Word := if abs then s.dtime else (s.hart h).rtime

/-- DLCAP, or 2^64 - 1 where it is 0 (R34). -/
def Hart.cap (a : Hart) : Nat := if a.dlcap = 0 then 2 ^ 64 - 1 else a.dlcap.toNat

/-- deadline_expired after a wait's first attempt (R17). -/
def State.expired (s : State) (h : Nat) (w : Wait) : Bool :=
  let a := s.hart h
  if w.absMode then decide (Nat.min w.deadline.toNat (w.t0.toNat + a.cap) ≤ s.dtime.toNat)
  else decide (Nat.min w.deadline.toNat a.cap ≤ (a.rtime - w.t0).toNat)

/-- Whether the cap term is the one that ends a wait (R238). -/
def Wait.capBound (w : Wait) (a : Hart) : Bool :=
  a.dlcap != 0 && decide ((if w.absMode then w.t0.toNat else 0) + a.dlcap.toNat ≤ w.deadline.toNat)

/-- Whether a scope of hart h covers hart g (R8). -/
def scopeCovers (scope h g : Nat) : Bool :=
  match scope with
  | 0 => h == g
  | 1 => coreOf h == coreOf g
  | 2 => campOf h == campOf g
  | 3 => h / 320 == g / 320
  | _ => true

/-- Whether Ridgepole holds a halt or freeze of another hart that the scope covers, or the fabric reports a partner halted at system
scope (R239, R373). -/
def State.partnerHalted (s : State) (h scope : Nat) : Bool :=
  s.harts.any (fun e => e.2.frozen && e.1 != h && scopeCovers scope h e.1) ||
    s.halts.any (fun o => o.harts.any fun g => g != h && scopeCovers scope h g) ||
    (scope == 5 && !s.fabric.halted.isEmpty)

/-! ### The end of a wait (R18, R34, R242) -/

/-- DLSTAT after a wait wrote a code (R34). -/
def dlstatAfter (old : Word) (code : Nat) (capHit : Bool) : Word :=
  let n := old.toNat
  let cnt := bits n 7 0
  let cnt' := if code = codeOK then 0 else if code = codeTIMEOUT then Nat.min (cnt + 1) 255 else cnt
  w64 ((if capHit || bit n 16 then 65536 else 0) + code % 256 * 256 + cnt')

/-- Frees the monitor entries of a hart. -/
def State.freeMonitors (s : State) (h : Nat) : State :=
  if (s.core (coreOf h)).monitors.isEmpty then s
  else s.modCore (coreOf h) fun k => { k with monitors := k.monitors.filter fun m => m.h != h }

/-- What a finished wait leaves in its hart: the status word in x[d], DLSTAT, and no wait. -/
def Hart.waitDone (a : Hart) (w : Wait) (st : Word) (capHit : Bool) : Hart :=
  { a with dlstat := dlstatAfter a.dlstat (st.toNat % 256) capHit, wait := none }.setX w.dreg st

/-- The escalation of a finished wait (R242). -/
def Wait.escalation (w : Wait) (a : Hart) (st : Word) (capHit : Bool) : Option Trap :=
  let tval := w64 (w.hi.toNat % 2 ^ 32 * 2 ^ 32 + w.lo.toNat % 2 ^ 32)
  let limit := bits a.dlesc.toNat 7 0
  if capHit then some ⟨causeDeadlineCap, tval, none⟩
  else if st.toNat % 256 = codeTIMEOUT ∧ limit ≠ 0 ∧ limit ≤ bits a.dlstat.toNat 7 0 then
    some ⟨causeDeadlineEsc, tval, none⟩
  else none

/-- A wait finishes with a status word, at its deadline or before; the hart goes on, or escalates. -/
def State.finishWait (s : State) (h : Nat) (w : Wait) (st : Word) (atDeadline : Bool) : State :=
  let capHit := atDeadline && st.toNat % 256 != codePARTNER && w.capBound (s.hart h)
  let s1 := (s.freeMonitors h).modHart h fun a => a.waitDone w st capHit
  match w.escalation (s1.hart h) st capHit with
  | some t => s1.takeTrap h t ((s1.hart h).pc + 4)
  | none => s1.modHart h Hart.advance

/-- A wait finishes OK and the hart goes on elsewhere (R280). -/
def State.finishAt (s : State) (h : Nat) (w : Wait) (st pc : Word) : State :=
  (s.freeMonitors h).modHart h fun a => (a.waitDone w st false).redirect pc

/-- The timeout outcome of a wait that has a scope (R239). -/
def State.timeoutCode (s : State) (h : Nat) (w : Wait) : Nat :=
  match w.scope with
  | some sc => if s.partnerHalted h sc then codePARTNER else codeTIMEOUT
  | none => codeTIMEOUT

/-! ### Abandoning a wait (R240) -/

/-- What the deadline register of an abandoned wait holds. -/
def Hart.deadlineLeft (a : Hart) (w : Wait) : Hart :=
  if w.absMode then a else a.setX w.breg (w64 (w.deadline.toNat - (a.rtime - w.t0).toNat))

/-- The wait is gone, its registrations with it, and the deadline register holds what was left. -/
def State.dropWait (s : State) (h : Nat) (w : Wait) : State :=
  (s.freeMonitors h).modHart h fun a => { a.deadlineLeft w with wait := none }

/-- A byte as it stands at home(a, scope) for a core: its L2 up to core scope, the memory side beyond (R221). -/
def State.homeView (s : State) (c scope pa : Nat) : Byte :=
  if scope < 2 && (s.place pa).cached then s.l2Byte c pa else s.homeByte pa

/-- Bytes as they stand at home(a, scope). -/
def State.homeViews (s : State) (c scope pa n : Nat) : Nat := leNat ((List.range n).map fun i => s.homeView c scope (pa + i))

/-- EXPECT of a barrier's record (R255). -/
def barExpect (v : Nat) : Nat := bits v 15 0
/-- ARRIVED of a barrier's record. -/
def barArrived (v : Nat) : Nat := bits v 31 16
/-- GEN of a barrier's record. -/
def barGen (v : Nat) : Nat := bits v 63 32
/-- A barrier's record as a word. -/
def barWord (expect arrived gen : Nat) : Nat := expect % 65536 + arrived % 65536 * 65536 + gen % 2 ^ 32 * 2 ^ 32

/-- Whether the generation a wait arrived in has completed at its home. -/
def State.barCompleted (s : State) (h : Nat) (w : Wait) : Bool :=
  w.bar && barGen (match s.recordOff h w.pa with
    | some off => leNat (s.translationBytes h off 8)
    | none => s.homeViews (coreOf h) (w.scope.getD 0) w.pa 8) != w.gen

/-- Withdraws an arrival at a barrier whose generation has not completed (R256). -/
def State.barWithdraw (s : State) (h : Nat) (w : Wait) : State :=
  let less (v : Nat) : Option Nat := if barGen v = w.gen then some (barWord (barExpect v) (barArrived v - 1) (barGen v)) else none
  match s.recordOff h w.pa with
  | some off =>
    match less (leNat (s.translationBytes h off 8)) with
    | some v => s.translationStore h off (leBytes 8 v)
    | none => s
  | none => (s.atomicPa h (w.scope.getD 0) w.obj w.pa 8 less).1

/-- A trap met at an attempt after the first is taken on the wait, which ends as an abandoned one (R237). -/
def State.waitTrap (s : State) (h : Nat) (t : Trap) : State :=
  match (s.hart h).wait with
  | none => s.takeTrap h t (s.hart h).pc
  | some w =>
    let s1 := if w.bar then s.barWithdraw h w else s
    (s1.dropWait h w).takeTrap h t (s.hart h).pc

end Sys2Proof.Machine
end

