-- ==== Sys2Proof/Machine/TaskUnit.lean ====
section
/-! DEFINITION. The task unit of a camp (R270 to R287): ranges, readiness, demand and its cascade, ends, and the tasks it hands to
waiting harts. -/
namespace Sys2Proof.Machine

/-! ### Completion objects written by a unit -/

/-- The status word of a task (R274). -/
def taskStatus (code path reason late : Nat) : Word :=
  w64 (code + path * 256 + reason * 65536 + late % 2 ^ 32 * 2 ^ 24)

/-- Writes a task's object. -/
def State.taskObject (s : State) (t : Task) (v : Word) : State :=
  (s.unitStore t.objPa (leBytes 8 v.toNat)).noteDirty (some t.kernel) t.obj 8

/-! ### Dependences (R275) -/

/-- Whether two lists of ranges have a granule in common (R272). -/
def rangesMeet (a b : List (Nat × Nat)) : Bool :=
  a.any fun r => b.any fun q => decide (r.1 / 64 ≤ (q.1 + q.2 - 1) / 64) && decide (q.1 / 64 ≤ (r.1 + r.2 - 1) / 64)

/-- The live tasks of the same kernel accepted before a task; the table is in order of acceptance. -/
def Camp.earlier (c : Camp) (t : Task) : List Task :=
  (c.tasks.takeWhile fun u => u.id != t.id).filter fun u => u.kernel == t.kernel

/-- Producers. -/
def Camp.producers (c : Camp) (t : Task) : List Task := (c.earlier t).filter fun u => rangesMeet t.reads u.writes
/-- Anti and WAW predecessors. -/
def Camp.blockers (c : Camp) (t : Task) : List Task :=
  (c.earlier t).filter fun u => rangesMeet t.writes u.reads || rangesMeet t.writes u.writes

/-! ### Readiness (R272, R276) -/

/-- The absorbing value of a class. -/
def absorbing (cls : Nat) : Nat :=
  match cls with
  | 3 => 0xFFFFFFFF
  | 4 => 0x7F800000
  | 5 => 0xFF800000
  | _ => 0

/-- Whether a summary word meets the test of a class, read at home(word, camp); a refused read does not. -/
def State.summaryMet (s : State) (t : Task) (va : Word) : Bool :=
  match (s.translate t.x va .load).1 with
  | .ok pa => (s.badAt pa).isNone && !s.peerRefuses t.x.ctx pa 4 && leNat (s.homeBytes pa 4) == absorbing t.cls
  | _ => false

/-- The path on which a waiting task becomes READY. -/
def State.readyPath (s : State) (camp : Nat) (t : Task) : Option Nat :=
  let c := s.camp camp
  if (c.producers t).isEmpty && (c.blockers t).isEmpty then some 0
  else if t.cls != 0 && (c.blockers t).isEmpty && !(c.producers t).isEmpty && t.summaries.any (fun a => s.summaryMet t a) then
    some 1
  else none

/-! ### Demand (R277) -/

/-- A task of a camp replaced. -/
def Camp.setTask (c : Camp) (t : Task) : Camp := { c with tasks := c.tasks.map fun u => if u.id == t.id then t else u }
/-- A task of a camp removed. -/
def Camp.dropTask (c : Camp) (id : Nat) : Camp := { c with tasks := c.tasks.filter fun u => u.id != id }

/-- Falls of demand at producers, each with whether the consumer fired on its absorbing path, and the cascade they start. -/
def fallsN : Nat → State → Nat → List (Nat × Bool) → State
  | 0, s, _, _ => s
  | _ + 1, s, _, [] => s
  | n + 1, s, camp, (p, late) :: rest =>
    match (s.camp camp).tasks.find? (·.id == p) with
    | none => fallsN n s camp rest
    | some t =>
      let t1 := { t with demand := t.demand - 1, late := if late then t.late + 1 else t.late }
      if t.demand = 1 && !t.keep && !t.w then
        let more := t.raised.map fun q => (q, false)
        if t.st = .running then
          fallsN n (s.modCamp camp fun c => c.setTask { t1 with w := true, raised := [] }) camp (rest ++ more)
        else
          fallsN n ((s.modCamp camp fun c => c.dropTask p).taskObject t (taskStatus codeWITHDRAWN 3 1 t1.late)) camp
            (rest ++ more)
      else fallsN n (s.modCamp camp fun c => c.setTask t1) camp rest

/-- The falls that a task's readiness on the absorbing path, or its withdrawal, makes; at most one for each pair of live tasks. -/
def State.falls (s : State) (camp : Nat) (ps : List Nat) (late : Bool) : State :=
  let n := (s.camp camp).tasks.length
  fallsN (n * n + n + ps.length + 1) s camp (ps.map fun p => (p, late))

/-- A waiting task becomes READY on a path. -/
def State.makeReady (s : State) (camp : Nat) (t : Task) (path : Nat) : State :=
  let s1 := s.modCamp camp fun c => c.setTask { t with st := .ready, path := path, raised := if path = 1 then [] else t.raised }
  if path = 1 then s1.falls camp t.raised true else s1

/-- Re-tests the waiting tasks until none becomes READY. -/
def retestN : Nat → State → Nat → State
  | 0, s, _ => s
  | n + 1, s, camp =>
    let hit := (s.camp camp).tasks.findSome? fun t =>
      if t.st == .waiting then (s.readyPath camp t).map fun p => (t, p) else none
    match hit with
    | none => s
    | some (t, p) => retestN n (s.makeReady camp t p) camp

/-! ### Taking (R280) -/

/-- Whether a hart waits in a take, not yet given a task, for a kernel in a camp. -/
def Hart.takes (a : Hart) (k : Nat) : Bool :=
  a.kernel == some k && a.task.isNone &&
    match a.wait with
    | some w => w.given.isNone && match w.instr with
      | .twaitTake .. => true
      | _ => false
    | none => false

/-- The registers of a hart that takes a task, before its status is written. -/
def Hart.takeRegs (a : Hart) (t : Task) : Hart :=
  (((a.setX 10 t.g0).setX 11 t.g1).setX 12 t.obj).setX 13 (w64 t.path)

/-- A hart that was given a task goes on at its body: OK with the path, and the PC (R280). -/
def State.startTask (s : State) (h : Nat) (w : Wait) (t : Task) : State :=
  let s1 := (s.modHart h fun a => a.takeRegs t).acquire (coreOf h) 2
  s1.finishAt h w (status codeOK (t.path * 256)) (if t.path = 1 then t.abse else t.entry)

/-- A task becomes RUNNING on a waiting hart; a frozen hart goes on when it is released (R241). -/
def State.giveTask (s : State) (camp h : Nat) (t : Task) : State :=
  let s1 := (s.modCamp camp fun c => c.setTask { t with st := .running }).modHart h fun a => { a with task := some t.id }
  match (s1.hart h).wait with
  | none => s1
  | some w =>
    if (s1.hart h).frozen then
      s1.modHart h fun a => { a with wait := some { w with given := some (status codeOK (t.path * 256)) } }
    else s1.startTask h w t

/-- Hands READY tasks to waiting harts: the earliest accepted to the earliest arrived. -/
def giveN : Nat → State → Nat → State
  | 0, s, _ => s
  | n + 1, s, camp =>
    let ready := (s.camp camp).tasks.filter fun t => t.st == .ready
    let hit := ready.findSome? fun t =>
      let hs := ((List.range 64).map (64 * camp + ·)).filter fun h => (s.hart h).takes t.kernel
      let first := hs.foldl (fun (m : Option Nat) h =>
        let o := fun g => ((s.hart g).wait.map (·.order)).getD 0
        match m with
        | none => some h
        | some g => if o h < o g then some h else some g) none
      first.map fun h => (t, h)
    match hit with
    | none => s
    | some (t, h) => giveN n (s.giveTask camp h t) camp

/-- What follows an event at the unit: re-tests, then tasks given. -/
def State.unitSettle (s : State) (camp : Nat) : State :=
  let n := (s.camp camp).tasks.length
  giveN (n + 1) (retestN (n + 1) s camp) camp

/-! ### Ends (R278, R279) -/

/-- A live task ends with a code and a reason: its entries are freed, its object written, its contributions fall where it ends
WITHDRAWN, and what waited on it is tested. -/
def State.endTask (s : State) (camp : Nat) (t : Task) (code reason : Nat) : State × Word :=
  let v := taskStatus code t.path reason t.late
  let s1 := (s.modCamp camp fun c =>
    { c.dropTask t.id with
      tlate := if code = codeOK then FMap.modify (fun _ => 0) c.tlate t.kernel (fun n => (n + t.late) % 2 ^ 32) else c.tlate })
  let s2 := s1.taskObject t v
  let s3 := if code = codeOK then s2 else s2.falls camp t.raised false
  (s3.unitSettle camp, v)

/-- The task of a camp with an identity. -/
def State.findTask (s : State) (camp id : Nat) : Option Task := (s.camp camp).tasks.find? (·.id == id)

/-- TDONE's effect on the current task of a hart (R283): release at device scope, then the end by R278. -/
def State.taskDone (s : State) (h : Nat) (t : Task) : State × Word :=
  let s1 := (s.flush (coreOf h)).modHart h fun a => { a with task := none }
  if t.path = 2 then s1.endTask (campOf h) t codeWITHDRAWN 1 else s1.endTask (campOf h) t codeOK 0

/-- Ends a task of a hart WITHDRAWN with REASON 2 and the path it is on (R119, R344), with release at device scope where it ran (R274); one that
never ran carries path 3. -/
def State.withdrawTask (s : State) (camp h id : Nat) : State :=
  match s.findTask camp id with
  | none => s
  | some t =>
    if t.st = .running then ((s.flush (coreOf h)).endTask camp t codeWITHDRAWN 2).1
    else (s.endTask camp { t with path := 3 } codeWITHDRAWN 2).1

/-- Tasks that wait end WITHDRAWN with REASON 2 in one step (R278, R325). -/
def State.withdrawAll (s : State) (camp : Nat) (l : List Task) : State :=
  let s1 := s.modCamp camp fun c => { c with tasks := c.tasks.filter fun t => !l.any fun u => u.id == t.id }
  let s2 := l.foldl (fun s t => s.taskObject t (taskStatus codeWITHDRAWN 3 2 t.late)) s1
  (s2.falls camp (l.flatMap (·.raised)) false).unitSettle camp

/-! ### A wait abandoned (R240, R241) -/

/-- A wait that its home finished while the hart was frozen: a take goes on at its body, a receive gets its entry. -/
def State.finishGiven (s : State) (h : Nat) (w : Wait) (st : Word) : State :=
  match w.instr, (s.hart h).task.bind fun id => s.findTask (campOf h) id with
  | .twaitTake .., some t => s.startTask h w t
  | .qrecv d _ _ sc, _ => ((s.modHart h fun a => a.setX (d + 1) w.data).acquire (coreOf h) sc.toNat).finishWait h w st false
  | _, _ => s.finishWait h w st false

/-- Abandons the wait of a hart that stops: one already finished at its home finishes first, a barrier that has completed finishes OK, an
arrival is withdrawn. -/
def State.abandonWait (s : State) (h : Nat) : State :=
  match (s.hart h).wait with
  | none => s
  | some w =>
    match w.given with
    | some st => s.finishGiven h w st
    | none =>
      if s.barCompleted h w then
        (s.acquire (coreOf h) (w.scope.getD 0)).finishWait h w (status codeOK (w.gen * 256)) false
      else
        let s1 := if w.bar then s.barWithdraw h w else s
        s1.dropWait h w

end Sys2Proof.Machine
end

