-- ==== Sys2Proof/Machine/Engine.lean ====
section
/-! DEFINITION. Engine commands in common (R195 to R201, R208, R209, R344): completion objects at issue, the progress of a copy, the
access side of a stream queue, and the discard of a parked record. -/
namespace Sys2Proof.Machine

/-! ### Objects of a stream queue (R198, R201) -/

/-- A stream queue of a hart. -/
def State.stream (s : State) (h q : Nat) : Option Stream := (s.hart h).streams.toList[q]?.join

/-- Writes SQOPEN's completion object. -/
def State.streamObject (s : State) (h : Nat) (v : Stream) (w : Word) : State :=
  s.writeObject h (s.hart h).kernel v.objVa v.objPa w v.pc

/-- A queue closes: SQOPEN's object is written WITHDRAWN unless it has been written (R201). -/
def State.streamClose (s : State) (h q : Nat) (v : Stream) : State :=
  let s1 := s.modHart h (Hart.setStream q none)
  if v.done then s1 else s1.streamObject h v (engineStatus codeWITHDRAWN 0 v.fetched)

/-! ### The discard of a parked record (R344) -/

/-- Discards what record i of a hart parks: 0 to 15 a copy, 16 and 17 a stream queue, 18 the task. -/
def State.discardRecord (s : State) (h i : Nat) : State :=
  if i < 16 then
    match s.ops.find? fun o => o.h == h && o.parked == some i with
    | some o => (s.endOp o (engineStatus codeWITHDRAWN 0 o.prog)).saveWrite h (0x1000 + 128 * i) [0]
    | none => s
  else if i < 18 then
    match s.stream h (i - 16) with
    | some v => if v.parked then (s.streamClose h (i - 16) v).saveWrite h (0x1800 + 128 * (i - 16)) [0] else s
    | none => s
  else
    match (s.hart h).parkedTask with
    | some p => ((s.modHart h fun a => { a with parkedTask := none }).withdrawTask (campOf h) h p.id).saveWrite h 0x1900 [0]
    | none => s

/-- The record whose V byte lies at an offset of the save page (R343). -/
def recordOfV (off : Nat) : Option Nat :=
  if 0x1000 ≤ off ∧ off < 0x1800 ∧ off % 128 = 0 then some ((off - 0x1000) / 128)
  else if off = 0x1800 then some 16
  else if off = 0x1880 then some 17
  else if off = 0x1900 then some 18
  else none

/-- Discards every record of a hart. -/
def State.discardAll (s : State) (h : Nat) : State := (List.range 19).foldl (fun s i => s.discardRecord h i) s

/-- A store into that part: SATP, CTX, and the V bytes of the engine records; other bytes ignore it (R343, R348). -/
def State.recordStore (s : State) (h off : Nat) (bs : List Byte) : State :=
  if 0x1A00 ≤ off then s.translationStore h off bs
  else
    (numbered 0 bs).foldl (fun s b =>
      match recordOfV (off + b.1) with
      | some i => if b.2.getLsbD 0 then s else s.discardRecord h i
      | none => s) s

/-! ### Stores (R216 to R219) -/

/-- Whether an address made under a root lies in the part of a save page that the device keeps. -/
def XCtx.inRecords (x : XCtx) (va : Word) : Bool := x.sup && decide (0x1000 ≤ va.toNat) && decide (va.toNat < 0x4000)

/-- An ordinary store at a virtual address: an engine's into the part of a save page that the device keeps is as a store of its hart (DESIGN CHOICE,
log 64); the page joins the dirty set of the kernel it is made for (R394). -/
def State.memStore (s : State) (ag : Agent) (x : XCtx) (k : Option Nat) (va : Word) (bs : List Byte) (vector : Bool := false) : Res Unit :=
  if x.inRecords va then (s.recordStore x.h va.toNat bs, .ok ())
  else
    match s.probe x va .store with
    | (s, .error e) => (s, .error e)
    | (s, .ok pa) =>
      if s.fillRefused (coreOf x.h) x.ctx pa bs.length true then (s, .error peerError)
      else match s.storePa ag (coreOf x.h) va pa bs vector with
      | (s, .error e) => (s, .error e)
      | (s, .ok ()) => (if x.sup then s else s.noteDirty k va bs.length, .ok ())

/-- Stores of consecutive bytes, a sector at a time: the bytes written before an error, and the error. -/
def storeRunN : Nat → State → Agent → XCtx → Option Nat → Word → List Byte → State × Nat × Option MemErr
  | 0, s, _, _, _, _, _ => (s, 0, none)
  | f + 1, s, ag, x, kn, va, bs =>
    if bs.isEmpty then (s, 0, none)
    else
      let k := Nat.min bs.length (64 - va.toNat % 64)
      match s.memStore ag x kn va (bs.take k) with
      | (s, .error e) => (s, 0, some e)
      | (s, .ok ()) =>
        match storeRunN f s ag x kn (va + w64 k) (bs.drop k) with
        | (s, m, e) => (s, k + m, e)

/-- Stores of consecutive bytes. -/
def State.storeRun (s : State) (ag : Agent) (x : XCtx) (kn : Option Nat) (va : Word) (bs : List Byte) :
    State × Nat × Option MemErr := storeRunN (bs.length / 64 + 2) s ag x kn va bs

/-! ### Issue (R195 to R197) -/

/-- ENGINE_ARG (R197). -/
def engineArg (reason oper : Nat) : Trap := ⟨causeEngineArg, w64 (reason * 256 + oper), none⟩

/-- STORE_FAULT or LOAD_FAULT of a hart for a refused probe, with its reason recorded (R348). -/
def State.probeTrap (s : State) (h : Nat) (store : Bool) (va : Word) (reason : Nat) : State × Option Trap :=
  (s.setReason h reason, some ⟨if store then causeStoreFault else causeLoadFault, va, none⟩)

/-- Probes an address for a hart: the physical address, or the trap of R110. -/
def State.probeVa (s : State) (h : Nat) (va : Word) (acc : Access) : State × Except Trap Nat :=
  match s.probe (s.xctx h) va acc with
  | (s, .ok pa) => (s, .ok pa)
  | (s, .error e) => let r := s.accessTrap h (acc == .store) va e; (r.1, .error r.2)

/-- The check of a completion object (R196): alignment, the probe for write, and bytes that refuse stores. -/
def State.objCheck (s : State) (h : Nat) (d : Reg) (va : Word) : State × Option Trap :=
  if d = 0 then (s, none)
  else if va.toNat % 8 ≠ 0 then (s, some (engineArg 0 0))
  else
    match s.probeVa h va .store with
    | (s, .error t) => (s, some t)
    | (s, .ok pa) => if s.storeRefused pa 8 then (s, some ⟨causeStoreFault, va, none⟩) else (s, none)

/-- Sets a completion object to the pending value as one of the hart's own stores; the physical address of the object. -/
def State.objPending (s : State) (h : Nat) (d : Reg) (va : Word) : State × Option Nat × Option Trap :=
  if d = 0 then (s, none, none)
  else
    let pa := match (s.translate (s.xctx h) va .store).1 with
      | .ok p => some p
      | _ => none
    let s := s.pin (s.xctx h) va .store
    match s.memStore (.hart h) (s.xctx h) (s.hart h).kernel va (leBytes 8 pendingWord.toNat) with
    | (s, .ok ()) => (s, pa, none)
    | (s, .error e) => let r := s.accessTrap h true va e; (r.1, none, some r.2)

/-- An operation of a hart starts: its object is pending and it joins the operations in flight. -/
def State.startOp (s : State) (h : Nat) (d : Reg) (va pc : Word) (kind : State → OpKind) : Done :=
  match s.objPending h d va with
  | (s, _, some t) => { state := s, trap := some t }
  | (s, pa, none) =>
    let o : Op := { id := s.nextOp, h := h, kernel := (s.hart h).kernel, x := s.xctx h, kind := kind s, objVa := va, objPa := pa,
                    pc := pc, prog := 0, parked := none, done := [] }
    { state := { s with ops := s.ops ++ [o], nextOp := s.nextOp + 1 } }

/-- An operation in flight. -/
def State.findOp (s : State) (id : Nat) : Option Op := s.ops.find? (·.id == id)

/-- Ends an operation FAULTED. -/
def State.failOp (s : State) (o : Op) (reason prog : Nat) : State := s.endOp o (engineStatus codeFAULTED reason prog)

/-! ### The copy (R208, R209) -/

/-- Offset of byte n of the linear order for one side: its strides are at byte `o`, `o + 16` and `o + 32` of the descriptor. -/
def copyOffset (desc : List Byte) (o n : Nat) : Word :=
  let inner := fieldAt desc 0 4
  let run := n / inner
  let c1 := fieldAt desc 4 4
  let c2 := fieldAt desc 8 4
  let s (k : Nat) : Word := w64 (fieldAt desc (o + 16 * k) 8)
  w64 (run / c1 / c2) * s 2 + w64 (run / c1 % c2) * s 1 + w64 (run % c1) * s 0 + w64 (n % inner)

/-- Copies from byte `p` of the linear order on, at most `limit` bytes, those that have not been copied ahead: the progress reached, and the error that
stopped it. -/
def copyN : Nat → State → Op → Word → Word → List Byte → Nat → Nat → State × Nat × Option MemErr
  | 0, s, _, _, _, _, p, _ => (s, p, none)
  | f + 1, s, o, src, dst, desc, p, limit =>
    if limit = 0 ∨ copyTotal desc ≤ p then (s, p, none)
    else if o.done.contains p then copyN f s o src dst desc (p + 1) (limit - 1)
    else
      let a := src + copyOffset desc 16 p
      let b := dst + copyOffset desc 24 p
      let inner := fieldAt desc 0 4
      let m := Nat.min (Nat.min (inner - p % inner) limit) (Nat.min (64 - a.toNat % 64) (64 - b.toNat % 64))
      let k := if o.done.isEmpty then m else ((List.range m).takeWhile fun i => !o.done.contains (p + i)).length
      match s.memLoad o.agent o.x a k with
      | (s, .error e) => (s, p, some e)
      | (s, .ok bs) =>
        match s.memStore o.agent o.x o.kernel b bs with
        | (s, .error e) => (s, p, some e)
        | (s, .ok ()) => copyN f s o src dst desc (p + k) (limit - k)

/-- A copy makes progress by at most `limit` bytes, and ends where it is done or faults. -/
def State.copyAdvance (s : State) (o : Op) (limit : Nat) : State :=
  match o.kind with
  | .copy src dst desc now =>
    match now with
    | some reason => if reason = 0 then s.endOp o (engineStatus codeOK 0 0) else s.failOp o reason 0
    | none =>
      match copyN (copyTotal desc + 1) s o src dst desc o.prog limit with
      | (s, p, some e) => s.failOp o e.reason p
      | (s, p, none) =>
        if copyTotal desc ≤ p then s.endOp o (engineStatus codeOK 0 p)
        else { s with ops := s.ops.map fun (q : Op) => if q.id == o.id then { q with prog := p } else q }
  | _ => s

/-! ### Stream queues (R198 to R201) -/

def Stream.count (v : Stream) : Nat := bits v.desc.toNat 15 0
def Stream.slots (v : Stream) : Nat := 2 * 2 ^ bits v.desc.toNat 21 20
def Stream.len (v : Stream) : Nat := 64 * (bits v.desc.toNat 19 16 + 1)

/-- Physical address of a byte of a core's local store (R173). -/
def localPa (core off : Nat) : Nat := Config.apertureBase + slotOfCore core * Config.apertureSlot + off

/-- Physical address of a slot of a queue. -/
def Stream.slotPa (v : Stream) (core i : Nat) : Nat := localPa core (v.area.1 + i % v.slots * 1024)

/-- The access side can fetch its next entry (R199): the queue is open, the hart resident, the slot free. -/
def State.streamReady (s : State) (h : Nat) (v : Stream) : Bool :=
  !v.done && !v.parked && !v.faulted && !(s.hart h).sup && decide (v.fetched < v.count) && !v.full.getLsbD (v.fetched % v.slots)

/-- The access side completes the fetch of an entry into its slot, or faults (R199). -/
def State.streamFetch (s : State) (h q : Nat) : State :=
  match s.stream h q with
  | none => s
  | some v =>
    if !s.streamReady h v then s
    else
      let a := v.base + w64 v.fetched * v.stride
      match s.loadRun (.engine h v.pc) v.x a v.len with
      | (s, _, some e) =>
        let v1 := { v with faulted := true, done := true }
        (s.modHart h (Hart.setStream q (some v1))).streamObject h v (engineStatus codeFAULTED e.reason v.fetched)
      | (s, bs, none) =>
        let pa := v.slotPa (coreOf h) v.fetched
        let s1 := State.afterStore s (s.localWrite pa bs) (.engine h v.pc) false false pa bs.length
        let v1 := { v with
          fetched := v.fetched + 1
          full := v.full ||| BitVec.ofNat 16 (2 ^ (v.fetched % v.slots))
          done := decide (v.fetched + 1 = v.count) }
        let s2 := s1.modHart h (Hart.setStream q (some v1))
        if v1.done then s2.streamObject h v (engineStatus codeOK 0 v.count) else s2

end Sys2Proof.Machine
end

