-- ==== Sys2Proof/Machine/HartAccess.lean ====
section
/-! DEFINITION. A hart's own loads and stores (R110, R336, R343, R348, R349): through translation, and in its save page the engine
records and the translation record. -/
namespace Sys2Proof.Machine

/-- Whether an address of a hart lies in the part of its save page that the device keeps. -/
def State.inRecords (s : State) (h : Nat) (va : Word) : Bool :=
  (s.xctx h).inRecords va

/-- A load of n bytes by a hart. -/
def State.hartLoad (s : State) (h : Nat) (va : Word) (n : Nat) : Res (List Byte) :=
  s.memLoad (.hart h) (s.xctx h) va n

/-- A store by a hart. -/
def State.hartStore (s : State) (h : Nat) (va : Word) (bs : List Byte) (vector : Bool := false) : Res Unit :=
  s.memStore (.hart h) (s.xctx h) (s.hart h).kernel va bs vector

end Sys2Proof.Machine
end

