-- ==== Sys2Proof/Machine/ScalarMem.lean ====
section
/-! DEFINITION. Scalar loads and stores (R109 to R111). -/
namespace Sys2Proof.Machine

/-- The bytes an entry of the queue may store to (R111): none, every address, `len` from one on modulo 2^64, or from one address up to
another. -/
inductive StoreRange where
  | none_
  | all
  | from_ (base : Word) (len : Nat)
  | span (lo hi : Nat)
  deriving DecidableEq, Repr

/-- From the lowest to the highest element address, each modulo 2^64 (R189), plus w. -/
def strideRange (base stride : Word) (vl w : Nat) : StoreRange :=
  let l := (List.range vl).map fun i => (base + w64 i * stride).toNat
  match l with
  | [] => .none_
  | x :: r => .span (r.foldl Nat.min x) (r.foldl Nat.max x + w)

/-- R111's table. -/
def QEntry.stores (e : QEntry) : StoreRange :=
  match e.instr with
  | .vst _ _ i w => .from_ (e.va + simm i) (e.vl * 2 ^ w.toNat)
  | .vstm _ _ w _ => .from_ e.va (e.vl * 2 ^ w.toNat)
  | .vsts _ _ _ w _ => strideRange e.va e.vb e.vl (2 ^ w.toNat)
  | .vsti .. | .vstiw .. | .vsc .. | .vscw .. | .vscadd .. | .vldz .. => .all
  | _ => .none_

/-- Whether a range meets bytes [a, a + n). -/
def StoreRange.meets (r : StoreRange) (a : Word) (n : Nat) : Bool :=
  match r with
  | .none_ => false
  | .all => true
  | .from_ base len => decide (len ≠ 0) && (decide ((a - base).toNat < len) || decide ((base - a).toNat < n))
  | .span lo hi => decide (a.toNat < hi) && decide (lo < a.toNat + n)

/-- Whether a store of the queue may meet bytes [a, a + n). -/
def Hart.storeAhead (h : Hart) (a : Word) (n : Nat) : Bool := h.queue.any fun e => e.stores.meets a n

/-- MISALIGNED_DATA (R110). -/
def misaligned (a : Word) : Trap := ⟨causeMisalignedData, a, none⟩

/-- A scalar load of n bytes: alignment, then the access; x[d] := what `f` makes of the bytes. -/
def scalarLoad (s : State) (d a : Reg) (i : BitVec 15) (n : Nat) (f : Nat → Word) : Out :=
  let va := s.h.getX a + simm i
  if va.toNat % n ≠ 0 then raise s (misaligned va)
  else if s.h.storeAhead va n then .next s
  else
    match s.hartLoad s.cur va n with
    | (s1, .ok bs) => writeX s1 d (f (leNat bs))
    | (s1, .error e) => let r := s1.accessTrap s.cur false va e; raiseIn s r.1 r.2

/-- A scalar store of the low n bytes of x[d]. -/
def scalarStore (s : State) (d a : Reg) (i : BitVec 15) (n : Nat) : Out :=
  held s fun s =>
    let va := s.h.getX a + simm i
    if va.toNat % n ≠ 0 then raise s (misaligned va)
    else
      match s.hartStore s.cur va (leBytes n (s.h.getX d).toNat) with
      | (s1, .ok ()) => commit s1 id
      | (s1, .error e) => let r := s1.accessTrap s.cur true va e; raiseIn s r.1 r.2

/-! ### The instructions -/

/-- LB (R109, R110). -/
def execLb (d a : Reg) (i : BitVec 15) (s : State) : Out := scalarLoad s d a i 1 (sextN 8)
/-- LH (R109, R110). -/
def execLh (d a : Reg) (i : BitVec 15) (s : State) : Out := scalarLoad s d a i 2 (sextN 16)
/-- LW (R109, R110). -/
def execLw (d a : Reg) (i : BitVec 15) (s : State) : Out := scalarLoad s d a i 4 (sextN 32)
/-- LD (R109, R110). -/
def execLd (d a : Reg) (i : BitVec 15) (s : State) : Out := scalarLoad s d a i 8 (sextN 64)
/-- LBU (R109, R110). -/
def execLbu (d a : Reg) (i : BitVec 15) (s : State) : Out := scalarLoad s d a i 1 (w64)
/-- LHU (R109, R110). -/
def execLhu (d a : Reg) (i : BitVec 15) (s : State) : Out := scalarLoad s d a i 2 (w64)
/-- SB (R109, R110). -/
def execSb (d a : Reg) (i : BitVec 15) (s : State) : Out := scalarStore s d a i 1
/-- SH (R109, R110). -/
def execSh (d a : Reg) (i : BitVec 15) (s : State) : Out := scalarStore s d a i 2
/-- SW (R109, R110). -/
def execSw (d a : Reg) (i : BitVec 15) (s : State) : Out := scalarStore s d a i 4
/-- SD (R109, R110). -/
def execSd (d a : Reg) (i : BitVec 15) (s : State) : Out := scalarStore s d a i 8

end Sys2Proof.Machine
end

