-- ==== Sys2Proof/Machine/Float.lean ====
section
/-! DEFINITION. Floating point (R60 to R67): a bit pattern is read at its exact value, an operation is computed exactly, and the
result is rounded once. -/
namespace Sys2Proof.Machine

/-- A floating-point format (R60): exponent and mantissa bits, bias, the largest finite pattern, the canonical NaN, whether
it has infinities, and whether a tiny result is delivered as zero (R65). -/
structure FFmt where
  ebits : Nat
  mbits : Nat
  bias : Nat
  maxBits : Nat
  nan : Nat
  hasInf : Bool
  hasNan : Bool
  flush : Bool
  narrow : Bool
  deriving DecidableEq, Repr

def fmtF32 : FFmt := ⟨8, 23, 127, 0x7F7FFFFF, 0x7FC00000, true, true, false, false⟩
def fmtF16 : FFmt := ⟨5, 10, 15, 0x7BFF, 0x7E00, true, true, false, false⟩
def fmtBf16 : FFmt := ⟨8, 7, 127, 0x7F7F, 0x7FC0, true, true, true, false⟩
def fmtE4m3 : FFmt := ⟨4, 3, 7, 0x7E, 0x7F, false, true, false, true⟩
def fmtE5m2 : FFmt := ⟨5, 2, 15, 0x7B, 0x7E, true, true, false, true⟩
def fmtE2m1 : FFmt := ⟨2, 1, 1, 0x7, 0, false, false, false, true⟩

/-- The floating format of a code of R27. -/
def ffmtOf (code : Nat) : FFmt :=
  match code with
  | 9 => fmtF16
  | 10 => fmtBf16
  | 11 => fmtE4m3
  | 12 => fmtE5m2
  | 13 => fmtE2m1
  | _ => fmtF32

/-- Bits of a pattern. -/
def FFmt.width (f : FFmt) : Nat := 1 + f.ebits + f.mbits

/-- A value: (-1)^neg × m × 2^e, an infinity, or a NaN. -/
inductive FVal where
  | fin (neg : Bool) (m : Nat) (e : Int)
  | inf (neg : Bool)
  | nan (signalling : Bool)
  deriving DecidableEq, Repr

/-- A delivered bit pattern with the flags the operation raised. -/
abbrev FRes := Nat × Flags

/-- The value of a bit pattern (R60, R61). -/
def fdecode (f : FFmt) (bits : Nat) : FVal :=
  let neg := bits / 2 ^ (f.ebits + f.mbits) % 2 == 1
  let ex := bits / 2 ^ f.mbits % 2 ^ f.ebits
  let m := bits % 2 ^ f.mbits
  if f.hasInf && ex == 2 ^ f.ebits - 1 then
    if m == 0 then .inf neg else .nan (!f.narrow && decide (m < 2 ^ (f.mbits - 1)))
  else if f.hasNan && !f.hasInf && ex == 2 ^ f.ebits - 1 && m == 2 ^ f.mbits - 1 then .nan false
  else if ex == 0 then .fin neg m (1 - (f.bias : Int) - f.mbits)
  else .fin neg (2 ^ f.mbits + m) ((ex : Int) - f.bias - f.mbits)

/-- Places the sign of a pattern. -/
def fsigned (f : FFmt) (neg : Bool) (bits : Nat) : Nat := if neg then bits + 2 ^ (f.ebits + f.mbits) else bits

/-- Infinity of a sign; formats without one deliver the largest finite value (R67). -/
def finf (f : FFmt) (neg : Bool) : Nat :=
  fsigned f neg (if f.narrow then f.maxBits else (2 ^ f.ebits - 1) * 2 ^ f.mbits)

/-- The number of units of 2^q in (m + a fraction if `sticky`) × 2^e, rounded to an integer, and whether that is inexact. -/
def fquant (mode : RMode) (neg : Bool) (m : Nat) (e : Int) (sticky : Bool) (q : Int) : Nat × Bool :=
  let d := q - e
  if d ≤ 0 then
    (m * 2 ^ (-d).toNat + (if sticky && ((mode == .rup && !neg) || (mode == .rdn && neg)) then 1 else 0), sticky)
  else
    let p := 2 ^ d.toNat
    let k := m / p
    let r := m % p
    let inexact := r != 0 || sticky
    let up := match mode with
      | .rne => decide (p < 2 * r) || (2 * r == p && (sticky || k % 2 == 1))
      | .rtz => false
      | .rdn => neg && inexact
      | .rup => !neg && inexact
    (if up then k + 1 else k, inexact)

/-- What overflow delivers (R64, R67). -/
def foverflow (mode : RMode) (f : FFmt) (neg : Bool) : FRes :=
  let toInf := !f.narrow && match mode with
    | .rne => true
    | .rtz => false
    | .rdn => neg
    | .rup => !neg
  (if toInf then finf f neg else fsigned f neg f.maxBits, flagOF ||| flagNX)

/-- Rounds a nonzero magnitude once into a format (R62, R64, R65). -/
def fround (mode : RMode) (f : FFmt) (neg : Bool) (m : Nat) (e : Int) (sticky : Bool) : FRes :=
  let x : Int := (m.log2 : Int) + e
  let r0 := fquant mode neg m e sticky (x - f.mbits)
  let carry := decide (2 ^ (f.mbits + 1) ≤ r0.1)
  let x' := if carry then x + 1 else x
  if x' < 1 - (f.bias : Int) then
    if f.flush then (fsigned f neg 0, flagUF ||| flagNX)
    else
      let r := fquant mode neg m e sticky (1 - (f.bias : Int) - f.mbits)
      (fsigned f neg r.1, if r.2 then flagUF ||| flagNX else 0)
  else
    let frac := if carry then 0 else r0.1 - 2 ^ f.mbits
    let bits := (x' + f.bias).toNat * 2 ^ f.mbits + frac
    if f.maxBits < bits then foverflow mode f neg
    else (fsigned f neg bits, if r0.2 then flagNX else 0)

/-- Delivers an exact value; `zneg` is the sign of a zero. -/
def fdeliver (mode : RMode) (f : FFmt) (neg : Bool) (m : Nat) (e : Int) (sticky zneg : Bool) : FRes :=
  if m == 0 then (fsigned f zneg 0, 0) else fround mode f neg m e sticky

/-- The flag of a signalling NaN operand (R61). -/
def fsnan : FVal → Flags
  | .nan true => flagNV
  | _ => 0

/-- A NaN. -/
def FVal.isNan : FVal → Bool
  | .nan _ => true
  | _ => false

/-- A zero. -/
def FVal.isZero : FVal → Bool
  | .fin _ m _ => m == 0
  | _ => false

/-- The value with its sign reversed. -/
def FVal.neg : FVal → FVal
  | .fin n m e => .fin (!n) m e
  | .inf n => .inf (!n)
  | v => v

/-- Narrowing or rounding a value into a format (R67). -/
def fconvert (mode : RMode) (f : FFmt) (v : FVal) : FRes :=
  match v with
  | .nan s => if f.hasNan then (f.nan, if s then flagNV else 0) else (0, flagNV)
  | .inf n => if f.narrow then (finf f n, flagOF ||| flagNX) else (finf f n, 0)
  | .fin n m e => fdeliver (if f.narrow then .rne else mode) f n m e false n

/-- Rounds an exact sum of signed values given as an integer times 2^e; `z` is the sign of an exact zero. -/
def fofInt (mode : RMode) (f : FFmt) (k : Int) (e : Int) (z : Bool) : FRes :=
  fdeliver mode f (decide (k < 0)) k.natAbs e false z

/-- A finite value as an integer in units of 2^e0, for e0 not above its exponent. -/
def fscaled (e0 : Int) (neg : Bool) (m : Nat) (e : Int) : Int :=
  let k : Int := ((m * 2 ^ (e - e0).toNat : Nat) : Int)
  if neg then -k else k

/-- a + b, rounded once. -/
def fadd (mode : RMode) (f : FFmt) (a b : FVal) : FRes :=
  let sn := fsnan a ||| fsnan b
  match a, b with
  | .nan _, _ => (f.nan, sn)
  | _, .nan _ => (f.nan, sn)
  | .inf n, .inf n' => if n == n' then (finf f n, 0) else (f.nan, flagNV)
  | .inf n, _ => (finf f n, 0)
  | _, .inf n => (finf f n, 0)
  | .fin n m e, .fin n' m' e' =>
    let z := if m == 0 && m' == 0 && n == n' then n else mode == .rdn
    fofInt mode f (fscaled (min e e') n m e + fscaled (min e e') n' m' e') (min e e') z

/-- a - b, rounded once. -/
def fsub (mode : RMode) (f : FFmt) (a b : FVal) : FRes := fadd mode f a b.neg

/-- a × b, rounded once. -/
def fmul (mode : RMode) (f : FFmt) (a b : FVal) : FRes :=
  let sn := fsnan a ||| fsnan b
  match a, b with
  | .nan _, _ => (f.nan, sn)
  | _, .nan _ => (f.nan, sn)
  | .inf n, .inf n' => (finf f (n != n'), 0)
  | .inf n, .fin n' m _ => if m == 0 then (f.nan, flagNV) else (finf f (n != n'), 0)
  | .fin n m _, .inf n' => if m == 0 then (f.nan, flagNV) else (finf f (n != n'), 0)
  | .fin n m e, .fin n' m' e' => fdeliver mode f (n != n') (m * m') (e + e') false (n != n')

/-- The exact product as a value, for a fused operation: none where it is 0 × ∞. -/
def fproduct (a b : FVal) : Option FVal :=
  match a, b with
  | .nan _, _ => some (.nan false)
  | _, .nan _ => some (.nan false)
  | .inf n, .inf n' => some (.inf (n != n'))
  | .inf n, .fin n' m _ => if m == 0 then none else some (.inf (n != n'))
  | .fin n m _, .inf n' => if m == 0 then none else some (.inf (n != n'))
  | .fin n m e, .fin n' m' e' => some (.fin (n != n') (m * m') (e + e'))

/-- a × b + c, rounded once (R62, R108). -/
def ffma (mode : RMode) (f : FFmt) (a b c : FVal) : FRes :=
  let sn := fsnan a ||| fsnan b ||| fsnan c
  match fproduct a b with
  | none => (f.nan, flagNV)
  | some p =>
    let r := fadd mode f p c
    (r.1, r.2 ||| sn)

/-- a / b, rounded once (R61). -/
def fdiv (mode : RMode) (f : FFmt) (a b : FVal) : FRes :=
  let sn := fsnan a ||| fsnan b
  match a, b with
  | .nan _, _ => (f.nan, sn)
  | _, .nan _ => (f.nan, sn)
  | .inf _, .inf _ => (f.nan, flagNV)
  | .inf n, .fin n' _ _ => (finf f (n != n'), 0)
  | .fin n _ _, .inf n' => (fsigned f (n != n') 0, 0)
  | .fin n m e, .fin n' m' e' =>
    if m' == 0 then if m == 0 then (f.nan, flagNV) else (finf f (n != n'), flagDZ)
    else
      let sh := f.mbits + 4 + m'.log2
      let t := m * 2 ^ sh
      fdeliver mode f (n != n') (t / m') (e - e' - sh) (t % m' != 0) (n != n')

/-- Integer square root, one bit of the result at a time from bit n - 1 down. -/
def isqrtFrom : Nat → Nat → Nat → Nat
  | 0, _, acc => acc
  | n + 1, v, acc =>
    let c := acc + 2 ^ n
    isqrtFrom n v (if c * c ≤ v then c else acc)

/-- The greatest integer whose square does not exceed v. -/
def isqrt (v : Nat) : Nat := isqrtFrom (v.log2 / 2 + 1) v 0

/-- √a, rounded once (R61, R106). -/
def fsqrt (mode : RMode) (f : FFmt) (a : FVal) : FRes :=
  match a with
  | .nan s => (f.nan, if s then flagNV else 0)
  | .inf n => if n then (f.nan, flagNV) else (finf f false, 0)
  | .fin n m e =>
    if m == 0 then (fsigned f n 0, 0)
    else if n then (f.nan, flagNV)
    else
      let odd := e % 2 == 1
      let e1 := if odd then e - 1 else e
      let m1 := if odd then 2 * m else m
      let sh := f.mbits + 4
      let t := m1 * 2 ^ (2 * sh)
      let r := isqrt t
      fround mode f false r (e1 / 2 - sh) (r * r != t)

/-- a < b on values that are no NaN. -/
def fltv (a b : FVal) : Bool :=
  match a, b with
  | .nan _, _ => false
  | _, .nan _ => false
  | .inf n, .inf n' => n && !n'
  | .inf n, .fin _ _ _ => n
  | .fin _ _ _, .inf n' => !n'
  | .fin n m e, .fin n' m' e' => decide (fscaled (min e e') n m e < fscaled (min e e') n' m' e')

/-- a = b; zeros of both signs are equal, a NaN equals nothing (R61). -/
def feqv (a b : FVal) : Bool :=
  match a, b with
  | .nan _, _ => false
  | _, .nan _ => false
  | .inf n, .inf n' => n == n'
  | .fin n m e, .fin n' m' e' => decide (fscaled (min e e') n m e = fscaled (min e e') n' m' e')
  | _, _ => false

/-- The sign of a value. -/
def FVal.isNeg : FVal → Bool
  | .fin n _ _ => n
  | .inf n => n
  | .nan _ => false

/-- a before b in the order of minimum and maximum, where -0 < +0. -/
def fbefore (a b : FVal) : Bool := fltv a b || (feqv a b && a.isNeg && !b.isNeg)

/-- The lesser (or with `mx` the greater) of two patterns (R106, R107). -/
def fminmax (mx : Bool) (f : FFmt) (a b : Nat) : FRes :=
  let va := fdecode f a
  let vb := fdecode f b
  let sn := fsnan va ||| fsnan vb
  match va.isNan, vb.isNan with
  | true, true => (f.nan, sn)
  | true, false => (b, sn)
  | false, true => (a, sn)
  | false, false => (if mx then (if fbefore va vb then b else a) else (if fbefore vb va then b else a), 0)

/-- A value converted to an integer between lo and hi (R67). -/
def ftoInt (mode : RMode) (lo hi : Int) (v : FVal) : Int × Flags :=
  match v with
  | .nan _ => (0, flagNV)
  | .inf n => (if n then lo else hi, flagNV)
  | .fin n m e =>
    let r := fquant mode n m e false 0
    let k : Int := if n then -(r.1 : Int) else r.1
    if k < lo then (lo, flagNV) else if hi < k then (hi, flagNV) else (k, if r.2 then flagNX else 0)

/-- An integer converted to a float (R67). -/
def fofIntVal (mode : RMode) (f : FFmt) (k : Int) : FRes := fofInt mode f k 0 false

end Sys2Proof.Machine
end

