-- ==== Sys2Proof/Machine/Integer.lean ====
section
/-! DEFINITION. Scalar integer instructions (R99 to R105). -/
namespace Sys2Proof.Machine

/-! ### Arithmetic (R100 to R102) -/

/-- A truth value. -/
def truth (b : Bool) : Word := if b then 1 else 0

/-- Bits 127:64 of the signed product. -/
def mulHigh (a b : Word) : Word := .ofInt 64 (a.toInt * b.toInt / 2 ^ 64)
/-- Bits 127:64 of the unsigned product. -/
def mulHighU (a b : Word) : Word := w64 (a.toNat * b.toNat / 2 ^ 64)
/-- Signed quotient, rounded toward zero; -1 for b = 0. -/
def divS (a b : Word) : Word := if b = 0 then -1 else .ofInt 64 (a.toInt.tdiv b.toInt)
/-- Unsigned quotient; 2^64 - 1 for b = 0. -/
def divU (a b : Word) : Word := if b = 0 then -1 else w64 (a.toNat / b.toNat)
/-- Signed remainder with the sign of a; a for b = 0. -/
def remS (a b : Word) : Word := if b = 0 then a else .ofInt 64 (a.toInt.tmod b.toInt)
/-- Unsigned remainder; a for b = 0. -/
def remU (a b : Word) : Word := if b = 0 then a else w64 (a.toNat % b.toNat)
/-- Leading zero bits. -/
def leadingZeros (a : Word) : Nat := if a = 0 then 64 else 63 - a.toNat.log2
/-- Trailing zero bits of n, at most k. -/
def trailingZerosN : Nat → Nat → Nat
  | 0, _ => 0
  | k + 1, n => if n % 2 = 1 then 0 else trailingZerosN k (n / 2) + 1
/-- Trailing zero bits. -/
def trailingZeros (a : Word) : Nat := trailingZerosN 64 a.toNat
/-- One bits among the low k of n. -/
def popN : Nat → Nat → Nat
  | 0, _ => 0
  | k + 1, n => n % 2 + popN k (n / 2)
/-- One bits. -/
def popCount (a : Word) : Nat := popN 64 a.toNat

/-- A register form: x[d] := f(x[a], x[b]). -/
def alu (s : State) (d a b : Reg) (f : Word → Word → Word) : Out := writeX s d (f (s.h.getX a) (s.h.getX b))
/-- An immediate form: x[d] := f(x[a], sext(imm15)). -/
def aluI (s : State) (d a : Reg) (i : BitVec 15) (f : Word → Word → Word) : Out := writeX s d (f (s.h.getX a) (simm i))
/-- A form of one source. -/
def alu1 (s : State) (d a : Reg) (f : Word → Word) : Out := writeX s d (f (s.h.getX a))

/-! ### The instructions -/

/-- ADD (R101). -/
def execAdd (d a b : Reg) (s : State) : Out := alu s d a b (fun a b => a + b)
/-- SUB (R101). -/
def execSub (d a b : Reg) (s : State) : Out := alu s d a b (fun a b => a - b)
/-- AND (R101). -/
def execAnd (d a b : Reg) (s : State) : Out := alu s d a b (fun a b => a &&& b)
/-- OR (R101). -/
def execOr (d a b : Reg) (s : State) : Out := alu s d a b (fun a b => a ||| b)
/-- XOR (R101). -/
def execXor (d a b : Reg) (s : State) : Out := alu s d a b (fun a b => a ^^^ b)
/-- SLL (R101). -/
def execSll (d a b : Reg) (s : State) : Out := alu s d a b (fun a b => a <<< (b.toNat % 64))
/-- SRL (R101). -/
def execSrl (d a b : Reg) (s : State) : Out := alu s d a b (fun a b => a >>> (b.toNat % 64))
/-- SRA (R101). -/
def execSra (d a b : Reg) (s : State) : Out := alu s d a b (fun a b => a.sshiftRight (b.toNat % 64))
/-- SLT (R101). -/
def execSlt (d a b : Reg) (s : State) : Out := alu s d a b (fun a b => truth (decide (a.toInt < b.toInt)))
/-- SLTU (R101). -/
def execSltu (d a b : Reg) (s : State) : Out := alu s d a b (fun a b => truth (decide (a.toNat < b.toNat)))
/-- MIN (R101). -/
def execMin (d a b : Reg) (s : State) : Out := alu s d a b (fun a b => if a.toInt < b.toInt then a else b)
/-- MAX (R101). -/
def execMax (d a b : Reg) (s : State) : Out := alu s d a b (fun a b => if a.toInt < b.toInt then b else a)
/-- MINU (R101). -/
def execMinu (d a b : Reg) (s : State) : Out := alu s d a b (fun a b => if a.toNat < b.toNat then a else b)
/-- MAXU (R101). -/
def execMaxu (d a b : Reg) (s : State) : Out := alu s d a b (fun a b => if a.toNat < b.toNat then b else a)
/-- MUL (R101). -/
def execMul (d a b : Reg) (s : State) : Out := alu s d a b (fun a b => a * b)
/-- MULH (R101). -/
def execMulh (d a b : Reg) (s : State) : Out := alu s d a b mulHigh
/-- MULHU (R101). -/
def execMulhu (d a b : Reg) (s : State) : Out := alu s d a b mulHighU
/-- DIV (R101, R102). -/
def execDiv (d a b : Reg) (s : State) : Out := alu s d a b divS
/-- DIVU (R101, R102). -/
def execDivu (d a b : Reg) (s : State) : Out := alu s d a b divU
/-- REM (R101, R102). -/
def execRem (d a b : Reg) (s : State) : Out := alu s d a b remS
/-- REMU (R101, R102). -/
def execRemu (d a b : Reg) (s : State) : Out := alu s d a b remU
/-- CLZ (R101). -/
def execClz (d a : Reg) (s : State) : Out := alu1 s d a (fun v => w64 (leadingZeros v))
/-- CTZ (R101). -/
def execCtz (d a : Reg) (s : State) : Out := alu1 s d a (fun v => w64 (trailingZeros v))
/-- CPOP (R101). -/
def execCpop (d a : Reg) (s : State) : Out := alu1 s d a (fun v => w64 (popCount v))
/-- SEL (R101). -/
def execSel (d a b c : Reg) (s : State) : Out := writeX s d (if s.h.getX c ≠ 0 then s.h.getX a else s.h.getX b)
/-- ADDI (R103). -/
def execAddi (d a : Reg) (i : BitVec 15) (s : State) : Out := aluI s d a i (fun a i => a + i)
/-- ANDI (R103). -/
def execAndi (d a : Reg) (i : BitVec 15) (s : State) : Out := aluI s d a i (fun a i => a &&& i)
/-- ORI (R103). -/
def execOri (d a : Reg) (i : BitVec 15) (s : State) : Out := aluI s d a i (fun a i => a ||| i)
/-- XORI (R103). -/
def execXori (d a : Reg) (i : BitVec 15) (s : State) : Out := aluI s d a i (fun a i => a ^^^ i)
/-- SLTI (R103). -/
def execSlti (d a : Reg) (i : BitVec 15) (s : State) : Out := aluI s d a i (fun a i => truth (decide (a.toInt < i.toInt)))
/-- SLTIU (R103). -/
def execSltiu (d a : Reg) (i : BitVec 15) (s : State) : Out := aluI s d a i (fun a i => truth (decide (a.toNat < i.toNat)))
/-- SLLI (R104). -/
def execSlli (d a : Reg) (n : BitVec 6) (s : State) : Out := alu1 s d a (fun v => v <<< n.toNat)
/-- SRLI (R104). -/
def execSrli (d a : Reg) (n : BitVec 6) (s : State) : Out := alu1 s d a (fun v => v >>> n.toNat)
/-- SRAI (R104). -/
def execSrai (d a : Reg) (n : BitVec 6) (s : State) : Out := alu1 s d a (fun v => v.sshiftRight n.toNat)
/-- sext(imm20, 20) × 4096 (R105). -/
def upper (i : BitVec 20) : Word := i.signExtend 64 <<< 12
/-- LUI (R105). -/
def execLui (d : Reg) (i : BitVec 20) (s : State) : Out := writeX s d (upper i)
/-- AUIPC (R105). -/
def execAuipc (d : Reg) (i : BitVec 20) (s : State) : Out := writeX s d (s.h.pc + upper i)

end Sys2Proof.Machine
end

