-- ==== Sys2Proof/Machine/VectorOps.lean ====
section
/-! DEFINITION. What the vector instructions share (R11, R125 to R130): element arithmetic by format code, the element loop, and names at
their positions. -/
namespace Sys2Proof.Machine

/-! ### Arithmetic by format code (R59, R61 to R67) -/

/-- Whether a format code of integers is signed. -/
def codeSigned (code : Nat) : Bool := decide (code < 4)

/-- Whether a code is an integer format. -/
def codeInt (code : Nat) : Bool := decide (code < 8)

/-- An integer pattern's value. -/
def codeVal (code v : Nat) : Int := if codeSigned code then sxi (fmtWidth code) v else (v % 2 ^ fmtWidth code : Nat)

/-- An operation of two operands: on integers exact and wrapped, on floats rounded once. -/
def arith2 (fi : Int → Int → Int) (ff : RMode → FFmt → FVal → FVal → FRes) (rm : RMode) (code a b : Nat) : FRes :=
  if codeInt code then (wrapN (fmtWidth code) (fi (codeVal code a) (codeVal code b)), 0)
  else ff rm (ffmtOf code) (fdecode (ffmtOf code) a) (fdecode (ffmtOf code) b)

/-- vd + va × vb. -/
def arithFma (rm : RMode) (code d a b : Nat) : FRes :=
  if codeInt code then (wrapN (fmtWidth code) (codeVal code d + codeVal code a * codeVal code b), 0)
  else
    let f := ffmtOf code
    ffma rm f (fdecode f a) (fdecode f b) (fdecode f d)

/-- The lesser, or with `mx` the greater, of two patterns. -/
def arithMinMax (mx : Bool) (code a b : Nat) : FRes :=
  if codeInt code then (if (codeVal code a < codeVal code b) = (mx = true) then b else a, 0)
  else fminmax mx (ffmtOf code) a b

/-- A relation of R136 by its code: 0 EQ, 1 NE, 2 LT, 3 LE. -/
def arithCmp (cond code a b : Nat) : Bool × Flags :=
  if codeInt code then
    let x := codeVal code a
    let y := codeVal code b
    (match cond with
      | 0 => decide (x = y)
      | 1 => decide (x ≠ y)
      | 2 => decide (x < y)
      | _ => decide (x ≤ y), 0)
  else
    let x := fdecode (ffmtOf code) a
    let y := fdecode (ffmtOf code) b
    match cond with
    | 0 => (feqv x y, 0)
    | 1 => (!feqv x y, 0)
    | 2 => (fltv x y, fsnan x ||| fsnan y)
    | _ => (fltv x y || feqv x y, fsnan x ||| fsnan y)

/-- Least and greatest values of an integer format. -/
def codeMin (code : Nat) : Int := if codeSigned code then -2 ^ (fmtWidth code - 1) else 0
def codeMax (code : Nat) : Int := if codeSigned code then 2 ^ (fmtWidth code - 1) - 1 else 2 ^ fmtWidth code - 1

/-- Formats that always round to nearest even (R63). -/
def codeNarrow (code : Nat) : Bool := decide (11 ≤ code)

/-- A conversion between format codes (R67, R141). -/
def arithCvt (rm : RMode) (dst src a : Nat) : FRes :=
  let mode := if codeNarrow dst then .rne else rm
  if codeInt src then
    if codeInt dst then (wrapN (fmtWidth dst) (codeVal src a), 0) else fofIntVal mode (ffmtOf dst) (codeVal src a)
  else if codeInt dst then
    let r := ftoInt rm (codeMin dst) (codeMax dst) (fdecode (ffmtOf src) a)
    (wrapN (fmtWidth dst) r.1, r.2)
  else fconvert mode (ffmtOf dst) (fdecode (ffmtOf src) a)

/-- A value times 2^x, exactly. -/
def FVal.scale (v : FVal) (x : Int) : FVal :=
  match v with
  | .fin neg m e => .fin neg m (e + x)
  | v => v

/-! ### The element loop (R11, R128) -/

/-- Whether element e is active under mask k; k = 0 is no mask. -/
def Hart.active (a : Hart) (k : KReg) (e : Nat) : Bool := k == 0 || (a.getK k).getLsbD e

/-- The mask registers that an instruction under mask k reads as its mask. -/
def maskReads (k : KReg) : List KReg := if k = 0 then [] else [k]

/-- The bits of element e, or the uncorrectable cell among them. -/
def Core.readElem (c : Core) (p : Shape) (e : Nat) : Except Nat Nat :=
  match c.badElem p e with
  | some k => .error k
  | none => .ok (c.elem p e)

/-- What an element gives: where it goes, the value, its flags; or nothing. -/
structure Piece where
  idx : Nat
  val : Nat
  flags : Flags := 0

/-- Elements evaluated in order until one meets an uncorrectable cell: the pieces with their elements, and that element and cell. -/
def collect (f : Nat → Except Nat (Option Piece)) : List Nat → List Piece × Option (Nat × Nat)
  | [] => ([], none)
  | e :: l =>
    match f e with
    | .error k => ([], some (e, k))
    | .ok none => collect f l
    | .ok (some p) => let r := collect f l; (p :: r.1, r.2)

/-- The flags of some pieces. -/
def piecesFlags (l : List Piece) : Flags := l.foldl (fun a p => a ||| p.flags) 0

/-- The outcome of elements: those before an uncorrectable cell are written; an indivisible instruction writes none of them (R56). -/
def finishPieces (s : State) (h : Nat) (e : QEntry) (r : List Piece × Option (Nat × Nat)) (put : State → List Piece → State) : Done :=
  match r.2 with
  | none => { state := put s r.1, flags := piecesFlags r.1 }
  | some (el, k) =>
    let s' := s.logError (w64 (2 ^ 60 + k)) 0 1 (hartId h)
    if e.whole then { state := s', trap := some (planeCheck k) }
    else { state := put s' r.1, flags := piecesFlags r.1, trap := some { planeCheck k with elem := some el } }

/-- Writes pieces into a name. -/
def Core.putPieces (c : Core) (p : Shape) (l : List Piece) : Core := l.foldl (fun c x => c.setElem p x.idx x.val) c

/-- Bits of a mask set or cleared. -/
def setMaskBits (m : BitVec 8192) (l : List Piece) : BitVec 8192 :=
  l.foldl (fun m x => if x.val ≠ 0 then m ||| ((1 : BitVec 8192) <<< x.idx) else m &&& ~~~((1 : BitVec 8192) <<< x.idx)) m

/-- The shape of an entry of a hart now. -/
def Hart.shapeOf (a : Hart) (r : Reg) : Shape := (a.getDef r).shape a.base

/-- Elements of an instruction that writes a name: `f c e` evaluates element e on the core c. -/
def planeRun (d : Reg) (k : KReg) (f : Core → Hart → Nat → Except Nat (Option Piece)) (s : State) (h : Nat) (e : QEntry)
    (lo hi : Nat) : Done :=
  let a := s.hart h
  let c := s.core (coreOf h)
  let r := collect (fun i => if a.active k i then f c a i else .ok none) (elemRange lo hi)
  finishPieces s h e r fun s l => s.modCore (coreOf h) fun c => c.putPieces (a.shapeOf d) l

/-- Elements of an instruction that writes a mask. -/
def maskRun (d k : KReg) (f : Core → Hart → Nat → Except Nat (Option Piece)) (s : State) (h : Nat) (e : QEntry) (lo hi : Nat) : Done :=
  let a := s.hart h
  let c := s.core (coreOf h)
  let r := collect (fun i => if a.active k i then f c a i else .ok none) (elemRange lo hi)
  finishPieces s h e r fun s l => s.modHart h fun a => a.setK d (setMaskBits (a.getK d) l)

/-- The piece of element e. -/
def piece (e : Nat) (r : FRes) : Option Piece := some ⟨e, r.1, r.2⟩

/-! ### Names at their positions -/

/-- A destination name over ESTART to VL - 1. -/
def nameD (d : Reg) (w : Nat) (e : QEntry) : Name := { entry := d, pos := 0, w := w, need := e.vl, dest := true, lo := e.startsAt, hi := e.vl }
/-- A source name at va. -/
def nameA (a : Reg) (w : Nat) (x : BitVec 1) (e : QEntry) : Name :=
  { entry := a, pos := 1, w := w, need := e.vl, empty := x == 1, lo := e.startsAt, hi := e.vl }
/-- A source name at vb. -/
def nameB (b : Reg) (w : Nat) (y : BitVec 1) (e : QEntry) : Name :=
  { entry := b, pos := 2, w := w, need := e.vl, empty := y == 1, lo := e.startsAt, hi := e.vl }

/-- A name of a permuting instruction: it covers elements 0 to VL - 1 and aligns with nothing (R129). -/
def Name.whole (n : Name) : Name := { n with lo := 0, align := false }

/-- The scalar of a vx form (R127): the low bits of the register's value at queue entry. -/
def scalarBits (w : Nat) (v : Word) : Nat := v.toNat % 2 ^ w

/-- FCTL.RM. -/
def Hart.rm (a : Hart) : RMode := rmOfFctl a.fctl

/-- An elementwise form with two names: vd[e] := op(va[e], vb[e]). -/
def opVV (w : Nat) (d a b : Reg) (y x : BitVec 1) (k : KReg) (f : Hart → Nat → Nat → FRes) : QOp where
  width := w
  kr := maskReads k
  names := fun _ e => [nameD d w e, nameA a w x e, nameB b w y e]
  run := planeRun d k fun c h i => do
    let u ← c.readElem (h.shapeOf a) i
    let v ← c.readElem (h.shapeOf b) i
    return piece i (f h u v)

/-- An elementwise form with a scalar: vd[e] := op(va[e], x[b]). -/
def opVX (w : Nat) (d a b : Reg) (x : BitVec 1) (k : KReg) (f : Hart → Nat → Nat → FRes) : QOp where
  width := w
  kr := maskReads k
  rb := b
  names := fun _ e => [nameD d w e, nameA a w x e]
  run := fun s h e lo hi => planeRun d k (fun c a' i => do
    let u ← c.readElem (a'.shapeOf a) i
    return piece i (f a' u (scalarBits w e.vb))) s h e lo hi

/-- An elementwise form that also reads its destination, with two names. -/
def opVVd (w : Nat) (d a b : Reg) (y x : BitVec 1) (k : KReg) (f : Hart → Nat → Nat → Nat → FRes) : QOp where
  width := w
  kr := maskReads k
  names := fun _ e => [nameD d w e, nameA a w x e, nameB b w y e]
  run := planeRun d k fun c h i => do
    let o ← c.readElem (h.shapeOf d) i
    let u ← c.readElem (h.shapeOf a) i
    let v ← c.readElem (h.shapeOf b) i
    return piece i (f h o u v)

/-- An elementwise form that also reads its destination, with a scalar. -/
def opVXd (w : Nat) (d a b : Reg) (x : BitVec 1) (k : KReg) (f : Hart → Nat → Nat → Nat → FRes) : QOp where
  width := w
  kr := maskReads k
  rb := b
  names := fun _ e => [nameD d w e, nameA a w x e]
  run := fun s h e lo hi => planeRun d k (fun c a' i => do
    let o ← c.readElem (a'.shapeOf d) i
    let u ← c.readElem (a'.shapeOf a) i
    return piece i (f a' o u (scalarBits w e.vb))) s h e lo hi

/-- An elementwise form of one name. -/
def opV1 (wd wa : Nat) (d a : Reg) (x : BitVec 1) (k : KReg) (f : Hart → Nat → FRes) : QOp where
  width := Nat.max wd wa
  kr := maskReads k
  names := fun _ e => [nameD d wd e, nameA a wa x e]
  run := planeRun d k fun c h i => do
    let u ← c.readElem (h.shapeOf a) i
    return piece i (f h u)

/-- A truth value with its flags as a result. -/
def truthRes (r : Bool × Flags) : FRes := (if r.1 then 1 else 0, r.2)

/-- A comparison of two names into a mask (R136). -/
def cmpVV (cond : Nat) (d : KReg) (a b : Reg) (f : BitVec 5) (y x : BitVec 1) (k : KReg) : QOp where
  width := fmtWidth f.toNat
  kr := maskReads k
  kw := some d
  names := fun _ e => [nameA a (fmtWidth f.toNat) x e, nameB b (fmtWidth f.toNat) y e]
  run := maskRun d k fun c h i => do
    let u ← c.readElem (h.shapeOf a) i
    let v ← c.readElem (h.shapeOf b) i
    return piece i (truthRes (arithCmp cond f.toNat u v))

/-- A comparison of a name with a scalar into a mask (R136). -/
def cmpVX (cond : Nat) (d : KReg) (a b : Reg) (f : BitVec 5) (x : BitVec 1) (k : KReg) : QOp where
  width := fmtWidth f.toNat
  kr := maskReads k
  kw := some d
  rb := b
  names := fun _ e => [nameA a (fmtWidth f.toNat) x e]
  run := fun s h e lo hi => maskRun d k (fun c a' i => do
    let u ← c.readElem (a'.shapeOf a) i
    return piece i (truthRes (arithCmp cond f.toNat u (scalarBits (fmtWidth f.toNat) e.vb)))) s h e lo hi

/-- A logic form on the patterns of a width (R137). -/
def opLogic (w : BitVec 2) (d a b : Reg) (y x : BitVec 1) (k : KReg) (f : BitVec 64 → BitVec 64 → BitVec 64) : QOp :=
  opVV (widthOf w) d a b y x k fun _ u v => ((f (w64 u) (w64 v)).toNat % 2 ^ widthOf w, 0)

/-- The amount of a shift or slide: x[b], or imm5 where sh = 1 (R138, R147). -/
def amount (sh : BitVec 1) (b : Reg) (e : QEntry) : Nat := if sh = 1 then b.toNat else e.vb.toNat

/-- A shift form (R138): `f w v n` shifts a pattern of width w by n below w. -/
def opShift (w : BitVec 2) (d a b : Reg) (sh x : BitVec 1) (k : KReg) (f : Nat → Nat → Nat → Nat) : QOp where
  width := widthOf w
  kr := maskReads k
  rb := b
  names := fun _ e => [nameD d (widthOf w) e, nameA a (widthOf w) x e]
  run := fun s h e lo hi => planeRun d k (fun c a' i => do
    let u ← c.readElem (a'.shapeOf a) i
    return piece i (f (widthOf w) u (amount sh b e % widthOf w), 0)) s h e lo hi

/-! ### Scaled conversions (R70 to R72, R142, R143) -/

/-- Wide and narrow formats of fn = 3s + t. -/
def wideCode (f : BitVec 5) : Nat := 8 + f.toNat / 3
def narrowCode (f : BitVec 5) : Nat := 11 + f.toNat % 3

/-- emax of a narrow format (R70). -/
def emaxOf (code : Nat) : Int :=
  match code with
  | 11 => 8
  | 12 => 15
  | _ => 2

/-- Magnitudes compared exactly: the exponent of the leading bit of a nonzero finite value. -/
def FVal.log2 : FVal → Option Int
  | .fin _ m e => if m = 0 then none else some (e + m.log2)
  | _ => none

/-- What a block's active elements give its scale: whether any is a NaN, any infinite, and floor(log2(amax)) where amax is not 0. -/
def blockStats (l : List FVal) : Bool × Bool × Option Int :=
  (l.any (·.isNan), l.any (fun v => match v with
    | .inf _ => true
    | _ => false), (l.filterMap FVal.log2).foldl (fun (m : Option Int) x => some (match m with
    | none => x
    | some y => Max.max x y)) none)

/-- The scale S of a block, x, and the flags of its derivation; S = 0 stands for amax = 0 as well. -/
def blockScale (dst : Nat) (l : List FVal) : Nat × Option Int × Flags :=
  let st := blockStats l
  let fl : Flags := (if st.1 then flagNV else 0) ||| (if st.2.1 then flagOF else 0)
  if st.1 || st.2.1 then (0xFF, none, fl)
  else
    match st.2.2 with
    | none => (0, none, fl)
    | some lg =>
      let x := Min.min (Max.max (lg - emaxOf dst) (-127)) 127
      ((x + 127).toNat, some x, fl)

/-- The name of a scale operand (R129): element b is the scale of block b. -/
def nameScale (v : Reg) (pos : Nat) (dest : Bool) (y : BitVec 1) (e : QEntry) : Name :=
  let B := blkLen e.vtype
  { entry := v, pos := pos, w := 8, need := (e.vl + B - 1) / B, dest := dest, empty := y == 1, align := false, lo := e.startsAt / B,
    hi := (e.vl + B - 1) / B, spread := dest }

/-- The first block boundary at or after an element: a scaled conversion stops at none but these (R71). -/
def blkGrain (_ : State) (_ : Nat) (e : QEntry) (n : Nat) : Nat :=
  let B := blkLen e.vtype
  (n + B - 1) / B * B

/-- ILLEGAL where the entry's VTYPE has no block length. -/
def blkCheck (e : QEntry) : Option Trap := if blkLen e.vtype = 0 then some (illegalOf (encode e.instr)) else none

/-- One block of a scaled narrowing: its writes in order, the scale (marked) before the elements, and its flags; `elems` leaves the
elements out. -/
def narrowBlock (c : Core) (a : Hart) (va : Reg) (k : KReg) (f : BitVec 5) (vl B b : Nat) (elems : Bool) :
    Except Nat (List (Bool × Piece) × Flags) := do
  let ids := (elemRange (b * B) (Nat.min (b * B + B) vl)).filter (a.active k)
  let vs ← ids.mapM fun i => do
    let u ← c.readElem (a.shapeOf va) i
    return fdecode (ffmtOf (wideCode f)) u
  if ids.isEmpty then return ([], 0)
  else
    let sc := blockScale (narrowCode f) vs
    let els := (ids.zip vs).map fun iv =>
      match sc.2.1 with
      | none => (⟨iv.1, 0, 0⟩ : Piece)
      | some x =>
        let r := fconvert .rne (ffmtOf (narrowCode f)) (iv.2.scale (-x))
        ⟨iv.1, r.1, r.2⟩
    let els' := if elems then els else []
    return ((true, ⟨b, sc.1, 0⟩) :: els'.map (false, ·), sc.2.2 ||| piecesFlags els')

/-- Blocks in order until one meets an uncorrectable cell. -/
def narrowBlocks (f : Nat → Except Nat (List (Bool × Piece) × Flags)) : List Nat → List (Bool × Piece) × Flags × Option (Nat × Nat)
  | [] => ([], 0, none)
  | b :: l =>
    match f b with
    | .error k => ([], 0, some (b, k))
    | .ok (ps, fl) =>
      let r := narrowBlocks f l
      (ps ++ r.1, fl ||| r.2.1, r.2.2)

/-- Whole blocks of a scaled narrowing from ESTART on (R71), none where ESTART is not below VL (R30): scales into vs, and elements into vd where there is one. -/
def narrowRun (vd : Option Reg) (vs va : Reg) (f : BitVec 5) (k : KReg) (s : State) (h : Nat) (e : QEntry) (lo hi : Nat) : Done :=
  let a := s.hart h
  let B := blkLen e.vtype
  let r := narrowBlocks (fun b => narrowBlock (s.core (coreOf h)) a va k f e.vl B b vd.isSome)
    (if hi ≤ lo then [] else elemRange (lo / B) ((hi + B - 1) / B))
  let put (s : State) : State := s.modCore (coreOf h) fun c =>
    r.1.foldl (fun (c : Core) (q : Bool × Piece) => c.putPieces (a.shapeOf (if q.1 then vs else vd.getD vs)) [q.2]) c
  match r.2.2 with
  | none => { state := put s, flags := r.2.1 }
  | some (b, kc) =>
    let s' := s.logError (w64 (2 ^ 60 + kc)) 0 1 (hartId h)
    if e.whole then { state := s', trap := some (planeCheck kc) }
    else { state := put s', flags := r.2.1, trap := some { planeCheck kc with elem := some (b * B) } }

/-- A widened scaled value (R72): a scale of 0xFF gives the canonical NaN and no flag. -/
def widenScaled (rm : RMode) (dst src sc q : Nat) : FRes :=
  if sc = 0xFF then ((ffmtOf dst).nan, 0) else fconvert rm (ffmtOf dst) ((fdecode (ffmtOf src) q).scale ((sc : Int) - 127))

/-! ### The reduction tree (R75, R144) -/

/-- One level of the tree: adjacent nodes combined; a node with one present child is that child. -/
def treeLevel (op : Nat → Nat → FRes) : List (Option Nat) → List (Option Nat) × Flags
  | [] => ([], 0)
  | [x] => ([x], 0)
  | x :: y :: l =>
    let r := treeLevel op l
    match x, y with
    | some u, some v => (some (op u v).1 :: r.1, (op u v).2 ||| r.2)
    | some u, none => (some u :: r.1, r.2)
    | none, v => (v :: r.1, r.2)

/-- The root of the tree, with n levels at most. -/
def treeRoot (op : Nat → Nat → FRes) : Nat → List (Option Nat) → Option Nat × Flags
  | 0, l => (l.headD none, 0)
  | n + 1, l =>
    if l.length ≤ 1 then (l.headD none, 0)
    else
      let r := treeLevel op l
      let q := treeRoot op n r.1
      (q.1, r.2 ||| q.2)

/-- The result of a tree combined with its initial value: the initial value where the root is absent. -/
def treeFrom (op : Nat → Nat → FRes) (init : Nat) (l : List (Option Nat)) : FRes :=
  let q := treeRoot op 14 l
  match q.1 with
  | none => (init, 0)
  | some r => ((op init r).1, q.2 ||| (op init r).2)

end Sys2Proof.Machine
end

