-- ==== Sys2Proof/Machine/VectorMem.lean ====
section
/-! DEFINITION. Vector loads and stores (R189 to R194): the pre-probe of the unit, masked-unit, strided and read-only forms, the
page-sorting loop of the indexed forms, and the read-only path (R181). -/
namespace Sys2Proof.Machine

/-! ### Pages -/

/-- The page of an address. -/
def pageOf (va : Word) : Nat := va.toNat / 4096

/-- Translates a page for a hart. -/
def State.frameOf (s : State) (h : Nat) (acc : Access) (page : Nat) : Frame :=
  let va := w64 (page * 4096)
  let level := s.leafLevel (s.xctx h) va acc
  let asid := asidOf (s.xctx h).root
  match (s.translate (s.xctx h) va acc).1 with
  | .ok pa => ⟨page, 0, pa, level, (s.leafEntry (s.xctx h) va acc).any fun t => bit t.pte.toNat 5, asid⟩
  | .refused r => ⟨page, r, 0, level, false, asid⟩
  | .uncorrectable e => ⟨page, 8, e, level, false, asid⟩

/-- What R353 counts as one page: the range of the leaf entry, and why it is refused. -/
def Frame.key (f : Frame) : Nat × Nat × Nat := (f.page / 2 ^ (9 * f.level), f.level, f.reason)

/-- The distinct pages of some addresses, in the order in which they first occur. -/
def distinctPages (l : List Word) : List Nat := (l.map pageOf).eraseDups

/-- The frame of an address among those an entry holds; a page that it does not hold is translated now. -/
def State.heldFrame (s : State) (h : Nat) (acc : Access) (e : QEntry) (va : Word) : Frame :=
  match e.frames.find? (·.page == pageOf va) with
  | some f => f
  | none => s.frameOf h acc (pageOf va)

/-- The address that a frame gives a virtual address, or why it gives none. -/
def Frame.at_ (f : Frame) (va : Word) : Except MemErr Nat :=
  if f.reason = 0 then .ok (f.pa + va.toNat % 4096) else if f.reason = 8 then .error (.badWalk f.pa) else .error (.refused f.reason)

/-- Keeps the translations of some pages in the core's cache. -/
def State.keepPages (s : State) (h : Nat) (acc : Access) (ps : List Nat) : State :=
  ps.foldl (fun s p =>
    let va := w64 (p * 4096)
    (s.walkAcquire (s.xctx h) va acc).keep h (s.translate (s.xctx h) va acc).2) s

/-! ### One element -/

/-- A load of an element. -/
def State.elemLoad (s : State) (h : Nat) (va : Word) (pa n : Nat) : Res (List Byte) :=
  if s.inRecords h va then s.hartLoad h va n
  else if s.fillRefused (coreOf h) (s.hart h).ctx pa n false then (s, .error peerError)
  else s.loadPa (.hart h) (coreOf h) va pa n

/-- A store of an element, performed at its core-scope home. -/
def State.elemStore (s : State) (h : Nat) (va : Word) (pa : Nat) (bs : List Byte) : Res Unit :=
  if s.inRecords h va then s.hartStore h va bs
  else if s.fillRefused (coreOf h) (s.hart h).ctx pa bs.length true then (s, .error peerError)
  else
    match s.storePa (.hart h) (coreOf h) va pa bs true with
    | (s, .error e) => (s, .error e)
    | (s, .ok ()) => (if (s.hart h).sup then s else s.noteDirty (s.hart h).kernel va bs.length, .ok ())

/-- A store of an element handed to the store queue of its slice, where the schedule lets one lag: it is checked now and performed later
(R220, R307). -/
def State.elemQueue (s : State) (h : Nat) (va : Word) (pa : Nat) (bs : List Byte) : Res Unit :=
  if !s.slow || s.inRecords h va || !(s.place pa).cached then s.elemStore h va pa bs
  else if s.storeRefused pa bs.length then (s, .error .noStore)
  else if s.fillRefused (coreOf h) (s.hart h).ctx pa bs.length true then (s, .error peerError)
  else
    match s.badStore (coreOf h) pa bs.length with
    | some (src, p) => (s.logBad src va p (hartId h), .error (.bad src p))
    | none =>
      let s1 := s.modCore (coreOf h) fun k => { k with stores := k.stores ++ [⟨h, (s.hart h).pc, (s.hart h).ctx, va, s.fold pa, bs⟩] }
      (if (s.hart h).sup then s1 else s1.noteDirty (s.hart h).kernel va bs.length, .ok ())

/-- A sector as the read-only path of a core returns it: from its buffer, else from the device-scope home (R181). -/
def State.roSector (s : State) (c sec : Nat) : State × List Byte :=
  match FMap.find? (s.core c).ro sec with
  | some l => (s, l)
  | none =>
    let l := s.homeBytes (64 * sec) 64
    (s.modCore c fun k => { k with ro := FMap.put k.ro sec l }, l)

/-- A load of n bytes within a sector through the read-only path, by an agent under a root. -/
def State.roLoadBy (s : State) (ag : Agent) (x : XCtx) (va : Word) (pa n : Nat) : Res (List Byte) :=
  let h := x.h
  if x.inTranslation va then (s, .ok (s.translationBytes h va.toNat n))
  else match s.place pa with
  | .mgmt off => (s, .ok (s.mgmtBytes off n))
  | .nothing => (s, .error (.refused 6))
  | _ =>
    if (FMap.find? (s.core (coreOf h)).ro (pa / 64)).isNone && s.peerRefuses x.ctx pa n then (s, .error peerError)
    else match if (FMap.find? (s.core (coreOf h)).ro (pa / 64)).isSome then none else s.badRange pa n with
    | some (src, b) => (s.logBad src va b (hartId h), .error (.bad src b))
    | none =>
      let r := s.roSector (coreOf h) (pa / 64)
      (r.1.afterLoad ag true pa n, .ok (slice r.2 (pa % 64) n))

/-- A hart's load through the read-only path. -/
def State.roLoad (s : State) (h : Nat) (va : Word) (pa n : Nat) : Res (List Byte) := s.roLoadBy (.hart h) (s.xctx h) va pa n

/-! ### Unit, masked-unit, strided and read-only forms (R192) -/

/-- The active elements from ESTART on. -/
def Hart.activeFrom (a : Hart) (k : KReg) (e : QEntry) : List Nat := (elemRange e.startsAt e.vl).filter (a.active k)

/-- The checks of R190 and R192 before anything is accessed. -/
def probeAll (store : Bool) (n : Nat) (k : KReg) (addr : QEntry → Nat → Word) (s : State) (h : Nat) (e : QEntry) : State × Option Trap :=
  let acc := if store then Access.store else Access.load
  let l := ((s.hart h).activeFrom k e).map (addr e)
  match l.find? (fun va => va.toNat % n ≠ 0) with
  | some va => (s, some ⟨causeMisalignedData, va, none⟩)
  | none =>
    let ps := distinctPages l
    let fs := ps.map (s.frameOf h acc)
    let s1 := s.keepPages h acc ps
    let bad := l.findSome? fun va =>
      match ((fs.find? (·.page == pageOf va)).getD ⟨0, 0, 0, 0, false, 0⟩).at_ va with
      | .ok pa => if store && !s.inRecords h va && s.storeRefused pa n then some (va, MemErr.noStore) else none
      | .error e => some (va, e)
    match bad with
    | none => (s1, none)
    | some (va, e) => let r := s1.accessTrap h store va e; (r.1, some r.2)

/-- The frames that a form holds until it completes or stops. -/
def probeFrames (store : Bool) (k : KReg) (addr : QEntry → Nat → Word) (s : State) (h : Nat) (e : QEntry) : List Frame :=
  (distinctPages (((s.hart h).activeFrom k e).map (addr e))).map (s.frameOf h (if store then .store else .load))

/-- Physical address and bytes of the accesses that elements lo to hi - 1 of a form make. -/
def formPlaces (acc : Access) (n : Nat) (k : KReg) (addr : QEntry → Nat → Word) (s : State) (h : Nat) (e : QEntry) (lo hi : Nat) :
    Option (List (Nat × Nat)) :=
  some (((elemRange lo hi).filter ((s.hart h).active k)).filterMap fun i =>
    match (s.heldFrame h acc e (addr e i)).at_ (addr e i) with
    | .ok pa => some (s.fold pa, n)
    | .error _ => none)

/-- Whether two of an entry's accesses meet: they are aligned and of one size, so at one address. -/
def twice (l : Option (List (Nat × Nat))) : Bool :=
  match l with
  | some l => l.eraseDups.length != l.length
  | none => true

/-- Elements performed in order until one traps. -/
def eachElem (f : State → Nat → State × Option Trap) : List Nat → State → Done
  | [], s => { state := s }
  | i :: l, s =>
    match f s i with
    | (s, some t) => { state := s, trap := some { t with elem := some i } }
    | (s, none) => eachElem f l s

/-- A load form: `get s h va pa n` reads an element. -/
def loadForm (d : Reg) (w : BitVec 2) (k : KReg) (addr : QEntry → Nat → Word)
    (get : State → Nat → Word → Nat → Nat → Res (List Byte)) : QOp where
  width := widthOf w
  inOrder := true
  memory := true
  places := formPlaces .load (2 ^ w.toNat) k addr
  kr := maskReads k
  probes := k != 0
  names := fun _ e => [nameD d (widthOf w) e]
  post := probeAll false (2 ^ w.toNat) k addr
  frames := probeFrames false k addr
  run := fun s h e lo hi =>
    let p := (s.hart h).shapeOf d
    eachElem (fun s i =>
      let va := addr e i
      match (s.heldFrame h .load e va).at_ va with
      | .error er => let r := s.accessTrap h false va er; (r.1, some r.2)
      | .ok pa =>
        match get s h va pa (2 ^ w.toNat) with
        | (s, .error er) => let r := s.accessTrap h false va er; (r.1, some r.2)
        | (s, .ok bs) => (s.modCore (coreOf h) fun c => c.setElem p i (leNat bs), none))
      ((elemRange lo hi).filter ((s.hart h).active k)) s

/-- Those sectors, of the ones that elements of n bytes at these addresses cover whole, that a core could not fill. -/
def State.coveredBad (s : State) (c n : Nat) (pas : List Nat) : List Nat :=
  ((pas.filter fun p => p % 64 = 0).map (· / 64)).eraseDups.filter fun x =>
    (s.place (64 * x)).cached && (s.badLoad c (64 * x) 64).isSome && (List.range (64 / n)).all fun j => pas.contains (64 * x + j * n)

/-- Allocates without a fill the uncorrectable sectors that a store's elements cover whole (R178, R407); no element before their last
stops the store. -/
def State.claimCovered (s : State) (h n : Nat) (p : Shape) (addr : QEntry → Nat → Word) (e : QEntry) (l : List Nat) : State :=
  let c := coreOf h
  let at_ (i : Nat) : Option Nat :=
    let va := addr e i
    match (s.heldFrame h .store e va).at_ va, (s.core c).readElem p i with
    | .ok pa, .ok _ => some (s.fold pa)
    | _, _ => none
  let cover := s.coveredBad c n (l.filterMap at_)
  if cover.isEmpty then s
  else
    let safe := l.takeWhile fun i => match at_ i with
      | some pa => cover.contains (pa / 64) || (s.badHeld c pa).isNone
      | none => false
    (s.coveredBad c n (safe.filterMap at_)).foldl (fun s x => s.l2Claim c x) s

/-- A store form. -/
def storeForm (d : Reg) (w : BitVec 2) (k : KReg) (addr : QEntry → Nat → Word) : QOp where
  width := widthOf w
  memory := true
  stores := true
  places := formPlaces .store (2 ^ w.toNat) k addr
  overlaps := fun s h e => twice (formPlaces .store (2 ^ w.toNat) k addr s h e e.startsAt e.len)
  kr := maskReads k
  probes := k != 0
  names := fun _ e => [{ nameD d (widthOf w) e with dest := false }]
  post := probeAll true (2 ^ w.toNat) k addr
  frames := probeFrames true k addr
  run := fun s h e lo hi =>
    let p := (s.hart h).shapeOf d
    eachElem (fun s i =>
      let va := addr e i
      match (s.core (coreOf h)).readElem p i with
      | .error kc => (s.logError (w64 (2 ^ 60 + kc)) 0 1 (hartId h), some (planeCheck kc))
      | .ok v =>
        match (s.heldFrame h .store e va).at_ va with
        | .error er => let r := s.accessTrap h true va er; (r.1, some r.2)
        | .ok pa =>
          match s.elemQueue h va pa (leBytes (2 ^ w.toNat) v) with
          | (s, .error er) => let r := s.accessTrap h true va er; (r.1, some r.2)
          | (s, .ok ()) => (s, none))
      ((elemRange lo hi).filter ((s.hart h).active k))
      (s.claimCovered h (2 ^ w.toNat) p addr e ((elemRange lo hi).filter ((s.hart h).active k)))

/-- What a sampler sees of a form: class, active addresses, stride (R392). -/
def traceForm (k : KReg) (addr : QEntry → Nat → Word) (cls : QEntry → Nat) (s : State) (h : Nat) (e : QEntry) :
    Option Trace := 
  let l := ((s.hart h).activeFrom k e).map (addr e)
  some ⟨cls e, l.length, l, e.vb⟩

/-- Class 0 where the first element is aligned to 1 KiB, else 1. -/
def unitClass (addr : QEntry → Nat → Word) (e : QEntry) : Nat := if (addr e 0).toNat % 1024 = 0 then 0 else 1

/-- Addresses of R189. -/
def unitAddr (w : BitVec 2) (imm : Word) (e : QEntry) (i : Nat) : Word := e.va + imm + w64 (i * 2 ^ w.toNat)
def strideAddr (e : QEntry) (i : Nat) : Word := e.va + w64 i * e.vb

/-- R189. -/
def opVld (d a : Reg) (i : BitVec 15) (w : BitVec 2) : QOp := 
  { loadForm d w 0 (unitAddr w (simm i)) State.elemLoad with
    ra := a, trace := traceForm 0 (unitAddr w (simm i)) (unitClass (unitAddr w (simm i))) }
/-- R189. -/
def opVst (d a : Reg) (i : BitVec 15) (w : BitVec 2) : QOp := 
  { storeForm d w 0 (unitAddr w (simm i)) with ra := a, trace := traceForm 0 (unitAddr w (simm i)) (unitClass (unitAddr w (simm i))) }
/-- R189. -/
def opVldm (d a : Reg) (w : BitVec 2) (k : KReg) : QOp := 
  { loadForm d w k (unitAddr w 0) State.elemLoad with ra := a, trace := traceForm k (unitAddr w 0) (unitClass (unitAddr w 0)) }
/-- R189. -/
def opVstm (d a : Reg) (w : BitVec 2) (k : KReg) : QOp := 
  { storeForm d w k (unitAddr w 0) with ra := a, trace := traceForm k (unitAddr w 0) (unitClass (unitAddr w 0)) }
/-- R189. -/
def opVlds (d a b : Reg) (w : BitVec 2) (k : KReg) : QOp := 
  { loadForm d w k strideAddr State.elemLoad with ra := a, rb := b, trace := traceForm k strideAddr fun _ => 2 }
/-- R189. -/
def opVsts (d a b : Reg) (w : BitVec 2) (k : KReg) : QOp := 
  { storeForm d w k strideAddr with ra := a, rb := b, trace := traceForm k strideAddr fun _ => 2 }
/-- R181, R189. -/
def opVldro (d a : Reg) (w : BitVec 2) (k : KReg) : QOp :=
  { loadForm d w k (unitAddr w 0) State.roLoad with
    ra := a, trace := traceForm k (unitAddr w 0) fun _ => 4 }

/-! ### The page-sorting loop (R193, R194) -/

/-- What an indexed instruction does: bytes of an element, whether it stores, its mask, its index name with the name's width, and the
effect of one element at its virtual and physical address. -/
structure Indexed where
  n : Nat
  store : Bool
  k : KReg
  index : Reg
  one : State → Nat → QEntry → Nat → Word → Nat → State × Option Trap

/-- The access an indexed instruction translates for. -/
def Indexed.acc (x : Indexed) : Access := if x.store then .store else .load

/-- The address of element i (R189), or the uncorrectable cell of its index. -/
def Indexed.addr (x : Indexed) (c : Core) (a : Hart) (e : QEntry) (i : Nat) : Except Nat Word := do
  let v ← c.readElem (a.shapeOf x.index) i
  return e.va + w64 (x.n * v)

/-- P: the active elements from ESTART on whose EDONE bit is 0. -/
def Indexed.todo (x : Indexed) (a : Hart) (e : QEntry) : List Nat := (a.activeFrom x.k e).filter fun i => !a.edone.getLsbD i

/-- The addresses of elements whose index can be read. -/
def Indexed.addrs (x : Indexed) (s : State) (h : Nat) (e : QEntry) : List (Nat × Word) :=
  (x.todo (s.hart h) e).filterMap fun i =>
    match x.addr (s.core (coreOf h)) (s.hart h) e i with
    | .ok va => some (i, va)
    | .error _ => none

/-- MISALIGNED_DATA on x[a] alone (R190); then each distinct page is translated once, its entries read with acquire, and the translations that
succeed are kept, so that the pages of a superpage make one (R193, R350, R353). -/
def Indexed.check (x : Indexed) (s : State) (h : Nat) (e : QEntry) : State × Option Trap :=
  if e.va.toNat % x.n ≠ 0 then (s, some ⟨causeMisalignedData, e.va, none⟩)
  else (s.keepPages h x.acc (distinctPages ((x.addrs s h e).map (·.2))), none)

/-- The frames of the distinct pages. -/
def Indexed.sort (x : Indexed) (s : State) (h : Nat) (e : QEntry) : List Frame :=
  (distinctPages ((x.addrs s h e).map (·.2))).map (s.frameOf h x.acc)

/-- A bit of an element mask. -/
def setBit (m : BitVec 8192) (i : Nat) (b : Bool) : BitVec 8192 :=
  if b then m ||| ((1 : BitVec 8192) <<< i) else m &&& ~~~((1 : BitVec 8192) <<< i)

/-- One element of the loop at its address: skipped where its page was refused, else performed and marked. The manual gives no order between the
STORE_FAULT of an element whose bytes refuse stores (R156) and the INDEX_FAULT of others: the loop meets the first before it ends (DESIGN CHOICE, log
87). -/
def Indexed.step (x : Indexed) (h : Nat) (e : QEntry) (at_ : Nat → Except Nat Word) (s : State) (i : Nat) : State × Option Trap :=
  match at_ i with
  | .error kc => (s.logError (w64 (2 ^ 60 + kc)) 0 1 (hartId h), some (planeCheck kc))
  | .ok va =>
    match (s.heldFrame h x.acc e va).at_ va with
    | .error (.refused _) => (s, none)
    | .error er => let r := s.accessTrap h x.store va er; (r.1, some r.2)
    | .ok pa =>
      match x.one s h e i va pa with
      | (s, some t) => (s, some t)
      | (s, none) =>
        (s.modHart h fun a => { a with fmask := setBit a.fmask i false, edone := setBit a.edone i true }, none)

/-- Elements of a range in P, in ascending order: R193 leaves their order open, and R191 lets a schedule perform them one by one in
another (DESIGN CHOICE, log 65). Every index is read before the first element is performed (R56, R129). -/
def Indexed.elems (x : Indexed) (s : State) (h : Nat) (e : QEntry) (lo hi : Nat) : Done :=
  eachElem (x.step h e (x.addr (s.core (coreOf h)) (s.hart h) e))
    ((x.todo (s.hart h) e).filter fun i => decide (lo ≤ i) && decide (i < hi)) s

/-- The plane of a core and the restart masks of a hart as another state has them. -/
def State.undoElems (s : State) (h : Nat) (old : State) : State :=
  (s.modCore (coreOf h) fun c => { c with plane := (old.core (coreOf h)).plane, badPlane := (old.core (coreOf h)).badPlane }).modHart h
    fun a => { a with fmask := (old.hart h).fmask, edone := (old.hart h).edone, smiss := (old.hart h).smiss }

/-- ESTART at a stop: the least element of P not yet performed; EDONE keeps the bits from there on (R193). An indivisible instruction
that traps has performed nothing (R56). -/
def Indexed.stopAt (x : Indexed) (e : QEntry) (a : Hart) (n : Nat) : Hart :=
  let es := if e.whole then e.startsAt else (x.todo a e).headD n
  { a with estart := w64 es, edone := a.edone >>> es <<< es }

/-- INDEX_FAULT (R194). -/
def indexFault (store : Bool) (page : Word) (cnt : Nat) : Trap :=
  ⟨causeIndexFault, w64 (page.toNat / 4096 * 4096 + (if store then 512 else 0) + (cnt - 1) * 32), none⟩

/-- The distinct pages of some frames, in order: the address at which each was first met, and its reason. -/
def batchOf (l : List Frame) : List (Word × Nat) :=
  (l.foldl (fun (m : List Frame) f => if m.any (·.key == f.key) then m else m ++ [f]) []).map fun f => (w64 (f.page * 4096), f.reason)

/-- The trap for the elements of F: marked in FMASK, their pages delivered with it. -/
def Indexed.fault (x : Indexed) (s : State) (h : Nat) (e : QEntry) (l : List (Nat × Word)) : State × Option Trap :=
  match l with
  | [] => (s, none)
  | (i, va) :: _ =>
    let b := (batchOf (l.map fun p => s.heldFrame h x.acc e p.2)).take 16
    (s.modHart h fun a => { a with fmask := l.foldl (fun m j => setBit m j.1 true) a.fmask, batch := b },
      some { indexFault x.store va b.length with elem := some i })

/-- F as the pages of the entry stand. -/
def Indexed.refused (x : Indexed) (s : State) (h : Nat) (e : QEntry) : List (Nat × Word) :=
  (x.addrs s h e).filter fun p => match (s.heldFrame h x.acc e p.2).at_ p.2 with
    | .error (.refused _) => true
    | _ => false

/-- Elements lo to hi - 1 of the loop; an indivisible instruction that would trap performs none (R56). -/
def Indexed.run (x : Indexed) (s : State) (h : Nat) (e : QEntry) (lo hi : Nat) : Done :=
  if e.whole then
    let r := x.elems s h e lo hi
    match r.trap with
    | some t => { state := r.state.undoElems h s, trap := some t }
    | none =>
      match x.fault s h e (x.refused s h e) with
      | (s1, some t) => { state := s1, trap := some t }
      | (_, none) => r
  else x.elems s h e lo hi

/-- The end of the loop. -/
def Indexed.closing (x : Indexed) (s : State) (h : Nat) (e : QEntry) : State × Option Trap := x.fault s h e (x.refused s h e)

/-- Physical address and bytes of the accesses of those elements lo to hi - 1 that are in P. -/
def Indexed.places (x : Indexed) (s : State) (h : Nat) (e : QEntry) (lo hi : Nat) : Option (List (Nat × Nat)) :=
  let a := { s.hart h with defs := e.defs, edone := e.edone }
  some (((x.todo a e).filter fun i => decide (lo ≤ i) && decide (i < hi)).filterMap fun i =>
    match x.addr (s.core (coreOf h)) a e i with
    | .error _ => none
    | .ok va =>
      match (s.heldFrame h x.acc e va).at_ va with
      | .ok pa => some (s.fold pa, x.n)
      | .error _ => none)

/-- An indexed instruction of the queue. -/
def indexedOp (x : Indexed) (d b : Reg) (w wi : Nat) (y : BitVec 1) : QOp where
  width := w
  inOrder := !x.store
  memory := true
  stores := x.store
  places := x.places
  overlaps := fun s h e => x.store && twice (x.places s h e e.startsAt e.len)
  kr := maskReads x.k
  probes := true
  indexed := true
  names := fun _ e => [{ nameD d w e with dest := !x.store }, nameB b wi y e]
  post := x.check
  frames := fun s h e => x.sort s h e
  chains := fun s h e => (x.sort s h e).all fun f => f.reason == 0
  run := x.run
  closing := x.closing
  stopAt := x.stopAt
  atEnd := fun a => { a with edone := 0 }
  trace := fun s h e => some ⟨3, (x.addrs s h e).length, (x.addrs s h e).map (·.2), 0⟩

/-- One element of an indexed load. -/
def loadOne (d : Reg) (n : Nat) (s : State) (h : Nat) (_ : QEntry) (i : Nat) (va : Word) (pa : Nat) : State × Option Trap :=
  match s.elemLoad h va pa n with
  | (s, .error er) => let r := s.accessTrap h false va er; (r.1, some r.2)
  | (s, .ok bs) => (s.modCore (coreOf h) fun c => c.setElem ((s.hart h).shapeOf d) i (leNat bs), none)

/-- One element of an indexed store, which `put` stores. -/
def storeOne (put : State → Nat → Word → Nat → List Byte → Res Unit) (d : Reg) (n : Nat) (s : State) (h : Nat) (_ : QEntry) (i : Nat) (va : Word)
    (pa : Nat) : State × Option Trap :=
  match (s.core (coreOf h)).readElem ((s.hart h).shapeOf d) i with
  | .error kc => (s.logError (w64 (2 ^ 60 + kc)) 0 1 (hartId h), some (planeCheck kc))
  | .ok v =>
    match put s h va pa (leBytes n v) with
    | (s, .error er) => let r := s.accessTrap h true va er; (r.1, some r.2)
    | (s, .ok ()) => (s, none)

/-- An indexed load with an index of a width. -/
def indexedLoad (d a b : Reg) (w : BitVec 2) (y : BitVec 1) (k : KReg) (wi : Nat) : QOp :=
  { indexedOp ⟨2 ^ w.toNat, false, k, b, loadOne d (2 ^ w.toNat)⟩ d b (widthOf w) wi y with ra := a }
/-- An indexed store with an index of a width. -/
def indexedStore (d a b : Reg) (w : BitVec 2) (y : BitVec 1) (k : KReg) (wi : Nat) : QOp :=
  { indexedOp ⟨2 ^ w.toNat, true, k, b, storeOne State.elemQueue d (2 ^ w.toNat)⟩ d b (widthOf w) wi y with ra := a }

/-- R193. -/
def opVldi (d a b : Reg) (w : BitVec 2) (y : BitVec 1) (k : KReg) : QOp := indexedLoad d a b w y k 32
/-- R193. -/
def opVldiw (d a b : Reg) (w : BitVec 2) (y : BitVec 1) (k : KReg) : QOp := indexedLoad d a b w y k 64
/-- R193. -/
def opVsti (d a b : Reg) (w : BitVec 2) (y : BitVec 1) (k : KReg) : QOp := indexedStore d a b w y k 32
/-- R193. -/
def opVstiw (d a b : Reg) (w : BitVec 2) (y : BitVec 1) (k : KReg) : QOp := indexedStore d a b w y k 64

/-! ### The arms -/

/-- R189. -/
def execVld (d a : Reg) (i : BitVec 15) (w : BitVec 2) (st : State) : Out :=
  commitQueued (.vld d a i w) (opVld d a i w) st
/-- R189. -/
def execVst (d a : Reg) (i : BitVec 15) (w : BitVec 2) (st : State) : Out :=
  commitQueued (.vst d a i w) (opVst d a i w) st
/-- R192. -/
def execVldm (d a : Reg) (w : BitVec 2) (k : KReg) (st : State) : Out :=
  commitQueued (.vldm d a w k) (opVldm d a w k) st
/-- R192. -/
def execVstm (d a : Reg) (w : BitVec 2) (k : KReg) (st : State) : Out :=
  commitQueued (.vstm d a w k) (opVstm d a w k) st
/-- R192. -/
def execVlds (d a b : Reg) (w : BitVec 2) (k : KReg) (st : State) : Out :=
  commitQueued (.vlds d a b w k) (opVlds d a b w k) st
/-- R192. -/
def execVsts (d a b : Reg) (w : BitVec 2) (k : KReg) (st : State) : Out :=
  commitQueued (.vsts d a b w k) (opVsts d a b w k) st
/-- R181. -/
def execVldro (d a : Reg) (w : BitVec 2) (k : KReg) (st : State) : Out :=
  commitQueued (.vldro d a w k) (opVldro d a w k) st
/-- R193. -/
def execVldi (d a b : Reg) (w : BitVec 2) (y : BitVec 1) (k : KReg) (st : State) : Out :=
  commitQueued (.vldi d a b w y k) (opVldi d a b w y k) st
/-- R193. -/
def execVldiw (d a b : Reg) (w : BitVec 2) (y : BitVec 1) (k : KReg) (st : State) : Out :=
  commitQueued (.vldiw d a b w y k) (opVldiw d a b w y k) st
/-- R193. -/
def execVsti (d a b : Reg) (w : BitVec 2) (y : BitVec 1) (k : KReg) (st : State) : Out :=
  commitQueued (.vsti d a b w y k) (opVsti d a b w y k) st
/-- R193. -/
def execVstiw (d a b : Reg) (w : BitVec 2) (y : BitVec 1) (k : KReg) (st : State) : Out :=
  commitQueued (.vstiw d a b w y k) (opVstiw d a b w y k) st

end Sys2Proof.Machine
end

