-- ==== Sys2Proof/Machine/Atomics.lean ====
section
/-! DEFINITION. Scalar atomics (R243 to R245), links and link permission (R233, R247), gather-linked and scatter-conditional
(R248, R249), and scatter-add with its units (R250 to R252). -/
namespace Sys2Proof.Machine

/-! ### Scalar atomics (R244, R245) -/

/-- The new value of an n-byte atomic. -/
def atomicNew (op : AtomicOp) (n old y : Nat) : Nat :=
  match op with
  | .add => wrapN (8 * n) (old + y : Nat)
  | .and => old &&& y
  | .or => old ||| y
  | .xor => old ^^^ y
  | .min => if sxi (8 * n) y < sxi (8 * n) old then y else old
  | .max => if sxi (8 * n) old < sxi (8 * n) y then y else old
  | .minu => if y < old then y else old
  | .maxu => if old < y then y else old
  | .swap => y

/-- What an atomic writes: none where its result equals the old value (R222). -/
def changed (old new : Nat) : Option Nat := if new = old then none else some new

/-- The access of an atomic at a physical address or in the hart's records. -/
def State.atomicAt (s : State) (h scope : Nat) (va : Word) (pa n : Nat) (f : Nat → Option Nat) : Res Nat :=
  if s.inRecords h va then
    match s.hartLoad h va n with
    | (s, .error e) => (s, .error e)
    | (s, .ok bs) =>
      match f (leNat bs) with
      | none => (s, .ok (leNat bs))
      | some v => ((s.hartStore h va (leBytes n v)).1, .ok (leNat bs))
  else
    match s.atomicPa h scope va pa n f with
    | (s, .error e) => (s, .error e)
    | (s, .ok old) =>
      (if (f old).isSome && !(s.hart h).sup then s.noteDirty (s.hart h).kernel va n else s, .ok old)

/-- Whether an order releases, and whether it acquires (R82). -/
def orderReleases (o : BitVec 2) : Bool := o.getLsbD 1
def orderAcquires (o : BitVec 2) : Bool := o.getLsbD 0

/-- An atomic of n bytes at x[a]: `f` gives what it writes for an old value. -/
def atomic (d a : Reg) (n : Nat) (sc : BitVec 3) (o : BitVec 2) (f : Hart → Nat → Option Nat) (s : State) : Out :=
  held s fun s =>
    let va := s.h.getX a
    if va.toNat % n ≠ 0 then raise s (misaligned va)
    else
      match s.probeVa s.cur va .store with
      | (s1, .error t) => raiseIn s s1 t
      | (s1, .ok pa) =>
        let s2 := if orderReleases o then s1.releaseAt (coreOf s.cur) sc.toNat else s1
        match s2.atomicAt s.cur sc.toNat va pa n (f s.h) with
        | (s3, .error e) => let r := s3.accessTrap s.cur true va e; raiseIn s r.1 r.2
        | (s3, .ok old) =>
          commit (if orderAcquires o then s3.acquire (coreOf s.cur) sc.toNat else s3) fun h => h.setX d (sextN (8 * n) old)

/-- Bytes of a scalar atomic: 4 where the width bit is 1. -/
def atomicBytes (w : BitVec 1) : Nat := if w = 1 then 4 else 8

/-- One of the nine operations of R243. -/
def atomicOp (op : AtomicOp) (d a b : Reg) (w : BitVec 1) (sc : BitVec 3) (o : BitVec 2) (s : State) : Out :=
  let n := atomicBytes w
  atomic d a n sc o (fun h old => changed old (atomicNew op n old ((h.getX b).toNat % 2 ^ (8 * n)))) s

/-- AADD (R244). -/
def execAadd (d a b : Reg) (w : BitVec 1) (sc : BitVec 3) (o : BitVec 2) (s : State) : Out := atomicOp .add d a b w sc o s
/-- AAND (R244). -/
def execAand (d a b : Reg) (w : BitVec 1) (sc : BitVec 3) (o : BitVec 2) (s : State) : Out := atomicOp .and d a b w sc o s
/-- AOR (R244). -/
def execAor (d a b : Reg) (w : BitVec 1) (sc : BitVec 3) (o : BitVec 2) (s : State) : Out := atomicOp .or d a b w sc o s
/-- AXOR (R244). -/
def execAxor (d a b : Reg) (w : BitVec 1) (sc : BitVec 3) (o : BitVec 2) (s : State) : Out := atomicOp .xor d a b w sc o s
/-- AMIN (R244). -/
def execAmin (d a b : Reg) (w : BitVec 1) (sc : BitVec 3) (o : BitVec 2) (s : State) : Out := atomicOp .min d a b w sc o s
/-- AMAX (R244). -/
def execAmax (d a b : Reg) (w : BitVec 1) (sc : BitVec 3) (o : BitVec 2) (s : State) : Out := atomicOp .max d a b w sc o s
/-- AMINU (R244). -/
def execAminu (d a b : Reg) (w : BitVec 1) (sc : BitVec 3) (o : BitVec 2) (s : State) : Out := atomicOp .minu d a b w sc o s
/-- AMAXU (R244). -/
def execAmaxu (d a b : Reg) (w : BitVec 1) (sc : BitVec 3) (o : BitVec 2) (s : State) : Out := atomicOp .maxu d a b w sc o s
/-- ASWAP (R244). -/
def execAswap (d a b : Reg) (w : BitVec 1) (sc : BitVec 3) (o : BitVec 2) (s : State) : Out := atomicOp .swap d a b w sc o s

/-- ACAS (R245): the load of an access that fails writes nothing. -/
def execAcas (d a b c : Reg) (sc : BitVec 3) (o : BitVec 2) (s : State) : Out :=
  atomic d a 8 sc o (fun h old => if old = (h.getX b).toNat then some (h.getX c).toNat else none) s

/-! ### Links and permission (R233, R247) -/

/-- Whether an element at a physical address is a scope miss: host or peer memory, or a line that carries the wide mark. -/
def State.scopeMiss (s : State) (pa : Nat) : Bool :=
  match s.place pa with
  | .host => true
  | .peer _ _ => true
  | .device _ => s.marked (s.fold pa / 256)
  | _ => false

/-- A core's copy of a line, its clean bytes fetched again. -/
def State.refill (s : State) (c line : Nat) : State :=
  s.modCore c fun k =>
    { k with
      l2 := k.l2.filterMap fun e => if e.1 / 4 = line then s.refreshSector e else some e
      badL2 := s.refreshBad { k with l2 := k.l2.filter fun e => e.1 / 4 == line } ++ k.badL2.filter (· / 64 != line) }

/-- A core takes link permission for a line of device memory: every other core gives it up, and the core refills its copy. -/
def State.takePermission (s : State) (c line : Nat) : State :=
  if (s.core c).perms.contains line then s
  else
    let s1 := s.cores.foldl (fun s e => if e.1 != c && e.2.perms.contains line then s.giveUp e.1 line else s) s
    (s1.refill c line).modCore c fun k => { k with perms := line :: k.perms }

/-- Permission where the address needs it: a local-store bank is its own home. -/
def State.permitFor (s : State) (c pa : Nat) : State :=
  match s.place pa with
  | .device _ => s.takePermission c (pa / 256)
  | _ => s

/-- A hart takes a link on a line where its link set has room. -/
def Hart.link (a : Hart) (line : Nat) : Hart :=
  if a.links.contains line || decide (256 ≤ a.links.length) then a else { a with links := line :: a.links }

/-- SMISS[i]. -/
def Hart.setSmiss (i : Nat) (b : Bool) (a : Hart) : Hart := { a with smiss := setBit a.smiss i b }

/-- k[i]. -/
def Hart.setKBit (k : KReg) (i : Nat) (b : Bool) (a : Hart) : Hart := a.setK k (setBit (a.getK k) i b)

/-! ### VGL and VSC (R248, R249) -/

/-- One element of VGL. -/
def glOne (d : Reg) (n : Nat) (s : State) (h : Nat) (e : QEntry) (i : Nat) (va : Word) (pa : Nat) : State × Option Trap :=
  if s.scopeMiss pa then (s.modHart h (Hart.setSmiss i true), none)
  else
    match loadOne d n (s.permitFor (coreOf h) pa) h e i va pa with
    | (s1, some t) => (s1, some t)
    | (s1, none) => (s1.modHart h fun a => (a.link (pa / 256)).setSmiss i false, none)

/-- A store of VSC: performed at once, after what its slice's queue holds of the hart (R220, R249). -/
def State.elemNow (s : State) (h : Nat) (va : Word) (pa : Nat) (bs : List Byte) : Res Unit :=
  (s.landIf (coreOf h) fun r => r.h == h && sliceOf r.pa == sliceOf (s.fold pa)).elemStore h va pa bs

/-- One element of VSC. -/
def scOne (d : Reg) (n : Nat) (k : KReg) (s : State) (h : Nat) (e : QEntry) (i : Nat) (va : Word) (pa : Nat) : State × Option Trap :=
  if s.scopeMiss pa then (s.modHart h fun a => (a.setSmiss i true).setKBit k i false, none)
  else if (s.hart h).links.contains (pa / 256) then
    match storeOne State.elemNow d n s h e i va pa with
    | (s1, some t) => (s1, some t)
    | (s1, none) => (s1.modHart h fun a => (a.setKBit k i true).setSmiss i false, none)
  else (s.modHart h fun a => (a.setKBit k i false).setSmiss i false, none)

/-- Data width of VGL and VSC in bytes (R246). -/
def linkBytes (w : BitVec 1) : Nat := if w = 1 then 8 else 4

/-- What a sampler sees of VGL, VSC and VSCADD: class 5 (R392). -/
def linkTrace (x : Indexed) (s : State) (h : Nat) (e : QEntry) : Option Trace :=
  some ⟨5, (x.addrs s h e).length, (x.addrs s h e).map (·.2), 0⟩

/-- A gather-linked with an index of a width. -/
def gatherLinked (d a b : Reg) (w y : BitVec 1) (k : KReg) (wi : Nat) : QOp :=
  { indexedOp ⟨linkBytes w, false, k, b, glOne d (linkBytes w)⟩ d b (8 * linkBytes w) wi y with
    ra := a, links := true, trace := linkTrace ⟨linkBytes w, false, k, b, glOne d (linkBytes w)⟩ }

/-- Every link of a hart ends, and EDONE is cleared. -/
def Hart.endLinks (a : Hart) : Hart := { a with links := [], edone := 0 }

/-- A scatter-conditional with an index of a width. -/
def scatterConditional (d a b : Reg) (w y : BitVec 1) (k : KReg) (wi : Nat) : QOp :=
  { indexedOp ⟨linkBytes w, true, k, b, scOne d (linkBytes w) k⟩ d b (8 * linkBytes w) wi y with
    ra := a
    links := true
    kw := some k
    trace := linkTrace ⟨linkBytes w, true, k, b, scOne d (linkBytes w) k⟩
    atEnd := Hart.endLinks }

/-- R248. -/
def opVgl (d a b : Reg) (w y : BitVec 1) (k : KReg) : QOp := gatherLinked d a b w y k 32
/-- R248. -/
def opVglw (d a b : Reg) (w y : BitVec 1) (k : KReg) : QOp := gatherLinked d a b w y k 64
/-- R249. -/
def opVsc (d a b : Reg) (w y : BitVec 1) (k : KReg) : QOp := scatterConditional d a b w y k 32
/-- R249. -/
def opVscw (d a b : Reg) (w y : BitVec 1) (k : KReg) : QOp := scatterConditional d a b w y k 64

/-! ### Scatter-add (R250 to R252) -/

/-- The sum a scatter-add unit forms: wrapped for integers, rounded to nearest even for f32, with no flag (R78). -/
def addSum (fmt old v : Nat) : Nat :=
  if fmt = 8 then (fadd .rne fmtF32 (fdecode fmtF32 old) (fdecode fmtF32 v)).1 else wrapN (fmtWidth fmt) (old + v : Nat)

/-- A lane's counter of a hart, one more. -/
def Hart.laneUp (l : Nat) (a : Hart) : Hart := { a with lanes := a.lanes.set! l (a.lanes[l]! + 1) }
/-- A lane's counter of a hart, one less. -/
def Hart.laneDown (l : Nat) (a : Hart) : Hart := { a with lanes := a.lanes.set! l (a.lanes[l]! - 1) }
/-- A dropped addition of a hart. -/
def Hart.countDropped (a : Hart) : Hart := { a with dropped := Nat.min (a.dropped + 1) (2 ^ 48 - 1) }

/-- What an addition does to its hart, where that still runs the kernel that made it. -/
def State.modAdder (s : State) (p : PendingAdd) (f : Hart → Hart) : State := if (s.hart p.h).kernel = p.kernel then s.modHart p.h f else s

/-- What follows an addition at its home: it is an engine's access, and the issuing hart keeps its own links (R247, R386). -/
def State.afterAdd (s0 s1 : State) (p : PendingAdd) (n : Nat) : State :=
  let pa := p.pa
  let h := p.h
  let s2 := State.watch s0 s1 (.engine h p.pc) false true false pa n
  let isLocal := match s2.place pa with
    | .local_ _ _ => true
    | _ => false
  let s3 := (s2.loseLinks (pa / 256) (if (s2.hart h).kernel = p.kernel then some h else none) (if isLocal then none else some (coreOf h))).wake (pa / 256)
    (if isLocal then none else some (coreOf h))
  if isLocal then s3.noteRetests (pa / 256) else s3

/-- Two additions meet. -/
def PendingAdd.meets (p q : PendingAdd) : Bool :=
  decide (p.pa < q.pa + fmtWidth q.fmt / 8) && decide (q.pa < p.pa + fmtWidth p.fmt / 8)

/-- Whether every access of its hart that precedes a VSCADD has been performed: the fork of its additions is its issue (R230). -/
def State.forked (s : State) (h seq : Nat) : Bool :=
  let q := (s.hart h).queue
  !(q.any fun e => e.issued == some seq) || (q.takeWhile fun e => e.issued != some seq).all (·.ended)

/-- Whether an addition may be performed by now as far as its hart is concerned. -/
def State.addReady (s : State) (p : PendingAdd) : Bool := s.forked p.h p.seq

/-- One addition at home(a, core), after its hart's stores that the slices still hold (R230): dropped where its word is uncorrectable (R251), and where its bytes have come to refuse stores since it was
handed over (R156; DEDUCED, log 66: an engine operation performs nothing there, and this one has no object that says so). -/
def State.addAt (s : State) (c : Nat) (p : PendingAdd) : State :=
  let n := fmtWidth p.fmt / 8
  let s := s.landOwn p.h
  match s.recordOff p.h p.pa with
  | some off =>
    let old := leNat (if 0x1A00 ≤ off then s.translationBytes p.h off n else s.homeBytes p.pa n)
    (s.recordStore p.h off (leBytes n (addSum p.fmt old p.value.toNat))).modAdder p fun a => a.laneDown p.lane
  | none =>
  match s.badLoad c p.pa n, s.storeRefused p.pa n with
  | some (src, b), _ => (s.logBad src p.va b (hartId p.h)).modAdder p fun a => a.countDropped.laneDown p.lane
  | none, true => s.modAdder p fun a => a.countDropped.laneDown p.lane
  | none, false =>
    let s1 := if s.scopeMiss p.pa then s else s.permitFor c p.pa
    let r := s1.coreRead c p.pa n
    let v := addSum p.fmt (leNat r.2) p.value.toNat
    let s2 := State.afterAdd r.1 (r.1.coreWrite c p.pa (leBytes n v)) p n
    s2.modAdder p fun a => { a with addLines := insertNat (p.pa / 256) a.addLines }.laneDown p.lane

/-- The n-th pending addition of a core where it may be performed: no earlier one meets its bytes (R251). -/
def State.mayAdd (s : State) (c n : Nat) : Option PendingAdd :=
  match (s.core c).adds[n]? with
  | some p => if s.addReady p && !((s.core c).adds.take n).any (·.meets p) then some p else none
  | none => none

/-- The scatter-add units of a core perform their n-th addition where they may. -/
def State.performAdd (s : State) (c n : Nat) : State :=
  match s.mayAdd c n with
  | none => s
  | some p => (s.modCore c fun k => { k with adds := k.adds.eraseIdx n }).addAt c p

/-- They perform the oldest addition that meets a test and may be performed. -/
def State.performFirst (s : State) (c : Nat) (sel : PendingAdd → Bool) : State :=
  match (List.range (s.core c).adds.length).find? fun n => (s.mayAdd c n).any sel with
  | none => s
  | some n => s.performAdd c n

/-- SCATTER_ADD_PERFORM (R251). -/
def execScatterAddPerform (core : Nat) (s : State) : Out := .next (s.performFirst core fun _ => true)

/-- Addresses pending at the unit of an L2 slice. -/
def Core.pendingAddrs (c : Core) (slice : Nat) : List Nat :=
  ((c.adds.filter fun p => p.pa / 256 % 4 == slice).map (·.pa)).eraseDups

/-- Performs n additions that meet a test. -/
def performAddsN : Nat → State → Nat → (PendingAdd → Bool) → State
  | 0, s, _, _ => s
  | n + 1, s, c, sel => performAddsN n (s.performFirst c sel) c sel

/-- Hands an addition to the unit of its slice; while the unit is full, the additions of the address that it has held longest, of those it may
perform, are performed first. -/
def State.handAdd (s : State) (c : Nat) (p : PendingAdd) : State :=
  let slice := p.pa / 256 % 4
  let held_ := (s.core c).pendingAddrs slice
  let s1 := if held_.contains p.pa || decide (held_.length < 64) then s
    else match held_.find? fun a => ((s.core c).adds.filter (·.pa == a)).all s.addReady with
      | some a => performAddsN ((s.core c).adds.filter (·.pa == a)).length s c fun q => q.pa == a
      | none => s
  (s1.modCore c fun k => { k with adds := k.adds ++ [p] }).modHart p.h (Hart.laneUp p.lane)

/-- Whether the units of a core can take elements of a VSCADD: they never fill up with additions whose fork is still to come. -/
def addRoom (s : State) (h : Nat) (e : QEntry) (lo hi : Nat) : Bool :=
  let stuck := (s.core (coreOf h)).adds.filter fun p => !s.addReady p
  (stuck.isEmpty && s.forked h (e.issued.getD 0)) || decide (stuck.length + (hi - lo) ≤ 64)

/-- One element of VSCADD. -/
def addOne (d : Reg) (fmt n : Nat) (s : State) (h : Nat) (e : QEntry) (i : Nat) (va : Word) (pa : Nat) : State × Option Trap :=
  if s.scopeMiss pa then (s.modHart h (Hart.setSmiss i true), none)
  else
    match (s.core (coreOf h)).readElem ((s.hart h).shapeOf d) i with
    | .error kc => (s.logError (w64 (2 ^ 60 + kc)) 0 1 (hartId h), some (planeCheck kc))
    | .ok v =>
      if s.storeRefused pa n then (s, some ⟨causeStoreFault, va, none⟩)
      else
        let s1 := s.handAdd (coreOf h) ⟨h, (s.hart h).kernel, (s.hart h).pc, i % 64, va, pa, fmt, w64 v, e.issued.getD 0⟩
        let s2 := if (s1.hart h).sup then s1 else s1.noteDirty (s1.hart h).kernel va n
        (s2.modHart h (Hart.setSmiss i false), none)

/-- The index width of VSCADD: the width of vb's entry, 32 where that is neither 32 nor 64. -/
def addIndexWidth (a : Hart) (b : Reg) : Nat := if (a.getDef b).width = 64 then 64 else 32

/-- R251. -/
def opVscadd (d a b : Reg) (f : BitVec 5) (y : BitVec 1) (k : KReg) : QOp :=
  let w := fmtWidth f.toNat
  { indexedOp ⟨w / 8, true, k, b, addOne d f.toNat (w / 8)⟩ d b w 32 y with
    ra := a
    links := true
    overlaps := fun _ _ _ => true
    room := addRoom
    trace := linkTrace ⟨w / 8, true, k, b, addOne d f.toNat (w / 8)⟩
    names := fun h e => [{ nameD d w e with dest := false }, nameB b (addIndexWidth h b) y e] }

/-! ### The arms -/

/-- R248. -/
def execVgl (d a b : Reg) (w y : BitVec 1) (k : KReg) (st : State) : Out :=
  commitQueued (.vgl d a b w y k) (opVgl d a b w y k) st
/-- R248. -/
def execVglw (d a b : Reg) (w y : BitVec 1) (k : KReg) (st : State) : Out :=
  commitQueued (.vglw d a b w y k) (opVglw d a b w y k) st
/-- R249. -/
def execVsc (d a b : Reg) (w y : BitVec 1) (k : KReg) (st : State) : Out :=
  commitQueued (.vsc d a b w y k) (opVsc d a b w y k) st
/-- R249. -/
def execVscw (d a b : Reg) (w y : BitVec 1) (k : KReg) (st : State) : Out :=
  commitQueued (.vscw d a b w y k) (opVscw d a b w y k) st
/-- R251. -/
def execVscadd (d a b : Reg) (f : BitVec 5) (y : BitVec 1) (k : KReg) (st : State) : Out :=
  commitQueued (.vscadd d a b f y k) (opVscadd d a b f y k) st

end Sys2Proof.Machine
end

