-- ==== Sys2Proof/Machine/Matrix.lean ====
section
/-! DEFINITION. Matrix and tile instructions (chapter 8, R152 to R169) but for TILEWAIT: the accumulator, the checks of a tile and of
shapes, the sums of R76 and R77, MMA in its variants, ACZERO, ACRD, ACWR and TILEREL. -/
namespace Sys2Proof.Machine

/-! ### The accumulator store (R152, R153) -/

/-- Number of an accumulator cell. -/
def accKey (row col : Nat) : Nat := 128 * row + col

/-- A cell of the accumulator store. -/
def Core.accCell (c : Core) (k : Nat) : Nat := (FMap.get (fun _ => 0) c.acc k).toNat

/-- A cell written whole: its check bits are new. -/
def Core.setAcc (c : Core) (k v : Nat) : Core :=
  { c with acc := FMap.set (fun _ => 0) c.acc k (.ofNat 32 v), badAcc := c.badAcc.filter (· != k) }

/-- LOC of a cell (R334): its row in bits 14:8, its column in bits 6:0. -/
def accLoc (k : Nat) : Nat := 256 * (k / 128) + k % 128

/-- The cell's value, or the uncorrectable cell. -/
def Core.readAcc (c : Core) (k : Nat) : Except Trap Nat :=
  if c.badAcc.contains k then .error ⟨causeMachineCheck, mcValue false 2 (accLoc k), none⟩ else .ok (c.accCell k)

/-- First accumulator row of a hart's region, and its rows. -/
def Hart.arow0 (a : Hart) : Nat := a.base / 2
def Hart.alen (a : Hart) : Nat := a.windowRows / 2

/-- Row and column of an accumulator origin (R153). -/
def originRow (o : Word) : Nat := bits o.toNat 7 0
def originCol (o : Word) : Nat := bits o.toNat 15 8

/-- MATRIX_SHAPE (R160). A count of elements can be more than VALUE's 16 bits hold: its low bits are kept (DESIGN CHOICE, log 58). -/
def shapeTrap (reason value entry : Nat) : Trap := ⟨causeMatrixShape, w64 (value % 65536 * 2 ^ 24 + reason * 256 + entry), none⟩

/-- The block of R rows and C columns at an origin lies in the hart's region (R153). -/
def blockTrap (a : Hart) (o : Word) (rows cols : Nat) : Option Trap :=
  if a.alen < originRow o + rows then some (shapeTrap 4 (originRow o + rows) 0)
  else if 128 < originCol o + cols then some (shapeTrap 4 (originCol o + cols) 0)
  else none

/-! ### The tile table (R154 to R157) -/

/-- State codes of R154. -/
def TileState.code : TileState → Nat
  | .empty => 0
  | .filling => 1
  | .ready => 2
  | .draining => 3

/-- TILE_STATE (R157). -/
def tileTrap (reason state : Nat) (v : Word) : Trap := ⟨causeTileState, w64 (reason * 2 ^ 13 + state * 2 ^ 11 + bits v.toNat 8 0), none⟩

/-- The check of an event on tile x (R155): the index, the owner (not asked at supervisor privilege, R336), and a row of the table. -/
def tileCheck (s : State) (h : Nat) (v : Word) (allowed : Tile → Bool) : Option Trap :=
  let a := s.hart h
  if 512 ≤ v.toNat then some (tileTrap 0 0 v)
  else
    let t := (s.core (coreOf h)).tile v.toNat
    if !a.sup && t.owner.any (· != a.ctx) then some (tileTrap 1 t.st.code v)
    else if !allowed t then some (tileTrap 2 t.st.code v) else none

/-- Rows of R155. -/
def Tile.forMma (t : Tile) : Bool := t.st == .ready
def Tile.forRelease (t : Tile) : Bool := t.st == .ready || (t.st == .empty && t.owner.isSome && t.flt)
def Tile.forFill (t : Tile) : Bool := t.st == .empty
def Tile.forDrain (t : Tile) : Bool := t.st == .ready

/-- A tile as TILEREL leaves it (R155): the row of a READY tile clears the owner and no more, so FLT stays as it is there. At supervisor
privilege the tile keeps its owner field (R336; where R155's row and R336 meet, DEDUCED, log 67). -/
def Tile.released (t : Tile) (sup : Bool) : Tile :=
  { t with st := .empty, owner := if sup then t.owner else none, flt := t.flt && t.st == .ready, uses := 0 }

/-- TILEREL (R155, R159). -/
def opTilerel (a : Reg) : QOp where
  kind := .other
  elems := false
  ra := a
  post := fun s h e => (s, tileCheck s h e.va Tile.forRelease)
  ready := fun s h e => decide (512 ≤ e.va.toNat) || ((s.core (coreOf h)).tile e.va.toNat).uses == 0
  run := fun s h e _ _ => { state := s.modCore (coreOf h) fun c => c.setTile e.va.toNat ((c.tile e.va.toNat).released (s.hart h).sup) }

/-! ### Sums (R76, R77) -/

/-- A value as 2^(S - 127) × q (R72). -/
def scaledVal (code sc q : Nat) : FVal :=
  if sc = 0xFF then .nan false else (fdecode (ffmtOf code) q).scale ((sc : Int) - 127)

/-- The exact sum of a group of products: NaN where R76 says so. -/
def groupAdd (acc : FVal) (p : FVal × FVal) : FVal :=
  match fproduct p.1 p.2 with
  | none => .nan true
  | some q =>
    match acc, q with
    | .nan s, _ => .nan s
    | _, .nan _ => .nan true
    | .inf n, .inf n' => if n == n' then .inf n else .nan true
    | .inf n, _ => .inf n
    | _, .inf n => .inf n
    | .fin n m e, .fin n' m' e' =>
      let z := fscaled (Min.min e e') n m e + fscaled (Min.min e e') n' m' e'
      .fin (decide (z < 0)) z.natAbs (Min.min e e')

/-- One accumulator element in f32 (R76): groups of four products, each group exact, one rounding a group. A NaN sets NV. -/
def sumGroups (acc : Nat) : List (List (FVal × FVal)) → FRes
  | [] => (acc, 0)
  | g :: l =>
    let s := g.foldl groupAdd (.fin false 0 0)
    let r := fadd .rne (ffmtOf 8) (fdecode (ffmtOf 8) acc) s
    let q := sumGroups r.1 l
    (q.1, q.2 ||| matrixFlags r.2)

/-- A list in groups of four. -/
def inFours {α : Type} : List α → List (List α)
  | a :: b :: c :: d :: l => [a, b, c, d] :: inFours l
  | [] => []
  | l => [l]

/-- One accumulator element in 32-bit integers (R77). -/
def sumInts (acc : Nat) (l : List (Int × Int)) : Nat := wrapN 32 (sxi 32 acc + l.foldl (fun s p => s + p.1 * p.2) 0)

/-! ### MMA (R161 to R165) -/


/-- K of a format (R162). -/
def mmaDepth (code : Nat) : Nat :=
  match code with
  | 9 | 10 => 32
  | 13 => 128
  | _ => 64

/-- Planes of a bit-plane format: 0 for others. -/
def planesOf (code : Nat) : Nat := if 16 ≤ code then code - 14 else 0

/-- Whether the format accumulates integers. -/
def mmaInt (code : Nat) : Bool := code == 0 || decide (16 ≤ code)

/-- Bits of an element of the tile. -/
def tileWidth (code : Nat) : Nat := if 16 ≤ code then 8 else fmtWidth code

/-- Variants of R161. -/
inductive MmaKind where
  | dense | scaled | sparse
  deriving DecidableEq, Repr

/-- M (R162). -/
def mmaRows (code : Nat) (p : Shape) (kind : Nat) : Nat :=
  if planesOf code = 0 then p.rows else if kind = 1 then 128 else p.cols / 64

/-- Slots of a row of A: K, or Kc of the sparse variant. -/
def mmaSlots (v : MmaKind) (code : Nat) (p : Shape) : Nat := if v = .sparse then p.cols else mmaDepth code

/-- The entry after another. -/
def nextEntry (r : Reg) (n : Nat) : Reg := .ofNat 5 (r.toNat + n)

/-- The names of a variant: A, then scales or indices, then B's scales. POS of NAME_WIDTH for va+1 and va+2 is 2: R126 numbers only vd, va and
vb (DESIGN CHOICE, log 69). -/
def mmaNames (v : MmaKind) (code : Nat) (va : Reg) (a : Hart) : List Name :=
  let nm (r : Reg) (pos w : Nat) : Name := ⟨r, pos, w, 0, false, false, false, 0, (a.shapeOf r).count, false⟩
  nm va 1 (fmtWidth code) ::
    match v with
    | .dense => []
    | .sparse => [nm (nextEntry va 1) 2 8]
    | .scaled => [nm (nextEntry va 1) 2 8, nm (nextEntry va 2) 2 8]

/-- The shapes of R162 for A. -/
def mmaShape (v : MmaKind) (code : Nat) (va : Reg) (a : Hart) : Option Trap :=
  let d := a.getDef va
  let p := a.shapeOf va
  let P := planesOf code
  let m := mmaRows code p d.kind
  let kinds := if P = 0 then [5, 6] else [1, 5]
  if !kinds.contains d.kind then some (shapeTrap 0 d.kind va.toNat)
  else if (if P = 0 then v ≠ .sparse ∧ p.cols ≠ mmaDepth code else d.kind = 5 ∧ p.cols % 64 ≠ 0) then some (shapeTrap 1 p.cols va.toNat)
  else if m = 0 ∨ 128 < m then some (shapeTrap 2 m va.toNat)
  else if P ≠ 0 ∧ p.rows ≠ P then some (shapeTrap 5 p.rows va.toNat)
  else none

/-- The counts of scale and index entries. -/
def mmaCounts (v : MmaKind) (code : Nat) (va : Reg) (a : Hart) (B : Nat) : Option Trap :=
  let p := a.shapeOf va
  let n1 := (a.shapeOf (nextEntry va 1)).count
  let n2 := (a.shapeOf (nextEntry va 2)).count
  match v with
  | .dense => none
  | .sparse => if n1 < p.rows * p.cols then some (shapeTrap 3 n1 (nextEntry va 1).toNat) else none
  | .scaled =>
    let nb := mmaDepth code / B
    if n1 < p.rows * nb then some (shapeTrap 3 n1 (nextEntry va 1).toNat)
    else if n2 < nb * 64 then some (shapeTrap 3 n2 (nextEntry va 2).toNat) else none

/-- A list mapped by a function that may stop with a trap. -/
def eachE {α β : Type} (f : α → Except Trap β) : List α → Except Trap (List β)
  | [] => .ok []
  | a :: l =>
    match f a with
    | .error t => .error t
    | .ok b => (eachE f l).map (b :: ·)

/-- A plane element for the matrix engine. -/
def Core.matrixElem (c : Core) (p : Shape) (i : Nat) : Except Trap Nat :=
  match c.readElem p i with
  | .ok v => .ok v
  | .error k => .error (planeCheck k)

/-- Slots 0 to n - 1 of row m of A as patterns (bit planes: as the value's two's complement in 8 bits). -/
def mmaRowA (c : Core) (p : Shape) (code m n : Nat) : Except Trap (List Nat) :=
  let P := planesOf code
  if P = 0 then eachE (fun k => c.matrixElem p (m * n + k)) (List.range n)
  else eachE (fun k => (eachE (fun j => c.matrixElem p (j * p.cols + 64 * m + k)) (List.range P)).map fun l =>
    wrapN 8 (sxi P (l.foldl (fun a b => 2 * a + b) 0))) (List.range n)

/-- Element (k, n) of a tile whose bytes are one little-endian number. -/
def tileElem (tile code k n : Nat) : Nat := tile / 2 ^ ((64 * k + n) * tileWidth code) % 2 ^ tileWidth code

/-- The uncorrectable sectors of a tile, each with the trap of a read. -/
def tileBad (s : State) (core t : Nat) : List (Nat × Trap) :=
  (List.range 64).filterMap fun i => (s.badRange (localPa core (4096 * t + 64 * i)) 64).map fun b =>
    (i, ⟨causeMachineCheck, mcValue false 3 (b.2 - localPa core 0), none⟩)

/-- The trap of reading element (k, n) of a tile. -/
def tileTrapAt (bad : List (Nat × Trap)) (code k n : Nat) : Except Trap Unit :=
  match bad.find? fun b => b.1 == (64 * k + n) * tileWidth code / 512 with
  | some b => .error b.2
  | none => .ok ()

/-- One row of the accumulator block: its new cells and flags (R163's row_update). Of several uncorrectable reads the first in the order of R163 is
reported: cell by cell, the accumulator first; within a cell the row of A, its scales or indices, B's scales, the tile, which the manual leaves open
(DESIGN CHOICE, log 85). -/
def mmaRow (v : MmaKind) (code : Nat) (va : Reg) (a : Hart) (c : Core) (tile : Nat) (bad : List (Nat × Trap)) (B m : Nat) (o : Word) :
    Except Trap (List (Nat × Nat) × Flags) := do
  let p := a.shapeOf va
  let n := mmaSlots v code p
  let nb := mmaDepth code / B
  let rowE := mmaRowA c p code m n
  let auxE := match v with
    | .dense => Except.ok []
    | .scaled => eachE (fun b => c.matrixElem (a.shapeOf (nextEntry va 1)) (m * nb + b)) (List.range nb)
    | .sparse => eachE (fun k => c.matrixElem (a.shapeOf (nextEntry va 1)) (m * n + k)) (List.range n)
  let f := ffmtOf code
  let cells ← eachE (fun j => do
    let key := accKey (a.arow0 + originRow o + m) (originCol o + j)
    let acc ← c.readAcc key
    let row ← rowE
    let aux ← auxE
    let sb ← match v with
      | .scaled => eachE (fun b => c.matrixElem (a.shapeOf (nextEntry va 2)) (b * 64 + j)) (List.range nb)
      | _ => Except.ok []
    let slots := (row.zipIdx).map fun qk =>
      let idx := if v = .sparse then aux.getD qk.2 0 else qk.2
      (qk.1, qk.2, idx)
    let _ ← if bad.isEmpty then Except.ok []
      else eachE (fun q => tileTrapAt bad code q.2.2 j) (slots.filter fun q => decide (q.2.2 < mmaDepth code))
    if mmaInt code then
      let ps := slots.map fun q =>
        if q.2.2 < mmaDepth code then (sxi 8 q.1, sxi 8 (tileElem tile code q.2.2 j)) else ((0 : Int), (0 : Int))
      return (key, sumInts acc ps, (0 : Flags))
    else
      let ps := slots.map fun q =>
        if mmaDepth code ≤ q.2.2 then (FVal.fin false 0 0, FVal.fin false 0 0)
        else if v = .scaled then
          (scaledVal code (aux.getD (q.2.1 / B) 0) q.1, scaledVal code (sb.getD (q.2.1 / B) 0) (tileElem tile code q.2.1 j))
        else (fdecode f q.1, fdecode f (tileElem tile code q.2.2 j))
      let r := sumGroups acc (inFours ps)
      return (key, r.1, r.2)) (List.range 64)
  return (cells.map fun x => (x.1, x.2.1), cells.foldl (fun g x => g ||| x.2.2) 0)

/-- Rows of a matrix instruction in order, until one meets an uncorrectable cell: the row completes whole. -/
def matrixRows (row : State → Nat → Except Trap (State × Flags)) : Nat → State → Nat → Flags → Done
  | 0, s, _, f => { state := s, flags := f }
  | n + 1, s, m, f =>
    match row s m with
    | .error t => { state := s, flags := f, trap := some { t with elem := some m } }
    | .ok r => matrixRows row n r.1 (m + 1) (f ||| r.2)

/-- Rows lo to hi - 1, with the error logged (R406). -/
def runRows (row : State → Nat → Except Trap (State × Flags)) (s : State) (h : Nat) (lo hi : Nat) : Done :=
  let r := matrixRows row (hi - lo) s lo 0
  match r.trap with
  | none => r
  | some t =>
    let pa := if bits t.tval.toNat 62 60 = 3 then localPa (coreOf h) (bits t.tval.toNat 56 0) else 0
    { r with state := r.state.logError t.tval pa 1 (hartId h) }

/-- MMA in a variant (R163). -/
def opMmaKind (v : MmaKind) (va : Reg) (adv : BitVec 1) (f : BitVec 5) (o t : Reg) : QOp where
  kind := .matrix
  group := 1
  inOrder := true
  ra := t
  rb := o
  len := fun a _ => mmaRows f.toNat (a.shapeOf va) (a.getDef va).kind
  names := fun a _ => mmaNames v f.toNat va a
  post := fun s h e =>
    let a := s.hart h
    (s, ((((tileCheck s h e.va Tile.forMma).or (mmaShape v f.toNat va a)).or (mmaCounts v f.toNat va a (blkLen e.vtype))).or
      (blockTrap a e.vb (mmaRows f.toNat (a.shapeOf va) (a.getDef va).kind) 64)).or
      (if v = .scaled then blkCheck e else none))
  chains := fun _ _ _ => false
  start := fun s h e => s.modCore (coreOf h) fun c =>
    c.setTile e.va.toNat { c.tile e.va.toNat with uses := (c.tile e.va.toNat).uses + 1 }
  run := fun s h e lo hi =>
    let a := s.hart h
    let tile := leNat (s.homeBytes (localPa (coreOf h) (4096 * e.va.toNat)) 4096)
    let bad := tileBad s (coreOf h) e.va.toNat
    runRows (fun s m =>
      (mmaRow v f.toNat va a (s.core (coreOf h)) tile bad (blkLen e.vtype) m e.vb).map fun r =>
        (s.modCore (coreOf h) fun c => r.1.foldl (fun c x => c.setAcc x.1 x.2) c, r.2)) s h lo hi
  redefine := fun _ a =>
    if adv = 1 then
      ((mmaNames v f.toNat va a).map (·.entry)).eraseDups.foldl
        (fun (a : Hart) r => { a with defs := a.defs.set r.toNat (a.getDef r).advance (by omega) }) a
    else a

/-- R163, dense. -/
def opMma (a : Reg) (v : BitVec 1) (f : BitVec 5) (o t : Reg) : QOp := opMmaKind .dense a v f o t
/-- R163, scaled. -/
def opMmas (a : Reg) (v : BitVec 1) (f : BitVec 5) (o t : Reg) : QOp := opMmaKind .scaled a v f o t
/-- R163, sparse by compress-and-gather. -/
def opMmag (a : Reg) (v : BitVec 1) (f : BitVec 5) (o t : Reg) : QOp := opMmaKind .sparse a v f o t

/-! ### Reading and writing the accumulator (R167) -/

/-- R and C of an extent. -/
def extentRows (x : Word) : Nat := bits x.toNat 7 0
def extentCols (x : Word) : Nat := bits x.toNat 15 8

/-- R167. An extent above 128 raises even where the other is 0 (DESIGN CHOICE, log 70); VALUE is the row sum where the rows fail, else the column
sum (R160). -/
def opAczero (o e : Reg) : QOp where
  kind := .matrix
  group := 1
  inOrder := true
  ra := e
  rb := o
  len := fun _ e => if extentCols e.va = 0 then 0 else extentRows e.va
  chains := fun _ _ _ => false
  post := fun s h e =>
    let R := extentRows e.va
    let C := extentCols e.va
    (s, if 128 < R ∨ 128 < C then
        some (shapeTrap 4 (if 128 < R ∨ (s.hart h).alen < originRow e.vb + R then originRow e.vb + R else originCol e.vb + C) 0)
      else if R = 0 ∨ C = 0 then none else blockTrap (s.hart h) e.vb R C)
  run := fun s h e lo hi =>
    let a := s.hart h
    runRows (fun s m => .ok (s.modCore (coreOf h) fun c => (List.range (extentCols e.va)).foldl
      (fun c j => c.setAcc (accKey (a.arow0 + originRow e.vb + m) (originCol e.vb + j)) 0) c, 0)) s h lo hi

/-- The checks of ACRD and ACWR after the names: kind, then block. -/
def accShape (r : Reg) (s : State) (h : Nat) (e : QEntry) : State × Option Trap :=
  let a := s.hart h
  let d := a.getDef r
  (s, if d.kind ≠ 5 ∧ d.kind ≠ 6 then some (shapeTrap 0 d.kind r.toNat)
    else blockTrap a e.vb (a.shapeOf r).rows (a.shapeOf r).cols)

/-- R167: cells into a name; f16 and bf16 round to nearest even. -/
def opAcrd (d : Reg) (f : BitVec 5) (o : Reg) : QOp where
  kind := .matrix
  group := 1
  inOrder := true
  rb := o
  len := fun a _ => (a.shapeOf d).rows
  chains := fun _ _ _ => false
  names := fun a _ => [⟨d, 0, fmtWidth f.toNat, 0, true, false, false, 0, (a.shapeOf d).count, false⟩]
  post := accShape d
  run := fun s h e lo hi =>
    let a := s.hart h
    let p := a.shapeOf d
    runRows (fun s m => do
      let l ← eachE (fun j => do
        let v ← (s.core (coreOf h)).readAcc (accKey (a.arow0 + originRow e.vb + m) (originCol e.vb + j))
        let r : FRes := if f = 9 ∨ f = 10 then fconvert .rne (ffmtOf f.toNat) (fdecode (ffmtOf 8) v) else (v, 0)
        return (⟨m * p.cols + j, r.1, matrixFlags r.2⟩ : Piece)) (List.range p.cols)
      return (s.modCore (coreOf h) fun c => c.putPieces p l, piecesFlags l)) s h lo hi

/-- R167: a name into cells; f16 and bf16 widen exactly. -/
def opAcwr (a : Reg) (f : BitVec 5) (o : Reg) : QOp where
  kind := .matrix
  group := 1
  inOrder := true
  rb := o
  len := fun t _ => (t.shapeOf a).rows
  chains := fun _ _ _ => false
  names := fun t _ => [⟨a, 1, fmtWidth f.toNat, 0, false, false, false, 0, (t.shapeOf a).count, false⟩]
  post := accShape a
  run := fun s h e lo hi =>
    let t := s.hart h
    let p := t.shapeOf a
    runRows (fun s m => do
      let l ← eachE (fun j => do
        let v ← (s.core (coreOf h)).matrixElem p (m * p.cols + j)
        let r : FRes := if f = 9 ∨ f = 10 then fconvert .rne (ffmtOf 8) (fdecode (ffmtOf f.toNat) v) else (v, 0)
        return (⟨accKey (t.arow0 + originRow e.vb + m) (originCol e.vb + j), r.1, matrixFlags r.2⟩ : Piece)) (List.range p.cols)
      return (s.modCore (coreOf h) fun c => l.foldl (fun c x => c.setAcc x.idx x.val) c, piecesFlags l)) s h lo hi

/-! ### The arms -/

/-- R159. -/
def execTilerel (a : Reg) (st : State) : Out :=
  commitQueued (.tilerel a) (opTilerel a) st
/-- R163. -/
def execMma (a : Reg) (v : BitVec 1) (f : BitVec 5) (o t : Reg) (st : State) : Out :=
  commitQueued (.mma a v f o t) (opMma a v f o t) st
/-- R163. -/
def execMmas (a : Reg) (v : BitVec 1) (f : BitVec 5) (o t : Reg) (st : State) : Out :=
  commitQueued (.mmas a v f o t) (opMmas a v f o t) st
/-- R163. -/
def execMmag (a : Reg) (v : BitVec 1) (f : BitVec 5) (o t : Reg) (st : State) : Out :=
  commitQueued (.mmag a v f o t) (opMmag a v f o t) st
/-- R167. -/
def execAczero (o e : Reg) (st : State) : Out :=
  commitQueued (.aczero o e) (opAczero o e) st
/-- R167. -/
def execAcrd (d : Reg) (f : BitVec 5) (o : Reg) (st : State) : Out :=
  commitQueued (.acrd d f o) (opAcrd d f o) st
/-- R167. -/
def execAcwr (a : Reg) (f : BitVec 5) (o : Reg) (st : State) : Out :=
  commitQueued (.acwr a f o) (opAcwr a f o) st

end Sys2Proof.Machine
end

