-- ==== Sys2Proof/Machine/MergeUnit.lean ====
section
/-! DEFINITION. The merge network of a camp (R289 to R302): entries and their order, presentation, spilling, passes, sums and output. -/
namespace Sys2Proof.Machine

/-! ### Accesses of the network (R232, R297, R300) -/

/-- Stores of consecutive bytes by a network, line by line at their memory-side homes; its own spill region does not refuse it, and `kn` is the
kernel whose dirty set the pages join (R394). The reason of R301 where one is refused: 1 too where its bytes refuse stores, which R298 gives a reason
3 that R301 does not have (DESIGN CHOICE, log 86). -/
def netStoreN (kn : Option Nat) : Nat → State → XCtx → Word → List Byte → State × Option Nat
  | 0, s, _, _, _ => (s, none)
  | f + 1, s, x, va, bs =>
    if bs.isEmpty then (s, none)
    else
      let k := 256 - va.toNat % 256
      if x.inTranslation va then netStoreN kn f (s.translationStore x.h va.toNat (bs.take k)) x (va + w64 k) (bs.drop k)
      else match s.probe x va .store with
      | (s, .error (.bad _ _)) => (s, some 2)
      | (s, .error _) => (s, some 1)
      | (s, .ok pa) =>
        let own := some (campOf x.h)
        if s.storeRefused pa (bs.take k).length own then (s, some 1)
        else
          match s.deviceStore false pa (bs.take k) (.engine x.h 0) own with
          | (s1, false) => (s1, some 2)
          | (s1, true) => netStoreN kn f (s1.noteDirty kn va (bs.take k).length) x (va + w64 k) (bs.drop k)

/-- Stores of consecutive bytes by a network. -/
def State.netStore (s : State) (m : Merge) (va : Word) (bs : List Byte) : State × Option Nat :=
  netStoreN (m.owner.bind (·.2)) (bs.length / 256 + 2) s m.x va bs

/-- Loads of consecutive bytes by a network. -/
def netLoadN : Nat → State → XCtx → Word → Nat → State × Except Nat (List Byte)
  | 0, s, _, _, _ => (s, .ok [])
  | f + 1, s, x, va, n =>
    if n = 0 then (s, .ok [])
    else
      let k := Nat.min n (256 - va.toNat % 256)
      match s.probe x va .load with
      | (s, .error (.bad _ _)) => (s, .error 2)
      | (s, .error _) => (s, .error 1)
      | (s, .ok pa) =>
        if x.inTranslation va then
          match netLoadN f s x (va + w64 k) (n - k) with
          | (s', .ok l) => (s', .ok (s.translationBytes x.h va.toNat k ++ l))
          | r => r
        else match s.badRange pa k with
        | some (src, b) => (s.logBad src va b 0xFFFF, .error 2)
        | none =>
          match netLoadN f (s.afterLoad (.engine x.h 0) true pa k) x (va + w64 k) (n - k) with
          | (s', .ok l) => (s', .ok (s.homeBytes pa k ++ l))
          | r => r

/-- Loads of consecutive bytes by a network. -/
def State.netLoad (s : State) (x : XCtx) (va : Word) (n : Nat) : State × Except Nat (List Byte) :=
  netLoadN (n / 256 + 2) s x va n

/-! ### Entries (R290) -/

/-- The tag of an entry. -/
def MEntry.tag (e : MEntry) : Nat := e.port * 2 ^ 28 + e.seq
/-- The key: row, column, port, sequence number. -/
def MEntry.key (e : MEntry) : Nat := e.row * 2 ^ 64 + e.col * 2 ^ 32 + e.tag

/-- Insertion into a list ordered by a relation. -/
def insertBy {α : Type} (before : α → α → Bool) (x : α) : List α → List α
  | [] => [x]
  | y :: l => if before x y then x :: y :: l else y :: insertBy before x l

/-- A list ordered by a relation. -/
def sortBy {α : Type} (before : α → α → Bool) : List α → List α
  | [] => []
  | x :: l => insertBy before x (sortBy before l)

/-- Entries in key order. -/
def sortEntries (l : List MEntry) : List MEntry := sortBy (fun a b => decide (a.key < b.key)) l

/-- A spilled record (R297). -/
def MEntry.record (e : MEntry) : List Byte := leBytes 4 e.row ++ leBytes 4 e.col ++ leBytes 4 e.val.toNat ++ leBytes 4 e.tag

/-- The entries of spilled records. -/
def entriesOf : Nat → List Byte → List MEntry
  | 0, _ => []
  | n + 1, l =>
    { row := fieldAt l 0 4, col := fieldAt l 4 4, val := .ofNat 32 (fieldAt l 8 4), port := fieldAt l 12 4 / 2 ^ 28,
      seq := fieldAt l 12 4 % 2 ^ 28 } :: entriesOf n (l.drop 16)

/-! ### The run table (R297) -/

/-- The 4,096 bytes of the run table. -/
def Merge.table (m : Merge) : List Byte :=
  padTo 4096 (leBytes 4 m.runs.length ++ leBytes 1 m.cur ++ leBytes 4 m.refused ++ List.replicate 7 0 ++
    m.runs.flatMap fun r => leBytes 8 r.1 ++ leBytes 4 r.2 ++ leBytes 1 m.cur ++ List.replicate 3 0)

/-- The merge network of a camp changed. -/
def State.modMerge (s : State) (camp : Nat) (f : Merge → Merge) : State :=
  s.modCamp camp fun c => { c with merge := f c.merge }

/-- Marks a network failed by an access (R291); the first reason stays. -/
def Merge.fail (m : Merge) (reason : Option Nat) : Merge :=
  match reason with
  | some r => if m.failed = 0 then { m with failed := r } else m
  | none => m

/-- Writes the run table where there is a spill region. -/
def State.writeTable (s : State) (camp : Nat) : State :=
  let m := (s.camp camp).merge
  if m.half = 0 then s
  else
    let r := s.netStore m m.spill m.table
    r.1.modMerge camp fun m => m.fail r.2

/-- Address of record i of a half. -/
def Merge.recordVa (m : Merge) (half i : Nat) : Word := m.spill + w64 (4096 + half * m.half + 16 * i)

/-- Room for one more run (R297). -/
def Merge.room (m : Merge) : Bool := m.half != 0 && decide ((m.used + 65536) * 16 ≤ m.half) && decide (m.runs.length < 255)

/-- Writes the store as a run of half 0. -/
def State.spillRun (s : State) (camp : Nat) : State :=
  let m := (s.camp camp).merge
  let r := s.netStore m (m.recordVa 0 m.used) ((sortEntries m.store).flatMap MEntry.record)
  let s1 := r.1.modMerge camp fun m =>
    { m.fail r.2 with
      store := [], runs := m.runs ++ [(m.used, m.store.length)], used := m.used + m.store.length, spilled := m.spilled + 1 }
  s1.writeTable camp

/-! ### Presentation (R291, R296) -/

/-- An element refused: counted, and the FULL flag set where it is refused for want of room. -/
def State.refuseElem (s : State) (camp : Nat) (full : Bool) : State :=
  (s.modMerge camp fun m => { m with refused := m.refused + 1, fullFlag := m.fullFlag || full }).writeTable camp

/-- Presents an element at a port; whether it is accepted. -/
def State.present (s : State) (camp port row col : Nat) (val : W32) : State × Bool :=
  let m := (s.camp camp).merge
  if m.st = .free then (s, false)
  else if m.st ≠ .opened then (s.refuseElem camp false, false)
  else
    let seq := (m.seqs.toList[port]?).getD 0
    let storeFull := decide (65536 ≤ m.store.length)
    if m.fullFlag || decide (2 ^ 28 ≤ seq) || (storeFull && !m.room) then (s.refuseElem camp true, false)
    else
      let s1 := if storeFull then s.spillRun camp else s
      (s1.modMerge camp fun m =>
        { m with
          store := m.store ++ [⟨row, col, val, port, seq⟩], seqs := m.seqs.set! port (seq + 1), accepted := m.accepted + 1 }, true)

/-! ### Objects and the end (R291, R301) -/

/-- A status word of the merge (R301). -/
def mergeStatus (code reason passes runs count : Nat) : Word :=
  w64 (code + passes % 256 * 256 + reason * 65536 + runs % 256 * 2 ^ 24 + count % 2 ^ 32 * 2 ^ 32)

/-- The cores of a camp. -/
def camp16 (camp : Nat) : List Nat := (List.range 16).map (16 * camp + ·)

/-- Writes an object of the merge with release at device scope; the camp's copies of its line go home first, the pending value
among them (R196). -/
def State.mergeObject (s : State) (m : Merge) (o : Option (Word × Nat)) (v : Word) : State :=
  match o with
  | none => s
  | some (va, pa) =>
    match s.recordOff m.x.h pa with
    | some off => s.translationStore m.x.h off (leBytes 8 v.toNat)
    | none => ((camp16 (campOf m.x.h)).foldl (fun s c => s.evict c (pa / 256)) s |>.unitStore pa (leBytes 8 v.toNat)).noteDirty (m.owner.bind (·.2)) va 8

/-- The network returns to FREE. -/
def State.mergeFree (s : State) (camp : Nat) : State := s.modMerge camp fun _ => Merge.reset

/-- The end of the holding kernel in the camp (R291): pending objects are written WITHDRAWN, reason 2. -/
def State.mergeRelease (s : State) (camp kernel : Nat) : State :=
  let m := (s.camp camp).merge
  if m.st ≠ .free && (m.owner.bind (·.2)) == some kernel then
    ((s.mergeObject m m.closeObj (mergeStatus codeWITHDRAWN 2 m.passes m.spilled m.accepted)).mergeObject m m.drainObj
      (mergeStatus codeWITHDRAWN 2 0 0 0)).mergeFree camp
  else s

/-! ### Passes (R298) -/

/-- Reads runs of the current half. -/
def readRuns (m : Merge) : State → List (Nat × Nat) → State × Except Nat (List MEntry)
  | s, [] => (s, .ok [])
  | s, r :: l =>
    match s.netLoad m.x (m.recordVa m.cur r.1) (16 * r.2) with
    | (s, .error e) => (s, .error e)
    | (s, .ok bs) =>
      match readRuns m s l with
      | (s, .error e) => (s, .error e)
      | (s, .ok es) => (s, .ok (entriesOf r.2 bs ++ es))

/-- Merges groups of 16 runs into the other half from record `at_` on: the new runs. -/
def passGroups (m : Merge) : Nat → State → List (Nat × Nat) → Nat → State × Except Nat (List (Nat × Nat))
  | 0, s, _, _ => (s, .ok [])
  | f + 1, s, runs, at_ =>
    if runs.isEmpty then (s, .ok [])
    else
      match readRuns m s (runs.take 16) with
      | (s, .error e) => (s, .error e)
      | (s, .ok es) =>
        match s.netStore m (m.recordVa (1 - m.cur) at_) ((sortEntries es).flatMap MEntry.record) with
        | (s, some e) => (s, .error e)
        | (s, none) =>
          match passGroups m f s (runs.drop 16) (at_ + es.length) with
          | (s, .error e) => (s, .error e)
          | (s, .ok l) => (s, .ok ((at_, es.length) :: l))

/-- Passes while 16 runs or more remain; two suffice for 255. -/
def passesN : Nat → State → Nat → State
  | 0, s, _ => s
  | n + 1, s, camp =>
    let m := (s.camp camp).merge
    if m.runs.length < 16 ∨ m.failed ≠ 0 then s
    else
      match passGroups m 16 s m.runs 0 with
      | (s, .error e) => s.modMerge camp fun m => m.fail (some e)
      | (s, .ok runs) =>
        passesN n ((s.modMerge camp fun m => { m with runs := runs, cur := 1 - m.cur, passes := m.passes + 1 }).writeTable camp) camp

/-- The passes end: CLOSED, with the close object, and a recorded drain begins. -/
def State.mergeClosed (s : State) (camp : Nat) : State :=
  let s1 := passesN 3 s camp
  let m := (s1.camp camp).merge
  let v := if m.failed ≠ 0 then mergeStatus codeFAULTED m.failed m.passes m.spilled m.accepted
    else mergeStatus (if m.fullFlag then codeFULL else codeOK) 0 m.passes m.spilled m.accepted
  (s1.modMerge camp fun m =>
    { m with st := if m.drainRecorded then .draining else .closed, closeObj := none }).mergeObject m m.closeObj v

/-! ### Sums and output (R299, R300) -/

/-- A delivered coordinate. -/
structure Coord where
  row : Nat
  col : Nat
  val : Nat
  deriving DecidableEq, Repr

/-- The sum of values in key order, each addition rounded to nearest even; a NaN is delivered canonical. -/
def mergeSum (l : List Nat) : Nat :=
  match l with
  | [] => 0
  | v :: l =>
    let acc := l.foldl (fun acc x => (fadd .rne fmtF32 (fdecode fmtF32 acc) (fdecode fmtF32 x)).1) v
    if (fdecode fmtF32 acc).isNan then 0x7FC00000 else acc

/-- Runs of equal coordinates in a list in key order. -/
def groupCoords : List MEntry → List (List MEntry)
  | [] => []
  | e :: l =>
    match groupCoords l with
    | (f :: g) :: r => if e.row = f.row ∧ e.col = f.col then (e :: f :: g) :: r else [e] :: (f :: g) :: r
    | r => [e] :: r

/-- The delivered coordinates of entries in key order. -/
def deliver (l : List MEntry) : List Coord :=
  (groupCoords l).filterMap fun g => g.head?.map fun e => ⟨e.row, e.col, mergeSum (g.map fun e => e.val.toNat)⟩

/-- a before b among the top: greater value first, NaN last, equal values by coordinate. -/
def rankBefore (a b : Coord) : Bool :=
  let x := fdecode fmtF32 a.val
  let y := fdecode fmtF32 b.val
  let coord := decide (a.row < b.row) || (decide (a.row = b.row) && decide (a.col < b.col))
  if x.isNan && y.isNan then coord
  else if x.isNan then false
  else if y.isNan then true
  else fltv y x || (feqv x y && coord)

/-- Distinct rows in order, each with the index of its first entry. -/
def rowStarts : Nat → List Coord → List (Nat × Nat)
  | _, [] => []
  | i, c :: l =>
    match rowStarts (i + 1) l with
    | (r, j) :: t => if r = c.row then (r, i) :: t else (c.row, i) :: (r, j) :: t
    | [] => [(c.row, i)]

/-- The pieces of the output area with their offsets (R300). -/
def Merge.output (m : Merge) (all : List Coord) : List (Nat × List Byte) × Nat :=
  let cs := if m.mode = 0 then all.take m.outcap else (sortBy rankBefore all).take m.kk
  let rows := if m.mode = 0 then rowStarts 0 cs else []
  let area := (4 * m.outcap + 63) / 64 * 64
  let head := leBytes 8 cs.length ++ leBytes 8 rows.length ++ leBytes 8 all.length ++ List.replicate 40 0
  let ridx := if m.mode = 0 then rows.map (·.1) else cs.map (·.row)
  let arr (l : List Nat) : List Byte := l.flatMap (leBytes 4)
  ([(0, head), (64, arr ridx), (64 + area, arr (cs.map (·.col))), (64 + 2 * area, arr (cs.map (·.val)))] ++
    (if m.mode = 0 then [(64 + 3 * area, arr (rows.map (·.2) ++ [cs.length]))] else []), cs.length)

/-- Writes the pieces until one faults. -/
def writePieces (m : Merge) : State → List (Nat × List Byte) → State × Option Nat
  | s, [] => (s, none)
  | s, p :: l =>
    match s.netStore m (m.out + w64 p.1) p.2 with
    | (s, some e) => (s, some e)
    | (s, none) => writePieces m s l

/-- The runs of consecutive bytes from an offset on that a test leaves. -/
def leftRuns (done : Nat → Bool) : Nat → List Byte → List (Nat × List Byte)
  | _, [] => []
  | i, b :: l =>
    let r := leftRuns done (i + 1) l
    if done i then r
    else match r with
      | (j, bs) :: q => if j = i + 1 then (i, b :: bs) :: q else (i, [b]) :: r
      | [] => [(i, [b])]

/-- The pieces of the output that a drain has still to write. -/
def Merge.todo (m : Merge) (l : List (Nat × List Byte)) : List (Nat × List Byte) :=
  if m.done.isEmpty then l else l.flatMap fun p => leftRuns m.done.contains p.1 p.2

/-- Bytes [off, off + n) of the output of a drain are written ahead of its end, those that are still to be written, where nothing refuses them: a load
before the join finds old and new bytes in any mixture (R304). -/
def State.mergePiece (s : State) (camp off n : Nat) : State :=
  let m := (s.camp camp).merge
  if m.st ≠ .draining ∨ m.failed ≠ 0 then s
  else
    match readRuns m s m.runs with
    | (_, .error _) => s
    | (_, .ok es) =>
      let ps := (m.output (deliver (sortEntries (es ++ m.store)))).1.flatMap fun p =>
        leftRuns (fun i => m.done.contains i || decide (i < off) || decide (off + n ≤ i)) p.1 p.2
      match writePieces m s ps with
      | (_, some _) => s
      | (t, none) => t.modMerge camp fun m => { m with done := (ps.flatMap fun p => (List.range p.2.length).map (p.1 + ·)) ++ m.done }

/-- The drain: what is left of the output written, its object, and the network FREE. -/
def State.mergeDrain (s : State) (camp : Nat) : State :=
  let m := (s.camp camp).merge
  let done (s : State) (v : Word) : State := (s.mergeObject m m.drainObj v).mergeFree camp
  if m.failed ≠ 0 then done s (mergeStatus codeFAULTED 4 0 0 0)
  else
    match readRuns m s m.runs with
    | (s, .error e) => done s (mergeStatus codeFAULTED e 0 0 0)
    | (s, .ok es) =>
      let all := deliver (sortEntries (es ++ m.store))
      let o := m.output all
      match writePieces m s (m.todo o.1) with
      | (s, some e) => done s (mergeStatus codeFAULTED e 0 0 0)
      | (s, none) => done s (mergeStatus (if m.mode = 0 ∧ m.outcap < all.length then codeFULL else codeOK) 0 0 0 o.2)

end Sys2Proof.Machine
end

