-- ==== Sys2Proof/Machine/Commands.lean ====
section
/-! DEFINITION. The engine commands of chapter 11 (R195 to R214) and the events that end their operations: stream queues, tile fills
and drains, copies, in-bank transforms, far reads, ROINV and CMREAD. -/
namespace Sys2Proof.Machine

/-! ### In common (R195) -/

/-- The checks of a command: its completion object, then its own. -/
def withObj (d : Reg) (f : State → Nat → QEntry → Option Trap) (s : State) (h : Nat) (e : QEntry) : State × Option Trap :=
  match s.objCheck h d e.vd with
  | (s, some t) => (s, some t)
  | (s, none) => (s, f s h e)

/-- The first trap of a list of conditions. -/
def firstTrap : List (Bool × Trap) → Option Trap
  | [] => none
  | (b, t) :: l => if b then some t else firstTrap l

/-- A command of the queue: object register d, operands a, b and c, its checks and what its operation is. -/
def command (d a b c : Reg) (check : State → Nat → QEntry → Option Trap) (kind : State → Nat → QEntry → OpKind) : QOp where
  kind := .engine
  elems := false
  owner := false
  ra := a
  rb := b
  rc := c
  rd := d
  post := withObj d check
  run := fun s h e _ _ => s.startOp h d e.vd e.pc fun s => kind s h e

/-- The pieces of at most one sector that the rows of a tile meet in memory: tile offset, address, bytes. A fill's are cut at the sectors of the tile
too, each of which is old or new as a whole to a load (R156). -/
def tilePieces (fill : Bool) (va : Word) (rb : Nat) (pitch : Word) : List (Nat × Word × Nat) :=
  (List.range 128).filterMap fun i =>
    let o := 32 * i
    let a := va + w64 (o / rb) * pitch + w64 (o % rb)
    let n := Nat.min (rb - o % rb) (64 - a.toNat % 64)
    -- a piece starts at each new row and at each new sector
    if o % rb = 0 ∨ a.toNat % 64 = 0 ∨ fill ∧ o % 64 = 0 then some (o, a, if fill then Nat.min n (64 - o % 64) else n) else none

/-- Whether an operation stores to SATP or CTX of its hart (R348). -/
def Op.roots (o : Op) : Bool :=
  let meets (va : Word) (n : Nat) : Bool := decide (va.toNat < 0x1A10) && decide (0x1A00 < va.toNat + n)
  o.x.sup && (meets o.objVa 8 || match o.kind with
    | .drain _ va rb pitch => (tilePieces false va rb pitch).any fun p => meets p.2.1 p.2.2
    | .copy _ dst desc none => (List.range (copyTotal desc)).any fun n => meets (dst + copyOffset desc 24 n) 1
    | .bankop fn start len arg _ _ _ => if fn = 6 then meets arg 4 else meets start len
    | .fread _ _ _ len dst _ _ => meets dst len
    | .fgather _ dst width count => meets dst (count * 2 ^ width)
    | .fcoll desc _ _ _ => meets (w64 (fieldAt desc 24 8)) (fieldAt desc 32 8)
    | _ => false)

/-- An operation in flight that goes on: it is not parked, and where it stores to SATP or CTX its hart's queue is empty (R349). -/
def State.running (s : State) (id : Nat) : Option Op :=
  (s.findOp id).bind fun o => if o.parked.isSome || (o.roots && !(s.hart o.h).queue.isEmpty) then none else some o

/-- An operation replaced. -/
def State.setOp (s : State) (o : Op) : State := { s with ops := s.ops.map fun (p : Op) => if p.id == o.id then o else p }

/-! ### Stream queues (R198, R201) -/

/-- Whether a slot area meets a tile that is not EMPTY, or another open area (R198, R199). -/
def areaMeets (s : State) (core off n : Nat) : Bool := s.tileBusy core off n || s.inStreamArea core off n

/-- The descriptor's fields. -/
def sqDesc (e : QEntry) : Stream :=
  { base := e.va, stride := e.vb, desc := e.vc, fetched := 0, popped := 0, full := 0, faulted := false, done := false, objVa := e.vd,
    objPa := none, x := ⟨0, false, 0, 0, 0⟩, pc := e.pc, parked := false }

/-- Queue number of a descriptor. -/
def Stream.queue (v : Stream) : Nat := bits v.desc.toNat 22 22

/-- A queue opens; with no entry to fetch its object is written at once (R198, R199). -/
def opSqopen (d a b c : Reg) : QOp where
  kind := .engine
  elems := false
  ra := a
  rb := b
  rc := c
  rd := d
  post := withObj d fun s h e =>
    let v := sqDesc e
    firstTrap [((s.stream h v.queue).isSome, engineArg 2 3),
      (areaMeets s (coreOf h) v.area.1 v.area.2, engineArg 3 3),
      (e.va.toNat % 64 != 0, engineArg 0 1),
      (e.vb.toNat % 64 != 0, engineArg 0 2),
      (bits e.vc.toNat 63 35 != 0 || bit e.vc.toNat 23 || decide (0x200000 < v.area.1 + v.area.2), engineArg 1 3)]
  run := fun s h e _ _ =>
    match s.objPending h d e.vd with
    | (s, _, some t) => { state := s, trap := some t }
    | (s, pa, none) =>
      let v := { sqDesc e with objPa := pa, x := s.xctx h, done := (sqDesc e).count == 0 }
      let s1 := s.modHart h (Hart.setStream v.queue (some v))
      { state := if v.done then s1.streamObject h v (engineStatus codeOK 0 0) else s1 }

/-- The queue that an open SQPOP or SQCLOSE names: a parked one is not open to them. -/
def State.openStream (s : State) (h q : Nat) : Option Stream := (s.stream h q).bind fun v => if v.parked then none else some v

/-- R201. -/
def opSqclose (d a : Reg) : QOp where
  kind := .engine
  elems := false
  ra := a
  rd := d
  post := withObj d fun s h e => if (s.openStream h (e.va.toNat % 2)).isSome then none else some (engineArg 2 1)
  run := fun s h e _ _ =>
    let q := e.va.toNat % 2
    match s.openStream h q with
    | none => { state := s }
    | some v =>
      match s.objPending h d e.vd with
      | (s, _, some t) => { state := s, trap := some t }
      | (s, pa, none) =>
        { state := (s.streamClose h q v).writeObject h (s.hart h).kernel e.vd pa (engineStatus codeOK 0 v.popped) e.pc }

/-- R199: the access side completes an entry fetch. -/
def execStreamEntryFetched (h q : Nat) (s : State) : Out := .next (s.streamFetch h q)

/-- Bytes of a slot that hold element i of the name a pop writes: the first, and how many. -/
def slotBytes (w i : Nat) : Nat × Nat := (i * w / 8, (w + 7) / 8)

/-- The plane write of a pop (R200): entry p of queue q into a name; x operands a and b of the entry hold q and p. Its groups are written as the slot's
bytes arrive (R310), and it restarts at ESTART like any load. -/
def popWrite (n : Reg) : QOp where
  width := 8
  oneRow := true
  byName := some n
  inOrder := true
  len := fun a e => (((a.streams.toList[e.va.toNat]?.join).map Stream.len).getD 0) * 8 / (a.getDef n).width
  names := fun a e =>
    let w := (a.getDef n).width
    let E := (((a.streams.toList[e.va.toNat]?.join).map Stream.len).getD 0) * 8 / w
    [⟨n, 0, w, E, true, false, true, e.startsAt, E, false⟩]
  run := fun s h e lo hi =>
    match s.stream h e.va.toNat with
    | none => { state := s }
    | some v =>
      let w := ((s.hart h).getDef n).width
      eachElem (fun s i =>
        let pa := v.slotPa (coreOf h) e.vb.toNat + (slotBytes w i).1
        match s.badRange pa (slotBytes w i).2 with
        | some (src, b) =>
          (s.logBad src 0 b (hartId h), some ⟨causeMachineCheck, mcValue false src (b - localPa (coreOf h) 0), none⟩)
        | none =>
          let x := leNat (s.homeBytes pa (slotBytes w i).2) / 2 ^ (i * w % 8) % 2 ^ w
          (s.modCore (coreOf h) fun c => c.setElem ((s.hart h).shapeOf n) i x, none)) (elemRange lo hi) s
  finish := fun s h e =>
    match s.stream h e.va.toNat with
    | none => s
    | some v => s.modHart h (Hart.setStream e.va.toNat
        (some { v with full := v.full &&& ~~~((1 : BitVec 16) <<< (e.vb.toNat % v.slots)) }))

/-! ### Tiles (R206, R207) -/

/-- Row bytes and pitch of a row descriptor. -/
def rowBytes (c : Word) : Nat := bits c.toNat 15 0
def rowPitch (c : Word) : Word := .ofInt 64 (sxi 48 (bits c.toNat 63 16))

/-- The operand checks of R206. -/
def rowChecks (e : QEntry) : Option Trap :=
  firstTrap [(!([32, 64, 128, 256, 512, 1024, 2048, 4096].contains (rowBytes e.vc)), engineArg 1 3),
    (e.vb.toNat % 32 != 0, engineArg 0 2), (bits e.vc.toNat 63 16 % 32 != 0, engineArg 0 3)]

/-- The tile entry of an operation changed. -/
def State.modTile (s : State) (h tile : Nat) (f : Tile → Tile) : State :=
  s.modCore (coreOf h) fun k => k.setTile tile (f (k.tile tile))

/-- A command that starts an operation and, where it does, changes the state. -/
def Done.andThen (r : Done) (f : State → State) : Done :=
  match r.trap with
  | some _ => r
  | none => { r with state := f r.state }

/-- TFETCH starts: the tile's entry is FILLING and owned by the running context (R155). -/
def startFill (d : Reg) (s : State) (h : Nat) (e : QEntry) (_ _ : Nat) : Done :=
  (s.startOp h d e.vd e.pc fun _ => .fill e.va.toNat e.vb (rowBytes e.vc) (rowPitch e.vc)).andThen fun s =>
    s.modTile h e.va.toNat fun t => { t with st := .filling, owner := some (s.hart h).ctx, flt := false }

/-- TDRAIN starts: the tile's entry is DRAINING (R155). -/
def startDrain (d : Reg) (s : State) (h : Nat) (e : QEntry) (_ _ : Nat) : Done :=
  (s.startOp h d e.vd e.pc fun _ => .drain e.va.toNat e.vb (rowBytes e.vc) (rowPitch e.vc)).andThen fun s =>
    s.modTile h e.va.toNat fun t => { t with st := .draining, flt := false }

/-- R206. -/
def opTfetch (d a b c : Reg) : QOp :=
  { command d a b c
      (fun s h e => (tileCheck s h e.va Tile.forFill).or
        ((firstTrap [(s.inStreamArea (coreOf h) (4096 * e.va.toNat) 4096, engineArg 3 1)]).or (rowChecks e)))
      (fun _ _ e => .fill e.va.toNat e.vb (rowBytes e.vc) (rowPitch e.vc)) with
    run := startFill d }

/-- R206: issues once no matrix instruction uses the tile (R155). -/
def opTdrain (d a b c : Reg) : QOp :=
  { command d a b c
      (fun s h e => (tileCheck s h e.va Tile.forDrain).or (rowChecks e))
      (fun _ _ e => .drain e.va.toNat e.vb (rowBytes e.vc) (rowPitch e.vc)) with
    ready := fun s h e => decide (512 ≤ e.va.toNat) || ((s.core (coreOf h)).tile e.va.toNat).uses == 0
    run := startDrain d }

/-- The pieces of a fill in order, each through the read-only path into the tile: where it faults, the tile offset and the error. -/
def fillN (o : Op) (tile : Nat) : List (Nat × Word × Nat) → State → State × Option (Nat × MemErr)
  | [], s => (s, none)
  | (off, va, n) :: l, s =>
    match s.probe o.x va .load with
    | (s, .error e) => (s, some (off, e))
    | (s, .ok pa) =>
      match s.roLoadBy o.agent o.x va pa n with
      | (s, .error e) => (s, some (off, e))
      | (s, .ok bs) =>
        let dst := localPa (coreOf o.h) (4096 * tile + off)
        fillN o tile l (State.afterStore s (s.localWrite dst bs) o.agent false false dst n)

/-- The pieces of a drain in order, each an ordinary store at core scope. -/
def drainN (o : Op) (tile : Nat) : List (Nat × Word × Nat) → State → State × Option (Nat × MemErr)
  | [], s => (s, none)
  | (off, va, n) :: l, s =>
    let src := localPa (coreOf o.h) (4096 * tile + off)
    match s.badRange src n with
    | some (k, b) => (s.logBad k va b (hartId o.h), some (off, .bad k b))
    | none =>
      match s.memStore o.agent o.x o.kernel va (s.homeBytes src n) with
      | (s, .error e) => (s, some (off, e))
      | (s, .ok ()) => drainN o tile l s

/-- The pieces of a fill whose tile sectors have not been filled ahead of its end (R232). -/
def Op.fillTodo (o : Op) (l : List (Nat × Word × Nat)) : List (Nat × Word × Nat) := l.filter fun p => !o.done.contains (p.1 / 64)

/-- The pieces of an operation that it has not performed ahead of its end (R232). -/
def Op.todo {α : Type} (o : Op) (l : List α) : List α :=
  if o.done.isEmpty then l else (l.zipIdx.filter fun x => !o.done.contains x.2).map (·.1)

/-- Piece n of an operation has been performed. -/
def State.doPiece (s : State) (o : Op) (n : Nat) : State := s.setOp { o with done := n :: o.done }

/-- A fill ends: READY with its object OK, or EMPTY with FLT (R155, R207). `want` says which ending the event is. -/
def State.endFill (s : State) (id : Nat) (want : Bool) : State :=
  match s.running id with
  | some o =>
    match o.kind with
    | .fill tile va rb pitch =>
      match fillN o tile (o.fillTodo (tilePieces true va rb pitch)) s with
      | (s1, none) => if want then (s1.modTile o.h tile fun t => { t with st := .ready }).endOp o (engineStatus codeOK 0 4096) else s
      | (s1, some (off, e)) =>
        if want then s else (s1.modTile o.h tile fun t => { t with st := .empty, flt := true }).failOp o e.reason off
    | _ => s
  | none => s

/-- A drain ends: EMPTY with its owner cleared, but for one issued at supervisor privilege (R336; log 67), or READY with FLT (R155, R207). -/
def State.endDrain (s : State) (id : Nat) (want : Bool) : State :=
  match s.running id with
  | some o =>
    match o.kind with
    | .drain tile va rb pitch =>
      match drainN o tile (o.todo (tilePieces false va rb pitch)) s with
      | (s1, none) =>
        if want then (s1.modTile o.h tile fun t => { t with st := .empty, owner := if o.x.sup then t.owner else none }).endOp o (engineStatus codeOK 0 4096) else s
      | (s1, some (off, e)) =>
        if want then s else (s1.modTile o.h tile fun t => { t with st := .ready, flt := true }).failOp o e.reason off
    | _ => s
  | none => s

/-- R207. -/
def execTileFillComplete (id : Nat) (s : State) : Out := .next (s.endFill id true)
/-- R155. -/
def execTileFillFault (id : Nat) (s : State) : Out := .next (s.endFill id false)
/-- R155. -/
def execTileDrainComplete (id : Nat) (s : State) : Out := .next (s.endDrain id true)
/-- R207. -/
def execTileDrainFault (id : Nat) (s : State) : Out := .next (s.endDrain id false)

/-! ### Async copy (R208, R209) -/

/-- What the descriptor read at issue decides: a REASON, or 0 where there is nothing to copy, or none where the copy runs. -/
def copyVerdict (bs : List Byte) (err : Option MemErr) : Option Nat :=
  match err with
  | some e => some e.reason
  | none =>
    let inner := fieldAt bs 0 4
    if inner = 0 ∨ 2 ^ 24 < inner then some 7 else if copyTotal bs = 0 then some 0 else none

/-- ACOPY starts: the descriptor is read once (R208). -/
def startCopy (d : Reg) (s : State) (h : Nat) (e : QEntry) (_ _ : Nat) : Done :=
  let r := s.loadRun (.engine h e.pc) (s.xctx h) e.vc 64
  r.1.startOp h d e.vd e.pc fun _ => .copy e.va e.vb r.2.1 (copyVerdict r.2.1 r.2.2)

/-- R208. -/
def opAcopy (d a b c : Reg) : QOp :=
  { command d a b c (fun _ _ e => firstTrap [(e.vc.toNat % 64 != 0, engineArg 0 3)]) (fun _ _ e => .copy e.va e.vb [] none) with
    run := startCopy d }

/-- R209: the copy runs to its end. -/
def execAcopyComplete (id : Nat) (s : State) : Out :=
  .next (match s.running id with
    | some o =>
      match o.kind with
      | .copy _ _ desc _ => s.copyAdvance o (copyTotal desc + 1)
      | _ => s
    | none => s)

/-! ### In-bank transforms (R187, R188, R210, R211) -/

/-- Bytes of alignment of x[a] and x[b] by operation. -/
def bankAlign (fn : Nat) : Nat := [256, 256, 16, 32, 256, 256, 1].getD fn 1

/-- A BANKOP. -/
def bankop (fn : Nat) (d a b c : Reg) : QOp :=
  command d a b c
    (fun _ _ e => firstTrap [(e.va.toNat % bankAlign fn != 0, engineArg 0 1), (e.vb.toNat % bankAlign fn != 0, engineArg 0 2),
      (fn == 6 && e.vc.toNat % 4 != 0, engineArg 0 3)])
    (fun _ _ e => .bankop fn e.va e.vb.toNat e.vc [] false 0)

/-- R210. -/
def opBankopSplit (d a b c : Reg) : QOp := bankop 0 d a b c
/-- R210. -/
def opBankopJoin (d a b c : Reg) : QOp := bankop 1 d a b c
/-- R210. -/
def opBankopXp8 (d a b c : Reg) : QOp := bankop 2 d a b c
/-- R210. -/
def opBankopXp16 (d a b c : Reg) : QOp := bankop 3 d a b c
/-- R210. -/
def opBankopDenc (d a b c : Reg) : QOp := bankop 4 d a b c
/-- R210. -/
def opBankopDdec (d a b c : Reg) : QOp := bankop 5 d a b c
/-- R211. -/
def opBankopZsum (d a b c : Reg) : QOp := bankop 6 d a b c

/-- Lines that a range meets. -/
def rangeLines (start : Word) (len : Nat) : Nat := if len = 0 then 0 else (start.toNat % 256 + len + 255) / 256

/-- Address and bytes of the n-th line's part of a range. -/
def linePart (start : Word) (len n : Nat) : Word × Nat :=
  let lo := if n = 0 then 0 else 256 * n - start.toNat % 256
  (start + w64 lo, Nat.min len (256 * (n + 1) - start.toNat % 256) - lo)

/-- 256 elements to the bit-plane layout of R73. -/
def splitLine (l : List Byte) : List Byte :=
  (List.range 256).map fun i =>
    .ofNat 8 ((List.range 8).foldl (fun v k => v + (if (l.getD (i % 32 * 8 + k) 0).getLsbD (7 - i / 32) then 2 ^ k else 0)) 0)
/-- Its inverse. -/
def joinLine (l : List Byte) : List Byte :=
  (List.range 256).map fun c =>
    .ofNat 8 ((List.range 8).foldl (fun v j => v + (if (l.getD (32 * j + c / 8) 0).getLsbD (c % 8) then 2 ^ (7 - j) else 0)) 0)
/-- Groups of a 4 × 4 matrix of elements of w bytes, each transposed. -/
def transposeGroups (w : Nat) (l : List Byte) : List Byte :=
  (List.range l.length).map fun i =>
    let g := i / (16 * w)
    let e := i % (16 * w) / w
    l.getD (g * 16 * w + (e % 4 * 4 + e / 4) * w + i % w) 0
/-- Elements of w bits as differences. -/
def deltaLine (w : Nat) (l : List Byte) : List Byte :=
  let v := (List.range (l.length * 8 / w)).map fun i => fieldAt l (i * w / 8) (w / 8)
  (v.zipIdx).flatMap fun x => leBytes (w / 8) (if x.2 = 0 then x.1 else (x.1 + 2 ^ w - v.getD (x.2 - 1) 0) % 2 ^ w)
/-- Running sums from a value on. -/
def sumsFrom (w : Nat) : Nat → List Nat → List Nat
  | _, [] => []
  | acc, x :: l => (acc + x) % 2 ^ w :: sumsFrom w ((acc + x) % 2 ^ w) l
/-- Elements of w bits as running sums. -/
def sumLine (w : Nat) (l : List Byte) : List Byte :=
  (sumsFrom w 0 ((List.range (l.length * 8 / w)).map fun i => fieldAt l (i * w / 8) (w / 8))).flatMap (leBytes (w / 8))

/-- What an operation makes of the bytes of its part of a line. -/
def bankTransform (fn : Nat) (arg : Word) (l : List Byte) : List Byte :=
  match fn with
  | 0 => splitLine l
  | 1 => joinLine l
  | 2 => transposeGroups 1 l
  | 3 => transposeGroups 2 l
  | 4 => deltaLine (8 * 2 ^ (arg.toNat % 4)) l
  | 5 => sumLine (8 * 2 ^ (arg.toNat % 4)) l
  | _ => l

/-- R187: the n-th per-line operation, once. -/
def State.bankLine (s : State) (id n : Nat) : State :=
  match s.running id with
  | some o =>
    match o.kind with
    | .bankop fn start len arg done nonzero faulted =>
      if rangeLines start len ≤ n ∨ done.contains n then s
      else
        let p := linePart start len n
        let mark (nz : Bool) (f : Nat) (s : State) : State :=
          s.setOp { o with kind := .bankop fn start len arg (n :: done) (nonzero || nz) (if faulted = 0 then f else faulted) }
        match s.memLoad o.agent o.x p.1 p.2 with
        | (s, .error e) => mark false e.reason s
        | (s, .ok bs) =>
          if fn = 6 then mark (bs.any (· != 0)) 0 s
          else
            match s.memStore o.agent o.x o.kernel p.1 (bankTransform fn arg bs) with
            | (s, .error e) => mark false e.reason s
            | (s, .ok ()) => mark false 0 s
    | _ => s
  | none => s

/-- R187. -/
def execBankopLineOperation (id n : Nat) (s : State) : Out := .next (s.bankLine id n)

/-- R188: after every per-line operation the result word, then the object. -/
def execBankopComplete (id : Nat) (s : State) : Out :=
  .next (match s.running id with
    | some o =>
      match o.kind with
      | .bankop fn start len arg done nonzero faulted =>
        if done.length < rangeLines start len then s
        else if faulted ≠ 0 then s.failOp o faulted 0
        else if fn = 6 then
          match s.memStore o.agent o.x o.kernel arg (leBytes 4 (if nonzero then 1 else 0)) with
          | (s, .error e) => s.failOp o e.reason 0
          | (s, .ok ()) => s.endOp o (engineStatus codeOK 0 len)
        else s.endOp o (engineStatus codeOK 0 len)
      | _ => s
    | none => s)

/-! ### Stores of an operation at device scope -/

/-- A store of bytes within one sector at its device-scope home. -/
def State.devStore (s : State) (o : Op) (va : Word) (bs : List Byte) : Res Unit :=
  if o.x.inRecords va then (s.recordStore o.x.h va.toNat bs, .ok ())
  else match s.probe o.x va .store with
  | (s, .error e) => (s, .error e)
  | (s, .ok pa) =>
    match s.place pa with
    | .mgmt off => (s.mgmtStore off bs, .ok ())
    | .nothing => (s, .error (.refused 6))
    | _ =>
      if s.storeRefused pa bs.length then (s, .error .noStore)
      else if s.peerRefuses o.x.ctx pa bs.length then (s, .error peerError)
      else
        let r := s.homeStore o.agent false (coreOf o.h) va pa bs
        if r.2 then (if o.x.sup then r.1 else r.1.noteDirty o.kernel va bs.length, .ok ()) else (r.1, .error (.bad 4 pa))

/-- Whether a line of device memory may be written whole (R185). -/
def State.wholeLine (s : State) (o : Op) (va : Word) : Bool :=
  match (s.translate o.x va .store).1 with
  | .ok pa => (match s.place pa with
    | .device _ => true
    | _ => false) && !s.storeRefused pa 256
  | _ => false

/-- Stores of consecutive bytes at device scope, a line where all of it is written, else a sector at a time: the bytes written before an error, and the error. -/
def devStoreN : Nat → State → Op → Word → List Byte → State × Nat × Option MemErr
  | 0, s, _, _, _ => (s, 0, none)
  | f + 1, s, o, va, bs =>
    if bs.isEmpty then (s, 0, none)
    else
      let k := if va.toNat % 256 = 0 ∧ 256 ≤ bs.length ∧ s.wholeLine o va then 256 else Nat.min bs.length (64 - va.toNat % 64)
      match s.devStore o va (bs.take k) with
      | (s, .error e) => (s, 0, some e)
      | (s, .ok ()) =>
        match devStoreN f s o (va + w64 k) (bs.drop k) with
        | (s, m, e) => (s, k + m, e)

/-- Stores of consecutive bytes at device scope. -/
def State.devStoreRun (s : State) (o : Op) (va : Word) (bs : List Byte) : State × Nat × Option MemErr :=
  devStoreN (bs.length / 64 + 2) s o va bs

/-! ### Far reads (R214, R360 to R362) -/

/-- Every byte of a range lies in host memory (R364). -/
def State.inHost (s : State) (base n : Nat) : Bool :=
  n == 0 || (decide (base + n ≤ Config.peerBase) && (decide (base + n ≤ s.hdm) || decide (s.hdm + Config.hdmLen ≤ base)))

/-- The limits of an entry by its KIND (R360). -/
def State.entryOkay (s : State) (e : List Byte) : Bool :=
  let zero (i n : Nat) : Bool := fieldAt e i n == 0
  let len := fieldAt e 16 8
  zero 1 7 && match fieldAt e 0 1 with
    | 1 => zero 24 40 && s.inHost (fieldAt e 8 8) len
    | 2 =>
      let lbas := fieldAt e 28 1
      decide (9 ≤ lbas) && decide (lbas ≤ 12) && len % 2 ^ lbas == 0 && decide (2 ≤ fieldAt e 30 2) &&
        decide (fieldAt e 30 2 ≤ 4096) && zero 56 8
    | 3 => zero 24 40 && fieldAt e 8 8 % 64 == 0
    | _ => false

/-- The entry of a handle in the object table of a hart's context (R360): REASON 5 where it is not registered, 2 where it is uncorrectable. -/
def State.objectEntry (s : State) (h handle : Nat) : Except Nat (List Byte) :=
  let ctx := (s.hart h).ctx
  let c := s.context ctx
  let pa := c.objtab.toNat + 64 * handle
  if ctx = 0 ∨ !c.record.getLsbD 0 ∨ s.handles h ≤ handle then .error 5
  else if (s.badRange pa 64).isSome then .error 2
  else if s.entryOkay (s.homeBytes pa 64) then .ok (s.homeBytes pa 64) else .error 5

/-- The blocks of a KIND 2 object that cover a range of its bytes, in pieces of at most 128 KiB: first byte and bytes. -/
def nvmeBlocks (e : List Byte) (off len : Nat) : List (Nat × Nat) :=
  if len = 0 then []
  else
    let b := 2 ^ fieldAt e 28 1
    let lo := off / b * b
    let hi := (off + len + b - 1) / b * b
    (List.range ((hi - lo + 131071) / 131072)).map fun i => (lo + 131072 * i, Nat.min 131072 (hi - lo - 131072 * i))

/-- The operation of a far read at its issue: its entry, the bytes that lie in the object, and the reason it will end with. -/
def freadKind (s : State) (h : Nat) (e : QEntry) : OpKind :=
  let len := bits e.va.toNat 63 32
  let handle := bits e.va.toNat 11 0
  let off := e.vb.toNat
  if len = 0 then .fread handle [] 0 0 e.vc [] 0
  else
    match s.objectEntry h handle with
    | .error r => .fread handle [] off 0 e.vc [] r
    | .ok t =>
      let have_ := Nat.min len (fieldAt t 16 8 - off)
      .fread handle t off have_ e.vc (if fieldAt t 0 1 = 2 then nvmeBlocks t off have_ else []) (if have_ < len then 6 else 0)

/-- Number of a handle's submission queue. -/
def nvmeKey (ctx handle : Nat) : Nat := ctx * 4096 + handle

/-- The device's own state of a handle's queues, anew where the entry names others (R362). -/
def State.nvmeQueue (s : State) (key : Nat) (e : List Byte) : NvmeQueue :=
  let sq := w64 (fieldAt e 32 8)
  let cq := w64 (fieldAt e 40 8)
  let db := w64 (fieldAt e 48 8)
  let q := FMap.get (fun _ => ⟨0, 0, 0, 0, 0, true⟩) s.nvme key
  if q.sq = sq ∧ q.cq = cq ∧ q.db = db then q else ⟨sq, cq, db, 0, 0, true⟩

/-- A handle that is read unregistered has its queues start anew once it is registered again (R362). -/
def State.forgetQueue (s : State) (h handle : Nat) : State :=
  match s.objectEntry h handle with
  | .error 5 => { s with nvme := s.nvme.filter fun (e : Nat × NvmeQueue) => e.1 != nvmeKey (s.hart h).ctx handle }
  | _ => s

/-- Whether a handle for which the device keeps queue state is still a registered KIND 2 entry that names those queues (R362). -/
def State.keepsQueue (s : State) (e : Nat × NvmeQueue) : Bool :=
  let c := s.context (e.1 / 4096)
  let t := s.homeBytes (c.objtab.toNat + 64 * (e.1 % 4096)) 64
  c.record.getLsbD 0 && s.entryOkay t && fieldAt t 0 1 == 2 && w64 (fieldAt t 32 8) == e.2.sq && w64 (fieldAt t 40 8) == e.2.cq &&
    w64 (fieldAt t 48 8) == e.2.db

/-- The queue state of handles whose entries are registered no more, or name other queues, is forgotten: it starts anew (R362). -/
def State.forgetQueues (s : State) : State :=
  if s.nvme.isEmpty then s else { s with nvme := s.nvme.filter s.keepsQueue }

/-- An NVMe Read of blocks into a staging slot, as NVM Express lays a command out (log 40). -/
def nvmeRead (e : List Byte) (slot first len stage : Nat) : List Byte :=
  let b := 2 ^ fieldAt e 28 1
  leBytes 4 (0x4002 + slot * 65536) ++ leBytes 4 (fieldAt e 24 4) ++ List.replicate 16 0 ++ leBytes 8 (stage + slot * 131072) ++
    leBytes 4 len ++ List.replicate 4 0 ++ leBytes 8 (fieldAt e 8 8 + first / b) ++ leBytes 4 (len / b - 1) ++ List.replicate 12 0

/-- The slots lent to an operation. -/
def State.slotsOf (s : State) (id : Nat) : List (Nat × Staging) := s.staging.filter fun p => p.2.op == id

/-- Submits the next command of a far read where a slot is free and its queue has room. -/
def State.nvmeSubmit (s : State) (o : Op) : State :=
  match o.kind with
  | .fread handle e off len dst ((first, n) :: rest) failed =>
    let key := nvmeKey o.x.ctx handle
    let q := s.nvmeQueue key e
    let busy := (s.ops.filter fun p => p.x.ctx == o.x.ctx && match p.kind with
      | .fread h' .. => h' == handle
      | _ => false).foldl (fun k p => k + (s.slotsOf p.id).length) 0
    match (List.range 64).find? fun i => (FMap.find? s.staging i).isNone with
    | none => s
    | some slot =>
      if fieldAt e 30 2 - 1 ≤ busy then s
      else
        let s1 := s.unitStore (q.sq.toNat + 64 * q.tail) (nvmeRead e slot first n s.stageBase)
        let t := (q.tail + 1) % fieldAt e 30 2
        let s2 := s1.unitStore q.db.toNat (leBytes 4 t)
        { s2 with staging := FMap.put s2.staging slot ⟨o.id, first, n, q.cq⟩, nvme := FMap.put s2.nvme key { q with tail := t } }.setOp
          { o with kind := .fread handle e off len dst rest failed }
  | _ => s

/-- Submits as many commands of every far read as slots and queues allow, in issue order. -/
def nvmeSubmitN : Nat → State → List Nat → State
  | 0, s, _ => s
  | _, s, [] => s
  | f + 1, s, id :: l =>
    match s.findOp id with
    | none => nvmeSubmitN f s l
    | some o =>
      let s1 := s.nvmeSubmit o
      if s1.staging.length = s.staging.length then nvmeSubmitN f s l else nvmeSubmitN f s1 (id :: l)

/-- Submission after a slot may have come free. -/
def State.nvmeSubmitAll (s : State) : State := nvmeSubmitN (s.ops.length + 65) s (s.ops.map (·.id))

/-- A failure of a far read at an offset of its request: the lowest one stands. -/
def Op.failAt (o : Op) (off reason : Nat) : Op :=
  match o.kind with
  | .fread handle e o0 len dst blocks failed =>
    if off < o.prog then { o with prog := off, kind := .fread handle e o0 len dst blocks reason }
    else { o with kind := .fread handle e o0 len dst blocks failed }
  | _ => o

/-- PROG of a far read stands at the bytes that lie in the object until a byte below it fails. -/
def Op.atEnd (o : Op) (id : Nat) : Op :=
  match o.kind with
  | .fread _ _ _ len _ _ _ => if o.id = id then { o with prog := len } else o
  | _ => o

/-- FREAD starts (R214). -/
def startFread (d : Reg) (s : State) (h : Nat) (e : QEntry) (_ _ : Nat) : Done :=
  let id := s.nextOp
  let s := if bits e.va.toNat 63 32 = 0 then s else s.forgetQueue h (bits e.va.toNat 11 0)
  (s.startOp h d e.vd e.pc fun s => freadKind s h e).andThen fun s =>
    { s with ops := s.ops.map fun (o : Op) => o.atEnd id }.nvmeSubmitAll

/-- R214. -/
def opFread (d a b c : Reg) : QOp :=
  { command d a b c (fun _ _ e => firstTrap [(bits e.va.toNat 31 12 != 0, engineArg 1 1)]) (fun s h e => freadKind s h e) with
    run := startFread d }

/-- The device takes an entry of the completion queue of a handle: the head and its doorbell move on, where the queue is still the handle's. -/
def State.nvmeHead (s : State) (key : Nat) (e : List Byte) (cq : Word) : State :=
  let q := s.nvmeQueue key e
  if q.cq ≠ cq then s
  else
    let head := (q.head + 1) % fieldAt e 30 2
    let s1 := s.unitStore (q.db.toNat + 4 * 2 ^ fieldAt e 29 1) (leBytes 4 head)
    { s1 with nvme := FMap.put s1.nvme key { q with head := head, phase := if head = 0 then !q.phase else q.phase } }

/-- R361, R362: an entry of a completion queue names a slot lent to that queue, or is ignored; a good command's requested bytes go from the slot to
the destination. -/
def execNvmeCompletion (slot : StagedSlot) (status : Nat) (s : State) : Out :=
  .next (match (FMap.find? s.staging slot.index).filter fun g => g.cq == slot.cq with
    | none => s
    | some g =>
      match s.running g.op with
      | none => s
      | some o =>
        match o.kind with
        | .fread handle e off len dst _ _ =>
          let lo := Nat.max g.first off
          let hi := Nat.min (g.first + g.len) (off + len)
          let s1 := s.nvmeHead (nvmeKey o.x.ctx handle) e slot.cq
          let s2 := { s1 with staging := s1.staging.filter fun p => p.1 != slot.index }
          let s3 :=
            if status ≠ 0 then s2.setOp (o.failAt (lo - off) 4)
            else
              let bs := s2.homeBytes (s2.stageBase + slot.index * 131072 + (lo - g.first)) (hi - lo)
              match s2.devStoreRun o (dst + w64 (lo - off)) bs with
              | (t, m, some er) => t.setOp (o.failAt (lo - off + m) er.reason)
              | (t, _, none) => t
          s3.nvmeSubmitAll
        | _ => s)

/-! ### ROINV and CMREAD (R212, R213) -/

/-- R212. -/
def opRoinv : QOp where
  kind := .other
  elems := false
  owner := false
  run := fun s h _ _ _ => { state := s.modCore (coreOf h) fun c => { c with ro := [] } }

/-- The value CMREAD writes for a physical address: the tag, bit 9 where its parity fails, 0x100 where there is none. -/
def State.tagValue (s : State) (pa : Nat) : Word :=
  match s.place pa with
  | .device off =>
    let t := s.tag ((s.hdm + off) / 256)
    let odd := (List.range 8).foldl (fun b i => xor b (t.getLsbD i)) false
    w64 (t.toNat + if odd then 512 else 0)
  | _ => 0x100

/-- R213. -/
def execCmread (d a : Reg) (s : State) : Out :=
  let va := s.h.getX a
  if s.h.storeAhead va 1 then .next s
  else
    match s.probeVa s.cur va .load with
    | (s1, .ok pa) => writeX s1 d (s1.tagValue pa)
    | (s1, .error t) => raiseIn s s1 t

/-! ### The arms -/

/-- R198. -/
def execSqopen (d a b c : Reg) (st : State) : Out :=
  commitQueued (.sqopen d a b c) (opSqopen d a b c) st
/-- R201. -/
def execSqclose (d a : Reg) (st : State) : Out :=
  commitQueued (.sqclose d a) (opSqclose d a) st
/-- R206. -/
def execTfetch (d a b c : Reg) (st : State) : Out :=
  commitQueued (.tfetch d a b c) (opTfetch d a b c) st
/-- R206. -/
def execTdrain (d a b c : Reg) (st : State) : Out :=
  commitQueued (.tdrain d a b c) (opTdrain d a b c) st
/-- R208. -/
def execAcopy (d a b c : Reg) (st : State) : Out :=
  commitQueued (.acopy d a b c) (opAcopy d a b c) st
/-- R210. -/
def execBankopSplit (d a b c : Reg) (st : State) : Out :=
  commitQueued (.bankopSplit d a b c) (opBankopSplit d a b c) st
/-- R210. -/
def execBankopJoin (d a b c : Reg) (st : State) : Out :=
  commitQueued (.bankopJoin d a b c) (opBankopJoin d a b c) st
/-- R210. -/
def execBankopXp8 (d a b c : Reg) (st : State) : Out :=
  commitQueued (.bankopXp8 d a b c) (opBankopXp8 d a b c) st
/-- R210. -/
def execBankopXp16 (d a b c : Reg) (st : State) : Out :=
  commitQueued (.bankopXp16 d a b c) (opBankopXp16 d a b c) st
/-- R210. -/
def execBankopDenc (d a b c : Reg) (st : State) : Out :=
  commitQueued (.bankopDenc d a b c) (opBankopDenc d a b c) st
/-- R210. -/
def execBankopDdec (d a b c : Reg) (st : State) : Out :=
  commitQueued (.bankopDdec d a b c) (opBankopDdec d a b c) st
/-- R211. -/
def execBankopZsum (d a b c : Reg) (st : State) : Out :=
  commitQueued (.bankopZsum d a b c) (opBankopZsum d a b c) st
/-- R214. -/
def execFread (d a b c : Reg) (st : State) : Out :=
  commitQueued (.fread d a b c) (opFread d a b c) st
/-- R212. -/
def execRoinv  (st : State) : Out :=
  commitQueued (.roinv) opRoinv st

end Sys2Proof.Machine
end

