-- ==== Sys2Proof/Machine/Fabric.lean ====
section
/-! DEFINITION. The Kwaren fabric (R363 to R374): the four fabric commands and the ends of their operations, what peers' packets and
requests do here, links, acknowledgements and halt notices. -/
namespace Sys2Proof.Machine

/-! ### Sequences (R367) -/

/-- What a source's packets have done here. -/
def State.received (s : State) (src : Nat) : Received := FMap.get (fun _ => ⟨0, []⟩) s.fabric.recv src

/-- Whether a sequence is recorded. -/
def Received.has (r : Received) (seq : Nat) : Bool := decide (seq < r.below) || r.above.contains seq

/-- The applied point moved past the sequences that join it. -/
def advanceBelow : Nat → Nat → List Nat → Received
  | 0, b, l => ⟨b, l⟩
  | n + 1, b, l => if l.contains b then advanceBelow n (b + 1) (l.filter (· != b)) else ⟨b, l⟩

/-- A sequence recorded. -/
def Received.record (r : Received) (seq : Nat) : Received :=
  if r.has seq then r else advanceBelow (r.above.length + 1) r.below (insertNat seq r.above)

/-- A sequence of a source recorded. -/
def State.recordSeq (s : State) (src seq : Nat) : State :=
  { s with fabric := { s.fabric with recv := FMap.put s.fabric.recv src ((s.received src).record seq) } }

/-- What this chip has sent to a target. -/
def State.sentTo (s : State) (chip : Nat) : Sent := FMap.get (fun _ => ⟨0, [], 0⟩) s.fabric.sent chip

/-- Whether a packet of an engine has been sent: it has its place among the 4,096 that may be unacknowledged, and no halt of the chip holds it (R367,
R373). -/
def State.isSent (s : State) (chip seq : Nat) : Bool :=
  ((s.sentTo chip).unacked.take 4096).contains seq && (!s.fabric.held || decide (seq < (s.sentTo chip).holdFrom))

/-- A sequence of this chip acknowledged, or abandoned. -/
def State.dropSent (s : State) (chip seq : Nat) : State :=
  let d := s.sentTo chip
  { s with fabric := { s.fabric with sent := FMap.put s.fabric.sent chip { d with unacked := d.unacked.filter (· != seq) } } }

/-- n sequences of an operation, from one on, that need no acknowledgement any more; what this chip sent to itself is recorded, so that its record
advances (R367). -/
def State.settleSeqs (s : State) (chip seq n : Nat) : State :=
  (List.range n).foldl (fun s i =>
    let s1 := s.dropSent chip (seq + i)
    if chip = s.fabric.chip then s1.recordSeq chip (seq + i) else s1) s

/-- Write packets that carry some bytes of a body, at most 4,096 each and at least one (R366). How a body is cut the manual leaves open (DESIGN CHOICE,
log 79). -/
def packetsFor (bytes : Nat) : Nat := Nat.max 1 ((bytes + 4095) / 4096)

/-- The answer that a peer receives to its last request. -/
def State.answer (s : State) (l : List (Option Word)) : State := { s with fabric := { s.fabric with reply := l } }

/-! ### Domains, remote addresses and exports (R363, R365, R420) -/

/-- The context bound to a fabric domain; the lowest where several are. -/
def State.domainCtx (s : State) (domain : Nat) : Option Nat :=
  (List.find? (fun (e : Nat × Context) => e.1 != 0 && e.2.dbind && e.2.domain == domain) s.contexts).map (·.1)

/-- The 256 bytes of a context's record, all 0 where it cannot be read: a context without a KEYSLOT, whose launch is refused with reason 7, and without
a root (DESIGN CHOICE, log 75). Its REG bit is tested apart. -/
def State.ctxRecord (s : State) (ctx : Nat) : List Byte :=
  let pa := (s.context ctx).record.toNat / 256 * 256
  if (s.badRange pa 256).isSome then List.replicate 256 0 else s.homeBytes pa 256

/-- The SATP field of a context's record (R316). -/
def State.ctxRoot (s : State) (ctx : Nat) : Word := w64 (fieldAt (s.ctxRecord ctx) 0 8)

/-- Chip number of a remote address. -/
def remoteChip (a : Word) : Nat := bits a.toNat 63 57

/-- Translates the virtual part of a remote address at its target, under the context bound to the domain: its physical address, or
the REASON of a refusal. Key slots are not checked (R418); number 2,560 names no hart, so no cached translation is met and the local
stores of every camp are refused. -/
def State.remoteXlat (s : State) (domain : Nat) (a : Word) (acc : Access) : State × Except Nat Nat :=
  match s.domainCtx domain with
  | none => (s, .error 1)
  | some ctx =>
    let va := canonical a
    let s := s.noteBad 0 ((s.context ctx).record.toNat / 256 * 256) 256
    let x : XCtx := ⟨Config.numHarts, false, s.ctxRoot ctx, ctx, (s.context ctx).keySlot⟩
    match (s.translate x va acc).1 with
    | .ok pa => (s, .ok pa)
    | .uncorrectable e => (s.logBad 0 0 e 0xFFFF, .error 2)
    | .refused r =>
      if r = 7 then
        match s.walk x acc va.toNat 4 (bits x.root.toNat 43 0) with
        | (.refused 7, some (level, e)) => (s, .ok (s.fold ((pteOf e).ppn * 4096 + va.toNat % 2 ^ (12 + 9 * level))))
        | _ => (s, .error 1)
      else (s, .error 1)

/-- Whether an entry of an export table allows a source a range. -/
def exportMatches (e : List Byte) (src domain off n : Nat) (rd wr : Bool) : Bool :=
  fieldAt e 0 1 == src && decide (fieldAt e 1 1 < 4) && fieldAt e 2 2 == domain && fieldAt e 4 4 == 0 && fieldAt e 24 8 == 0 &&
    fieldAt e 8 8 % 4096 == 0 && fieldAt e 16 8 % 4096 == 0 && (!rd || bit (fieldAt e 1 1) 0) && (!wr || bit (fieldAt e 1 1) 1) &&
    decide (fieldAt e 8 8 ≤ off) && decide (off + n ≤ fieldAt e 8 8 + fieldAt e 16 8)

/-- Whether a request through the peer window is performed (R365, R420); an entry that is uncorrectable allows nothing (R182). -/
def State.exported (s : State) (src domain off n : Nat) (rd wr : Bool) : Bool :=
  decide (off + n ≤ Config.hdmLen - Config.saveFromTop) && match s.domainCtx domain with
    | none => false
    | some ctx =>
      let x := (s.context ctx).export_.toNat
      (List.range (x % 256)).any fun i =>
        let e := x / 4096 * 4096 + 32 * i
        (s.badRange e 32).isNone && exportMatches (s.homeBytes e 32) src domain off n rd wr

/-- The reports of the uncorrectable entries of the export table that a request of a domain is held to (R406). -/
def State.noteExports (s : State) (domain : Nat) : State :=
  match s.domainCtx domain with
  | none => s
  | some ctx =>
    let x := (s.context ctx).export_.toNat
    (List.range (x % 256)).foldl (fun s i => s.noteBad 0 (x / 4096 * 4096 + 32 * i) 32) s

/-! ### Accesses of a peer at their home -/

/-- A read of n bytes at their home for a peer; the REASON where it is refused. -/
def State.peerLoad (s : State) (src pa n : Nat) : State × Except Nat (List Byte) :=
  match s.badRange pa n with
  | some (k, b) => (s.logBad k 0 b 0xFFFF, .error 2)
  | none => (s.afterLoad (.fabric src) true pa n, .ok (s.homeBytes pa n))

/-- A write of bytes at their home for a peer: REASON, 0 where it is performed. -/
def State.peerStore (s : State) (src : Nat) (atomic : Bool) (pa : Nat) (bs : List Byte) : State × Nat :=
  if s.storeRefused pa bs.length then (s, 3)
  else
    let r := s.homeWrite pa bs
    if r.2 then (State.afterStore s r.1 (.fabric src) true atomic pa bs.length, 0) else (r.1, 2)

/-- An atomic of a peer at its home, which sets or renews the external hold of the wide mark (R233): REASON and the old value. -/
def State.peerAtomic (s : State) (src pa n : Nat) (f : Nat → Nat) : State × Nat × Nat :=
  match s.peerLoad src pa n with
  | (s1, .error r) => (s1, r, 0)
  | (_, .ok _) =>
    let s := if s.storeRefused pa n then s else s.markAt pa (.external s.dtime.toNat)
    let old := leNat (s.homeBytes pa n)
    let r := s.peerStore src true pa (leBytes n (f old))
    (r.1, r.2, if r.2 = 0 then old else 0)

/-- An element of a gather at its target (R369). -/
def State.remoteElem (s : State) (src domain n : Nat) (a : Word) : State × Except Nat Word :=
  if a.toNat % n ≠ 0 then (s, .error 1)
  else
    match s.remoteXlat domain a .load with
    | (s, .error r) => (s, .error r)
    | (s, .ok pa) =>
      match s.peerLoad src pa n with
      | (s, .error r) => (s, .error r)
      | (s, .ok bs) => (s, .ok (w64 (leNat bs)))

/-- Element e of a packed list of w-bit elements (R41). -/
def packedElem (l : List Byte) (w e : Nat) : Nat :=
  if w < 8 then fieldAt l (e * w / 8) 1 / 2 ^ (e * w % 8) % 2 ^ w else fieldAt l (e * w / 8) (w / 8)

/-- The value an element of a remote-reduce packet decodes to (R370, R72). -/
def remoteReduceVal (fmt blk : Nat) (elems scales : List Byte) (e : Nat) : FVal :=
  let q := packedElem elems (fmtWidth fmt) e
  if 11 ≤ fmt then scaledVal fmt (fieldAt scales (e / (8 * 2 ^ blk)) 1) q else fdecode (ffmtOf fmt) q

/-- n additions of a remote-reduce packet from an element on, in ascending order (R370, R78): REASON of the first that is refused. -/
def reduceN : Nat → State → Nat → Nat → Word → (Nat → Option FVal) → Nat → State × Nat
  | 0, s, _, _, _, _, _ => (s, 0)
  | n + 1, s, src, domain, va, v, e =>
    match v e with
    | none => reduceN n s src domain va v (e + 1)
    | some x =>
      match s.remoteXlat domain (canonical va + w64 (4 * e)) .store with
      | (s, .error r) => (s, r)
      | (s, .ok pa) =>
        match s.badRange pa 4 with
        | some (k, b) => (s.logBad k 0 b 0xFFFF, 2)
        | none =>
          let sum := (fadd .rne fmtF32 (fdecode fmtF32 (leNat (s.homeBytes pa 4))) x).1
          match s.peerStore src false pa (leBytes 4 sum) with
          | (s, 0) => reduceN n s src domain va v (e + 1)
          | (s, r) => (s, r)

/-- A remote-reduce packet at its target, from an element on. -/
def State.applyReduce (s : State) (src domain : Nat) (va : Word) (vl fmt blk : Nat) (elems scales : List Byte)
    (mask : Option (List Byte)) (first : Nat := 0) : State × Nat :=
  if va.toNat % 4 ≠ 0 then (s, 1)
  else
    reduceN (vl - first) s src domain va (fun e =>
      if (match mask with
        | none => true
        | some m => bit (fieldAt m (e / 8) 1) (e % 8)) then some (remoteReduceVal fmt blk elems scales e) else none) first

/-- A flag at its target (R371): REASON. -/
def State.applyFlag (s : State) (src domain : Nat) (va value : Word) (isAdd : Bool) : State × Nat :=
  if va.toNat % 8 ≠ 0 then (s, 1)
  else
    match s.remoteXlat domain va .store with
    | (s, .error r) => (s, r)
    | (s, .ok pa) =>
      let r := s.peerAtomic src pa 8 fun old => if isAdd then (old + value.toNat) % 2 ^ 64 else value.toNat
      (r.1, r.2.1)

/-! ### Packets that arrive (R367, R370, R374) -/

/-- A stored line of a migration: written whole, with its tag, where the tag passes its check and the home takes it (R374). -/
def State.applyLine (s : State) (src off : Nat) (tag : Byte) (stored : List Byte) : State × Nat :=
  let pa := s.hdm + off
  if !tagOk tag then (s, 2)
  else
    match s.peerStore src false pa (expandLine tag (padTo 256 stored)) with
    | (t, 0) => ({ t with tags := FMap.set (fun _ => 0) t.tags (pa / 256) tag }, 0)
    | (t, r) => (t, r)

/-- The export table is read for a packet of a peer window. -/
def State.noteExportsOf (s : State) (p : Packet) : State :=
  match p.body with
  | .bytes .. | .atomic .. | .line .. => s.noteExports p.domain
  | _ => s

/-- The body of a packet performed: REASON of its refusal, and the value an atomic returns. -/
def State.applyBody (s : State) (p : Packet) : State × Nat × Option Word :=
  let s := s.noteExportsOf p
  match p.body with
  | .bytes off data =>
    if data.isEmpty then (s, 0, none)
    else if !s.exported p.src p.domain off data.length false true then (s, 1, none)
    else let r := s.peerStore p.src false (s.hdm + off) data; (r.1, r.2, none)
  | .atomic off op n operand =>
    if !(n == 4 || n == 8) || off % n != 0 || !s.exported p.src p.domain off n true true then (s, 1, none)
    else
      let r := s.peerAtomic p.src (s.hdm + off) n fun old => atomicNew op n old (operand.toNat % 2 ^ (8 * n))
      (r.1, r.2.1, if r.2.1 = 0 then some (w64 r.2.2) else none)
  | .line off tag stored =>
    if off % 256 ≠ 0 ∨ !s.exported p.src p.domain off 256 false true then (s, 1, none)
    else let r := s.applyLine p.src off tag stored; (r.1, r.2, none)
  | .reduce va vl fmt blk elems scales mask =>
    let r := s.applyReduce p.src p.domain va vl fmt blk elems scales mask
    (r.1, r.2, none)
  | .coll gid gen rank op nrank root len table off data =>
    if (s.domainCtx p.domain).isNone then (s, 1, none)
    else
      let c : Contribution := ⟨p.src, p.domain, gid, gen, rank, op, nrank, root, len, table, off, data⟩
      ({ s with fabric := { s.fabric with colls := s.fabric.colls ++ [c] } }, 0, none)

/-- Bytes that a packet carries. -/
def packetBytes (b : PacketBody) : Nat :=
  match b with
  | .bytes _ data => data.length
  | .atomic _ _ n _ => n
  | .line _ _ stored => stored.length
  | .reduce _ _ _ _ elems scales mask => elems.length + scales.length + (mask.getD []).length
  | .coll _ _ _ _ _ _ _ _ _ data => data.length

/-- The answer to a packet: a REASON, 0 for an acknowledgement, and what an atomic returns. -/
def packetAnswer (reason : Nat) (v : Option Word) : List (Option Word) :=
  some (w64 reason) :: match v with
    | some w => [some w]
    | none => []

/-- FABRIC_WRITE_PACKET (R367): applied once, recorded and acknowledged; one beyond the window, or longer than a packet is (R366), is corrupt and
discarded unanswered. -/
def execFabricWritePacket (p : Packet) (s : State) : Out :=
  let r := s.received p.src
  if 4096 < packetBytes p.body then .next (s.answer [])
  else if r.has p.seq then .next (s.answer (packetAnswer 0 none))
  else if r.below + 4096 ≤ p.seq then .next (s.answer [])
  else
    let b := s.applyBody p
    .next ((b.1.recordSeq p.src p.seq).answer (packetAnswer b.2.1 b.2.2))

/-- The elements of a request in order, none where refused. -/
def elemsN (f : State → Word → State × Except Nat Word) : State → List Word → State × List (Option Word)
  | s, [] => (s, [])
  | s, a :: l =>
    match f s a with
    | (s, .ok v) => let r := elemsN f s l; (r.1, some v :: r.2)
    | (s, .error _) => let r := elemsN f s l; (r.1, none :: r.2)

/-- An element read through the peer window. -/
def State.windowElem (src domain n : Nat) (s : State) (a : Word) : State × Except Nat Word :=
  let s := s.noteExports domain
  if a.toNat % n ≠ 0 ∨ !s.exported src domain a.toNat n true false then (s, .error 1)
  else
    match s.peerLoad src (s.hdm + a.toNat) n with
    | (s, .error r) => (s, .error r)
    | (s, .ok bs) => (s, .ok (w64 (leNat bs)))

/-- FABRIC_READ_REQUEST (R369, R365): the elements, none where refused. -/
def execFabricReadRequest (src domain width : Nat) (window : Bool) (addrs : List Word) (s : State) : Out :=
  let n := 2 ^ (width % 4)
  let r := if window then elemsN (State.windowElem src domain n) s addrs
    else elemsN (fun s a => s.remoteElem src domain n a) s addrs
  .next (r.1.answer r.2)

/-- FABRIC_FLAG_APPLY (R371): performed once every lower sequence of its source has been applied; until then it waits. -/
def execFabricFlagApply (src seq domain : Nat) (va value : Word) (isAdd : Bool) (s : State) : Out :=
  let r := s.received src
  if r.has seq then .next (s.answer (packetAnswer 0 none))
  else if r.below + 4096 ≤ seq then .next (s.answer [])
  else if r.below ≠ seq then .next s
  else
    let b := s.applyFlag src domain va value isAdd
    .next ((b.1.recordSeq src seq).answer (packetAnswer b.2 none))

/-! ### The commands (R368 to R372) -/

/-- A fabric command: its fork edge is at system scope, so what the core has written goes home first (R368). -/
def fabricCommand (d a b c : Reg) (check : State → Nat → QEntry → Option Trap) (start : State → Nat → QEntry → Done) : QOp :=
  { command d a b c check (fun _ _ _ => .fgather 0 0 0 0) with
    run := fun s h e _ _ => start (s.flush (coreOf h)) h e }

/-- The domain of an operation's context, where it is bound (R365). -/
def State.opDomain (s : State) (o : Op) : Option Nat :=
  let c := s.context o.x.ctx
  if c.dbind && o.x.ctx != 0 then some c.domain else none

/-- The sequences of n packets to a chip, another or this one, assigned at issue: the first of them. -/
def State.assignSeqs (s : State) (chip n : Nat) : State × Nat := ((List.range n).foldl (fun s _ => s.countPacket chip) s, (s.sentTo chip).next)

/-- FGATHER (R369). -/
def opFgather (d a b c : Reg) : QOp :=
  fabricCommand d a b c
    (fun _ _ e => firstTrap [(e.va.toNat % 8 != 0, engineArg 0 1),
      (bits e.vc.toNat 31 2 != 0 || decide (65536 < bits e.vc.toNat 63 32), engineArg 1 3)])
    (fun s h e => s.startOp h d e.vd e.pc fun _ => .fgather e.va e.vb (bits e.vc.toNat 1 0) (bits e.vc.toNat 63 32))

/-- The control word of FREDUCE breaks its limits (R370). -/
def reduceCtlBad (c : Word) : Bool :=
  let n := c.toNat
  bits n 63 46 != 0 || bits n 31 8 != 0 || decide (8192 < bits n 45 32) || decide (bits n 4 0 < 8) || decide (13 < bits n 4 0) ||
    (decide (11 ≤ bits n 4 0) != (bits n 6 5 != 0))

/-- The next multiple of 64. -/
def up64 (n : Nat) : Nat := (n + 63) / 64 * 64

/-- The parts of a packet body: bytes of the elements, offset and bytes of the scales, offset and bytes of the mask (R370). -/
def reduceParts (c : Word) : Nat × (Nat × Nat) × (Nat × Nat) :=
  let vl := bits c.toNat 45 32
  let fmt := bits c.toNat 4 0
  let blk := 8 * 2 ^ bits c.toNat 6 5
  let ne := (vl * fmtWidth fmt + 7) / 8
  let ns := if 11 ≤ fmt then (vl + blk - 1) / blk else 0
  let nm := if bit c.toNat 7 then (vl + 7) / 8 else 0
  (ne, (up64 ne, ns), (up64 (up64 ne + ns), nm))

/-- Bytes of the elements, scales and mask of a remote reduce. -/
def reduceBytes (vl fmt blk : Nat) (masked : Bool) : Nat :=
  (vl * fmtWidth fmt + 7) / 8 + (if 11 ≤ fmt then (vl + 8 * 2 ^ blk - 1) / (8 * 2 ^ blk) else 0) + if masked then (vl + 7) / 8 else 0

/-- FREDUCE starts: the body is read once (R370), and its packets have their sequences. -/
def startFreduce (d : Reg) (s : State) (h : Nat) (e : QEntry) : Done :=
  let p := reduceParts e.vc
  let vl := bits e.vc.toNat 45 32
  let fmt := bits e.vc.toNat 4 0
  let r := s.loadRun (.engine h e.pc) (s.xctx h) e.vb (if p.2.2.2 ≠ 0 then p.2.2.1 + p.2.2.2 else p.2.1.1 + p.2.1.2)
  let body := r.2.1
  let mask := if bit e.vc.toNat 7 then some (slice body p.2.2.1 p.2.2.2) else none
  let n := packetsFor (reduceBytes vl fmt (bits e.vc.toNat 6 5) mask.isSome)
  let t := r.1.assignSeqs (remoteChip e.va) n
  (r.1.startOp h d e.vd e.pc fun _ => .freduce e.va vl fmt (bits e.vc.toNat 6 5) (slice body 0 p.1) (slice body p.2.1.1 p.2.1.2) mask t.2
    (r.2.2.map MemErr.reason)).andThen fun s => (s.assignSeqs (remoteChip e.va) n).1

/-- FREDUCE (R370). -/
def opFreduce (d a b c : Reg) : QOp :=
  fabricCommand d a b c
    (fun _ _ e => firstTrap [(e.va.toNat % 4 != 0, engineArg 0 1), (e.vb.toNat % 64 != 0, engineArg 0 2),
      (reduceCtlBad e.vc, engineArg 1 3)])
    (startFreduce d)

/-- FFLAG (R371). -/
def opFflag (d a b c : Reg) : QOp :=
  fabricCommand d a b c
    (fun _ _ e => firstTrap [(e.va.toNat % 8 != 0, engineArg 0 1), (bits e.vc.toNat 63 1 != 0, engineArg 1 3)])
    (fun s h e =>
      (s.startOp h d e.vd e.pc fun s => .fflag e.va e.vb (bit e.vc.toNat 0) (s.sentTo (remoteChip e.va)).next).andThen fun s =>
        s.countPacket (remoteChip e.va))

/-- What the issue of FCOLL reads: the descriptor, then the rank table. -/
def readColl (s : State) (h : Nat) (e : QEntry) : State × List Byte × List Nat × Option MemErr :=
  match s.loadRun (.engine h e.pc) (s.xctx h) e.va 64 with
  | (s, bs, some er) => (s, bs, [], some er)
  | (s, bs, none) =>
    match s.loadRun (.engine h e.pc) (s.xctx h) (w64 (fieldAt bs 8 8)) (fieldAt bs 1 1) with
    | (s, t, er) => (s, bs, t.map (·.toNat), er)

/-- A descriptor outside the limits of R372, as far as the descriptor alone says. -/
def collBad (bs : List Byte) : Bool :=
  let op := fieldAt bs 0 1
  let n := fieldAt bs 1 1
  let len := fieldAt bs 32 8
  decide (3 < op) || decide (n < 2) || decide (128 < n) || decide (n ≤ fieldAt bs 2 1) ||
    (if op = 0 then decide (n ≤ fieldAt bs 3 1) else fieldAt bs 3 1 != 0) || len == 0 || decide (2 ^ 30 < len) ||
    (decide (2 ≤ op) && len % 4 != 0)

/-- Whether what FCOLL reads breaks the limits: a table that repeats a chip, or names none. -/
def collTrap (s : State) (h : Nat) (e : QEntry) : Option Trap :=
  if e.va.toNat % 64 ≠ 0 then some (engineArg 0 1)
  else
    match s.loadRun (.engine h e.pc) (s.xctx h) e.va 64 with
    | (_, _, some _) => none
    | (_, bs, none) =>
      if collBad bs then some (engineArg 1 1)
      else
        match readColl s h e with
        | (_, _, _, some _) => none
        | (_, _, t, none) => if t.eraseDups.length ≠ t.length ∨ t.any (fun c => decide (127 < c)) then some (engineArg 1 1) else none

/-- The ranks a participant sends to: the root of a broadcast to every other rank, and every rank otherwise. -/
def collTargets (bs : List Byte) (t : List Nat) : List Nat :=
  if fieldAt bs 0 1 = 0 ∧ fieldAt bs 2 1 ≠ fieldAt bs 3 1 then []
  else (t.zipIdx.filter fun x => x.2 != fieldAt bs 2 1).map (·.1)

/-- FCOLL starts: the descriptor is read once and the contributions have their sequences as write packets (R372, R367). -/
def startFcoll (d : Reg) (s : State) (h : Nat) (e : QEntry) : Done :=
  let r := readColl s h e
  let seqs := if r.2.2.2.isSome then [] else collTargets r.2.1 r.2.2.1
  (r.1.startOp h d e.vd e.pc fun s =>
    .fcoll r.2.1 r.2.2.1 (r.2.2.2.map MemErr.reason) (seqs.map fun c => (c, (s.sentTo c).next))).andThen fun s =>
      seqs.foldl (fun s c => (s.assignSeqs c (packetsFor (fieldAt r.2.1 32 8))).1) s

/-- FCOLL (R372). -/
def opFcoll (d a : Reg) : QOp := fabricCommand d a 0 0 collTrap (startFcoll d)

/-! ### The ends of their operations -/

/-- The element of a gather at an address: read here where it lies in this chip, else as its chip returned it; REASON 9 where that one is unreachable
(R366, R369). -/
def State.gathered (s : State) (o : Op) (n : Nat) (a : Word) (got : Option Word) (reason : Nat) : State × Except Nat Word :=
  match s.opDomain o with
  | none => (s, .error 1)
  | some d =>
    if a.toNat % n ≠ 0 then (s, .error 1)
    else if remoteChip a = s.fabric.chip then s.remoteElem s.fabric.chip d n a
    else if (s.route (remoteChip a)).isNone then (s, .error 9)
    else
      match got with
      | some v => (s, .ok v)
      | none => (s, .error (if reason = 2 then 2 else 1))

/-- Element e of a gather, read and written: its REASON where it fails. -/
def State.gatherOne (s : State) (o : Op) (dst : Word) (n : Nat) (list : List Byte) (got : Option Word) (reason e : Nat) : State × Option Nat :=
  match s.gathered o n (w64 (fieldAt list (8 * e) 8)) got reason with
  | (s1, .error r) => (s1, some r)
  | (s1, .ok v) =>
    match s1.storeRun o.agent o.x o.kernel (dst + w64 (n * e)) (leBytes n v.toNat) with
    | (s2, _, some er) => (s2, some er.reason)
    | (s2, _, none) => (s2, none)

/-- The elements of a gather from e on that are still to be performed: the first that fails, with its REASON (R369). Later ones are written all the
same. -/
def gatherN : Nat → State → Op → Word → Nat → List Byte → List (Option Word) → Nat → Nat → State × Option (Nat × Nat)
  | 0, s, _, _, _, _, _, _, _ => (s, none)
  | k + 1, s, o, dst, n, list, elems, reason, e =>
    if o.done.contains e then gatherN k s o dst n list elems reason (e + 1)
    else
      let r := s.gatherOne o dst n list (elems.getD e none) reason e
      let t := gatherN k r.1 o dst n list elems reason (e + 1)
      (t.1, match r.2 with
        | some w => some (e, w)
        | none => t.2)

/-- FGATHER_COMPLETE (R369): elements of other chips as their targets returned them, those of this chip read here. -/
def execFgatherComplete (id : Nat) (elems : List (Option Word)) (reason : Nat) (s : State) : Out :=
  .next (match s.findOp id with
    | some o =>
      match o.kind with
      | .fgather list dst width count =>
        let n := 2 ^ width
        let r := s.loadRun o.agent o.x list (8 * count)
        let have_ := if r.2.2.isNone then count else r.2.1.length / 8
        match gatherN have_ r.1 o dst n r.2.1 elems reason 0 with
        | (t, some (e, w)) => t.failOp o w (n * e)
        | (t, none) =>
          match r.2.2 with
          | some er => t.failOp o er.reason (n * have_)
          | none => t.endOp o (engineStatus codeOK 0 (n * count))
      | _ => s
    | none => s)

/-- The end of a remote reduce for a REASON. -/
def State.endReduce (s : State) (o : Op) (vl reason : Nat) : State :=
  if reason = 0 then s.endOp o (engineStatus codeOK 0 (4 * vl)) else s.failOp o reason 0

/-- A reduce into this chip, whose first `done` elements have been added: the rest, in ascending order. -/
def State.reduceHere (s : State) (o : Op) (d : Nat) (dst : Word) (vl fmt blk : Nat) (elems scales : List Byte) (mask : Option (List Byte)) :
    State × Nat :=
  let r := s.applyReduce s.fabric.chip d dst vl fmt blk elems scales mask o.done.length
  (if vl = 0 then r.1 else r.1.noteDirty o.kernel (canonical dst) (4 * vl), r.2)

/-- FREDUCE_COMPLETE (R370): every addition has been performed at its target, or the REASON is what the target gives, 9 where the target is
unreachable. A reduce into this chip is performed here. -/
def execFreduceComplete (id reason : Nat) (s : State) : Out :=
  .next (match s.findOp id with
    | some o =>
      match o.kind with
      | .freduce dst vl fmt blk elems scales mask seq now =>
        let chip := remoteChip dst
        let n := packetsFor (reduceBytes vl fmt blk mask.isSome)
        match now, s.opDomain o with
        | some r, _ => (s.settleSeqs chip seq n).failOp o r 0
        | none, none => (s.settleSeqs chip seq n).failOp o 1 0
        | none, some d =>
          if chip = s.fabric.chip then
            if s.fabric.held then s
            else
              let r := s.reduceHere o d dst vl fmt blk elems scales mask
              (r.1.settleSeqs chip seq n).endReduce o vl r.2
          else if (s.route chip).isNone then (s.settleSeqs chip seq n).failOp o 9 0
          else if (s.sentTo chip).unacked.contains (seq + n - 1) && !s.isSent chip (seq + n - 1) then s
          else s.endReduce o vl (if reason = 2 then 2 else if reason = 0 then 0 else 1)
      | _ => s
    | none => s)

/-- The flag that waits with a sequence to a chip. -/
def State.flagOp (s : State) (chip seq : Nat) : Option Op :=
  s.ops.find? fun o => match o.kind with
    | .fflag dst _ _ q => remoteChip dst == chip && q == seq
    | _ => false

/-- The collective one of whose contributions has a sequence to a chip, failed with what that chip gives. -/
def State.failColl (s : State) (chip seq reason : Nat) : State :=
  { s with ops := s.ops.map fun (o : Op) =>
    match o.kind with
    | .fcoll bs t none seqs =>
      if seqs.any fun x => x.1 == chip && decide (x.2 ≤ seq) && decide (seq < x.2 + packetsFor (fieldAt bs 32 8)) then
        { o with kind := .fcoll bs t (some (if reason = 2 ∨ reason = 9 then reason else 1)) seqs } else o
    | _ => o }

/-- A flag whose answer has come, or whose target is unreachable. -/
def State.endFlag (s : State) (o : Op) (chip seq : Nat) (dst value : Word) (isAdd : Bool) (reason : Nat) : State :=
  match s.opDomain o with
  | none => (s.settleSeqs chip seq 1).failOp o 1 0
  | some d =>
    if chip = s.fabric.chip then
      if s.fabric.held || (s.received chip).below != seq then s
      else
        let r := s.applyFlag chip d dst value isAdd
        let s1 := r.1.settleSeqs chip seq 1
        if r.2 = 0 then (s1.noteDirty o.kernel (canonical dst) 8).endOp o (engineStatus codeOK 0 8) else s1.failOp o r.2 0
    else if (s.route chip).isNone then (s.settleSeqs chip seq 1).failOp o 9 0
    else if !s.isSent chip seq then s
    else if reason = 0 then (s.settleSeqs chip seq 1).endOp o (engineStatus codeOK 0 8)
    else (s.settleSeqs chip seq 1).failOp o (if reason = 2 then 2 else 1) 0

/-- FABRIC_ACKNOWLEDGEMENT (R367, R371): a place comes free, and the flag that had this sequence ends; a refusal of a contribution fails its
collective. A flag into this chip is performed here once every lower sequence has been applied. Nothing is abandoned while a route remains (R366). -/
def execFabricAcknowledgement (chip seq reason : Nat) (s : State) : Out :=
  .next (if reason = 9 ∧ (s.route chip).isSome then s else match s.flagOp chip seq with
    | none =>
      if !s.isSent chip seq then s
      else if reason = 0 then s.dropSent chip seq
      else (s.dropSent chip seq).failColl chip seq reason
    | some o =>
      match o.kind with
      | .fflag dst value isAdd _ => s.endFlag o chip seq dst value isAdd reason
      | _ => s)

/-! ### Collectives (R372) -/

/-- The packets of the contribution of a rank to a collective, matched by GID, GEN and rank within a domain. -/
def State.contribution (s : State) (dom : Nat) (bs : List Byte) (rank : Nat) : List Contribution :=
  s.fabric.colls.filter fun c => c.domain == dom && c.gid == fieldAt bs 48 4 && c.gen == fieldAt bs 4 4 && c.rank == rank

/-- The bytes of a contribution from its first packet on. -/
def joinPackets : Nat → List Contribution → Nat → List Byte
  | 0, _, _ => []
  | n + 1, l, k =>
    match l.find? fun c => c.off == k && !c.data.isEmpty with
    | some c => c.data ++ joinPackets n l (k + c.data.length)
    | none => []

/-- Descriptor fields or a rank table that differ from a participant's own, or a sender that is not the chip of its rank (R372). -/
def Contribution.differs (c : Contribution) (bs : List Byte) (table : List Nat) : Bool :=
  c.op != fieldAt bs 0 1 || c.nrank != fieldAt bs 1 1 || c.root != fieldAt bs 3 1 || c.len != fieldAt bs 32 8 || c.table != table ||
    table[c.rank]? != some c.src

/-- Whether any contribution received for a collective, of whatever rank, differs from a participant's own fields. -/
def State.collDiffers (s : State) (dom : Nat) (bs : List Byte) (table : List Nat) : Bool :=
  s.fabric.colls.any fun c => c.domain == dom && c.gid == fieldAt bs 48 4 && c.gen == fieldAt bs 4 4 && c.differs bs table

/-- The ranks whose bytes a participant needs besides its own. -/
def collNeeds (bs : List Byte) : List Nat :=
  let me := fieldAt bs 2 1
  if fieldAt bs 0 1 = 0 then (if me = fieldAt bs 3 1 then [] else [fieldAt bs 3 1])
  else (List.range (fieldAt bs 1 1)).filter (· != me)

/-- The bytes of a rank's contribution, once all of them are here. -/
def State.collData (s : State) (dom : Nat) (bs : List Byte) (rank : Nat) : Option (List Byte) :=
  let l := s.contribution dom bs rank
  let d := joinPackets l.length l 0
  if d.length < fieldAt bs 32 8 then none else some (d.take (fieldAt bs 32 8))

/-- One f32 sum in ascending rank. -/
def collSum (xs : List (List Byte)) (i : Nat) : Nat :=
  match xs with
  | [] => 0
  | x :: l => l.foldl (fun acc y => (fadd .rne fmtF32 (fdecode fmtF32 acc) (fdecode fmtF32 (fieldAt y (4 * i) 4))).1)
      (fieldAt x (4 * i) 4)

/-- What DST receives from the bytes of each rank. -/
def collResult (bs : List Byte) (xs : List (List Byte)) : List Byte :=
  let len := fieldAt bs 32 8
  match fieldAt bs 0 1 with
  | 0 => xs.getD (fieldAt bs 3 1) []
  | 1 => xs.flatten
  | _ => (List.range (len / 4)).flatMap fun i => leBytes 4 (collSum xs i)

/-- The contributions to a collective, used up. -/
def State.dropColl (s : State) (dom : Nat) (bs : List Byte) : State :=
  { s with fabric := { s.fabric with colls := s.fabric.colls.filter fun c =>
    !(c.domain == dom && c.gid == fieldAt bs 48 4 && c.gen == fieldAt bs 4 4) } }

/-- A participant's own bytes of SRC, read where its result takes them: not by a broadcast's other ranks (R372). -/
def State.collOwn (s : State) (o : Op) (bs : List Byte) : State × List Byte × Option MemErr :=
  let len := fieldAt bs 32 8
  let me := fieldAt bs 2 1
  if fieldAt bs 0 1 = 0 ∧ me ≠ fieldAt bs 3 1 then (s, [], none)
  else s.loadRun o.agent o.x (w64 (fieldAt bs 16 8) + if fieldAt bs 0 1 = 2 then w64 (me * len) else 0) len

/-- The result of a collective for a participant with every contribution it needs: its own bytes are read now. -/
def State.collBytes (s : State) (o : Op) (dom : Nat) (bs : List Byte) : State × Except MemErr (List Byte) :=
  let me := fieldAt bs 2 1
  match s.collOwn o bs with
  | (t, _, some er) => (t, .error er)
  | (t, own, none) =>
    (t, .ok (collResult bs ((List.range (fieldAt bs 1 1)).map fun r => if r = me then own else (s.collData dom bs r).getD [])))

/-- The parts of some bytes at a destination, a line of memory each: offset and length. -/
def partsOf (dst : Word) (len : Nat) : List (Nat × Nat) :=
  (List.range (rangeLines dst len)).map fun n => (((linePart dst len n).1 - dst).toNat, (linePart dst len n).2)

/-- Parts of a collective's result stored: the offset of the first byte that fails, and the error. -/
def collStore (o : Op) (dst : Word) (res : List Byte) : List (Nat × Nat) → State → State × Option (Nat × MemErr)
  | [], s => (s, none)
  | p :: l, s =>
    match s.storeRun o.agent o.x o.kernel (dst + w64 p.1) (slice res p.1 p.2) with
    | (t, m, some er) => (t, some (p.1 + m, er))
    | (t, _, none) => collStore o dst res l t

/-- A participant with every contribution it needs: DST is written, then the object. -/
def State.collWrite (s : State) (o : Op) (dom : Nat) (bs : List Byte) : State :=
  match s.collBytes o dom bs with
  | (t, .error er) => t.failOp o er.reason 0
  | (t, .ok res) =>
    let dst := w64 (fieldAt bs 24 8)
    match collStore o dst res (o.todo (partsOf dst res.length)) t with
    | (t, some (m, er)) => t.failOp o er.reason m
    | (t, none) => (t.dropColl dom bs).endOp o (engineStatus codeOK 0 res.length)

/-- Whether a contribution still to be delivered has no route to its chip (R366). -/
def State.collLost (s : State) (bs : List Byte) (seqs : List (Nat × Nat)) : Bool :=
  seqs.any fun x => (s.route x.1).isNone && (List.range (packetsFor (fieldAt bs 32 8))).any fun i => (s.sentTo x.1).unacked.contains (x.2 + i)

/-- FCOLL_COMPLETE (R372). -/
def execFcollComplete (id : Nat) (s : State) : Out :=
  .next (match s.findOp id with
    | some o =>
      match o.kind with
      | .fcoll bs table now seqs =>
        match now, s.opDomain o with
        | some r, _ => s.failOp o r 0
        | none, none => s.failOp o 1 0
        | none, some dom =>
          if s.collDiffers dom bs table then s.failOp o 7 0
          else if s.collLost bs seqs then
            (seqs.foldl (fun s x => if (s.route x.1).isNone then s.settleSeqs x.1 x.2 (packetsFor (fieldAt bs 32 8)) else s) s).failOp o 9 0
          else if (collNeeds bs).all fun r => (s.collData dom bs r).isSome then s.collWrite o dom bs
          else s
      | _ => s
    | none => s)

/-! ### Far reads (R214, R361) -/

/-- An earlier far read of the same hart on the same handle has not ended (R361). -/
def State.freadBehind (s : State) (o : Op) (handle : Nat) : Bool :=
  s.ops.any fun p => p.h == o.h && decide (p.id < o.id) && match p.kind with
    | .fread h' .. => h' == handle
    | _ => false

/-- The end of a far read with its object. -/
def State.endFread (s : State) (o : Op) : State :=
  match o.kind with
  | .fread _ _ _ _ _ _ failed => s.endOp o (engineStatus (if failed = 0 then codeOK else codeFAULTED) failed o.prog)
  | _ => s

/-- n bytes of host memory at its home: those before the first uncorrectable one, and the REASON of their end. -/
def State.hostBytes (s : State) (o : Op) (base n : Nat) : State × List Byte × Nat :=
  match s.badRange base n with
  | none => (s, s.homeBytes base n, 0)
  | some (src, p) => (s.logBad src 0 p (hartId o.h), s.homeBytes base (p - base), 2)

/-- n bytes of this chip at a remote address, each as an element of a gather (R361): those before the first that is refused, and its REASON. -/
def ownBytes : Nat → State → Nat → Word → State × List Byte × Nat
  | 0, s, _, _ => (s, [], 0)
  | n + 1, s, d, a =>
    match s.remoteElem s.fabric.chip d 1 a with
    | (t, .error r) => (t, [], r)
    | (t, .ok v) => let q := ownBytes n t d (a + 1); (q.1, v.setWidth 8 :: q.2.1, q.2.2)

/-- n bytes at an offset of what a far read of KIND 1 or 3 reads: `peer` is what another chip returned, from that offset on. -/
def State.farBytes (s : State) (o : Op) (e : List Byte) (at_ n : Nat) (peer : List Byte) (reason : Nat) : State × List Byte × Nat :=
  let base := fieldAt e 8 8 + at_
  if fieldAt e 0 1 = 1 then s.hostBytes o base n
  else
    match s.opDomain o with
    | none => (s, [], 1)
    | some d =>
      if remoteChip (w64 base) = s.fabric.chip then ownBytes n s d (w64 base)
      else if (s.route (remoteChip (w64 base))).isNone then (s, [], 9)
      else (s, peer.take n, if reason = 2 then 2 else 1)

/-- Parts of a far read performed: the offset of the first byte that fails, and its REASON. -/
def farParts (o : Op) (e : List Byte) (off : Nat) (dst : Word) (peer : List Byte) (reason : Nat) : List (Nat × Nat) → State → State × Option (Nat × Nat)
  | [], s => (s, none)
  | p :: l, s =>
    let g := s.farBytes o e (off + p.1) p.2 (peer.drop p.1) reason
    match g.1.devStoreRun o (dst + w64 p.1) g.2.1 with
    | (t, m, some er) => (t, some (p.1 + m, er.reason))
    | (t, _, none) => if g.2.1.length < p.2 then (t, some (p.1 + g.2.1.length, g.2.2)) else farParts o e off dst peer reason l t

/-- R214, R361: the bytes are written at device scope, then the object, in issue order on the handle. A far read from another chip waits for its
bytes. -/
def execFreadComplete (id : Nat) (peer : List Byte) (reason : Nat) (s : State) : Out :=
  .next (match s.running id with
    | some o =>
      match o.kind with
      | .fread handle e off len dst blocks _ =>
        if s.freadBehind o handle then s
        else if len = 0 then s.endFread o
        else if fieldAt e 0 1 = 2 then (if blocks.isEmpty && (s.slotsOf id).isEmpty then s.endFread o else s)
        else
          let chip := remoteChip (w64 (fieldAt e 8 8 + off))
          let far := fieldAt e 0 1 = 3 && chip != s.fabric.chip && (s.route chip).isSome && (s.opDomain o).isSome
          if far && reason == 0 && decide (peer.length < len) then s
          else
            match farParts o e off dst peer reason (o.todo (partsOf dst len)) s with
            | (t, some (m, r)) => t.endFread (o.failAt m r)
            | (t, none) => t.endFread o
      | _ => s
    | none => s)

/-! ### Pieces ahead of the end (R232) -/

/-- Piece n of an operation in flight, where it succeeds: a sector of a tile, a byte of a copy (R209), a line's part of a far read or of a collective's result, an
element of a gather, the next element of a reduce into this chip. `data` is what another chip returned for it. -/
def Op.piece (o : Op) (n : Nat) (data : List Byte) (s : State) : Option State :=
  let ok {α : Type} (r : State × Option α) : Option State := if r.2.isNone then some r.1 else none
  match o.kind with
  | .fill tile va rb pitch =>
    if n < 64 then ok (fillN o tile ((tilePieces true va rb pitch).filter fun p => p.1 / 64 == n) s) else none
  | .drain tile va rb pitch => ((tilePieces false va rb pitch)[n]?).bind fun p => ok (drainN o tile [p] s)
  | .copy src dst desc none =>
    if o.prog ≤ n ∧ n < copyTotal desc then
      let r := copyN 1 s o src dst desc n 1
      ok (r.1, r.2.2)
    else none
  | .fread _ e off len dst _ _ =>
    if fieldAt e 0 1 = 2 then none
    else ((partsOf dst len)[n]?).bind fun p => ok (farParts o e off dst (List.replicate p.1 0 ++ data) 0 [p] s)
  | .fgather list dst width count =>
    let r := s.loadRun o.agent o.x list (8 * count)
    if n < count && r.2.2.isNone then
      ok (r.1.gatherOne o dst (2 ^ width) r.2.1 (if data.isEmpty then none else some (w64 (leNat data))) 0 n)
    else none
  | .freduce dst vl fmt blk elems scales mask _ none =>
    match s.opDomain o with
    | some d =>
      if remoteChip dst = s.fabric.chip ∧ n = o.done.length ∧ n < vl ∧ ¬ s.fabric.held then
        let r := s.applyReduce s.fabric.chip d dst (n + 1) fmt blk elems scales mask n
        if r.2 = 0 then some (r.1.noteDirty o.kernel (canonical dst + w64 (4 * n)) 4) else none
      else none
    | none => none
  | .fcoll bs table none _ =>
    match s.opDomain o with
    | some dom =>
      if s.collDiffers dom bs table || !(collNeeds bs).all fun r => (s.collData dom bs r).isSome then none
      else
        match s.collBytes o dom bs with
        | (_, .error _) => none
        | (t, .ok res) =>
          let dst := w64 (fieldAt bs 24 8)
          ((partsOf dst res.length)[n]?).bind fun p => ok (collStore o dst res [p] t)
    | none => none
  | _ => none

/-- Piece n of an operation is performed ahead of its end (R232). -/
def State.opPiece (s : State) (id n : Nat) (data : List Byte) : State :=
  match s.running id with
  | some o => if o.done.contains n then s else ((o.piece n data s).map fun t => t.doPiece o n).getD s
  | none => s

/-! ### Links and halts (R366, R373) -/

/-- A port changed. -/
def State.modPort (s : State) (port : Nat) (f : Port → Port) : State :=
  { s with fabric := { s.fabric with ports := Vector.ofFn fun i => if i.val = port then f s.fabric.ports[i] else s.fabric.ports[i] } }

/-- A port is declared down. -/
def State.linkDown (s : State) (port : Nat) : State :=
  if port < 16 then { s.modPort port (fun p => { p with up := false, replays := 0 }) with health := s.health ||| 16 } else s

/-- FABRIC_FLIT_REPLAY (R366): the flit is sent again; after 8 consecutive failures the link is down. -/
def execFabricFlitReplay (port : Nat) (ok : Bool) (s : State) : Out :=
  .next (match s.fabric.ports.toList[port]? with
    | none => s
    | some p =>
      if !p.up then s
      else if ok then s.modPort port fun p => { p with replays := 0, linkSeq := p.linkSeq + 1 }
      else if 7 ≤ p.replays then s.linkDown port
      else s.modPort port fun p => { p with replays := p.replays + 1 })

/-- FABRIC_LINK_DOWN (R366): what was sent over it stays unacknowledged and is sent again on the next route. -/
def execFabricLinkDown (port : Nat) (s : State) : Out := .next (s.linkDown port)

/-- HALT_NOTICE (R373): the notice stands; a fabric freeze freezes the device. -/
def execHaltNotice (chip : Nat) (freeze : Bool) (s : State) : Out :=
  let s1 := { s with fabric := { s.fabric with halted := (s.fabric.halted.filter fun p => p.1 != chip) ++ [(chip, freeze)] } }
  if freeze then
    let s2 := s1.postHalt (List.range Config.numHarts) 1 0
    .next { s2 with fabric := { s2.fabric with notice := s1.fabric.notice } }
  else .next s1

/-- RELEASE_NOTICE (R373): the notice no longer stands; a fabric freeze ends with the last of them. -/
def execReleaseNotice (chip : Nat) (s : State) : Out :=
  let froze := s.fabric.halted.any fun p => p.1 == chip && p.2
  let s1 := { s with fabric := { s.fabric with halted := s.fabric.halted.filter fun p => p.1 != chip } }
  .next (if froze && !(s1.fabric.halted.any (·.2)) then s1.releaseHarts (List.range Config.numHarts) else s1)

/-! ### The arms -/

/-- R369. -/
def execFgather (d a b c : Reg) (st : State) : Out :=
  commitQueued (.fgather d a b c) (opFgather d a b c) st
/-- R370. -/
def execFreduce (d a b c : Reg) (st : State) : Out :=
  commitQueued (.freduce d a b c) (opFreduce d a b c) st
/-- R371. -/
def execFflag (d a b c : Reg) (st : State) : Out :=
  commitQueued (.fflag d a b c) (opFflag d a b c) st
/-- R372. -/
def execFcoll (d a : Reg) (st : State) : Out :=
  commitQueued (.fcoll d a) (opFcoll d a) st

end Sys2Proof.Machine
end

