-- ==== Sys2Proof/Machine/HostLink.lean ====
section
/-! DEFINITION. The host's side and the memory side: CXL.mem requests and host atomics (R233, R359, R362), write-backs and evictions
(R178, R179), wide marks, and the migration and shootdown requests (R355 to R357, R374). -/
namespace Sys2Proof.Machine

/-! ### CXL.mem (R359, R362) -/

/-- What the host receives: data, or an error response. -/
def State.respond (s : State) (r : Option (List Byte)) : State := { s with hostReply := r }

/-- Whether a host request may reach n bytes at an address: within the HDM range and below the save-page area. -/
def State.hostReach (s : State) (pa n : Nat) : Bool :=
  decide (s.hdm ≤ pa) && decide (pa + n ≤ s.saveBase)

/-- Whether a host write may reach n bytes of the staging area: within the range of the command its slot is lent to. -/
def State.slotReach (s : State) (pa n : Nat) : Bool :=
  decide (s.stageBase ≤ pa) && match FMap.find? s.staging ((pa - s.stageBase) / 131072) with
    | some g => decide ((pa - s.stageBase) % 131072 + n ≤ g.len)
    | none => false

/-- CXL_MEM_READ (R359): the 64 bytes of the sector, expanded; uncorrectable data gives an error response (R406). -/
def execCxlMemRead (pa : Nat) (s : State) : Out :=
  let p := pa / 64 * 64
  if !(s.hostReach p 64 || (decide (s.stageBase ≤ p) && decide (p + 64 ≤ s.hdm + Config.hdmLen))) then .next (s.respond none)
  else
    match s.badAt p with
    | some src => .next ((s.logBad src 0 p 0xFFFF).respond none)
    | none => .next ((s.afterLoad .host true p 64).respond (some (s.homeBytes p 64)))

/-- CXL_MEM_WRITE (R359): 64 bytes, as a partial write; refused where the line's tag is uncorrectable (R406). -/
def execCxlMemWrite (pa : Nat) (data : List Byte) (s : State) : Out :=
  if pa % 64 ≠ 0 ∨ data.length ≠ 64 ∨ !(s.hostReach pa 64 && !s.storeRefused pa 64 || s.slotReach pa 64) then .next (s.respond none)
  else
    let r := s.homeWrite pa data
    if r.2 then .next ((State.afterStore s r.1 .host true false pa 64).respond (some [])) else .next (r.1.respond none)

/-- HOST_ATOMIC (R233): at the memory-side home; it sets or renews the external hold of the line. -/
def execHostAtomic (pa : Nat) (op : AtomicOp) (n : Nat) (operand : Word) (s : State) : Out :=
  if !(n == 4 || n == 8) ∨ pa % n ≠ 0 ∨ !s.hostReach pa n ∨ s.storeRefused pa n then .next (s.respond none)
  else
    match s.badAt pa with
    | some src => .next ((s.logBad src 0 pa 0xFFFF).respond none)
    | none =>
      let s := s.markAt pa (.external s.dtime.toNat)
      let old := leNat (s.homeBytes pa n)
      let r := s.homeWrite pa (leBytes n (atomicNew op n old (operand.toNat % 2 ^ (8 * n))))
      .next ((State.afterStore s r.1 .host true true pa n).respond (some (leBytes n old)))

/-! ### Write-backs, evictions and marks (R178, R179, R233) -/

/-- L2_WRITE_BACK (R178): stalls where its packet to another chip has no place (R367, R373). -/
def execL2WriteBack (core line : Nat) (evict : Bool) (s : State) : Out :=
  if !s.hasPlace (line * 256) then .next s else .next (if evict then s.evict core line else s.writeBack core line)

/-- MSC_EVICTION (R179): the line's stored form reaches far memory; its value and its tag stand. -/
def execMscEviction (line : Nat) (s : State) : Out := .next { s with mscDirty := s.mscDirty.filter (· != line) }

/-- Whether an external hold has ended at a time. -/
def MarkHolder.over (now : Nat) (m : MarkHolder) : Bool :=
  match m with
  | .external t => decide (t + 1000000 ≤ now)
  | .kernel _ => false

/-- WIDE_MARK_EXPIRE (R233): an external hold ends 1 ms after its last renewal. -/
def execWideMarkExpire (line : Nat) (s : State) : Out :=
  let left := (FMap.get (fun _ => []) s.marks line).filter fun m => !m.over s.dtime.toNat
  .next { s with marks := FMap.set (fun _ => []) s.marks line left }

/-! ### Migration and shootdown requests (R355 to R357) -/

/-- The slot at HEAD of the translation ring, if a record is posted. -/
def State.ringSlot (s : State) : Option Nat :=
  if s.ringHead.setWidth 32 = s.ringTail.setWidth 32 then none
  else some (s.ringBase.toNat + 64 * (s.ringHead.toNat % 2 ^ (s.ringLcap.toNat % 16)))

/-- The record of a slot: none where the read is refused or meets uncorrectable data (R319). -/
def State.ringRecord (s : State) (pa : Nat) : Option (List Byte) :=
  if s.entryRefused pa || (s.badRange pa 64).isSome then none else some (s.homeBytes pa 64)

/-- A slot that cannot be read is taken and dropped, with the report of what is uncorrectable there. -/
def State.ringDrop (s : State) (pa : Nat) : State := if s.entryRefused pa then s else s.noteBad 0 pa 64

/-- A request is taken: HEAD advances. -/
def State.ringTake (s : State) : State := { s with ringHead := w64 ((s.ringHead.toNat + 1) % 2 ^ 32) }

/-- Fields of a record that the table does not list are zero. -/
def ringZero (r : List Byte) : Bool :=
  fieldAt r 1 7 == 0 && bits (fieldAt r 18 1) 7 1 == 0 && fieldAt r 19 5 == 0 && fieldAt r 41 7 == 0

/-- A record within its limits: a MIGRATE or a SHOOT. -/
def migrateOkay (r : List Byte) : Bool :=
  ringZero r && fieldAt r 0 1 == 1 && fieldAt r 8 8 % 4096 == 0 && fieldAt r 24 8 % 8 == 0 && fieldAt r 32 8 % 4096 == 0 &&
    decide (fieldAt r 40 1 ≤ 1) && fieldAt r 48 8 % 8 == 0
def shootOkay (r : List Byte) : Bool :=
  ringZero r && fieldAt r 0 1 == 2 && fieldAt r 8 8 % 4096 == 0 && fieldAt r 48 8 % 8 == 0 && decide (1 ≤ fieldAt r 56 8) &&
    decide (fieldAt r 56 8 ≤ 2 ^ 20)

/-- Writes the completion object of a request, where it has one. -/
def State.ringWord (s : State) (cpl : Nat) (v : Word) : State :=
  if cpl = 0 ∨ cpl % 8 ≠ 0 then s else (s.deviceStore false cpl (leBytes 8 v.toNat)).1

/-- The request of a record. -/
def requestOf (r : List Byte) (shoot : Bool) (original : Word) : XRequest :=
  { isShoot := shoot, va := w64 (fieldAt r 8 8), asid := fieldAt r 16 2, all := bit (fieldAt r 18 1) 0, pte := fieldAt r 24 8,
    frame := fieldAt r 32 8, toDevice := fieldAt r 40 1 == 1, cpl := fieldAt r 48 8,
    span := if shoot then fieldAt r 56 8 else 1, original := original, removed := [] }

/-- Pages of 4 KiB of the 57-bit space that a request covers: first and one past the last. -/
def XRequest.pages (q : XRequest) : Nat × Nat := (q.va.toNat % 2 ^ 57 / 4096, q.va.toNat % 2 ^ 57 / 4096 + q.span)

/-- Whether a cached translation is one that a request removes. -/
def XRequest.removes (q : XRequest) (t : TlbEntry) : Bool :=
  decide (t.vpn * 2 ^ (9 * t.level) < q.pages.2) && decide (q.pages.1 < (t.vpn + 1) * 2 ^ (9 * t.level)) &&
    (q.all || t.asid == q.asid || bit t.pte.toNat 5)

/-- Removes the translations of a request from every core, once what the store queues hold has been performed; the request keeps what it removed,
among it those under which objects are held (R356). -/
def State.shootDown (s : State) (q : XRequest) : State × XRequest :=
  let s1 := s.landAll
  let gone := s1.cores.flatMap fun e => ((e.2.tlb ++ e.2.pinned).filter q.removes).map fun t => (e.1, t)
  ({ s1 with cores := s1.cores.map fun (e : Nat × Core) =>
      (e.1, { e.2 with tlb := e.2.tlb.filter fun t => !q.removes t, pinned := e.2.pinned.filter fun t => !q.removes t }) },
    { q with removed := gone })

/-- A translation held for an access not yet performed: the core, the identifier, the first page of 4 KiB and the number of pages of its leaf, and
whether that is global. -/
structure HeldPage where
  core : Nat
  asid : Nat
  page : Nat
  pages : Nat
  global : Bool
  deriving DecidableEq, Repr

/-- The leaf of a page that an issued entry translated. -/
def Frame.held (f : Frame) (core : Nat) : HeldPage :=
  ⟨core, f.asid, f.page % 2 ^ 45 / 2 ^ (9 * f.level) * 2 ^ (9 * f.level), 2 ^ (9 * f.level), f.global⟩

/-- The page of an object. -/
def objectPage (core : Nat) (root va : Word) : HeldPage := ⟨core, asidOf root, va.toNat % 2 ^ 57 / 4096, 1, false⟩

/-- The translations that a hart holds: pages of issued entries (R192), the record of a barrier it waits at, its streams' objects. -/
def Hart.heldPages (a : Hart) (core : Nat) (root : Word) : List HeldPage :=
  (a.queue.flatMap fun e => e.frames.map fun f => f.held core) ++
    (match a.wait with
      | some w => if w.bar then [objectPage core root w.obj] else []
      | none => []) ++
    a.streams.toList.filterMap fun q => q.bind fun v => v.objPa.map fun _ => objectPage core v.x.root v.objVa

/-- Those that a merge network holds for its objects. -/
def Merge.heldPages (m : Merge) : List HeldPage :=
  ([m.closeObj, m.drainObj].filterMap id).map fun o => objectPage (coreOf m.x.h) m.x.root o.1

/-- Every translation held for an access not yet performed. -/
def State.heldPages (s : State) : List HeldPage :=
  (s.harts.flatMap fun e => e.2.heldPages (coreOf e.1) (s.xctx e.1).root) ++
    (s.camps.flatMap fun e => e.2.merge.heldPages ++ e.2.tasks.map fun t => objectPage (coreOf t.x.h) t.x.root t.obj) ++
    (s.kernels.flatMap fun k => k.left.flatMap fun l => l.streams.filterMap fun v =>
      if v.done then none else v.objPa.map fun _ => objectPage (coreOf l.h) v.x.root v.objVa) ++
    s.ops.filterMap fun o => o.objPa.map fun _ => objectPage (coreOf o.h) o.x.root o.objVa

/-- Whether a held translation is one that a request removed: its own pages and identifier say so, or an entry that the request removed from the core
covers it. -/
def XRequest.holds (q : XRequest) (p : HeldPage) : Bool :=
  ((q.all || p.asid == q.asid || p.global) && decide (q.pages.1 < p.page + p.pages) && decide (p.page < q.pages.2)) ||
    q.removed.any fun r => r.1 == p.core && r.2.covers (4096 * p.page) p.asid

/-- Every access made under a translation that a request removed has been performed, the additions handed over among them (R356, R252). -/
def State.drained (s : State) (q : XRequest) : Bool :=
  !s.heldPages.any q.holds && s.cores.all fun e => e.2.adds.isEmpty

/-- What the cores have written goes home. -/
def State.flushAll (s : State) : State := s.cores.foldl (fun s e => s.flush e.1) s

/-- The status word of a request: FAULTED with a reason. -/
def ringFault (reason : Nat) : Word := status codeFAULTED (reason * 256)

/-- The entry of a request replaced by the engine's compare-and-swap at host scope, and whether it held `old` (R355); the mark of its line is set
either way (R233). One that is uncorrectable by now holds nothing, and the swap fails (R406). -/
def State.pteSwap (s : State) (pte : Nat) (old new : Word) : State × Bool :=
  match s.badAt pte with
  | some src => (s.logBad src 0 pte 0xFFFF, false)
  | none =>
  let s := s.markAt pte (.external s.dtime.toNat)
  if leNat (s.homeBytes pte 8) = old.toNat then s.deviceStore true pte (leBytes 8 new.toNat)
  else (State.watch s s .device true true true pte 8, false)

/-- V and RSW of an entry replaced. -/
def pteState (e : Word) (v : Bool) (rsw : Nat) : Word :=
  (e &&& ~~~0x301) ||| w64 (rsw * 256 + if v then 1 else 0)
/-- PPN of an entry replaced. -/
def pteFrame (e : Word) (pa : Nat) : Word := (e &&& 0xFFC00000000003FF) ||| w64 (pa / 4096 % 2 ^ 44 * 1024)

/-- The source state of R354 for a direction: host-owned toward the device, device-owned toward the host. -/
def sourceState (toDevice : Bool) (e : Word) : Bool :=
  let p := pteOf e
  !p.malformed 0 && (if toDevice then p.v && p.rsw == 1 else !p.v && p.rsw == 3)

/-- MIGRATE (R355): steps 1 to 3. A slot that cannot be read is taken and dropped. -/
def execMigrate (s : State) : Out :=
  .next (match s.ringSlot.map fun pa => s.ringRecord pa with
    | none => s
    | some none => (s.ringDrop (s.ringSlot.getD 0)).ringTake
    | some (some r) =>
      if fieldAt r 0 1 = 2 then s
      else
        let cpl := fieldAt r 48 8
        let s1 := s.ringTake.ringWord cpl pendingWord
        let pte := fieldAt r 24 8
        if !migrateOkay r || s.entryRefused pte then s1.ringWord cpl (ringFault 7)
        else if (s1.badAt pte).isSome then (s1.logBad 0 0 pte 0xFFFF).ringWord cpl (ringFault 2)
        else
          let e := w64 (leNat (s1.homeBytes pte 8))
          let q := requestOf r false e
          if !sourceState q.toDevice e then s1.ringWord cpl (ringFault 8)
          else
            match s1.pteSwap pte e (pteState e false 2) with
            | (s2, false) => s2.ringWord cpl (ringFault 8)
            | (s2, true) => let r := s2.shootDown q; { r.1 with xreqs := r.1.xreqs ++ [r.2] })

/-- Whether bytes of memory may be a frame: device memory below the save-page area, or a peer's that takes them. -/
def State.frameHere (s : State) (pa : Nat) : Bool :=
  match s.place pa with
  | .device off => decide (off + 4096 ≤ Config.hdmLen - Config.saveFromTop)
  | .peer _ _ => !s.peerGone pa 4096
  | _ => false

/-- Whether the frames of a request are such as it copies between: toward the device, from host memory or device memory to device memory or a peer's;
toward the host, from device memory or a peer's to host memory. -/
def State.framesOkay (s : State) (q : XRequest) (old : Nat) : Bool :=
  if q.toDevice then (s.place old == .host || s.frameHere old) && s.frameHere q.frame else s.frameHere old && s.place q.frame == .host

/-- A line that the migration engine writes to a peer: its stored form and tag, checked by the receiving home, which leaves the line as it was where
the tag fails (R374). -/
def State.sendLine (s : State) (pa : Nat) (tag : Byte) (stored : List Byte) : State × Nat :=
  if s.peerGone pa 256 then (s, 1)
  else if !tagOk tag then (s, 2)
  else ((s.homeWrite pa (expandLine tag stored)).1.post pa, 0)

/-- The tag and the stored form of a line as its home holds it; a line of host memory has them from the encoder. -/
def State.storedForm (s : State) (pa : Nat) : Byte × List Byte :=
  let line := s.homeBytes pa 256
  let tag := match s.place pa with
    | .device _ => s.tag (s.fold pa / 256)
    | _ => encodeTag line
  (tag, storeLine tag line)

/-- The lines of a page from one frame to another (R355, R374): the reason of a failure, 0 where the copy is whole. Lines to a peer go in their stored
form, all others expanded (R186). -/
def copyLines : Nat → State → Nat → Nat → State × Nat
  | 0, s, _, _ => (s, 0)
  | n + 1, s, old, new =>
    match s.badRange old 256 with
    | some (src, b) => (s.logBad src 0 b 0xFFFF, 2)
    | none =>
      let s1 := s.afterLoad .device true old 256
      let r : State × Nat := match s.place new with
        | .peer _ _ => s1.sendLine new (s.storedForm old).1 (s.storedForm old).2
        | _ => let w := s1.deviceStore false new (s1.homeBytes old 256); (w.1, if w.2 then 0 else 1)
      if r.2 = 0 then copyLines n r.1 (old + 256) (new + 256) else r

/-- MIGRATE_COPY_DONE (R355): steps 4 and 5 of the oldest migration whose translations have drained. -/
def execMigrateCopyDone (s : State) : Out :=
  .next (match s.xreqs.find? fun q => !q.isShoot && s.drained q with
    | none => s
    | some q =>
      let s1 := { s.flushAll with xreqs := s.xreqs.erase q }
      let old := s1.fold ((pteOf q.original).ppn * 4096)
      let moving := pteState q.original false 2
      let fail (s : State) (reason : Nat) : State :=
        (s.pteSwap q.pte moving q.original).1.ringWord q.cpl (ringFault reason)
      if !s.framesOkay q old then fail s1 1
      else
        match copyLines 16 s1 old q.frame with
        | (s2, 0) =>
          let final := pteFrame (if q.toDevice then pteState q.original false 3 else pteState q.original true 1) q.frame
          match s2.pteSwap q.pte moving final with
          | (s3, true) => s3.ringWord q.cpl (status codeOK 0)
          | (s3, false) => s3.ringWord q.cpl (ringFault 8)
        | (s2, reason) => fail s2 reason)

/-- SHOOT (R356): the translations are removed on every core. A slot that cannot be read is taken and dropped. -/
def execShoot (s : State) : Out :=
  .next (match s.ringSlot.map fun pa => s.ringRecord pa with
    | none => s
    | some none => (s.ringDrop (s.ringSlot.getD 0)).ringTake
    | some (some r) =>
      if fieldAt r 0 1 ≠ 2 then s
      else
        let cpl := fieldAt r 48 8
        let s1 := s.ringTake.ringWord cpl pendingWord
        if !shootOkay r then s1.ringWord cpl (ringFault 7)
        else
          let q := s1.shootDown (requestOf r true 0)
          { q.1 with xreqs := q.1.xreqs ++ [q.2] })

/-- SHOOT_DRAINED (R356, R357): the object of the oldest SHOOT whose translations have drained is written OK. -/
def execShootDrained (s : State) : Out :=
  .next (match s.xreqs.find? fun q => q.isShoot && s.drained q with
    | none => s
    | some q => { s.flushAll with xreqs := s.xreqs.erase q }.ringWord q.cpl (status codeOK 0))

end Sys2Proof.Machine
end

