-- ==== Sys2Proof/Machine/Badger.lean ====
section
/-! DEFINITION. Badger (R393 to R395): the fold of a kernel's dirty pages, and DGET (R400). -/
namespace Sys2Proof.Machine

/-! ### The fold (R394, R395) -/

/-- The frame of a page under a kernel's root: a page of a local store is met in the camps of the kernel's harts. -/
def State.foldFrame (s : State) (k : Kernel) (camps : List Nat) (va : Word) : Option Nat :=
  if !isCanonical va ∨ bits k.x.root.toNat 63 60 ≠ 10 then none
  else (camps ++ [Config.numCamps]).findSome? fun c =>
    match (s.walk ⟨64 * c, false, k.x.root, k.ctx, k.x.key⟩ .load va.toNat 4 (bits k.x.root.toNat 43 0)).1 with
    | .ok pa => if (s.badRange pa 4096).isSome then none else some pa
    | _ => none

/-- H(VA) of a dirty page, and whether the page could not be read. -/
def State.foldPage (s : State) (k : Kernel) (camps : List Nat) (page : Nat) : List Byte × Bool :=
  let va := w64 (4096 * page)
  match s.foldFrame k camps va with
  | some pa => (sha256 (leBytes 8 va.toNat ++ s.homeBytes pa 4096), false)
  | none => (List.replicate 32 0xFF, true)

/-- The digest after a fold. -/
def foldDigest (d : List Byte) (image : Word) (pages : List (Nat × List Byte)) : List Byte :=
  sha256 (d ++ leBytes 8 image.toNat ++ leBytes 8 pages.length ++
    pages.flatMap fun p => leBytes 8 (4096 * p.1) ++ p.2)

/-- A kernel's fold where its context's digests are on, and its KEND records. -/
def State.fold_ (s : State) (k : Kernel) (camps : List Nat) : State :=
  let c := s.context k.ctx
  let kend (s : State) (d : List Byte) : State :=
    camps.foldl (fun s p => s.spoor p 7 k.ctx 0xFFFF 0
      (k.image :: (List.range 4).map fun i => w64 (fieldAt d (8 * i) 8))) s
  if !c.bdg then kend s (List.replicate 32 0)
  else
    let hs := k.dirty.map fun p => (p, s.foldPage k camps p)
    let d := foldDigest c.digest k.image (hs.map fun p => (p.1, p.2.1))
    let refused := (hs.filter fun p => p.2.2).length
    kend (s.setContext k.ctx { c with digest := d, folds := c.folds + 1, refusedPages := c.refusedPages + refused }) d

/-- BADGER_ENABLE (R393). -/
def execBadgerEnable (ctx : Nat) (v : Word) (s : State) : Out := .next (s.dgctl ctx v)

/-- DGET (R400). -/
def execDget (d a : Reg) (s : State) : Out :=
  held s fun s =>
    let c := s.context s.h.ctx
    writeX s d (if c.bdg then w64 (fieldAt c.digest (8 * ((s.h.getX a).toNat % 4)) 8) else 0)

end Sys2Proof.Machine
end

