-- ==== Sys2Proof/Machine/Control.lean ====
section
/-! DEFINITION. Branches, jumps and LOOP (R112, R113). -/
namespace Sys2Proof.Machine

/-- A redirect commits. -/
def jump (s : State) (t : Word) : Out := .next (s.modH fun a => a.redirect t)

/-- A branch: taken where the relation holds of x[a] and x[b] as signed values. -/
def branch (s : State) (a b : Reg) (o : BitVec 15) (rel : Int → Int → Bool) : Out :=
  if rel (s.h.getX a).toInt (s.h.getX b).toInt then jump s (s.h.pc + off15 o) else commit s id

/-- BEQ (R112). -/
def execBeq (a b : Reg) (o : BitVec 15) (s : State) : Out := branch s a b o (fun x y => decide (x = y))
/-- BNE (R112). -/
def execBne (a b : Reg) (o : BitVec 15) (s : State) : Out := branch s a b o (fun x y => decide (x ≠ y))
/-- BLT (R112). -/
def execBlt (a b : Reg) (o : BitVec 15) (s : State) : Out := branch s a b o (fun x y => decide (x < y))
/-- BGE (R112). -/
def execBge (a b : Reg) (o : BitVec 15) (s : State) : Out := branch s a b o (fun x y => decide (y ≤ x))

/-- JAL (R112). -/
def execJal (d : Reg) (o : BitVec 20) (s : State) : Out :=
  .next (s.modH fun a => (a.setX d (a.pc + 4)).redirect (a.pc + off20 o))

/-- JALR (R112): the target from the old x[a]; a misaligned one raises MISALIGNED_FETCH with x[d] unchanged (R94). -/
def execJalr (d a : Reg) (i : BitVec 15) (s : State) : Out :=
  let t := s.h.getX a + simm i
  if t.toNat % 4 ≠ 0 then raise s ⟨causeMisalignedFetch, t, none⟩
  else .next (s.modH fun h => (h.setX d (h.pc + 4)).redirect t)

/-- A level armed at a LOOP word (R113). -/
def Hart.arm (h : Hart) (a : Reg) (level : Nat) (fin : Word) : Hart :=
  { h.setX a (h.getX a - 1) with loops := h.loops.set! level (some ⟨h.pc + 4, fin, a⟩) }

/-- LOOP (R113): a count of zero skips the body, a redirect; any other arms the level. A level above 5, or an off15 outside 1 to 16,383, is
ILLEGAL (R86). -/
def execLoop (a b : Reg) (o : BitVec 15) (s : State) : Out :=
  if 5 < b.toNat ∨ o.toNat = 0 ∨ 16383 < o.toNat then illegal s (.loop a b o)
  else
    let fin := s.h.pc + off15 o
    if s.h.getX a = 0 then jump s (fin + 4) else commit s fun h => h.arm a b.toNat fin

end Sys2Proof.Machine
end

