-- ==== Sys2Proof/Machine/ControlRegs.lean ====
section
/-! DEFINITION. Control registers by number (R22 to R38, R117, R118). -/
namespace Sys2Proof.Machine

/-- Bits 64n + 63 to 64n of a mask register. -/
def maskWord (m : BitVec 8192) (n : Nat) : Word := (m >>> (64 * n)).setWidth 64

/-- The mask register with those bits replaced. -/
def setMaskWord (m : BitVec 8192) (n : Nat) (v : Word) : BitVec 8192 :=
  (m &&& ~~~((0xFFFFFFFFFFFFFFFF : BitVec 8192) <<< (64 * n))) ||| (v.setWidth 8192 <<< (64 * n))

/-- Who may reach a register, by the two columns of R22. -/
inductive CrAccess where
  | none_ | ro | rw
  deriving DecidableEq, Repr

/-- The Kernel and Supervisor columns of R22; none for a number that is not in the table. -/
def crTable (n : Nat) : Option (CrAccess × CrAccess) :=
  match n with
  | 0x000 | 0x003 | 0x004 => some (.rw, .rw)
  | 0x001 | 0x002 | 0x005 | 0x006 => some (.ro, .rw)
  | 0x007 | 0x008 => some (.ro, .ro)
  | 0x010 | 0x011 | 0x012 | 0x013 => some (.ro, .rw)
  | 0x014 | 0x018 | 0x019 | 0x01A | 0x01B | 0x01C => some (.none_, .rw)
  | _ =>
    if 0x100 ≤ n ∧ n < 0x180 then some (.ro, .rw)
    else if 0x180 ≤ n ∧ n < 0x280 then some (.rw, .rw)
    else none

/-- Whether an access is permitted: a kernel access that its column forbids, and a write of DTIME, are not (R22, R33). A supervisor
write of a register that R22 marks RO is permitted and ignored (R117). -/
def crPermitted (n : Nat) (sup write : Bool) : Bool :=
  match crTable n with
  | none => false
  | some (k, _) =>
    !(write && n == 7) && (sup || match k with
      | .none_ => false
      | .ro => !write
      | .rw => true)

/-- Registers of the plane side (R37, R339). -/
def crPlane (n : Nat) : Bool := decide (n < 3) || decide (0x100 ≤ n)

/-- What a read returns. -/
def State.crRead (s : State) (h n : Nat) : Word :=
  let a := s.hart h
  match n with
  | 0x000 => a.vtype
  | 0x001 => a.vl
  | 0x002 => a.estart
  | 0x003 => a.fctl
  | 0x004 => a.dlmode
  | 0x005 => a.dlstat
  | 0x006 => a.rtime
  | 0x007 => s.dtime
  | 0x008 => w64 (hartId h)
  | 0x010 => a.dlcap
  | 0x011 => a.dlesc
  | 0x012 => a.pwbase
  | 0x013 => a.pwlen
  | 0x014 => a.pwctl
  | 0x018 => a.hstat
  | 0x019 => a.tcause
  | 0x01A => a.tval
  | 0x01B => a.trappc
  | 0x01C => a.trapei
  | _ =>
    if n < 0x180 then maskWord a.edone (n - 0x100)
    else if n < 0x200 then maskWord a.fmask (n - 0x180)
    else maskWord a.smiss (n - 0x200)

/-- VTYPE written (R26, R27, R118): none where the value is ILLEGAL. VL above the new VLMAX falls to it. -/
def Hart.writeVtype (a : Hart) (v : Word) : Option Hart :=
  let t := v &&& 0xFF80
  if !fmtOk (bits t.toNat 15 11) || (!a.sup && decide (a.grpCeil < bits t.toNat 10 9)) then none
  else some { a with vtype := t, vl := if vlmax t < a.vl.toNat then w64 (vlmax t) else a.vl }

/-- A register written: `v` is the value for its RW fields, `c` what a W1C field is written with. None where the value is ILLEGAL. -/
def Hart.crWrite (a : Hart) (n : Nat) (v c : Word) : Option Hart :=
  match n with
  | 0x000 => a.writeVtype v
  | 0x001 => if vlmax a.vtype < v.toNat % 16384 then none else some { a with vl := v &&& 0x3FFF }
  | 0x002 => some { a with estart := v &&& 0x3FFF }
  | 0x003 => if 4 ≤ v.toNat % 8 then none else some { a with fctl := v &&& 0xFF }
  | 0x004 => some { a with dlmode := v &&& 1 }
  | 0x005 => some { a with dlstat := (v &&& 0xFFFF) ||| (a.dlstat &&& ~~~c &&& 0x10000) }
  | 0x006 => some { a with rtime := v }
  | 0x010 => some { a with dlcap := v }
  | 0x011 => some { a with dlesc := v &&& 0xFF }
  | 0x012 => some { a with pwbase := v &&& 0xFF }
  | 0x013 => some { a with pwlen := w64 (Nat.min (v.toNat % 512) 256) }
  | 0x014 => some { a with pwctl := v &&& 0xFFFF0001 }
  | 0x018 => some { a with hstat := (v &&& 2) ||| (a.hstat &&& 1) }
  | 0x019 => some { a with tcause := v &&& 0x800000000000FFFF }
  | 0x01A => some { a with tval := v }
  | 0x01B => some { a with trappc := canonical v &&& ~~~3 }
  | 0x01C => some { a with trapei := v &&& 0x8000000000003FFF }
  | _ =>
    if n < 0x100 then some a
    else if n < 0x180 then some { a with edone := setMaskWord a.edone (n - 0x100) v }
    else if n < 0x200 then some { a with fmask := setMaskWord a.fmask (n - 0x180) v }
    else some { a with smiss := setMaskWord a.smiss (n - 0x200) v }

/-- An access that commits: the checks of R22 and R339, then the read and the write as one step (R117). -/
def crAccess (s : State) (i : Instr) (d : Reg) (n : BitVec 12) (write : Bool) (v c : Word → Word) : Out :=
  let num := n.toNat
  let old := s.crRead s.cur num
  if !crPermitted num s.h.sup write then illegal s i
  else if crPlane num && !s.h.owns then raise s ownerTrap
  else if write then
    match s.h.crWrite num (v old) (c old) with
    | none => illegal s i
    | some a => commit s fun _ => a.setX d old
  else writeX s d old

/-- The reads that do not wait for the queue (R329). -/
def crLocal (n : Nat) : Bool := [0x000, 0x001, 0x004, 0x006, 0x007, 0x008, 0x010, 0x011, 0x012, 0x013].contains n

/-- CRR (R117). -/
def execCrr (d : Reg) (n : BitVec 12) (s : State) : Out :=
  if crLocal n.toNat then crAccess s (.crr d n) d n false id id
  else held s fun s => crAccess s (.crr d n) d n false id id

/-- CRW (R117). -/
def execCrw (d a : Reg) (n : BitVec 12) (s : State) : Out :=
  let go (s : State) : Out := crAccess s (.crw d a n) d n true (fun _ => s.h.getX a) (fun _ => s.h.getX a)
  if n = 0 then go s else held s go

/-- CRS (R117): a W1C field is written with x[a]'s bits. -/
def execCrs (d a : Reg) (n : BitVec 12) (s : State) : Out :=
  held s fun s => crAccess s (.crs d a n) d n (a != 0) (fun old => old ||| s.h.getX a) (fun _ => s.h.getX a)

/-- CRC (R117): a W1C field is written with zero. -/
def execCrc (d a : Reg) (n : BitVec 12) (s : State) : Out :=
  held s fun s => crAccess s (.crc d a n) d n (a != 0) (fun old => old &&& ~~~s.h.getX a) (fun _ => 0)

end Sys2Proof.Machine
end

