-- ==== Sys2Proof/Machine/Merge.lean ====
section
/-! DEFINITION. The merge instructions and the network's own events (R289 to R303). -/
namespace Sys2Proof.Machine

/-! ### Commands (R291 to R294, R302) -/

/-- MERGE_STATE (R292). -/
def mergeTrap (reason : Nat) (m : Merge) : Trap := ⟨causeMergeState, w64 (reason * 2 ^ 12 + m.st.code * 2 ^ 8), none⟩

/-- The network of a hart's camp. -/
def State.network (s : State) (h : Nat) : Merge := (s.camp (campOf h)).merge

/-- Who a hart issues merge commands for: its context and its kernel. -/
def Hart.mergeOwner (a : Hart) : Nat × Option Nat := (a.ctx, a.kernel)

/-- Whether the camp's assignment word names the running context (R289, R425). -/
def State.mergeAssigned (s : State) (h : Nat) : Bool :=
  let c := s.camp (campOf h)
  c.mergeV && c.mergeCtx == (s.hart h).ctx

/-- The check of a command other than MGOPEN, and of a push: FREE, then held elsewhere. -/
def State.mergeHeld (s : State) (h : Nat) : Option Trap :=
  let m := s.network h
  if m.st = .free then some (mergeTrap 0 m)
  else if m.owner ≠ some (s.hart h).mergeOwner then some (mergeTrap 1 m) else none

/-- R291 for MGOPEN. -/
def openCheck (s : State) (h : Nat) : Option Trap :=
  let m := s.network h
  if m.st = .free then (if s.mergeAssigned h then none else some (mergeTrap 1 m))
  else if m.owner ≠ some (s.hart h).mergeOwner then some (mergeTrap 1 m) else some (mergeTrap 2 m)

/-- A merge descriptor that R294 refuses. -/
def mergeDescBad (l : List Byte) : Bool :=
  let mode := fieldAt l 0 1
  let k := fieldAt l 4 4
  let cap := fieldAt l 16 8
  let spill := fieldAt l 24 8
  let len := fieldAt l 32 8
  fieldAt l 1 3 != 0 || fieldAt l 40 24 != 0 || decide (1 < mode) || cap == 0 || decide (2 ^ 28 < cap) || fieldAt l 8 8 % 64 != 0 ||
    (if mode = 1 then k == 0 || decide (cap < k) else k != 0) ||
    (len != 0 && (decide (len ≤ 4096) || (len - 4096) % (2 * 2 ^ 20) != 0)) || spill % 4096 != 0 || (spill != 0 && len == 0)

/-- The checks of MGOPEN after its object that read nothing: the state, then the descriptor's address. -/
def openChecks (d : Reg) (s : State) (h : Nat) (e : QEntry) : State × Option Trap :=
  match s.objCheck h d e.vd with
  | (s, some t) => (s, some t)
  | (s, none) =>
    match openCheck s h with
    | some t => (s, some t)
    | none =>
      (s, if e.va.toNat % 64 ≠ 0 then some (engineArg 0 1) else none)

/-- A network as MGOPEN leaves it. -/
def mergeOpened (l : List Byte) (owner : Nat × Option Nat) (x : XCtx) : Merge :=
  { Merge.reset with
    st := .opened, owner := some owner, x := x, mode := fieldAt l 0 1, kk := fieldAt l 4 4, out := w64 (fieldAt l 8 8),
    outcap := fieldAt l 16 8, spill := w64 (fieldAt l 24 8), half := (fieldAt l 32 8 - 4096) / 2 }

/-- MGOPEN reads its descriptor, once, and takes the network where it is well formed: its run table is written, its object OK. -/
def openRun (d : Reg) (s : State) (h : Nat) (e : QEntry) : Done :=
  match s.loadRun (.hart h) (s.xctx h) e.va 64 with
  | (s, _, some er) => let r := s.accessTrap h false e.va er; { state := r.1, trap := some r.2 }
  | (s, l, none) =>
    if mergeDescBad l then { state := s, trap := some (engineArg 1 1) }
    else match s.objPending h d e.vd with
    | (s, _, some t) => { state := s, trap := some t }
    | (s, pa, none) =>
      let s1 := (s.modMerge (campOf h) fun _ => mergeOpened l (s.hart h).mergeOwner (s.xctx h)).writeTable (campOf h)
      { state := s1.writeObject h (s.hart h).kernel e.vd pa (mergeStatus codeOK 0 0 0 0) e.pc }

/-- R293. -/
def opMgopen (d a : Reg) : QOp where
  kind := .engine
  elems := false
  owner := false
  ra := a
  rd := d
  post := openChecks d
  run := fun s h e _ _ => openRun d s h e

/-- A close or a drain: its object pending, then what it does to the network. -/
def mergeCommand (d : Reg) (allowed : Merge → Bool) (f : Merge → Option (Word × Nat) → Merge) : QOp where
  kind := .engine
  elems := false
  owner := false
  rd := d
  post := withObj d fun s h _ =>
    (s.mergeHeld h).or (if allowed (s.network h) then none else some (mergeTrap 2 (s.network h)))
  run := fun s h e _ _ =>
    match s.objPending h d e.vd with
    | (s, _, some t) => { state := s, trap := some t }
    | (s, pa, none) => { state := s.modMerge (campOf h) fun m => f m (pa.map fun p => (e.vd, p)) }

/-- R302: input ends and the passes begin. -/
def opMgclose (d : Reg) : QOp :=
  mergeCommand d (fun m => m.st == .opened) fun m o => { m with st := .closing, closeObj := o }

/-- R302: the drain begins, or is recorded until the passes end. -/
def opMgdrain (d : Reg) : QOp :=
  mergeCommand d (fun m => m.st == .closed || (m.st == .closing && !m.drainRecorded)) fun m o =>
    if m.st = .closed then { m with st := .draining, drainObj := o } else { m with drainRecorded := true, drainObj := o }

/-! ### MGPUSH (R295, R296) -/

/-- One element of a push. -/
def pushOne (d a b : Reg) (k : KReg) (h : Nat) (s : State) (i : Nat) : State × Option Trap :=
  let c := s.core (coreOf h)
  let x := s.hart h
  let r : Except Nat (Nat × Nat × Nat) := do
    let row ← c.readElem (x.shapeOf d) i
    let col ← c.readElem (x.shapeOf a) i
    let v ← c.readElem (x.shapeOf b) i
    return (row, col, v)
  match r with
  | .error kc => (s.logError (w64 (2 ^ 60 + kc)) 0 1 (hartId h), some (planeCheck kc))
  | .ok (row, col, v) =>
    let p := s.present (campOf h) (coreOf h % 16) row col (.ofNat 32 v)
    (p.1.modHart h (Hart.setKBit k i p.2), none)

/-- R295: it chains on nothing and nothing chains on it. -/
def opMgpush (d a b : Reg) (y x : BitVec 1) (k : KReg) : QOp where
  width := 32
  port := true
  kr := [k]
  kw := some k
  chains := fun _ _ _ => false
  names := fun _ e => [{ nameD d 32 e with dest := false }, nameA a 32 x e, nameB b 32 y e].map fun n => { n with align := false }
  post := fun s h _ => (s, s.mergeHeld h)
  run := fun s h _ lo hi => eachElem (pushOne d a b k h) ((elemRange lo hi).filter ((s.hart h).active k)) s

/-! ### Events -/

/-- MERGE_PASS_END (R298). -/
def execMergePassEnd (camp : Nat) (s : State) : Out :=
  .next (if (s.camp camp).merge.st = .closing then s.mergeClosed camp else s)

/-- MERGE_DRAIN_COMPLETE (R291, R300). -/
def execMergeDrainComplete (camp : Nat) (s : State) : Out :=
  .next (if (s.camp camp).merge.st = .draining then s.mergeDrain camp else s)

/-! ### The arms -/

/-- R293. -/
def execMgopen (d a : Reg) (st : State) : Out :=
  commitQueued (.mgopen d a) (opMgopen d a) st
/-- R302. -/
def execMgclose (d : Reg) (st : State) : Out :=
  commitQueued (.mgclose d) (opMgclose d) st
/-- R302. -/
def execMgdrain (d : Reg) (st : State) : Out :=
  commitQueued (.mgdrain d) (opMgdrain d) st
/-- R295. -/
def execMgpush (d a b : Reg) (y x : BitVec 1) (k : KReg) (st : State) : Out :=
  commitQueued (.mgpush d a b y x k) (opMgpush d a b y x k) st

end Sys2Proof.Machine
end

