-- ==== Sys2Proof/Machine/Vector.lean ====
section
/-! DEFINITION. The definition and vector instructions (chapter 7, R125 to R150). -/
namespace Sys2Proof.Machine

/-! ### Arithmetic (R135) -/

/-- Shared by VADD's two forms. -/
def addElem (f : BitVec 5) (h : Hart) (u v : Nat) : FRes := arith2 (· + ·) fadd h.rm f.toNat u v
/-- Shared by VSUB's two forms. -/
def subElem (f : BitVec 5) (h : Hart) (u v : Nat) : FRes := arith2 (· - ·) fsub h.rm f.toNat u v
/-- Shared by VMUL's two forms. -/
def mulElem (f : BitVec 5) (h : Hart) (u v : Nat) : FRes := arith2 (· * ·) fmul h.rm f.toNat u v

/-- R135. -/
def opVaddVv (d a b : Reg) (f : BitVec 5) (y x : BitVec 1) (k : KReg) : QOp := opVV (fmtWidth f.toNat) d a b y x k (addElem f)
/-- R135. -/
def opVaddVx (d a b : Reg) (f : BitVec 5) (x : BitVec 1) (k : KReg) : QOp := opVX (fmtWidth f.toNat) d a b x k (addElem f)
/-- R135. -/
def opVsubVv (d a b : Reg) (f : BitVec 5) (y x : BitVec 1) (k : KReg) : QOp := opVV (fmtWidth f.toNat) d a b y x k (subElem f)
/-- R135. -/
def opVsubVx (d a b : Reg) (f : BitVec 5) (x : BitVec 1) (k : KReg) : QOp := opVX (fmtWidth f.toNat) d a b x k (subElem f)
/-- R135. -/
def opVmulVv (d a b : Reg) (f : BitVec 5) (y x : BitVec 1) (k : KReg) : QOp := opVV (fmtWidth f.toNat) d a b y x k (mulElem f)
/-- R135. -/
def opVmulVx (d a b : Reg) (f : BitVec 5) (x : BitVec 1) (k : KReg) : QOp := opVX (fmtWidth f.toNat) d a b x k (mulElem f)
/-- R135: vd is the addend. -/
def opVfmaVv (d a b : Reg) (f : BitVec 5) (y x : BitVec 1) (k : KReg) : QOp :=
  opVVd (fmtWidth f.toNat) d a b y x k fun h o u v => arithFma h.rm f.toNat o u v
/-- R135: vd is the addend. -/
def opVfmaVx (d a b : Reg) (f : BitVec 5) (x : BitVec 1) (k : KReg) : QOp :=
  opVXd (fmtWidth f.toNat) d a b x k fun h o u v => arithFma h.rm f.toNat o u v
/-- R135. -/
def opVmin (d a b : Reg) (f : BitVec 5) (y x : BitVec 1) (k : KReg) : QOp :=
  opVV (fmtWidth f.toNat) d a b y x k fun _ u v => arithMinMax false f.toNat u v
/-- R135. -/
def opVmax (d a b : Reg) (f : BitVec 5) (y x : BitVec 1) (k : KReg) : QOp :=
  opVV (fmtWidth f.toNat) d a b y x k fun _ u v => arithMinMax true f.toNat u v
/-- R135: float formats only. -/
def opVdiv (d a b : Reg) (f : BitVec 5) (y x : BitVec 1) (k : KReg) : QOp :=
  opVV (fmtWidth f.toNat) d a b y x k fun h u v => fdiv h.rm (ffmtOf f.toNat) (fdecode (ffmtOf f.toNat) u) (fdecode (ffmtOf f.toNat) v)
/-- R135: float formats only. -/
def opVsqrt (d a : Reg) (f : BitVec 5) (x : BitVec 1) (k : KReg) : QOp :=
  opV1 (fmtWidth f.toNat) (fmtWidth f.toNat) d a x k fun h u => fsqrt h.rm (ffmtOf f.toNat) (fdecode (ffmtOf f.toNat) u)

/-! ### Comparisons (R136) -/

/-- R136. -/
def opVcmpeqVv (d : KReg) (a b : Reg) (f : BitVec 5) (y x : BitVec 1) (k : KReg) : QOp := cmpVV 0 d a b f y x k
/-- R136. -/
def opVcmpneVv (d : KReg) (a b : Reg) (f : BitVec 5) (y x : BitVec 1) (k : KReg) : QOp := cmpVV 1 d a b f y x k
/-- R136. -/
def opVcmpltVv (d : KReg) (a b : Reg) (f : BitVec 5) (y x : BitVec 1) (k : KReg) : QOp := cmpVV 2 d a b f y x k
/-- R136. -/
def opVcmpleVv (d : KReg) (a b : Reg) (f : BitVec 5) (y x : BitVec 1) (k : KReg) : QOp := cmpVV 3 d a b f y x k
/-- R136. -/
def opVcmpeqVx (d : KReg) (a b : Reg) (f : BitVec 5) (x : BitVec 1) (k : KReg) : QOp := cmpVX 0 d a b f x k
/-- R136. -/
def opVcmpneVx (d : KReg) (a b : Reg) (f : BitVec 5) (x : BitVec 1) (k : KReg) : QOp := cmpVX 1 d a b f x k
/-- R136. -/
def opVcmpltVx (d : KReg) (a b : Reg) (f : BitVec 5) (x : BitVec 1) (k : KReg) : QOp := cmpVX 2 d a b f x k
/-- R136. -/
def opVcmpleVx (d : KReg) (a b : Reg) (f : BitVec 5) (x : BitVec 1) (k : KReg) : QOp := cmpVX 3 d a b f x k

/-! ### Logic, shifts, select and clamp (R137 to R140) -/

/-- R137. -/
def opVand (d a b : Reg) (w : BitVec 2) (y x : BitVec 1) (k : KReg) : QOp := opLogic w d a b y x k fun u v => u &&& v
/-- R137. -/
def opVor (d a b : Reg) (w : BitVec 2) (y x : BitVec 1) (k : KReg) : QOp := opLogic w d a b y x k fun u v => u ||| v
/-- R137. -/
def opVxor (d a b : Reg) (w : BitVec 2) (y x : BitVec 1) (k : KReg) : QOp := opLogic w d a b y x k fun u v => u ^^^ v
/-- R137. -/
def opVandn (d a b : Reg) (w : BitVec 2) (y x : BitVec 1) (k : KReg) : QOp := opLogic w d a b y x k fun u v => u &&& ~~~v
/-- R137. -/
def opVorn (d a b : Reg) (w : BitVec 2) (y x : BitVec 1) (k : KReg) : QOp := opLogic w d a b y x k fun u v => u ||| ~~~v
/-- R138. -/
def opVsll (d a b : Reg) (s : BitVec 1) (w : BitVec 2) (x : BitVec 1) (k : KReg) : QOp :=
  opShift w d a b s x k fun W u n => u * 2 ^ n % 2 ^ W
/-- R138. -/
def opVsrl (d a b : Reg) (s : BitVec 1) (w : BitVec 2) (x : BitVec 1) (k : KReg) : QOp := opShift w d a b s x k fun _ u n => u / 2 ^ n
/-- R138. -/
def opVsra (d a b : Reg) (s : BitVec 1) (w : BitVec 2) (x : BitVec 1) (k : KReg) : QOp :=
  opShift w d a b s x k fun W u n => wrapN W (sxi W u / 2 ^ n)

/-- R139: every element is written, from va where the mask's bit is 1 and from vb where it is 0. -/
def opVsel (d a b : Reg) (w : BitVec 2) (y x : BitVec 1) (k : KReg) : QOp where
  width := widthOf w
  kr := [k]
  names := fun _ e => [nameD d (widthOf w) e, nameA a (widthOf w) x e, nameB b (widthOf w) y e]
  run := planeRun d 0 fun c h i => do
    let u ← c.readElem (h.shapeOf (if (h.getK k).getLsbD i then a else b)) i
    return piece i (u, 0)

/-- R140. -/
def opVclamp (d a b : Reg) (f : BitVec 5) (y x : BitVec 1) (k : KReg) : QOp :=
  opVVd (fmtWidth f.toNat) d a b y x k fun _ o u v =>
    let m := arithMinMax true f.toNat o u
    let r := arithMinMax false f.toNat m.1 v
    (r.1, m.2 ||| r.2)

/-! ### Conversions (R141 to R143) -/

/-- R141. -/
def opVcvt (d a : Reg) (f : BitVec 5) (x : BitVec 1) (k : KReg) (s : BitVec 5) : QOp :=
  opV1 (fmtWidth f.toNat) (fmtWidth s.toNat) d a x k fun h u => arithCvt h.rm f.toNat s.toNat u

/-- R142: elements into vd and scales into the name in the vb field. -/
def opVcvtsn (d a b : Reg) (f : BitVec 5) (x : BitVec 1) (k : KReg) : QOp where
  width := Nat.max (fmtWidth (wideCode f)) (fmtWidth (narrowCode f))
  kr := maskReads k
  grain := blkGrain
  pre := fun _ e => blkCheck e
  names := fun _ e => [nameD d (fmtWidth (narrowCode f)) e, nameA a (fmtWidth (wideCode f)) x e, nameScale b 2 true 0 e]
  run := narrowRun (some d) b a f k

/-- R142: the scales only. -/
def opVscale (d a : Reg) (f : BitVec 5) (x : BitVec 1) (k : KReg) : QOp where
  width := Nat.max (fmtWidth (wideCode f)) (fmtWidth (narrowCode f))
  kr := maskReads k
  grain := blkGrain
  pre := fun _ e => blkCheck e
  names := fun _ e => [nameScale d 0 true 0 e, nameA a (fmtWidth (wideCode f)) x e]
  run := narrowRun none d a f k

/-- Pieces up to an uncorrectable cell, without those of its block: the conversion stops at the block's first element (R71). -/
def wholeBlocks (B lo : Nat) (r : List Piece × Option (Nat × Nat)) : List Piece × Option (Nat × Nat) :=
  match r.2 with
  | none => r
  | some (i, cell) => (r.1.filter fun p => decide (p.idx < i / B * B), some (Nat.max lo (i / B * B), cell))

/-- R143. -/
def opVcvtsw (d a b : Reg) (f : BitVec 5) (y x : BitVec 1) (k : KReg) : QOp where
  width := Nat.max (fmtWidth (wideCode f)) (fmtWidth (narrowCode f))
  kr := maskReads k
  grain := blkGrain
  pre := fun _ e => blkCheck e
  names := fun _ e => [nameD d (fmtWidth (wideCode f)) e, nameA a (fmtWidth (narrowCode f)) x e, nameScale b 2 false y e]
  run := fun s h e lo hi =>
    let a' := s.hart h
    let c := s.core (coreOf h)
    let B := blkLen e.vtype
    let r := collect (fun i => if a'.active k i then do
        let q ← c.readElem (a'.shapeOf a) i
        let sc ← c.readElem (a'.shapeOf b) (i / B)
        return piece i (widenScaled a'.rm (wideCode f) (narrowCode f) sc q)
      else .ok none) (elemRange lo hi)
    finishPieces s h e (wholeBlocks B e.startsAt r) fun s l => s.modCore (coreOf h) fun c => c.putPieces (a'.shapeOf d) l

/-! ### Reductions (R144) -/

/-- Format code of a reduction's type. -/
def redCode (t : BitVec 3) : Nat := [8, 9, 10, 2, 6, 3, 7].getD t.toNat 8

/-- A node of a sum in f32, rounded to nearest even. -/
def sumNode (u v : Nat) : FRes := fadd .rne (ffmtOf 8) (fdecode (ffmtOf 8) u) (fdecode (ffmtOf 8) v)

/-- A result of the tree rounded once more into f16 or bf16 (R144, R65). -/
def roundOnce (code from_ : Nat) (r : FRes) : FRes :=
  let q := fconvert .rne (ffmtOf code) (fdecode (ffmtOf from_) r.1)
  (q.1, q.2 ||| r.2)

/-- A sum of f16 or bf16 elements: the tree runs in f32. -/
def sumNarrow (code init : Nat) (l : List (Option Nat)) : FRes :=
  let wide (v : Nat) : FRes := fconvert .rne (ffmtOf 8) (fdecode (ffmtOf code) v)
  let up := l.map fun o => o.map wide
  let q := roundOnce code 8 (treeFrom sumNode (wide init).1 (up.map fun o => o.map (·.1)))
  (q.1, q.2 ||| (wide init).2 ||| up.foldl (fun a o => a ||| (o.map (·.2)).getD 0) 0)

/-- The result of a reduction: `op` 0 is SUM, 1 MAX, 2 MIN. With no active element it is the initial value (R75), which f16 and bf16
round once more like any result (R144). -/
def reduceVal (op code init : Nat) (l : List (Option Nat)) : FRes :=
  if op = 0 then
    if codeInt code then treeFrom (fun u v => (wrapN (fmtWidth code) (codeVal code u + codeVal code v), 0)) init l
    else if code = 8 then treeFrom sumNode init l
    else sumNarrow code init l
  else
    let r := treeFrom (arithMinMax (op == 1) code) init l
    if codeInt code || code == 8 then r else roundOnce code code r

/-- The active elements 0 to n - 1 of a name, in order, as nodes of level 0. -/
def redNodes (c : Core) (h : Hart) (a : Reg) (k : KReg) (n : Nat) : Except Nat (List (Option Nat)) :=
  (List.range n).mapM fun i =>
    if h.active k i then do
      let u ← c.readElem (h.shapeOf a) i
      return some u
    else .ok none

/-- A reduction: one write of element 0 of vd at completion; nothing where ESTART is not below VL (R30). A stop leaves
ESTART 0. -/
def opRed (op : Nat) (d a b : Reg) (t : BitVec 3) (y x : BitVec 1) (k : KReg) : QOp where
  width := fmtWidth (redCode t)
  kr := maskReads k
  kall := true
  unit_ := true
  names := fun _ e =>
    [{ nameD d (fmtWidth (redCode t)) e with need := 1, lo := 0, hi := 1 }, { nameA a (fmtWidth (redCode t)) x e with lo := 0, align := false },
      { nameB b (fmtWidth (redCode t)) y e with need := 1, lo := 0, hi := 1, align := false }]
  stopAt := fun _ a _ => { a with estart := 0 }
  run := fun s h e lo hi =>
    if hi ≤ lo then { state := s }
    else
      let a' := s.hart h
      let c := s.core (coreOf h)
      let r : Except Nat Piece := do
        let init ← c.readElem (a'.shapeOf b) 0
        let l ← redNodes c a' a k e.vl
        let v := reduceVal op (redCode t) init l
        return ⟨0, v.1, v.2⟩
      match r with
      | .error kc => { state := s.logError (w64 (2 ^ 60 + kc)) 0 1 (hartId h), trap := some (planeCheck kc) }
      | .ok p => { state := s.modCore (coreOf h) fun c => c.putPieces (a'.shapeOf d) [p], flags := p.flags }

/-- R144. -/
def opVredsum (d a b : Reg) (t : BitVec 3) (y x : BitVec 1) (k : KReg) : QOp := opRed 0 d a b t y x k
/-- R144. -/
def opVredmax (d a b : Reg) (t : BitVec 3) (y x : BitVec 1) (k : KReg) : QOp := opRed 1 d a b t y x k
/-- R144. -/
def opVredmin (d a b : Reg) (t : BitVec 3) (y x : BitVec 1) (k : KReg) : QOp := opRed 2 d a b t y x k

/-! ### Compress, expand and conflicts (R145, R146) -/

/-- c(e): active elements below e. -/
def Hart.activeBelow (a : Hart) (k : KReg) (e : Nat) : Nat := ((List.range e).filter (a.active k)).length

/-- R145. -/
def opVcompress (d a : Reg) (w : BitVec 2) (x : BitVec 1) (k : KReg) : QOp where
  width := widthOf w
  kr := maskReads k
  kall := true
  names := fun _ e => [{ (nameD d (widthOf w) e).whole with spread := true }, (nameA a (widthOf w) x e).whole]
  run := planeRun d k fun c h i => do
    let u ← c.readElem (h.shapeOf a) i
    return piece (h.activeBelow k i) (u, 0)

/-- R145. -/
def opVexpand (d a : Reg) (w : BitVec 2) (x : BitVec 1) (k : KReg) : QOp where
  width := widthOf w
  kr := maskReads k
  kall := true
  names := fun _ e => [(nameD d (widthOf w) e).whole, (nameA a (widthOf w) x e).whole]
  run := planeRun d k fun c h i => do
    let u ← c.readElem (h.shapeOf a) (h.activeBelow k i)
    return piece i (u, 0)

/-- R146: bit e is 1 where no active element below e has the same value. -/
def opVconfl (d : KReg) (a : Reg) (f : BitVec 5) (x : BitVec 1) (k : KReg) : QOp where
  width := fmtWidth f.toNat
  kr := maskReads k
  kall := true
  kw := some d
  unit_ := true
  names := fun _ e => [(nameA a (fmtWidth f.toNat) x e).whole]
  run := maskRun d k fun c h i => do
    let u ← c.readElem (h.shapeOf a) i
    let l ← ((List.range i).filter (h.active k)).mapM fun j => c.readElem (h.shapeOf a) j
    return piece i (if l.contains u then 0 else 1, 0)

/-! ### Slides and element moves (R147 to R149) -/

/-- R147. -/
def opVslideup (d a b : Reg) (s : BitVec 1) (w : BitVec 2) (x : BitVec 1) (k : KReg) : QOp where
  width := widthOf w
  kr := maskReads k
  rb := b
  names := fun _ e => [(nameD d (widthOf w) e).whole, (nameA a (widthOf w) x e).whole]
  run := fun st h e lo hi => planeRun d k (fun c a' i =>
    if amount s b e ≤ i then do
      let u ← c.readElem (a'.shapeOf a) (i - amount s b e)
      return piece i (u, 0)
    else .ok none) st h e lo hi

/-- R147. -/
def opVslidedn (d a b : Reg) (s : BitVec 1) (w : BitVec 2) (x : BitVec 1) (k : KReg) : QOp where
  width := widthOf w
  kr := maskReads k
  rb := b
  names := fun _ e => [(nameD d (widthOf w) e).whole, (nameA a (widthOf w) x e).whole]
  run := fun st h e lo hi => planeRun d k (fun c a' i =>
    if i + amount s b e < e.vl then do
      let u ← c.readElem (a'.shapeOf a) (i + amount s b e)
      return piece i (u, 0)
    else .ok (piece i (0, 0))) st h e lo hi

/-- R148. -/
def opVmv (d a : Reg) (w : BitVec 2) (x : BitVec 1) (k : KReg) : QOp := opV1 (widthOf w) (widthOf w) d a x k fun _ u => (u, 0)

/-- R148. -/
def opVbcast (d b : Reg) (w : BitVec 2) : QOp where
  width := widthOf w
  rb := b
  names := fun _ e => [nameD d (widthOf w) e]
  run := fun s h e lo hi => planeRun d 0 (fun _ _ i => .ok (piece i (scalarBits (widthOf w) e.vb, 0))) s h e lo hi

/-- The range of the one element x[b] of an entry: none where it is N or more. Any element below N is reached, those from 8,192 on among
them: R149 bounds x[b] by N alone, and R44 keeps vector instructions to the first 8,192 (DESIGN CHOICE, log 62). -/
def oneElem (h : Hart) (r : Reg) (e : QEntry) : Nat × Nat :=
  if e.vb.toNat < (h.shapeOf r).count then (e.vb.toNat, e.vb.toNat + 1) else (0, 0)

/-- The lane group that holds that element's group (R309). -/
def oneLane (h : Hart) (r : Reg) (w : BitVec 2) (e : QEntry) : Nat := (oneElem h r e).1 / (2048 / widthOf w) % 4

/-- R149. -/
def opVgetx (d a b : Reg) (w : BitVec 2) : QOp where
  lane := fun h e => oneLane h a w e
  waits := true
  elems := false
  rb := b
  names := fun h e => [⟨a, 1, widthOf w, 0, false, false, false, (oneElem h a e).1, (oneElem h a e).2, false⟩]
  run := fun s h e _ _ =>
    let a' := s.hart h
    if e.vb.toNat < (a'.shapeOf a).count then
      match (s.core (coreOf h)).readElem (a'.shapeOf a) e.vb.toNat with
      | .error kc => { state := s.logError (w64 (2 ^ 60 + kc)) 0 1 (hartId h), trap := some (planeCheck kc) }
      | .ok v => { state := s.modHart h fun a => a.setX d (w64 v) }
    else { state := s.modHart h fun a => a.setX d 0 }

/-- R149. -/
def opVputx (d a b : Reg) (w : BitVec 2) : QOp where
  lane := fun h e => oneLane h d w e
  elems := false
  ra := a
  rb := b
  names := fun h e => [⟨d, 0, widthOf w, 0, true, false, false, (oneElem h d e).1, (oneElem h d e).2, false⟩]
  run := fun s h e _ _ =>
    let a' := s.hart h
    if e.vb.toNat < (a'.shapeOf d).count then
      { state := s.modCore (coreOf h) fun c => c.setElem (a'.shapeOf d) e.vb.toNat (scalarBits (widthOf w) e.va) }
    else { state := s }

/-! ### Mask operations (R150) -/

/-- A mask operation bit by bit: the register it writes, and those it reads. -/
def opMask (d : KReg) (src : List KReg) (f : Hart → Nat → Bool) : QOp where
  width := 1
  kr := src
  kw := some d
  run := maskRun d 0 fun _ h i => .ok (piece i (if f h i then 1 else 0, 0))

/-- R150. -/
def opKand (d a b : KReg) : QOp := opMask d [a, b] fun h i => (h.getK a).getLsbD i && (h.getK b).getLsbD i
/-- R150. -/
def opKor (d a b : KReg) : QOp := opMask d [a, b] fun h i => (h.getK a).getLsbD i || (h.getK b).getLsbD i
/-- R150. -/
def opKxor (d a b : KReg) : QOp := opMask d [a, b] fun h i => xor ((h.getK a).getLsbD i) ((h.getK b).getLsbD i)
/-- R150. -/
def opKandn (d a b : KReg) : QOp := opMask d [a, b] fun h i => (h.getK a).getLsbD i && !(h.getK b).getLsbD i
/-- R150. -/
def opKnot (d a : KReg) : QOp := opMask d [a] fun h i => !(h.getK a).getLsbD i

/-- R150: the 1 bits below VL. -/
def opKpop (d : Reg) (a : KReg) : QOp where
  width := 1
  kr := [a]
  kall := true
  waits := true
  unit_ := true
  run := fun s h e _ _ =>
    { state := s.modHart h fun t => t.setX d (w64 ((List.range e.vl).filter fun i => (t.getK a).getLsbD i).length) }

/-- R150: the least 1 bit below VL, or VL. -/
def opKfirst (d : Reg) (a : KReg) : QOp where
  width := 1
  kr := [a]
  kall := true
  waits := true
  unit_ := true
  run := fun s h e _ _ =>
    { state := s.modHart h fun t => t.setX d (w64 (((List.range e.vl).find? fun i => (t.getK a).getLsbD i).getD e.vl)) }

/-! ### Indexes, definitions and lengths (R131 to R134) -/

/-- R134. -/
def opVidx (d : Reg) (s : BitVec 10) (t : Reg) (f : BitVec 5) : QOp where
  width := fmtWidth f.toNat
  names := fun _ e => [nameD d (fmtWidth f.toNat) e]
  run := planeRun d 0 fun _ _ i => .ok (piece i (wrapN (fmtWidth f.toNat) (s.toInt + i * t.toInt), 0))

/-- R131: it has no element of its own, and later entries of its queue find the new entry. -/
def opVdef (d a b : Reg) : QOp where
  kind := .other
  elems := false
  ra := a
  rb := b
  post := fun s h e => (s, checkDef (s.hart h) d ⟨e.va, e.vb⟩)
  redefine := fun e t => { t with defs := t.defs.set d.toNat ⟨e.va, e.vb⟩ (by omega) }
  run := fun s _ _ _ _ => { state := s }

/-- A word of a definition read into an x register (R132). -/
def readDef (d a : Reg) (f : Def → Word) (s : State) : Out :=
  held s fun s =>
    match checkOwner s.h with
    | some t => raise s t
    | none => writeX s d (f (s.h.getDef a))

/-- R132. -/
def execVdgeta (d a : Reg) (s : State) : Out := readDef d a Def.w0 s
/-- R132. -/
def execVdgetb (d a : Reg) (s : State) : Out := readDef d a Def.w1 s

/-- The length granted for a request under a VTYPE (R133). -/
def grantLen (vtype : Word) (req : Nat) : Nat :=
  let n := Nat.min req (vlmax vtype)
  let B := blkLen vtype
  if B ≠ 0 ∧ B ≤ n then n - n % B else n

/-- The VTYPE of a SETVL (R133). -/
def setvlType (g l : BitVec 2) (f : BitVec 5) : Word := w64 (f.toNat * 2 ^ 11 + g.toNat * 2 ^ 9 + l.toNat * 2 ^ 7)

/-- R133. -/
def execSetvl (d a : Reg) (g l : BitVec 2) (f : BitVec 5) (s : State) : Out :=
  match checkOwner s.h with
  | some t => raise s t
  | none =>
    if !s.h.sup && decide (s.h.grpCeil < g.toNat) then illegal s (.setvl d a g l f)
    else
      let vt := setvlType g l f
      let n := w64 (grantLen vt (s.h.getX a).toNat)
      commit s fun h => { h with vtype := vt, vl := n }.setX d n

/-! ### The arms -/

/-- R135. -/
def execVaddVv (d a b : Reg) (f : BitVec 5) (y x : BitVec 1) (k : KReg) (st : State) : Out :=
  commitQueued (.vaddVv d a b f y x k) (opVaddVv d a b f y x k) st
/-- R135. -/
def execVaddVx (d a b : Reg) (f : BitVec 5) (x : BitVec 1) (k : KReg) (st : State) : Out :=
  commitQueued (.vaddVx d a b f x k) (opVaddVx d a b f x k) st
/-- R135. -/
def execVsubVv (d a b : Reg) (f : BitVec 5) (y x : BitVec 1) (k : KReg) (st : State) : Out :=
  commitQueued (.vsubVv d a b f y x k) (opVsubVv d a b f y x k) st
/-- R135. -/
def execVsubVx (d a b : Reg) (f : BitVec 5) (x : BitVec 1) (k : KReg) (st : State) : Out :=
  commitQueued (.vsubVx d a b f x k) (opVsubVx d a b f x k) st
/-- R135. -/
def execVmulVv (d a b : Reg) (f : BitVec 5) (y x : BitVec 1) (k : KReg) (st : State) : Out :=
  commitQueued (.vmulVv d a b f y x k) (opVmulVv d a b f y x k) st
/-- R135. -/
def execVmulVx (d a b : Reg) (f : BitVec 5) (x : BitVec 1) (k : KReg) (st : State) : Out :=
  commitQueued (.vmulVx d a b f x k) (opVmulVx d a b f x k) st
/-- R135. -/
def execVfmaVv (d a b : Reg) (f : BitVec 5) (y x : BitVec 1) (k : KReg) (st : State) : Out :=
  commitQueued (.vfmaVv d a b f y x k) (opVfmaVv d a b f y x k) st
/-- R135. -/
def execVfmaVx (d a b : Reg) (f : BitVec 5) (x : BitVec 1) (k : KReg) (st : State) : Out :=
  commitQueued (.vfmaVx d a b f x k) (opVfmaVx d a b f x k) st
/-- R135. -/
def execVmin (d a b : Reg) (f : BitVec 5) (y x : BitVec 1) (k : KReg) (st : State) : Out :=
  commitQueued (.vmin d a b f y x k) (opVmin d a b f y x k) st
/-- R135. -/
def execVmax (d a b : Reg) (f : BitVec 5) (y x : BitVec 1) (k : KReg) (st : State) : Out :=
  commitQueued (.vmax d a b f y x k) (opVmax d a b f y x k) st
/-- R135. -/
def execVdiv (d a b : Reg) (f : BitVec 5) (y x : BitVec 1) (k : KReg) (st : State) : Out :=
  commitQueued (.vdiv d a b f y x k) (opVdiv d a b f y x k) st
/-- R135. -/
def execVsqrt (d a : Reg) (f : BitVec 5) (x : BitVec 1) (k : KReg) (st : State) : Out :=
  commitQueued (.vsqrt d a f x k) (opVsqrt d a f x k) st
/-- R136. -/
def execVcmpeqVv (d : KReg) (a b : Reg) (f : BitVec 5) (y x : BitVec 1) (k : KReg) (st : State) : Out :=
  commitQueued (.vcmpeqVv d a b f y x k) (opVcmpeqVv d a b f y x k) st
/-- R136. -/
def execVcmpneVv (d : KReg) (a b : Reg) (f : BitVec 5) (y x : BitVec 1) (k : KReg) (st : State) : Out :=
  commitQueued (.vcmpneVv d a b f y x k) (opVcmpneVv d a b f y x k) st
/-- R136. -/
def execVcmpltVv (d : KReg) (a b : Reg) (f : BitVec 5) (y x : BitVec 1) (k : KReg) (st : State) : Out :=
  commitQueued (.vcmpltVv d a b f y x k) (opVcmpltVv d a b f y x k) st
/-- R136. -/
def execVcmpleVv (d : KReg) (a b : Reg) (f : BitVec 5) (y x : BitVec 1) (k : KReg) (st : State) : Out :=
  commitQueued (.vcmpleVv d a b f y x k) (opVcmpleVv d a b f y x k) st
/-- R136. -/
def execVcmpeqVx (d : KReg) (a b : Reg) (f : BitVec 5) (x : BitVec 1) (k : KReg) (st : State) : Out :=
  commitQueued (.vcmpeqVx d a b f x k) (opVcmpeqVx d a b f x k) st
/-- R136. -/
def execVcmpneVx (d : KReg) (a b : Reg) (f : BitVec 5) (x : BitVec 1) (k : KReg) (st : State) : Out :=
  commitQueued (.vcmpneVx d a b f x k) (opVcmpneVx d a b f x k) st
/-- R136. -/
def execVcmpltVx (d : KReg) (a b : Reg) (f : BitVec 5) (x : BitVec 1) (k : KReg) (st : State) : Out :=
  commitQueued (.vcmpltVx d a b f x k) (opVcmpltVx d a b f x k) st
/-- R136. -/
def execVcmpleVx (d : KReg) (a b : Reg) (f : BitVec 5) (x : BitVec 1) (k : KReg) (st : State) : Out :=
  commitQueued (.vcmpleVx d a b f x k) (opVcmpleVx d a b f x k) st
/-- R137. -/
def execVand (d a b : Reg) (w : BitVec 2) (y x : BitVec 1) (k : KReg) (st : State) : Out :=
  commitQueued (.vand d a b w y x k) (opVand d a b w y x k) st
/-- R137. -/
def execVor (d a b : Reg) (w : BitVec 2) (y x : BitVec 1) (k : KReg) (st : State) : Out :=
  commitQueued (.vor d a b w y x k) (opVor d a b w y x k) st
/-- R137. -/
def execVxor (d a b : Reg) (w : BitVec 2) (y x : BitVec 1) (k : KReg) (st : State) : Out :=
  commitQueued (.vxor d a b w y x k) (opVxor d a b w y x k) st
/-- R137. -/
def execVandn (d a b : Reg) (w : BitVec 2) (y x : BitVec 1) (k : KReg) (st : State) : Out :=
  commitQueued (.vandn d a b w y x k) (opVandn d a b w y x k) st
/-- R137. -/
def execVorn (d a b : Reg) (w : BitVec 2) (y x : BitVec 1) (k : KReg) (st : State) : Out :=
  commitQueued (.vorn d a b w y x k) (opVorn d a b w y x k) st
/-- R138. -/
def execVsll (d a b : Reg) (s : BitVec 1) (w : BitVec 2) (x : BitVec 1) (k : KReg) (st : State) : Out :=
  commitQueued (.vsll d a b s w x k) (opVsll d a b s w x k) st
/-- R138. -/
def execVsrl (d a b : Reg) (s : BitVec 1) (w : BitVec 2) (x : BitVec 1) (k : KReg) (st : State) : Out :=
  commitQueued (.vsrl d a b s w x k) (opVsrl d a b s w x k) st
/-- R138. -/
def execVsra (d a b : Reg) (s : BitVec 1) (w : BitVec 2) (x : BitVec 1) (k : KReg) (st : State) : Out :=
  commitQueued (.vsra d a b s w x k) (opVsra d a b s w x k) st
/-- R139. -/
def execVsel (d a b : Reg) (w : BitVec 2) (y x : BitVec 1) (k : KReg) (st : State) : Out :=
  commitQueued (.vsel d a b w y x k) (opVsel d a b w y x k) st
/-- R140. -/
def execVclamp (d a b : Reg) (f : BitVec 5) (y x : BitVec 1) (k : KReg) (st : State) : Out :=
  commitQueued (.vclamp d a b f y x k) (opVclamp d a b f y x k) st
/-- R141. -/
def execVcvt (d a : Reg) (f : BitVec 5) (x : BitVec 1) (k : KReg) (s : BitVec 5) (st : State) : Out :=
  commitQueued (.vcvt d a f x k s) (opVcvt d a f x k s) st
/-- R142. -/
def execVcvtsn (d a b : Reg) (f : BitVec 5) (x : BitVec 1) (k : KReg) (st : State) : Out :=
  commitQueued (.vcvtsn d a b f x k) (opVcvtsn d a b f x k) st
/-- R142. -/
def execVscale (d a : Reg) (f : BitVec 5) (x : BitVec 1) (k : KReg) (st : State) : Out :=
  commitQueued (.vscale d a f x k) (opVscale d a f x k) st
/-- R143. -/
def execVcvtsw (d a b : Reg) (f : BitVec 5) (y x : BitVec 1) (k : KReg) (st : State) : Out :=
  commitQueued (.vcvtsw d a b f y x k) (opVcvtsw d a b f y x k) st
/-- R144. -/
def execVredsum (d a b : Reg) (t : BitVec 3) (y x : BitVec 1) (k : KReg) (st : State) : Out :=
  commitQueued (.vredsum d a b t y x k) (opVredsum d a b t y x k) st
/-- R144. -/
def execVredmax (d a b : Reg) (t : BitVec 3) (y x : BitVec 1) (k : KReg) (st : State) : Out :=
  commitQueued (.vredmax d a b t y x k) (opVredmax d a b t y x k) st
/-- R144. -/
def execVredmin (d a b : Reg) (t : BitVec 3) (y x : BitVec 1) (k : KReg) (st : State) : Out :=
  commitQueued (.vredmin d a b t y x k) (opVredmin d a b t y x k) st
/-- R145. -/
def execVcompress (d a : Reg) (w : BitVec 2) (x : BitVec 1) (k : KReg) (st : State) : Out :=
  commitQueued (.vcompress d a w x k) (opVcompress d a w x k) st
/-- R145. -/
def execVexpand (d a : Reg) (w : BitVec 2) (x : BitVec 1) (k : KReg) (st : State) : Out :=
  commitQueued (.vexpand d a w x k) (opVexpand d a w x k) st
/-- R146. -/
def execVconfl (d : KReg) (a : Reg) (f : BitVec 5) (x : BitVec 1) (k : KReg) (st : State) : Out :=
  commitQueued (.vconfl d a f x k) (opVconfl d a f x k) st
/-- R147. -/
def execVslideup (d a b : Reg) (s : BitVec 1) (w : BitVec 2) (x : BitVec 1) (k : KReg) (st : State) : Out :=
  commitQueued (.vslideup d a b s w x k) (opVslideup d a b s w x k) st
/-- R147. -/
def execVslidedn (d a b : Reg) (s : BitVec 1) (w : BitVec 2) (x : BitVec 1) (k : KReg) (st : State) : Out :=
  commitQueued (.vslidedn d a b s w x k) (opVslidedn d a b s w x k) st
/-- R148. -/
def execVmv (d a : Reg) (w : BitVec 2) (x : BitVec 1) (k : KReg) (st : State) : Out :=
  commitQueued (.vmv d a w x k) (opVmv d a w x k) st
/-- R148. -/
def execVbcast (d b : Reg) (w : BitVec 2) (st : State) : Out :=
  commitQueued (.vbcast d b w) (opVbcast d b w) st
/-- R149. -/
def execVgetx (d a b : Reg) (w : BitVec 2) (st : State) : Out :=
  commitQueued (.vgetx d a b w) (opVgetx d a b w) st
/-- R149. -/
def execVputx (d a b : Reg) (w : BitVec 2) (st : State) : Out :=
  commitQueued (.vputx d a b w) (opVputx d a b w) st
/-- R150. -/
def execKand (d a b : KReg) (st : State) : Out :=
  commitQueued (.kand d a b) (opKand d a b) st
/-- R150. -/
def execKor (d a b : KReg) (st : State) : Out :=
  commitQueued (.kor d a b) (opKor d a b) st
/-- R150. -/
def execKxor (d a b : KReg) (st : State) : Out :=
  commitQueued (.kxor d a b) (opKxor d a b) st
/-- R150. -/
def execKandn (d a b : KReg) (st : State) : Out :=
  commitQueued (.kandn d a b) (opKandn d a b) st
/-- R150. -/
def execKnot (d a : KReg) (st : State) : Out :=
  commitQueued (.knot d a) (opKnot d a) st
/-- R150. -/
def execKpop (d : Reg) (a : KReg) (st : State) : Out :=
  commitQueued (.kpop d a) (opKpop d a) st
/-- R150. -/
def execKfirst (d : Reg) (a : KReg) (st : State) : Out :=
  commitQueued (.kfirst d a) (opKfirst d a) st
/-- R134. -/
def execVidx (d : Reg) (s : BitVec 10) (t : Reg) (f : BitVec 5) (st : State) : Out :=
  commitQueued (.vidx d s t f) (opVidx d s t f) st
/-- R131. -/
def execVdef (d a b : Reg) (st : State) : Out :=
  commitQueued (.vdef d a b) (opVdef d a b) st

end Sys2Proof.Machine
end

