-- ==== Sys2Proof/Machine/Vldz.lean ====
section
/-! DEFINITION. The compressed-stream load (R202 to R205): the decoder record and a raw DEFLATE decoder (RFC 1951) that goes on from
it a unit at a time. -/
namespace Sys2Proof.Machine

/-! ### The record (R203) -/

/-- Byte n of a record. -/
def recByte (r : List Byte) (n : Nat) : Nat := fieldAt r n 1

/-- The decoder as the first 384 bytes of a record give it, before element `next`. -/
def dzOf (r : List Byte) (next : Nat) : Dz :=
  { limit := fieldAt r 8 8, pos := 8 * fieldAt r 0 8 + recByte r 16, st := recByte r 17, err := recByte r 18, final := recByte r 19,
    pend := slice r 24 (Nat.min (recByte r 20) 7), clen := fieldAt r 32 2, cdist := fieldAt r 34 2, wpos := fieldAt r 36 2,
    wfill := fieldAt r 38 2, codes := (slice r 64 320).map (·.toNat), fresh := [], outs := [],
    next := next, spent := false, broken := false }

/-! ### Codes (RFC 1951 3.2) -/

/-- Symbols with a code of length n. -/
def symbolsOf (ls : List Nat) (n : Nat) : List Nat := ((ls.zipIdx).filter fun p => p.1 == n).map (·.2)

/-- The share of the code space that lengths take, of 2^15. -/
def codeSpace (ls : List Nat) : Nat := (ls.map fun n => if n = 0 then 0 else 2 ^ (15 - n)).foldl (· + ·) 0

/-- Whether a code is valid or accepted (R204): `one` accepts exactly one length of 1, `none_` no length at all. -/
def codeOkay (ls : List Nat) (one none_ : Bool) : Bool :=
  codeSpace ls == 2 ^ 15 || (one && (ls.filter (· != 0)) == [1]) || (none_ && ls.all (· == 0))

/-- The two codes of a dynamic block from its 320 lengths. -/
def litLens (codes : List Nat) : List Nat := codes.take 288
def distLens (codes : List Nat) : List Nat := codes.drop 288
def dynOkay (codes : List Nat) : Bool := codeOkay (litLens codes) true false && codeOkay (distLens codes) true true

/-- The fixed codes. -/
def fixedLit : List Nat := List.replicate 144 8 ++ List.replicate 112 9 ++ List.replicate 24 7 ++ List.replicate 8 8
def fixedDist : List Nat := List.replicate 32 5

/-- Lengths and distances. -/
def lenBase : List Nat :=
  [3, 4, 5, 6, 7, 8, 9, 10, 11, 13, 15, 17, 19, 23, 27, 31, 35, 43, 51, 59, 67, 83, 99, 115, 131, 163, 195, 227, 258]
def lenExtra : List Nat := [0, 0, 0, 0, 0, 0, 0, 0, 1, 1, 1, 1, 2, 2, 2, 2, 3, 3, 3, 3, 4, 4, 4, 4, 5, 5, 5, 5, 0]
def distBase : List Nat :=
  [1, 2, 3, 4, 5, 7, 9, 13, 17, 25, 33, 49, 65, 97, 129, 193, 257, 385, 513, 769, 1025, 1537, 2049, 3073, 4097, 6145, 8193, 12289,
    16385, 24577]
def distExtra : List Nat := [0, 0, 0, 0, 1, 1, 2, 2, 3, 3, 4, 4, 5, 5, 6, 6, 7, 7, 8, 8, 9, 9, 10, 10, 11, 11, 12, 12, 13, 13]
/-- Order of the code lengths of the code-length code. -/
def clOrder : List Nat := [16, 17, 18, 0, 8, 7, 9, 6, 10, 5, 11, 4, 12, 3, 13, 2, 14, 1, 15]

/-- The record check of R204. -/
def recordOkay (r : List Byte) : Bool :=
  let d := dzOf r 0
  let bp := recByte r 16
  decide (bp ≤ 7) && decide (d.st ≤ 5) && decide (d.err ≤ 6) && decide (d.final ≤ 1) && decide (recByte r 20 ≤ 7) &&
    decide (d.wpos ≤ 32767) && decide (d.wfill ≤ 32768) && d.codes.all (fun n => decide (n ≤ 15)) &&
    ((d.err == 0) == (d.st != 5)) &&
    (d.wfill == 32768 || d.wpos == d.wfill) &&
    match d.st with
    | 1 => bp == 0 && d.cdist == 0
    | 0 | 4 => d.clen == 0 && d.cdist == 0
    | 2 | 3 =>
      decide (d.clen ≤ 258) && (if d.clen = 0 then d.cdist == 0 else decide (1 ≤ d.cdist) && decide (d.cdist ≤ d.wfill)) &&
        (d.st == 2 || dynOkay d.codes)
    | _ => true

/-! ### Reading bits -/

/-- Why a unit is not taken: a bit at or above LIMIT, a malformed unit, or a trap. -/
inductive DzStop where
  | short
  | bad (err : Nat)
  | trap (t : Trap)

/-- A reader of bits: the device and the next bit's position. -/
abbrev Dec := StateT (State × Nat) (Except (State × DzStop))

/-- Stops the unit. -/
def Dec.stop {α : Type} (r : DzStop) : Dec α := fun q => .error (q.1, r)

/-- One bit of input (R204, R205). -/
def getBit (h limit : Nat) : Dec Nat := fun q =>
  let va := q.2 / 8
  if limit ≤ va then .error (q.1, .short)
  else
    match q.1.hartLoad h (w64 va) 1 with
    | (s, .ok bs) => .ok (bits (leNat bs) (q.2 % 8) (q.2 % 8), s, q.2 + 1)
    | (s, .error e) => let r := s.accessTrap h false (w64 va) e; .error (r.1, .trap r.2)

/-- n bits, the first the least significant. -/
def getBits (h limit : Nat) : Nat → Dec Nat
  | 0 => pure 0
  | n + 1 => do
    let b ← getBit h limit
    let v ← getBits h limit n
    return b + 2 * v

/-- To the next byte boundary. -/
def alignByte : Dec Unit := fun q => .ok ((), q.1, (q.2 + 7) / 8 * 8)

/-- A symbol of a code, with n lengths left to try from length `len` on; `first` is the first code of that length and `code` the
bits before. A pattern that no code assigns is malformed. -/
def getSym (h limit : Nat) (ls : List Nat) : Nat → Nat → Nat → Nat → Dec Nat
  | 0, _, _, _ => Dec.stop (.bad 3)
  | n + 1, len, first, code =>
    if ls.all (fun x => decide (x < len)) then Dec.stop (.bad 3)
    else do
      let b ← getBit h limit
      let c := 2 * code + b
      let syms := symbolsOf ls len
      if c < first + syms.length then return syms.getD (c - first) 0
      else getSym h limit ls n (len + 1) (2 * (first + syms.length)) c

/-- A symbol. -/
def symbol (h limit : Nat) (ls : List Nat) : Dec Nat := getSym h limit ls 15 1 0 0

/-- The code lengths of a dynamic block, `n` of them; `acc` is newest first. R204 names no ERR for a repeat with no length before it, nor for one that
runs past the last length: here both are ERR 3 (DESIGN CHOICE, log 92). -/
def getLens (h limit : Nat) (cl : List Nat) (n : Nat) : Nat → List Nat → Dec (List Nat)
  | 0, acc => if acc.length = n then pure acc.reverse else Dec.stop (.bad 3)
  | f + 1, acc =>
    if acc.length = n then pure acc.reverse
    else if n < acc.length then Dec.stop (.bad 3)
    else do
      let y ← symbol h limit cl
      match y with
      | 16 =>
        match acc with
        | [] => Dec.stop (.bad 3)
        | p :: _ => do
          let k ← getBits h limit 2
          getLens h limit cl n f (List.replicate (k + 3) p ++ acc)
      | 17 => do
        let k ← getBits h limit 3
        getLens h limit cl n f (List.replicate (k + 3) 0 ++ acc)
      | 18 => do
        let k ← getBits h limit 7
        getLens h limit cl n f (List.replicate (k + 11) 0 ++ acc)
      | y => getLens h limit cl n f (y :: acc)

/-- n numbers of three bits. -/
def getThrees (h limit : Nat) : Nat → Dec (List Nat)
  | 0 => pure []
  | n + 1 => do
    let v ← getBits h limit 3
    let l ← getThrees h limit n
    return v :: l

/-- The lengths of a dynamic block's header, laid out as CODES. -/
def dynHeader (h limit : Nat) : Dec (List Nat) := do
  let hlit ← getBits h limit 5
  let hdist ← getBits h limit 5
  let hclen ← getBits h limit 4
  let c3 ← getThrees h limit (hclen + 4)
  let cl := (List.range 19).map fun i => c3.getD (clOrder.idxOf i) 0
  if !codeOkay cl false false then Dec.stop (.bad 3)
  else do
    let ls ← getLens h limit cl (hlit + hdist + 258) 320 []
    let lit := ls.take (hlit + 257)
    let codes := lit ++ List.replicate (288 - lit.length) 0 ++ ls.drop (hlit + 257) ++ List.replicate (32 - (hdist + 1)) 0
    if dynOkay codes then return codes else Dec.stop (.bad 3)

/-- A block header: the decoder after it. -/
def header (h : Nat) (d : Dz) : Dec Dz := do
  let fin ← getBits h d.limit 1
  let bt ← getBits h d.limit 2
  match bt with
  | 0 => do
    alignByte
    let n ← getBits h d.limit 16
    let m ← getBits h d.limit 16
    if n + m ≠ 65535 then Dec.stop (.bad 2)
    else return { d with final := fin, clen := n, st := if n ≠ 0 then 1 else if fin = 1 then 4 else 0 }
  | 1 => return { d with final := fin, st := 2 }
  | 2 => do
    let c ← dynHeader h d.limit
    return { d with final := fin, st := 3, codes := c }
  | _ => Dec.stop (.bad 1)

/-! ### Output -/

/-- One output byte appended to the window and to PEND; a full element is put out. -/
def Dz.push (d : Dz) (wb : Nat) (b : Byte) : Dz :=
  let p := d.pend ++ [b]
  let d1 := { d with wpos := (d.wpos + 1) % 32768, wfill := Nat.min (d.wfill + 1) 32768, fresh := b :: d.fresh }
  if p.length = wb then { d1 with pend := [], outs := leNat p :: d1.outs } else { d1 with pend := p }

/-- The byte at a distance in the window: of this run, else of the record's window in memory. -/
def histByte (h : Nat) (rec_ : Word) (d : Dz) (dist : Nat) : Dec Byte := fun q =>
  match d.fresh[dist - 1]? with
  | some b => .ok (b, q)
  | none =>
    let va := rec_ + w64 (1024 + (d.wpos + 32768 - dist) % 32768)
    match q.1.hartLoad h va 1 with
    | (s, .ok bs) => .ok (.ofNat 8 (leNat bs), s, q.2)
    | (s, .error e) => let r := s.accessTrap h false va e; .error (r.1, .trap r.2)

/-- The window byte that the next output byte goes to can be stored. -/
def canStore (h : Nat) (rec_ : Word) (d : Dz) : Dec Unit := fun q =>
  let va := rec_ + w64 (1024 + d.wpos)
  match q.1.probeVa h va .store with
  | (s, .error t) => .error (s, .trap t)
  | (s, .ok pa) =>
    if !s.inRecords h va && s.storeRefused pa 1 then .error (s, .trap ⟨causeStoreFault, va, none⟩) else .ok ((), s, q.2)

/-- One byte out. -/
def emit (h : Nat) (rec_ : Word) (wb : Nat) (d : Dz) (b : Byte) : Dec Dz := do
  canStore h rec_ d
  return d.push wb b

/-- n bytes of the pending match out. -/
def copyOut (h : Nat) (rec_ : Word) (wb : Nat) : Nat → Dz → Dec Dz
  | 0, d => pure d
  | n + 1, d => do
    let b ← histByte h rec_ d d.cdist
    let d1 ← emit h rec_ wb d b
    copyOut h rec_ wb n { d1 with clen := d1.clen - 1, cdist := if d1.clen = 1 then 0 else d1.cdist }

/-- The end of a block. -/
def Dz.blockEnd (d : Dz) : Dz := { d with st := if d.final = 1 then 4 else 0, clen := 0 }

/-- One symbol of a coded block: a literal, the end of the block, or a length-distance pair with as much of it as there is room for. -/
def codedUnit (h : Nat) (rec_ : Word) (wb room : Nat) (d : Dz) : Dec Dz := do
  let lit := if d.st = 2 then fixedLit else litLens d.codes
  let dst := if d.st = 2 then fixedDist else distLens d.codes
  let y ← symbol h d.limit lit
  if y < 256 then emit h rec_ wb d (.ofNat 8 y)
  else if y = 256 then return d.blockEnd
  else if 285 < y then Dec.stop (.bad 5)
  else do
    let lx ← getBits h d.limit (lenExtra.getD (y - 257) 0)
    let z ← symbol h d.limit dst
    if 29 < z then Dec.stop (.bad 5)
    else do
      let dx ← getBits h d.limit (distExtra.getD z 0)
      let len := lenBase.getD (y - 257) 0 + lx
      let dist := distBase.getD z 0 + dx
      if d.wfill < dist then Dec.stop (.bad 4)
      else copyOut h rec_ wb (Nat.min len room) { d with clen := len, cdist := dist }

/-- One unit (R204), with room for `room` bytes of output. -/
def unit (h : Nat) (rec_ : Word) (wb room : Nat) (d : Dz) : Dec Dz :=
  match d.st with
  | 0 => header h d
  | 1 =>
    if d.clen = 0 then pure d.blockEnd
    else do
      let b ← getBits h d.limit 8
      let d1 ← emit h rec_ wb d (.ofNat 8 b)
      return if d1.clen = 1 then d1.blockEnd else { d1 with clen := d1.clen - 1 }
  | _ => if d.clen ≠ 0 then copyOut h rec_ wb (Nat.min d.clen room) d else codedUnit h rec_ wb room d

/-- Units until m of the n elements there is room for are out, the decoder is done, or a unit cannot be taken; the last part is true where the input
ends. -/
def units (h : Nat) (rec_ : Word) (wb n m : Nat) : Nat → State → Dz → State × Dz × Option Trap × Bool
  | 0, s, d => (s, d, none, false)
  | f + 1, s, d =>
    if m ≤ d.outs.length ∨ 4 ≤ d.st then (s, d, none, false)
    else
      match unit h rec_ wb ((n - d.outs.length) * wb - d.pend.length) d (s, d.pos) with
      | .ok (d1, s1, p) => units h rec_ wb n m f s1 { d1 with pos := p }
      | .error (s1, .short) => (s1, d, none, true)
      | .error (s1, .bad e) => (s1, { d with st := 5, err := e }, none, false)
      | .error (s1, .trap t) => (s1, d, some t, false)

/-- Elements already whole in PEND (R204). -/
def drainPend (wb n : Nat) : Nat → Dz → Dz
  | 0, d => d
  | f + 1, d =>
    if n ≤ d.outs.length ∨ d.pend.length < wb then d
    else drainPend wb n f { d with outs := leNat (d.pend.take wb) :: d.outs, pend := d.pend.drop wb }

/-- A partly filled last element at the end of the stream. -/
def Dz.tail (d : Dz) (n : Nat) : Dz :=
  if d.st = 4 ∧ d.pend ≠ [] ∧ d.outs.length < n then { d with outs := leNat d.pend :: d.outs, pend := [] } else d

/-! ### The record written back (R205) -/

/-- Bytes 0 to 20, 24 to 39 and CODES. -/
def Dz.head (d : Dz) : List Byte :=
  leBytes 8 (d.pos / 8) ++ leBytes 8 d.limit ++ leBytes 1 (d.pos % 8) ++ leBytes 1 d.st ++ leBytes 1 d.err ++ leBytes 1 d.final ++
    leBytes 1 d.pend.length
def Dz.body (d : Dz) : List Byte :=
  leBytes 8 (leNat d.pend) ++ leBytes 2 d.clen ++ leBytes 2 d.cdist ++ leBytes 2 d.wpos ++ leBytes 2 d.wfill

/-- Stores in order until one fails. -/
def storeEach (h : Nat) : List (Word × List Byte) → State → State × Option Trap
  | [], s => (s, none)
  | (va, bs) :: l, s =>
    match s.hartStore h va bs true with
    | (s, .ok ()) => storeEach h l s
    | (s, .error e) => let r := s.accessTrap h true va e; (r.1, some r.2)

/-- The stores of a record's write-back. -/
def Dz.stores (d : Dz) (rec_ : Word) : List (Word × List Byte) :=
  let n := d.fresh.length
  ((d.fresh.zipIdx).reverse.map fun (b : Byte × Nat) => (rec_ + w64 (1024 + (d.wpos + 32768 * (n + 1) - 1 - b.2) % 32768), [b.1])) ++
    [(rec_, d.head), (rec_ + 24, d.body)] ++
    (List.range 5).map fun i => (rec_ + w64 (64 + 64 * i), (slice (d.codes.map (BitVec.ofNat 8)) (64 * i) 64))

/-- What a completion or a stop stores: the decoder's state, or of a record that fails its check LIMIT, STATE and ERR (R204). -/
def Dz.writes (d : Dz) (rec_ : Word) : List (Word × List Byte) :=
  if d.broken then [(rec_ + 8, leBytes 8 d.limit), (rec_ + 17, [5]), (rec_ + 18, [6])] else d.stores rec_

/-- The decoder of an entry as its first element finds the record: LIMIT is set where ESTART is 0. -/
def dzBegin (s : State) (h : Nat) (e : QEntry) : State × Except Trap Dz :=
  match s.loadRun (.hart h) (s.xctx h) e.va 384 with
  | (s, _, some er) => let r := s.accessTrap h false e.va er; (r.1, .error r.2)
  | (s, bs, none) =>
    let d := dzOf bs e.startsAt
    let d1 := if e.startsAt = 0 then { d with limit := Nat.min (fieldAt bs 0 8 + e.vb.toNat) (2 ^ 64 - 1) } else d
    (s, .ok (if recordOkay bs then d1 else { d1 with spent := true, broken := true }))

/-- The decoder in its working state. -/
def dzNow (s : State) (h : Nat) (e : QEntry) : State × Except Trap Dz :=
  match (s.hart h).dz with
  | some d => (s, .ok d)
  | none => dzBegin s h e

/-- The decoder runs until element hi - 1 is filled, and on to the end of the unit it is in: the elements filled, from the one it stood at on. -/
def dzRun (h : Nat) (e : QEntry) (wb hi : Nat) (s : State) (d : Dz) : State × Dz × Option Trap :=
  if d.spent || decide (hi ≤ d.next) then (s, d, none)
  else
    let n := e.vl - d.next
    let d1 := if d.st = 5 then d else drainPend wb n 8 d
    let r := units h e.va wb n (hi - d.next) ((8 * d1.limit - d1.pos) + n * wb + 16) s d1
    match r.2.2 with
    | (some t, _) => (r.1, r.2.1, some t)
    | (none, short) => (r.1, { r.2.1.tail n with spent := short || decide (4 ≤ r.2.1.st) }, none)

/-- The filled elements are written to vd, and the decoder goes on from the one after them. -/
def State.dzPut (s : State) (h : Nat) (p : Shape) (d : Dz) : State :=
  (s.modCore (coreOf h) fun c => c.putPieces p ((d.outs.reverse.zipIdx).map fun v => ⟨d.next + v.2, v.1, 0⟩)).modHart h fun a =>
    { a with dz := some { d with outs := [], next := d.next + d.outs.length } }

/-- The checks at issue: alignment, and the probe of the record's first 1,024 bytes for read and write (R202, R205). -/
def dzCheck (s : State) (h : Nat) (e : QEntry) : State × Option Trap :=
  if e.va.toNat % 64 ≠ 0 then (s, some ⟨causeMisalignedData, e.va, none⟩)
  else
    let n := Nat.min 1024 (4096 - e.va.toNat % 4096)
    let spots := (if n = 1024 then [(e.va, n)] else [(e.va, n), (e.va + w64 n, 1024 - n)]).flatMap
      fun p => [(p, Access.load), (p, Access.store)]
    spots.foldl (fun r p =>
      match r.2 with
      | some _ => r
      | none =>
        match r.1.probe (r.1.xctx h) p.1.1 p.2 with
        | (s, .error er) => let q := s.accessTrap h true p.1.1 er; (q.1, some q.2)
        | (s, .ok pa) =>
          if p.2 == .store && !s.inRecords h p.1.1 && s.storeRefused pa p.1.2 then (s, some ⟨causeStoreFault, p.1.1, none⟩)
          else (s, none))
      (s, none)

/-- The sectors of its input that a VLDZ reads, by running it (R392). -/
def dzTrace (n : Nat) (s : State) (h : Nat) (e : QEntry) : Option Trace :=
  match dzBegin s h e with
  | (_, .error _) => some ⟨6, 0, [], 0⟩
  | (s1, .ok d) =>
    let r := (dzRun h e n e.vl s1 d).2.1
    let lo := d.pos / 8
    let hi := r.pos / 8
    some ⟨6, r.outs.length, if hi ≤ lo then [] else (List.range ((hi - 1) / 64 - lo / 64 + 1)).map fun i => w64 ((lo / 64 + i) * 64), 0⟩

/-- VLDZ (R204). Its working state is the hart's decoder, which a completion and a stop write to the record (R205): a stop falls where the decoder
stands, at the end of a unit. -/
def opVldz (d a b : Reg) (f : BitVec 5) : QOp where
  width := fmtWidth f.toNat
  waits := true
  inOrder := true
  serial := true
  memory := true
  stores := true
  places := fun _ _ _ _ _ => none
  ra := a
  rb := b
  len := fun _ e => Nat.max e.vl 1
  names := fun _ e => [nameD d (fmtWidth f.toNat) e]
  post := dzCheck
  trace := dzTrace (fmtWidth f.toNat / 8)
  start := fun s h _ => s.modHart h fun a => { a with dz := none }
  run := fun s h e lo hi =>
    if e.vl ≤ lo ∧ lo ≠ 0 then { state := s }
    else
      match dzNow s h e with
      | (s, .error t) => { state := s, trap := some { t with elem := some e.startsAt } }
      | (s, .ok z) =>
        let r := dzRun h e (fmtWidth f.toNat / 8) (Nat.min hi e.vl) s z
        let s1 := r.1.dzPut h ((r.1.hart h).shapeOf d) r.2.1
        { state := s1, trap := r.2.2.map fun t => { t with elem := some (r.2.1.next + r.2.1.outs.length) } }
  closing := fun s h e =>
    match (s.hart h).dz with
    | none => (s, none)
    | some z => let r := storeEach h (z.writes e.va) s; (r.1, r.2.map fun t => { t with elem := some z.next })
  leave := fun s h e =>
    match (s.hart h).dz with
    | none => s
    | some z => (storeEach h (z.writes e.va) s).1
  stopAt := fun _ a n => { a with estart := w64 ((a.dz.map (·.next)).getD n), dz := none }
  finish := fun s h _ => s.modHart h fun a =>
    match a.dz with
    | none => a
    | some z => { a with vl := w64 z.next, dz := none }

/-! ### The arms -/

/-- R204. -/
def execVldz (d a b : Reg) (f : BitVec 5) (st : State) : Out :=
  commitQueued (.vldz d a b f) (opVldz d a b f) st

end Sys2Proof.Machine
end

