-- ==== Sys2Proof/Machine/Waits.lean ====
section
/-! DEFINITION. The waiting instructions (R151, R158, R200, R237 to R262, R280, R281, R303): each as what its begin, its attempts and its
deadline do, and LSYNC (R221). -/
namespace Sys2Proof.Machine

/-! ### The shape of every wait (R237) -/

/-- What the begin, an attempt or the deadline of a wait gives: a trap, a finish with a status (`late` where the deadline ended it), a
finish that is already complete, or the wait as it goes on. -/
inductive Try where
  | trap (s : State) (t : Trap)
  | done (s : State) (st : Word) (late : Bool)
  | finished (s : State)
  | wait (s : State) (w : Wait)

/-- A waiting instruction: status, deadline and object registers, its scope where R239 applies, the clock where it counts from an earlier moment, its checks and effects at the begin, one
attempt, and what its deadline does. -/
structure WaitOp where
  d : Reg
  b : Reg
  a : Reg
  scope : Option Nat := none
  since : Option Word := none
  start : State → Nat → Wait → Try := fun s _ w => .wait s w
  attempt : State → Nat → Wait → Try
  late : State → Nat → Wait → Try

/-- A wait as it begins. -/
def WaitOp.new (op : WaitOp) (i : Instr) (s : State) (h : Nat) : Wait :=
  let a := s.hart h
  let v := a.getX op.a
  { instr := i, dreg := op.d, breg := op.b, deadline := a.getX op.b, t0 := op.since.getD (s.waitClock h (a.dlmode.getLsbD 0)),
    absMode := a.dlmode.getLsbD 0, order := s.arrivals, tries := 0, obj := v, data := 0, gen := 0, pa := 0, scope := op.scope, bar := false,
    hi := v >>> 32, lo := v &&& 0xFFFFFFFF, given := none }

/-- A hart's wait, set. -/
def Hart.setWait (w : Wait) (a : Hart) : Hart := { a with wait := some w }

/-- The deadline of a wait has passed after an attempt. -/
def WaitOp.expire (op : WaitOp) (s : State) (h : Nat) (w : Wait) : State :=
  match op.late s h w with
  | .trap s t => s.waitTrap h t
  | .done s st late => s.finishWait h w st late
  | .finished s => s
  | .wait s w => s.modHart h (Hart.setWait w)

/-- One attempt of a wait in progress, then its deadline. -/
def WaitOp.again (op : WaitOp) (s : State) (h : Nat) (w : Wait) : State :=
  match w.given with
  | some st => s.finishGiven h w st
  | none =>
    match op.attempt (s.modHart h (Hart.setWait w)) h w with
    | .trap s t => s.waitTrap h t
    | .done s st late => s.finishWait h w st late
    | .finished s => s
    | .wait s w1 =>
      let w2 := { w1 with tries := w1.tries + 1 }
      let s1 := s.modHart h (Hart.setWait w2)
      if s1.expired h w2 then op.expire s1 h w2 else s1

/-- A wait begins, or goes on, at a commit: as R329 has it of every W-format wait, once every earlier entry has retired. R158 says of TILEWAIT that it
does not wait for the hart's own queued TFETCH: its clock runs from the moment it comes to its turn, and it finishes once R329 lets it
(DEDUCED, log 93). -/
def WaitOp.exec (op : WaitOp) (i : Instr) (s : State) : Out :=
  held s fun s =>
    match s.h.wait with
    | some w => .next (op.again s s.cur w)
    | none =>
      let w := op.new i s s.cur
      match op.start { s with arrivals := s.arrivals + 1 } s.cur w with
      | .trap s1 t => raiseIn s s1 t
      | .done s1 st late => .next (s1.finishWait s.cur w st late)
      | .finished s1 => .next s1
      | .wait s1 w1 => .next (op.again s1 s.cur w1)

/-- The timeout outcome with a detail. -/
def timedOut (detail : Wait → Nat) (s : State) (h : Nat) (w : Wait) : Try := .done s (status (s.timeoutCode h w) (detail w)) true

/-- One final attempt, then the timeout outcome. -/
def finalTry (attempt : State → Nat → Wait → Try) (detail : Wait → Nat) (s : State) (h : Nat) (w : Wait) : Try :=
  match attempt s h w with
  | .wait s w => timedOut detail s h w
  | t => t

/-- SCOPE_MISS of R256: host memory below host scope, peer memory below system scope. -/
def State.outsideScope (s : State) (pa scope : Nat) : Bool :=
  match s.place pa with
  | .host => decide (scope < 6)
  | .peer _ _ => decide (scope < 5)
  | _ => false

/-- The checks of an object address (R256, R258, R261): alignment, translation, scope. -/
def objectAt (acc : Access) (n scope : Nat) (s : State) (h : Nat) (w : Wait) : Try :=
  if w.obj.toNat % n ≠ 0 then .trap s (misaligned w.obj)
  else
    match s.probeVa h w.obj acc with
    | (s, .error t) => .trap s t
    | (s, .ok pa) => if s.outsideScope pa scope then .done s (status codeSCOPE 0) false else .wait s { w with pa := pa }

/-- A word of 8 bytes at home(va, scope) with acquire. -/
def State.watchedWord (s : State) (h scope : Nat) (va : Word) : State × Except Trap Nat :=
  match s.probeVa h va .load with
  | (s, .error t) => (s, .error t)
  | (s, .ok pa) =>
    match s.homeLoad h scope va pa 8 with
    | (s, .error e) => let r := s.accessTrap h false va e; (r.1, .error r.2)
    | (s, .ok bs) => (s.acquire (coreOf h) scope, .ok (leNat bs))

/-! ### FENCE (R254) and LSYNC (R221) -/

/-- The classes a fence asks for. -/
def fenceClasses (v : Word) : Nat := if v.toNat % 16 = 0 then 15 else v.toNat % 16

/-- The classes of which a hart has stores that are not performed at the home of a scope; its loads are performed as they commit or retire. -/
def State.fencePending (s : State) (h scope : Nat) : Nat :=
  let k := s.core (coreOf h)
  let owes (v : Bool) : Bool := decide (2 ≤ scope) && k.owed.any fun o => o.h == h && o.vector == v
  (if owes false then 2 else 0) + if owes true || k.stores.any (·.h == h) then 8 else 0

/-- The requested classes that are drained. -/
def State.fenceDrained (s : State) (h scope : Nat) (w : Wait) : Nat := Nat.land (fenceClasses w.obj) (15 - s.fencePending h scope)

/-- One store of a hart, or one line with stores of it, is performed at the home of a scope. -/
def State.fenceStep (s : State) (h scope : Nat) : State :=
  let k := s.core (coreOf h)
  match k.stores.find? (·.h == h), (if scope < 2 then none else k.owed.find? (·.h == h)) with
  | some r, _ => s.performHeld (coreOf h) r
  | none, some o => s.writeBack (coreOf h) o.line
  | none, none => s

/-- The first attempt performs the stores of the requested classes at the scope's home. While the memory takes its time it performs none, and
each later one a single store or line. -/
def waitFence (d a b : Reg) (sc : BitVec 5) : WaitOp where
  d := d
  b := b
  a := a
  attempt := fun s h w =>
    let c := fenceClasses w.obj
    let s1 := if s.slow then (if w.tries = 0 then s else s.fenceStep h sc.toNat)
      else if bit c 1 || bit c 3 then s.releaseAt (coreOf h) sc.toNat else s
    if s.slow ∧ s1.fenceDrained h sc.toNat w ≠ c then .wait s1 w
    else .done (s1.acquire (coreOf h) sc.toNat) (status codeOK (c * 256)) false
  late := fun s h w =>
    let c := s.fenceDrained h sc.toNat w
    if c = 0 then .done s (status codeTIMEOUT 0) true
    else .done (s.acquire (coreOf h) sc.toNat) (status codePARTIAL (c * 256)) true

/-- LSYNC (R221): the hart's vector stores that a slice's queue holds are performed; every other earlier access was performed at its core-scope
home as it committed or retired. -/
def execLsync (s : State) : Out := held s fun s => commit (s.landOwn s.cur) id

/-! ### BAR (R255, R256) -/

/-- A barrier whose record accepts no arrival. -/
def barMalformed (v : Nat) : Bool := barExpect v == 0 || decide (barExpect v ≤ barArrived v)

/-- One arrival. -/
def barArrive (v : Nat) : Option Nat :=
  if barMalformed v then none
  else if barArrived v + 1 = barExpect v then some (barWord (barExpect v) 0 (barGen v + 1))
  else some (barWord (barExpect v) (barArrived v + 1) (barGen v))

/-- The begin of BAR: checks, release, arrival. -/
def barStart (sc : Nat) (s : State) (h : Nat) (w : Wait) : Try :=
  match objectAt .store 8 sc s h w with
  | .wait s w =>
    match ((s.pin (s.xctx h) w.obj .store).releaseAt (coreOf h) sc).atomicAt h sc w.obj w.pa 8 barArrive with
    | (s, .error e) => let r := s.accessTrap h true w.obj e; .trap r.1 r.2
    | (s, .ok v) =>
      if barMalformed v then .done s (status codeFAULTED 256) false else .wait s { w with bar := true, gen := barGen v }
  | t => t

/-- An attempt of BAR: GEN read at the home. -/
def barAttempt (sc : Nat) (s : State) (h : Nat) (w : Wait) : Try :=
  match s.probeVa h w.obj .store with
  | (s, .error t) => .trap s t
  | (s, .ok pa) =>
    match s.homeLoad h sc w.obj pa 8 with
    | (s, .error e) => let r := s.accessTrap h true w.obj e; .trap r.1 r.2
    | (s, .ok bs) =>
      if barGen (leNat bs) ≠ w.gen then .done (s.acquire (coreOf h) sc) (status codeOK (w.gen * 256)) false
      else .wait (s.pin (s.xctx h) w.obj .store) { w with pa := pa }

/-- The deadline of BAR: completed, or the arrival withdrawn. -/
def barLate (sc : Nat) (s : State) (h : Nat) (w : Wait) : Try :=
  match barAttempt sc s h w with
  | .wait s w => timedOut (fun w => w.gen * 256) (s.barWithdraw h w) h w
  | t => t

def waitBar (d a b : Reg) (sc : BitVec 5) : WaitOp where
  d := d
  b := b
  a := a
  scope := some sc.toNat
  start := barStart sc.toNat
  attempt := barAttempt sc.toNat
  late := barLate sc.toNat

/-! ### WAITA and VWAITA (R257 to R259) -/

/-- Whether a hart has an entry armed on a line. -/
def Core.armed (c : Core) (h line : Nat) : Bool := c.monitors.any fun m => m.h == h && m.line == line

/-- Arms an entry of the monitor table on a line and its home at a scope (R216) where the table has room; whether the line is armed. -/
def State.arm (s : State) (h scope line : Nat) : State × Bool :=
  let c := s.core (coreOf h)
  let near := decide (scope < 2) && (s.place (256 * line)).cached
  if c.armed h line then (s, true)
  else if 64 ≤ c.monitors.length then (s, false)
  else (s.modCore (coreOf h) fun c => { c with monitors := c.monitors ++ [⟨h, line, near, false⟩] }, true)

/-- The begin of WAITA: the expected value, then the checks. -/
def waitaStart (d : Reg) (sc : Nat) (s : State) (h : Nat) (w : Wait) : Try :=
  objectAt .load 8 sc s h { w with data := (s.hart h).getX d }

/-- An attempt of WAITA. -/
def waitaAttempt (sc : Nat) (s : State) (h : Nat) (w : Wait) : Try :=
  match s.watchedWord h sc w.obj with
  | (s, .error t) => .trap s t
  | (s, .ok v) =>
    if v ≠ w.data.toNat then .done s (status codeOK 0) false
    else
      match s.arm h sc (w.pa / 256) with
      | (s, true) => .wait s w
      | (s, false) => .done s (status codeFULL 0) false

def waitWaita (d a b : Reg) (sc : BitVec 5) : WaitOp where
  d := d
  b := b
  a := a
  scope := some sc.toNat
  start := waitaStart d sc.toNat
  attempt := waitaAttempt sc.toNat
  late := finalTry (waitaAttempt sc.toNat) fun _ => 0

/-- Address of word e of a VWAITA. -/
def Wait.wordVa (w : Wait) (e : Nat) : Word := w.obj + w64 (8 * e)

/-- The translations and scopes of the words of a VWAITA: a translation that is refused goes before a scope that is missed, the first of each (R259
does not say whether its checks run word by word; DESIGN CHOICE, log 89). -/
def wordChecks (sc : Nat) (h : Nat) (w : Wait) : List Nat → State → Try
  | [], s => .wait s w
  | e :: l, s =>
    match s.probeVa h (w.wordVa e) .load with
    | (s, .error t) => .trap s t
    | (s, .ok pa) =>
      match wordChecks sc h w l s with
      | .wait s w => if s.outsideScope pa sc then .done s (status codeSCOPE 0) false else .wait s w
      | t => t

/-- The begin of VWAITA. -/
def vwaitaStart (d : Reg) (sc : Nat) (s : State) (h : Nat) (w : Wait) : Try :=
  let a := s.hart h
  if a.vlNat = 0 then .done s (status codeOK 0) false
  else if w.obj.toNat % 8 ≠ 0 then .trap s (misaligned w.obj)
  else wordChecks sc h { w with data := a.getX d, gen := a.vlNat } (List.range a.vlNat) s

/-- Reads every word of a VWAITA (R259): the first that differs, or none. -/
def readWords (sc : Nat) (h : Nat) (w : Wait) : List Nat → State → State × Except Trap (Option Nat)
  | [], s => (s, .ok none)
  | e :: l, s =>
    match s.watchedWord h sc (w.wordVa e) with
    | (s, .error t) => (s, .error t)
    | (s, .ok v) =>
      match readWords sc h w l s with
      | (s, .ok r) => (s, .ok (if v ≠ w.data.toNat then some e else r))
      | r => r

/-- Arms the lines of words in turn: how many leading words are armed. -/
def armWords (sc h : Nat) (w : Wait) : List Nat → State → State × Nat
  | [], s => (s, 0)
  | e :: l, s =>
    match (s.translate (s.xctx h) (w.wordVa e) .load).1 with
    | .ok pa =>
      match s.arm h sc (pa / 256) with
      | (s, true) => let r := armWords sc h w l s; (r.1, r.2 + 1)
      | (s, false) => (s, 0)
    | _ => (s, 0)

/-- An attempt of VWAITA: `gen` holds the words watched. -/
def vwaitaAttempt (sc : Nat) (s : State) (h : Nat) (w : Wait) : Try :=
  match readWords sc h w (List.range w.gen) s with
  | (s, .error t) => .trap s t
  | (s, .ok (some e)) => .done s (status codeOK (e * 2 ^ 8 + w.gen * 2 ^ 22)) false
  | (s, .ok none) =>
    if w.tries ≠ 0 then .wait s w
    else
      match armWords sc h w (List.range w.gen) s with
      | (s, 0) => .done s (status codeFULL (w.gen * 2 ^ 8)) false
      | (s, m) => .wait s { w with gen := m }

def waitVwaita (d a b : Reg) (sc : BitVec 5) : WaitOp where
  d := d
  b := b
  a := a
  scope := some sc.toNat
  start := vwaitaStart d sc.toNat
  attempt := vwaitaAttempt sc.toNat
  late := finalTry (vwaitaAttempt sc.toNat) fun w => w.gen * 2 ^ 8 + w.gen * 2 ^ 22

/-! ### PHEND (R253) -/

/-- The detail of PHEND: nonzero counters and their sum. -/
def Hart.laneDetail (a : Hart) : Nat :=
  (a.lanes.toList.filter (· != 0)).length * 2 ^ 8 + a.lanes.toList.foldl (· + ·) 0 % 2 ^ 48 * 2 ^ 16

/-- Performs the lines that a hart's additions updated at a scope. -/
def State.phaseLines (s : State) (h scope : Nat) : State :=
  let s1 := if scope < 2 then s else (s.hart h).addLines.foldl (fun s l => s.writeBack (coreOf h) l) s
  if scope < 2 then s1 else s1.modHart h fun a => { a with addLines := [] }

def phendAttempt (sc : Nat) (s : State) (h : Nat) (w : Wait) : Try :=
  let a := s.hart h
  if a.lanes.toList.any (· != 0) then .wait s w
  else
    let s1 := s.phaseLines h sc
    if a.dropped = 0 then .done s1 (status codeOK 0) false
    else .done (s1.modHart h fun a => { a with dropped := 0 }) (status codeFAULTED (a.dropped * 2 ^ 16)) false

def waitPhend (d b : Reg) (sc : BitVec 5) : WaitOp where
  d := d
  b := b
  a := 0
  attempt := phendAttempt sc.toNat
  late := fun s h _ => .done s (status codeTIMEOUT (s.hart h).laneDetail) true

/-! ### Completion objects (R281, R303) -/

/-- An attempt on a completion object. -/
def objectAttempt (s : State) (h : Nat) (w : Wait) : Try :=
  match s.watchedWord h 4 w.obj with
  | (s, .error t) => .trap s t
  | (s, .ok v) =>
    if v % 256 = 255 then .wait s w
    else if v % 256 ≤ 7 then .done s (w64 v) false
    else .done s (status codeFAULTED 0x200) false

def waitObject (d a b : Reg) : WaitOp where
  d := d
  b := b
  a := a
  start := fun s h w => if w.obj.toNat % 8 ≠ 0 then .trap s (misaligned w.obj) else
    match s.probeVa h w.obj .load with
    | (s, .error t) => .trap s t
    | (s, .ok _) => .wait s w
  attempt := objectAttempt
  late := fun s _ _ => .done s (status codeTIMEOUT 0) true

/-! ### Taking a task (R280) -/

/-- An attempt of a take: the unit serves the waiting harts in their order of arrival. -/
def takeAttempt (s : State) (h : Nat) (w : Wait) : Try :=
  let camp := campOf h
  let s1 := giveN ((s.camp camp).tasks.length + 1) s camp
  if (s1.hart h).wait.isNone then .finished s1
  else if (s1.camp camp).tasks.any fun t => (s1.hart h).kernel == some t.kernel then .wait s1 w
  else .done s1 (status codeWITHDRAWN 0) false

def waitTake (d b : Reg) : WaitOp where
  d := d
  b := b
  a := 0
  start := fun s h w => if (s.hart h).task.isSome then .trap s ⟨causeTaskState, 1, none⟩ else .wait s w
  attempt := takeAttempt
  late := fun s _ _ => .done s (status codeTIMEOUT 0) true

/-! ### Memory-resident queues (R260, R261) -/

/-- The header of a queue record: HEAD, TAIL, LCAP and the bytes that must be zero. -/
structure QHeader where
  head : Nat
  tail : Nat
  lcap : Nat
  zero : Nat
  deriving DecidableEq, Repr

/-- The header of 16 bytes. -/
def qHeader (v : Nat) : QHeader := ⟨v % 2 ^ 32, v / 2 ^ 32 % 2 ^ 32, v / 2 ^ 64 % 256, v / 2 ^ 72⟩
/-- Entries in the queue. -/
def QHeader.used (q : QHeader) : Nat := (q.tail + 2 ^ 32 - q.head) % 2 ^ 32
/-- R260. -/
def QHeader.malformed (q : QHeader) : Bool := decide (4 < q.lcap) || q.zero != 0 || decide (2 ^ q.lcap < q.used)
/-- Whether a send, or a receive, can be performed. -/
def QHeader.can (q : QHeader) (send : Bool) : Bool :=
  !q.malformed && if send then decide (q.used < 2 ^ q.lcap) else q.used != 0

/-- What one step at a queue's home finds. -/
inductive QTry where
  | trap (t : Trap)
  | malformed
  | none_ (q : QHeader)
  | moved (q : QHeader) (st data : Word)

/-- One step of a send or a receive at home(A, scope). -/
def State.queueStep (s : State) (h scope : Nat) (send : Bool) (w : Wait) : State × QTry :=
  match s.probeVa h w.obj .store with
  | (s, .error t) => (s, .trap t)
  | (s, .ok pa) =>
    let fail (s : State) (e : MemErr) : State × QTry := let r := s.accessTrap h true w.obj e; (r.1, .trap r.2)
    match s.atomicAt h scope w.obj pa 16 fun _ => none with
    | (s, .error e) => fail s e
    | (s, .ok v) =>
      let q := qHeader v
      if q.malformed then (s, .malformed)
      else if !q.can send then (s, .none_ q)
      else
        let c := 2 ^ q.lcap
        let off := 16 + 8 * ((if send then q.tail else q.head) % c)
        match s.atomicAt h scope (w.obj + w64 off) (pa + off) 8 fun _ => if send then some w.data.toNat else none with
        | (s, .error e) => fail s e
        | (s, .ok data) =>
          let o := if send then 4 else 0
          let n := if send then q.tail else q.head
          match s.atomicAt h scope (w.obj + w64 o) (pa + o) 4 fun _ => some ((n + 1) % 2 ^ 32) with
          | (s, .error e) => fail s e
          | (s, .ok _) => (s, .moved q (status codeOK (n * 256)) (w64 data))

/-- Whether an instruction sends, receives, or does neither. -/
def queueKind (i : Instr) : Option Bool :=
  match i with
  | .qsend .. => some true
  | .qrecv .. => some false
  | _ => none

/-- The register of a queue wait's data: x[d + 1]. -/
def Wait.dataReg (w : Wait) : Reg := w.dreg + 1

/-- A send or a receive that was performed finishes; a frozen hart goes on when it is released (R241). -/
def State.queueFinish (s : State) (h scope : Nat) (send : Bool) (w : Wait) (st data : Word) : State :=
  if (s.hart h).frozen then s.modHart h (Hart.setWait { w with given := some st, data := if send then w.data else data })
  else if send then s.finishWait h w st false
  else ((s.modHart h fun a => a.setX w.dataReg data).acquire (coreOf h) scope).finishWait h w st false

/-- The wait of a hart that waits at one queue's home, in its order of arrival: same record, same home: a local-store
bank is one home at every scope (R216). -/
def State.queueWait (s : State) (c scope pa : Nat) (g : Nat) : Option (Wait × Bool) :=
  match (s.hart g).wait with
  | none => none
  | some w =>
    match queueKind w.instr with
    | none => none
    | some send =>
      let near (n : Nat) : Bool := decide (n < 2) && (s.place pa).cached
      let sc := w.scope.getD 0
      let same := if near scope then near sc && coreOf g == c else !near sc
      if w.given.isNone && w.tries != 0 && w.pa == pa && same then some (w, send) else none

/-- The earliest waiter at a queue's home that can go on now, before an order of arrival. -/
def State.nextWaiter (s : State) (c scope pa before : Nat) : Option (Nat × Wait × Bool) :=
  let q := qHeader (s.homeViews c scope pa 16)
  let l := s.harts.filterMap fun e => (s.queueWait c scope pa e.1).bind fun w =>
    if w.1.order < before && q.can w.2 then some (e.1, w) else none
  l.foldl (fun m x => match m with
    | none => some x
    | some y => if x.2.1.order < y.2.1.order then some x else some y) none

/-- Serves the waiters at a queue's home in their order of arrival. -/
def serveQueue : Nat → State → Nat → Nat → Nat → Nat → State
  | 0, s, _, _, _, _ => s
  | n + 1, s, c, scope, pa, before =>
    match s.nextWaiter c scope pa before with
    | none => s
    | some (g, w, send) =>
      match s.queueStep g (w.scope.getD 0) send w with
      | (s1, .moved _ st data) => serveQueue n (s1.queueFinish g (w.scope.getD 0) send w st data) c scope pa before
      | _ => s

/-- An attempt of QSEND or QRECV: earlier waiters first, then this hart, then those that its step lets go on. -/
def queueAttempt (sc : Nat) (send : Bool) (s : State) (h : Nat) (w : Wait) : Try :=
  let c := coreOf h
  let s1 := serveQueue s.harts.length s c sc w.pa w.order
  match s1.queueStep h sc send w with
  | (s2, .trap t) => .trap s2 t
  | (s2, .malformed) => .done s2 (status codeFAULTED 256) false
  | (s2, .none_ q) => .wait s2 { w with hi := w64 q.tail, lo := w64 q.head }
  | (s2, .moved _ st data) =>
    let s3 := s2.queueFinish h sc send w st data
    .finished (serveQueue s3.harts.length s3 c sc w.pa s3.arrivals)

/-- The begin of QSEND or QRECV. -/
def queueStart (sc : Nat) (send : Bool) (s : State) (h : Nat) (w : Wait) : Try :=
  match objectAt .store 256 sc s h w with
  | .wait s w => if send then .wait (s.releaseAt (coreOf h) sc) { w with data := (s.hart h).getX w.dataReg } else .wait s w
  | t => t

/-- QSEND, or QRECV. -/
def waitQueue (send : Bool) (d a b : Reg) (sc : BitVec 5) : WaitOp where
  d := d
  b := b
  a := a
  scope := some sc.toNat
  start := queueStart sc.toNat send
  attempt := queueAttempt sc.toNat send
  late := finalTry (queueAttempt sc.toNat send) fun _ => 0

/-! ### NAWAIT (R151) -/

/-- The name NAWAIT waits on. -/
def nawaitName (a : Reg) (h : Hart) : Name := ⟨a, 1, (h.getDef a).width, h.vlNat, false, false, true, 0, h.vlNat, false⟩

def waitNawait (d a b : Reg) : WaitOp where
  d := d
  b := b
  a := a
  start := fun s h w =>
    match (checkOwner (s.hart h)).or (Name.bounds (s.hart h) (nawaitName a (s.hart h))) with
    | some t => .trap s t
    | none => .wait s { w with hi := 0, lo := w64 a.toNat }
  attempt := fun s h w =>
    if ((s.core (coreOf h)).meets ((nawaitName a (s.hart h)).use (s.hart h)) false).isEmpty then .done s (status codeOK 0) false
    else .wait s w
  late := fun s _ _ => .done s (status codeTIMEOUT 0) true

/-! ### TILEWAIT (R158) -/

/-- The outcome a tile's entry gives a class: 0 ready, 1 empty. -/
def Tile.outcome (t : Tile) (c : BitVec 1) : Option Nat :=
  if c = 0 then
    if t.st = .ready then some codeOK else if t.st = .empty ∧ t.flt then some codeFAULTED else none
  else if t.st = .empty ∧ !t.flt then some codeOK
  else if t.st = .ready ∧ t.flt then some codeFAULTED else none

def waitTile (d a b : Reg) (c : BitVec 1) : WaitOp where
  d := d
  b := b
  a := a
  start := fun s h w =>
    match (checkOwner (s.hart h)).or (tileCheck s h w.obj fun _ => true) with
    | some t => .trap s t
    | none => .wait s w
  attempt := fun s h w =>
    let t := (s.core (coreOf h)).tile w.obj.toNat
    match t.outcome c with
    | some code => .done s (status code (t.st.code * 256)) false
    | none => .wait s w
  late := fun s h w => .done s (status codeTIMEOUT (((s.core (coreOf h)).tile w.obj.toNat).st.code * 256)) true

/-! ### SQPOP (R200) -/

/-- The queue a pop names, where it is open and not parked. -/
def State.popQueue (s : State) (h : Nat) (obj : Word) : Option Stream :=
  (s.stream h (obj.toNat % 2)).filter fun v => !v.parked

/-- The checks of the destination of a pop: E elements of its own width, so that R125 never fails: R200 states no other (DESIGN CHOICE, log 72). -/
def popCheck (a : Hart) (n : Reg) (v : Stream) : Option Trap :=
  let w := (a.getDef n).width
  let E := v.len * 8 / w
  (checkOwner a).or (checkNames a [⟨n, 0, w, E, true, false, true, 0, E, false⟩])

/-- The begin of SQPOP. -/
def popStart (n : Reg) (s : State) (h : Nat) (w : Wait) : Try :=
  match s.popQueue h w.obj with
  | none => .trap s (engineArg 2 1)
  | some v =>
    match popCheck (s.hart h) n v with
    | some t => .trap s t
    | none => if v.count ≤ v.popped then .done s (status codeWITHDRAWN (v.popped * 2 ^ 16)) false else .wait s w

/-- The entry of the plane write of a pop: queue and index stand for its scalar operands. -/
def popEntry (i : Instr) (n : Reg) (a : Hart) (q p : Nat) : QEntry := { newEntry i (popWrite n) a with va := w64 q, vb := w64 p }

/-- An attempt of SQPOP: the slot full, its plane write enters the queue. -/
def popAttempt (i : Instr) (t : BitVec 1) (n : Reg) (s : State) (h : Nat) (w : Wait) : Try :=
  match s.popQueue h w.obj with
  | none => .trap s (engineArg 2 1)
  | some v =>
    let q := w.obj.toNat % 2
    if v.full.getLsbD (v.popped % v.slots) then
      let e := popEntry i n (s.hart h) q v.popped
      let s1 := (s.modHart h (Hart.setStream q (some { v with popped := v.popped + 1 }))).finishWait h w (status codeOK (v.popped * 2 ^ 16)) false
      .finished (s1.modHart h fun a => { a with queue := a.queue ++ [e] })
    else if t = 1 then .trap s ⟨causeStreamEmpty, w64 (q * 2 ^ 16 + v.popped), none⟩
    else .wait s w

/-- The deadline of SQPOP. -/
def popLate (s : State) (h : Nat) (w : Wait) : Try :=
  match s.popQueue h w.obj with
  | none => .trap s (engineArg 2 1)
  | some v =>
    .done s (status codeTIMEOUT (v.popped * 2 ^ 16 + if v.faulted && v.popped == v.fetched then 256 else 0)) true

def waitPop (d a b : Reg) (t : BitVec 1) (n : Reg) : WaitOp where
  d := d
  b := b
  a := a
  start := popStart n
  attempt := popAttempt (.sqpop d a b t n) t n
  late := popLate

/-! ### The instructions -/

/-- The waiting instruction that a wait in progress stands at. -/
def waitOf (i : Instr) : Option WaitOp :=
  match i with
  | .fence d a b s => some (waitFence d a b s)
  | .bar d a b s => some (waitBar d a b s)
  | .waita d a b s => some (waitWaita d a b s)
  | .vwaita d a b s => some (waitVwaita d a b s)
  | .phend d b s => some (waitPhend d b s)
  | .twaitTake d b => some (waitTake d b)
  | .twait d a b => some (waitObject d a b)
  | .mgwait d a b => some (waitObject d a b)
  | .qsend d a b s => some (waitQueue true d a b s)
  | .qrecv d a b s => some (waitQueue false d a b s)
  | .nawait d a b => some (waitNawait d a b)
  | .tilewait d a b c => some (waitTile d a b c)
  | .sqpop d a b t n => some (waitPop d a b t n)
  | _ => none

/-- FENCE (R254). -/
def execFence (d a b : Reg) (sc : BitVec 5) (s : State) : Out := (waitFence d a b sc).exec (.fence d a b sc) s
/-- BAR (R256). -/
def execBar (d a b : Reg) (sc : BitVec 5) (s : State) : Out := (waitBar d a b sc).exec (.bar d a b sc) s
/-- WAITA (R258). -/
def execWaita (d a b : Reg) (sc : BitVec 5) (s : State) : Out := (waitWaita d a b sc).exec (.waita d a b sc) s
/-- VWAITA (R259). -/
def execVwaita (d a b : Reg) (sc : BitVec 5) (s : State) : Out := (waitVwaita d a b sc).exec (.vwaita d a b sc) s
/-- PHEND (R253). -/
def execPhend (d b : Reg) (sc : BitVec 5) (s : State) : Out := (waitPhend d b sc).exec (.phend d b sc) s
/-- TWAIT, take (R280). -/
def execTwaitTake (d b : Reg) (s : State) : Out := (waitTake d b).exec (.twaitTake d b) s
/-- TWAIT on an object (R281). -/
def execTwait (d a b : Reg) (s : State) : Out := (waitObject d a b).exec (.twait d a b) s
/-- MGWAIT (R303). -/
def execMgwait (d a b : Reg) (s : State) : Out := (waitObject d a b).exec (.mgwait d a b) s
/-- QSEND (R261). -/
def execQsend (d a b : Reg) (sc : BitVec 5) (s : State) : Out := (waitQueue true d a b sc).exec (.qsend d a b sc) s
/-- QRECV (R261). -/
def execQrecv (d a b : Reg) (sc : BitVec 5) (s : State) : Out := (waitQueue false d a b sc).exec (.qrecv d a b sc) s
/-- NAWAIT (R151). -/
def execNawait (d a b : Reg) (s : State) : Out := (waitNawait d a b).exec (.nawait d a b) s
/-- TILEWAIT (R158): behind entries that have not retired its clock begins; it observes the tile table alone (log 93). -/
def execTilewait (d a b : Reg) (c : BitVec 1) (s : State) : Out :=
  let op := waitTile d a b c
  if !s.h.queue.isEmpty then .next (s.modH fun x => { x with tileSince := x.tileSince.or (some (s.waitClock s.cur (x.dlmode.getLsbD 0))) })
  else match s.h.tileSince with
    | none => op.exec (.tilewait d a b c) s
    | some t => { op with since := some t }.exec (.tilewait d a b c) (s.modH fun x => { x with tileSince := none })
/-- SQPOP (R200). -/
def execSqpop (d a b : Reg) (t : BitVec 1) (n : Reg) (s : State) : Out := (waitPop d a b t n).exec (.sqpop d a b t n) s

/-! ### Wakes and deadlines (R237) -/

/-- Whether a hart is in a wait that may be attempted now. -/
def Hart.waiting (a : Hart) : Bool := a.run == .running && !a.frozen && a.wait.isSome && a.queue.isEmpty

/-- One further attempt of a hart's wait. -/
def State.retryWait (s : State) (h : Nat) : State :=
  match (s.hart h).wait with
  | some w => if (s.hart h).waiting then
      match waitOf w.instr with
      | some op => op.again s h w
      | none => s
    else s
  | none => s

/-- WAIT_WAKE (R237): a wake is followed by another attempt; spurious wakes are permitted. -/
def execWaitWake (h : Nat) (s : State) : Out := .next (s.retryWait h)

/-- WAIT_DEADLINE_EXPIRY (R237): at the deadline one further attempt is made, then the timeout outcome. -/
def execWaitDeadlineExpiry (h : Nat) (s : State) : Out :=
  .next (match (s.hart h).wait with
    | some w => if s.expired h w then s.retryWait h else s
    | none => s)

end Sys2Proof.Machine
end

