-- ==== Sys2Proof/Machine/Entries.lean ====
section
/-! DEFINITION. What each instruction of the vector queue is (R307). -/
namespace Sys2Proof.Machine

/-- The parts of an instruction that enters the queue; none for the others. The pop of SQPOP enters it as a plane write (R200). -/
def entryOp (i : Instr) : Option QOp :=
  match i with
  | .vaddVv d a b f y x k => some (opVaddVv d a b f y x k)
  | .vaddVx d a b f x k => some (opVaddVx d a b f x k)
  | .vsubVv d a b f y x k => some (opVsubVv d a b f y x k)
  | .vsubVx d a b f x k => some (opVsubVx d a b f x k)
  | .vmulVv d a b f y x k => some (opVmulVv d a b f y x k)
  | .vmulVx d a b f x k => some (opVmulVx d a b f x k)
  | .vfmaVv d a b f y x k => some (opVfmaVv d a b f y x k)
  | .vfmaVx d a b f x k => some (opVfmaVx d a b f x k)
  | .vmin d a b f y x k => some (opVmin d a b f y x k)
  | .vmax d a b f y x k => some (opVmax d a b f y x k)
  | .vdiv d a b f y x k => some (opVdiv d a b f y x k)
  | .vsqrt d a f x k => some (opVsqrt d a f x k)
  | .vcmpeqVv d a b f y x k => some (opVcmpeqVv d a b f y x k)
  | .vcmpneVv d a b f y x k => some (opVcmpneVv d a b f y x k)
  | .vcmpltVv d a b f y x k => some (opVcmpltVv d a b f y x k)
  | .vcmpleVv d a b f y x k => some (opVcmpleVv d a b f y x k)
  | .vcmpeqVx d a b f x k => some (opVcmpeqVx d a b f x k)
  | .vcmpneVx d a b f x k => some (opVcmpneVx d a b f x k)
  | .vcmpltVx d a b f x k => some (opVcmpltVx d a b f x k)
  | .vcmpleVx d a b f x k => some (opVcmpleVx d a b f x k)
  | .vand d a b w y x k => some (opVand d a b w y x k)
  | .vor d a b w y x k => some (opVor d a b w y x k)
  | .vxor d a b w y x k => some (opVxor d a b w y x k)
  | .vandn d a b w y x k => some (opVandn d a b w y x k)
  | .vorn d a b w y x k => some (opVorn d a b w y x k)
  | .vsll d a b sh w x k => some (opVsll d a b sh w x k)
  | .vsrl d a b sh w x k => some (opVsrl d a b sh w x k)
  | .vsra d a b sh w x k => some (opVsra d a b sh w x k)
  | .vsel d a b w y x k => some (opVsel d a b w y x k)
  | .vclamp d a b f y x k => some (opVclamp d a b f y x k)
  | .vcvt d a f x k sh => some (opVcvt d a f x k sh)
  | .vcvtsn d a b f x k => some (opVcvtsn d a b f x k)
  | .vcvtsw d a b f y x k => some (opVcvtsw d a b f y x k)
  | .vscale d a f x k => some (opVscale d a f x k)
  | .vredsum d a b t y x k => some (opVredsum d a b t y x k)
  | .vredmax d a b t y x k => some (opVredmax d a b t y x k)
  | .vredmin d a b t y x k => some (opVredmin d a b t y x k)
  | .vcompress d a w x k => some (opVcompress d a w x k)
  | .vexpand d a w x k => some (opVexpand d a w x k)
  | .vconfl d a f x k => some (opVconfl d a f x k)
  | .vslideup d a b sh w x k => some (opVslideup d a b sh w x k)
  | .vslidedn d a b sh w x k => some (opVslidedn d a b sh w x k)
  | .vmv d a w x k => some (opVmv d a w x k)
  | .vbcast d b w => some (opVbcast d b w)
  | .vgetx d a b w => some (opVgetx d a b w)
  | .vputx d a b w => some (opVputx d a b w)
  | .kand d a b => some (opKand d a b)
  | .kor d a b => some (opKor d a b)
  | .kxor d a b => some (opKxor d a b)
  | .kandn d a b => some (opKandn d a b)
  | .knot d a => some (opKnot d a)
  | .kpop d a => some (opKpop d a)
  | .kfirst d a => some (opKfirst d a)
  | .vidx d sh t f => some (opVidx d sh t f)
  | .vdef d a b => some (opVdef d a b)
  | .mma a v f o t => some (opMma a v f o t)
  | .mmas a v f o t => some (opMmas a v f o t)
  | .mmag a v f o t => some (opMmag a v f o t)
  | .aczero o e => some (opAczero o e)
  | .acrd d f o => some (opAcrd d f o)
  | .acwr a f o => some (opAcwr a f o)
  | .tilerel a => some (opTilerel a)
  | .vld d a im w => some (opVld d a im w)
  | .vst d a im w => some (opVst d a im w)
  | .vldm d a w k => some (opVldm d a w k)
  | .vlds d a b w k => some (opVlds d a b w k)
  | .vldi d a b w y k => some (opVldi d a b w y k)
  | .vldiw d a b w y k => some (opVldiw d a b w y k)
  | .vldro d a w k => some (opVldro d a w k)
  | .vstm d a w k => some (opVstm d a w k)
  | .vsts d a b w k => some (opVsts d a b w k)
  | .vsti d a b w y k => some (opVsti d a b w y k)
  | .vstiw d a b w y k => some (opVstiw d a b w y k)
  | .sqopen d a b c => some (opSqopen d a b c)
  | .sqclose d a => some (opSqclose d a)
  | .vldz d a b f => some (opVldz d a b f)
  | .tfetch d a b c => some (opTfetch d a b c)
  | .acopy d a b c => some (opAcopy d a b c)
  | .tdrain d a b c => some (opTdrain d a b c)
  | .bankopSplit d a b c => some (opBankopSplit d a b c)
  | .bankopJoin d a b c => some (opBankopJoin d a b c)
  | .bankopXp8 d a b c => some (opBankopXp8 d a b c)
  | .bankopXp16 d a b c => some (opBankopXp16 d a b c)
  | .bankopDenc d a b c => some (opBankopDenc d a b c)
  | .bankopDdec d a b c => some (opBankopDdec d a b c)
  | .bankopZsum d a b c => some (opBankopZsum d a b c)
  | .fread d a b c => some (opFread d a b c)
  | .vgl d a b w y k => some (opVgl d a b w y k)
  | .vglw d a b w y k => some (opVglw d a b w y k)
  | .vsc d a b w y k => some (opVsc d a b w y k)
  | .vscw d a b w y k => some (opVscw d a b w y k)
  | .vscadd d a b f y k => some (opVscadd d a b f y k)
  | .roinv => some opRoinv
  | .mgopen d a => some (opMgopen d a)
  | .mgclose d => some (opMgclose d)
  | .mgdrain d => some (opMgdrain d)
  | .mgpush d a b y x k => some (opMgpush d a b y x k)
  | .fgather d a b c => some (opFgather d a b c)
  | .freduce d a b c => some (opFreduce d a b c)
  | .fflag d a b c => some (opFflag d a b c)
  | .fcoll d a => some (opFcoll d a)
  | .sqpop _ _ _ _ n => some (popWrite n)
  | _ => none

/-- Whether an instruction enters the queue as it commits. -/
def queued (i : Instr) : Bool :=
  match i with
  | .sqpop .. => false
  | i => (entryOp i).isSome

end Sys2Proof.Machine
end

