-- ==== Sys2Proof/Machine/QueueEvents.lean ====
section
/-! DEFINITION. The events of the vector queue (R307 to R315, R330 to R335): issue by the arbiter, the starts of element groups, the
arrival of load data, rows of the matrix engine, completion, traps of an entry, and the asynchronous stop. -/
namespace Sys2Proof.Machine

/-- ILLEGAL of a word that is no instruction (R92). -/
def execIllegalWord (w : W32) (s : State) : Out := raise s (illegalOf w)

/-- A hart that commits and issues: resident, not frozen, and no halt has arrived (R333). -/
def Hart.active? (a : Hart) : Bool := a.run == .running && !a.frozen && a.skid.isNone

/-! ### Stop units of entries in the queue (R381) -/

/-- Whether an entry has performed an element: VDEF, TILEREL, ROINV and engine commands have none. -/
def QEntry.performed (e : QEntry) : Bool :=
  e.issued.isSome && match entryOp e.instr with
    | some op => (op.vector || op.kind == .matrix) && op.begunAny e
    | none => false

/-- Whether a hart stands at a point at which an asynchronous stop may fall (R333): nothing but its oldest entry has performed an element, what that
has performed is one run from ESTART on, and it is no indivisible instruction that has begun. -/
def Hart.atPoint (a : Hart) : Bool :=
  match a.queue with
  | [] => true
  | e :: rest =>
    !e.ended && e.trap.isNone && (e.issued.isNone || match entryOp e.instr with
      | some op => !rest.any QEntry.performed && !(op.single e && op.begunAny e) && (op.indexed || op.contiguous e)
      | none => true)

/-- A hart whose issued entries go on: after the arrival of a halt until it stands at a point of R333. -/
def Hart.moves (a : Hart) : Bool := a.run == .running && !a.frozen && !(a.skid.isSome && a.atPoint)

/-- Whether a unit stands before an entry: its element is still to be performed, with everything after it. -/
def StopUnit.ahead (u : StopUnit) (a : Hart) (op : QOp) (e : QEntry) : Bool :=
  let first := if e.issued.isSome then e.startsAt else if op.vector then a.es else 0
  if u.elem = 0 then (!op.elems || first == 0) && op.below e 0
  else op.elems && e.issued.isSome && decide (first ≤ u.elem) && decide (u.elem < e.len) && op.below e u.elem

/-- The least element at which a unit of a hart fires on an entry of its queue, and the unit. One that was enabled after an entry behind this
has performed an element does not (DEDUCED, log 80). -/
def Hart.unitAhead (a : Hart) (e : QEntry) : Option (Nat × StopUnit) :=
  match a.stops.toList.zipIdx.filter fun u => u.1.on a e.pc && !u.1.fired with
  | [] => none
  | l =>
    match entryOp e.instr with
    | none => none
    | some op =>
      if e.ended || e.trap.isSome || ((a.queue.dropWhile (· != e)).drop 1).any QEntry.performed then none
      else (l.filter fun u => u.1.ahead a op e).foldl (fun m u =>
        match m with
        | none => some (u.2, u.1)
        | some b => if u.1.elem < b.2.elem then some (u.2, u.1) else some b) none

/-- Whether a unit lets elements below hi of an entry be performed. -/
def Hart.unitLets (a : Hart) (e : QEntry) (hi : Nat) : Bool := (a.unitAhead e).all fun u => decide (0 < hi) && decide (hi ≤ u.2.elem)

/-! ### What orders the entries of one hart -/

/-- Whether every element lo to hi - 1 of an issued entry has been performed. -/
def QOp.rangeDone (op : QOp) (q : QEntry) (lo hi : Nat) : Bool :=
  if op.counts q && op.begunAny q then (op.left q).all fun j => (op.rest q j).all fun r => !(decide (r.1 < hi) && decide (lo < r.2))
  else (op.left q).all fun j => !op.single q && !(decide (j * op.groupSize q < hi) && decide (lo < (j + 1) * op.groupSize q))

/-- Whether a later instruction's use of mask registers waits for elements of an earlier one (R130): bits it reads and the earlier one
writes, bits it writes and the earlier one reads or writes. -/
def QOp.maskWaits (op oq : QOp) (q : QEntry) (len lo hi : Nat) : Bool :=
  let reads := oq.kw.any op.kr.contains
  let writes := op.kw.any fun k => oq.kr.contains k || oq.kw == some k
  (reads && !(if op.kall then oq.rangeDone q 0 len else oq.rangeDone q lo hi)) ||
    (writes && !(if oq.kall then (oq.left q).isEmpty else oq.rangeDone q lo hi))

/-- Two accesses meet. -/
def placesMeet (a b : List (Nat × Nat)) : Bool := a.any fun x => b.any fun y => decide (x.1 < y.1 + y.2) && decide (y.1 < x.1 + x.2)

/-- What an entry has not accessed yet: none where that may be any address. -/
def QOp.ahead (op : QOp) (s : State) (h : Nat) (q : QEntry) : Option (List (Nat × Nat)) :=
  ((op.left q).flatMap fun j => op.rest q j).foldl (fun m r =>
    match m, op.places s h q r.1 r.2 with
    | some l, some n => some (l ++ n)
    | _, _ => none) (some [])

/-- Whether the accesses of elements lo to hi - 1 wait for those of an earlier entry: a byte in common (R111, R218), two stores to lines of
one slice (R220), pushes to one port (R296), or the links of the hart (R247). -/
def QOp.accessWaits (op : QOp) (s : State) (h : Nat) (e : QEntry) (lo hi : Nat) (oq : QOp) (q : QEntry) : Bool :=
  !(oq.left q).isEmpty && ((op.links && oq.links) || (op.port && oq.port) ||
    (op.memory && oq.memory && match op.places s h e lo hi, oq.ahead s h q with
      | some a, some b => placesMeet a b ||
        (op.stores && oq.stores && a.any fun x => b.any fun y => x.1 / 256 % 4 == y.1 / 256 % 4)
      | _, _ => true))

/-- Whether an earlier entry holds elements lo to hi - 1 of a later one back: a trap, a probe still to be made, a refused page (R332), a stop
unit (R381), its masks, its accesses. -/
def QOp.heldBack (op : QOp) (s : State) (h : Nat) (e : QEntry) (before : List QEntry) (lo hi : Nat) : Bool :=
  before.any fun q =>
    q.trap.isSome || (!q.ended && (!q.settled || q.frames.any (·.reason != 0) || ((s.hart h).unitAhead q).isSome ||
      match entryOp q.instr with
      | some oq => op.maskWaits oq q e.len lo hi || op.accessWaits s h e lo hi oq q
      | none => false))

/-- Whether the entries that one follows have performed the elements it uses, or the whole of what it follows whole (R53, R54, R311). -/
def chainDone (e : QEntry) (before : List QEntry) (lo hi : Nat) : Bool :=
  before.all fun q =>
    match q.issued, entryOp q.instr with
    | some n, some oq => (!e.chain.contains n || oq.rangeDone q lo hi) && (!e.follow.contains n || (oq.left q).isEmpty)
    | _, _ => true

/-- Whether an entry follows an earlier one for its index: a destination of that one meets the index name. -/
def QOp.indexFrom (op : QOp) (a : Hart) (e : QEntry) (oq : QOp) (q : QEntry) : Bool :=
  op.indexed && q.issued.any e.chain.contains &&
    ((op.names { a with defs := e.defs } e).filter (·.pos == 2)).any fun n =>
      ((oq.names { a with defs := q.defs } q).filter (·.dest)).any fun d =>
        (d.use { a with defs := q.defs }).meets (n.use { a with defs := e.defs })

/-- Whether what a late entry's probe reads has been written: its masks and, for an indexed form, the index that it chains on (R130, R193). Its data
is awaited group by group, as R310 has it. -/
def QOp.mayProbe (op : QOp) (a : Hart) (e : QEntry) (before : List QEntry) : Bool :=
  before.all fun q => q.ended || (q.trap.isNone && q.settled && match entryOp q.instr with
    | some oq => !(oq.kw.any op.kr.contains && !(oq.left q).isEmpty) &&
        !(op.indexFrom a e oq q && !(oq.rangeDone q 0 e.len && (!q.issued.any e.follow.contains || (oq.left q).isEmpty)))
    | none => true)

/-- Later entries may chain on an indexed entry from now on: no page of it is refused (R332). -/
def State.openChain (s : State) (h seq : Nat) : State :=
  s.modCore (coreOf h) fun k => { k with pend := k.pend.map fun p => if p.h == h && p.seq == seq then { p with chains := true } else p }

/-- The probe of a late entry: its pages, or the trap it raises before any element (R192, R193). -/
def QOp.probe (op : QOp) (s : State) (h : Nat) (e : QEntry) : State :=
  let seq := e.issued.getD 0
  let r := op.under s h e fun s => let r := op.post s h e; (r.1, r.2, op.frames r.1 h e, op.noteIssue s r.1 h e)
  match r.2.1 with
  | some t => r.1.modEntry h seq fun q => { q with settled := true, trap := some (op.trapOf q t) }
  | none =>
    let n := r.2.2.2.2
    let s1 := if op.indexed && r.2.2.1.all (·.reason == 0) && !(s.hart h).stopAhead e.pc then r.1.openChain h seq else r.1
    op.endIfDone (s1.modEntry h seq fun q => { q with settled := true, frames := r.2.2.1, sampled := n }) h seq

/-- The elements of a group as those it follows count them. -/
def QOp.span (op : QOp) (e : QEntry) (j : Nat) : Nat × Nat := if op.single e then (0, e.len) else op.bounds e j

/-- Whether elements lo to hi - 1 of an entry store to SATP or CTX: they wait until every earlier entry has retired (R349). -/
def QOp.roots (op : QOp) (s : State) (h : Nat) (e : QEntry) (lo hi : Nat) : Bool :=
  op.stores && (s.hart h).sup && match op.places s h e lo hi with
    | some l => placesMeet l [(s.savePa h 0x1A00, 16)]
    | none => true

/-- Whether group j of an issued entry may be performed: nothing that orders it is open. -/
def QOp.free (op : QOp) (s : State) (h : Nat) (e : QEntry) (before : List QEntry) (j : Nat) : Bool :=
  let r := op.span e j
  e.trap.isNone && e.settled && (s.hart h).unitLets e r.2 && !op.heldBack s h e before r.1 r.2 && chainDone e before r.1 r.2 &&
    (before.isEmpty || !op.roots s h e r.1 r.2) && op.room s h e r.1 r.2 &&
    (!(op.port || op.overlaps s h e || (op.indexed && (s.hart h).unitOn e)) || (op.left e).head? == some j)

/-- The group that an issued entry starts next on a lane group: 0 stands for the whole of one performed as a unit. -/
def QOp.nextOn (op : QOp) (a : Hart) (e : QEntry) (lane : Nat) : Option Nat :=
  if op.kind ≠ .plane || e.ended then none
  else if op.single e then (if lane = op.lane a e && e.begun[0] != 2 && !op.inOrder then some 0 else none)
  else
    let g := op.groups e
    let j := laneFirst g.1 (lane % 4) + 4 * (e.begun[lane % 4]'(Nat.mod_lt _ (by decide)))
    if j < g.2 then some j else none

/-- Entries with those before them. -/
def withBefore : List QEntry → List QEntry → List (List QEntry × QEntry)
  | _, [] => []
  | before, e :: l => (before, e) :: withBefore (before ++ [e]) l

/-- The group of an entry that is ready on a lane group; a load asks for its data once its pages are known (R310). A late entry whose probe
can be made is ready for it. -/
def State.readyOn (s : State) (h lane : Nat) (before : List QEntry) (e : QEntry) : Option (QOp × Nat × Nat) :=
  match e.issued, entryOp e.instr with
  | some seq, some op =>
    match op.nextOn (s.hart h) e lane with
    | some j =>
      let ok := if !e.settled then op.mayProbe (s.hart h) e before
        else if op.inOrder then e.trap.isNone && before.all fun q => q.trap.isNone
        else op.free s h e before j
      if ok then some (op, seq, j) else none
    | none => none
  | _, _ => none

/-- The earliest issued of some candidates. -/
def firstIssued (l : List (Nat × QEntry × QOp × Nat × Nat)) : Option (Nat × QEntry × QOp × Nat × Nat) :=
  l.foldl (fun m x => match m with
    | none => some x
    | some y => if x.2.2.2.1 < y.2.2.2.1 then some x else some y) none

/-- A load's group has started: its sectors are asked for. -/
def QEntry.startGroup (lane : Nat) (e : QEntry) : QEntry :=
  { e with begun := e.begun.set (lane % 4) (e.begun[lane % 4]'(Nat.mod_lt _ (by decide)) + 1) (Nat.mod_lt _ (by decide)) }

/-- The entries of a core with a group ready on a lane group. -/
def State.laneCands (s : State) (core lane : Nat) : List (Nat × QEntry × QOp × Nat × Nat) :=
  (hartsOf core).flatMap fun h =>
    if (s.hart h).moves then
      (withBefore [] (s.hart h).queue).filterMap fun p => (s.readyOn h lane p.1 p.2).map fun r => (h, p.2, r)
    else []

/-- One of them starts its group: a late one makes its probe, a load asks for its sectors. -/
def State.laneStep (s : State) (lane : Nat) (c : Nat × QEntry × QOp × Nat × Nat) : State :=
  match c with
  | (h, e, op, seq, j) =>
    if !e.settled then op.probe s h e
    else if op.inOrder then s.modEntry h seq (QEntry.startGroup lane)
    else op.perform s h e j

/-- LANE_GROUP_START (R311): the earliest issued instruction of any hart with a group ready on the lane group starts it. -/
def State.laneStart (s : State) (core lane : Nat) : State :=
  match firstIssued (s.laneCands core lane) with
  | none => s
  | some c => s.laneStep lane c

/-- The groups ready on a lane group that come before a place in the core's issue order are started. -/
def laneDrainN : Nat → State → Nat → Nat → Nat → State
  | 0, s, _, _, _ => s
  | n + 1, s, core, lane, seq =>
    match firstIssued ((s.laneCands core lane).filter fun c => decide (c.2.2.2.1 < seq)) with
    | none => s
    | some c => laneDrainN n (s.laneStep lane c) core lane seq

/-- The lane group that holds group j of an entry. -/
def QOp.laneOf (op : QOp) (a : Hart) (e : QEntry) (j : Nat) : Nat := if op.single e then op.lane a e else j % 4

/-- What starts on the lane group of group j of an entry before it does (R311): ready groups of entries issued earlier, of other harts too. -/
def QOp.before (op : QOp) (s : State) (h : Nat) (e : QEntry) (j : Nat) : State :=
  if op.kind == .plane then laneDrainN 65536 s (coreOf h) (op.laneOf (s.hart h) e j) (e.issued.getD 0) else s

def execLaneGroupStart (core lane : Nat) (s : State) : Out := .next (s.laneStart core lane)

/-- Whether a group of a load has been asked for. -/
def QOp.asked (op : QOp) (e : QEntry) (j : Nat) : Bool :=
  op.single e || decide (laneFirst (op.groups e).1 (j % 4) + 4 * (e.begun[j % 4]'(Nat.mod_lt _ (by decide))) > j)

/-- Whether the data of group j of a load can arrive (R310). -/
def State.canLand (s : State) (h : Nat) (before : List QEntry) (e : QEntry) (op : QOp) (j : Nat) : Bool :=
  e.issued.isSome && op.inOrder && op.kind == .plane && (op.left e).contains j && op.asked e j && op.free s h e before j &&
    (!op.serial || (op.left e).head? == some j)

/-- The lowest group of an entry whose data can arrive. -/
def State.arrivalOf (s : State) (h : Nat) (before : List QEntry) (e : QEntry) : Option (QOp × Nat) :=
  match entryOp e.instr with
  | some op => ((op.left e).find? fun j => s.canLand h before e op j).map fun j => (op, j)
  | none => none

/-- LOAD_DATA_ARRIVAL (R310): a group of the hart's earliest load whose data can arrive is written, the lowest of them. -/
def State.dataArrives (s : State) (h : Nat) : State :=
  if !(s.hart h).moves then s
  else
    match (withBefore [] (s.hart h).queue).findSome? fun p => (s.arrivalOf h p.1 p.2).map fun r => (p.2, r) with
    | some (e, op, j) => op.perform s h e j
    | none => s

/-- The n-th entry of a hart's queue, where it has issued and the hart goes on, with those before it. -/
def State.nthEntry (s : State) (h n : Nat) : Option (List QEntry × QEntry × QOp) :=
  if !(s.hart h).moves then none
  else
    match (withBefore [] (s.hart h).queue)[n]? with
    | some (before, e) => if e.issued.isSome && !e.ended then (entryOp e.instr).map fun op => (before, e, op) else none
    | none => none

/-- The data of group j of a load arrives, in whatever order the memory gives it (R310). -/
def State.dataOf (s : State) (h n j : Nat) : State :=
  match s.nthEntry h n with
  | some (before, e, op) => if s.canLand h before e op j then op.perform s h e j else s
  | none => s

/-- Whether group j of an entry has been started, or is the next to start on its lane group and no entry issued earlier has one ready there (R311). -/
def State.mayStart (s : State) (h : Nat) (e : QEntry) (op : QOp) (j : Nat) : Bool :=
  let lane := op.laneOf (s.hart h) e j
  (e.parts.any fun i => op.single e || i / op.groupSize e == j) || op.nextOn (s.hart h) e lane == some j &&
    (firstIssued (s.laneCands (coreOf h) lane)).all fun c => c.1 == h && e.issued == some c.2.2.2.1

/-- Element i of an entry is performed by itself (R191, R333): the lowest that its group has left, or for an indexed access any (R193),
with what no stop may part from it (R71). The groups of a lane group start in ascending order (R311). A line of which the first word of one pair alone
has been written back may so have a tag that R184 gives it and the list of R269 does not name (DEDUCED, log 94). -/
def State.performElement (s : State) (h n i : Nat) : State :=
  match s.nthEntry h n with
  | some (before, e, op) =>
    let j := if op.single e then 0 else i / op.groupSize e
    let b := op.bounds e j
    let hi := op.grain s h e (i + 1)
    let any := op.indexed && !op.overlaps s h e && !(s.hart h).unitOn e
    let next := (op.rest e j).any fun r => if any then decide (r.1 ≤ i) && decide (i < r.2) else r.1 == i
    let lanes := op.kind == .plane && (!op.single e || op.counts e) && op.elems && (op.left e).contains j && b.1 ≤ i && hi ≤ b.2
    let starts := if op.inOrder then op.asked e j && (!op.serial || (op.left e).head? == some j) else s.mayStart h e op j
    if lanes && next && op.free s h e before j && starts then op.performPart s h e i hi else s
  | none => s

def execLoadDataArrival (h : Nat) (s : State) : Out := .next (s.dataArrives h)

/-- The next row of the instruction that the matrix engine of a core holds (R163, R315); like every entry it performs nothing behind one whose pages
are not known or are refused (R332). -/
def State.matrixStep (s : State) (core : Nat) : State :=
  let hit := (hartsOf core).findSome? fun h =>
    if (s.hart h).moves then
      (withBefore [] (s.hart h).queue).findSome? fun p =>
        match entryOp p.2.instr with
        | some op =>
          if op.kind == .matrix && p.2.issued.isSome && p.2.trap.isNone && p.1.all (fun q => q.trap.isNone && (q.ended ||
              (q.settled && q.frames.all (·.reason == 0) && ((s.hart h).unitAhead q).isNone))) then
            ((op.left p.2).head?.filter fun j => (s.hart h).unitLets p.2 (op.span p.2 j).2).map fun j => (h, p.2, op, j)
          else none
        | none => none
    else none
  match hit with
  | some (h, e, op, j) => op.perform s h e j
  | none => s

/-! ### Completion (R307) -/

/-- The groups left of the oldest entry, until one traps. -/
def performLeft (op : QOp) : Nat → State → Nat → State
  | 0, s, _ => s
  | n + 1, s, h =>
    match (s.hart h).queue with
    | [] => s
    | e :: _ =>
      if e.trap.isSome then s
      else if !e.settled then performLeft op n (op.probe s h e) h
      else
        match op.left e with
        | [] => s
        | j :: _ => performLeft op n (op.perform (op.before s h e j) h e j) h

/-- The oldest entry of a hart completes and retires, or keeps the trap it met, whatever units stand before it. -/
def State.completeEntry (s : State) (h : Nat) : State :=
  match (s.hart h).queue with
  | [] => s
  | e :: _ =>
    match e.issued, entryOp e.instr with
    | some seq, some op =>
      if e.trap.isSome then s
      else
        let s1 := performLeft op ((op.left e).length + 1) s h
        match (s1.hart h).queue with
        | [] => s1
        | e1 :: _ =>
          if e1.trap.isSome then s1
          else
            match op.under s1 h e1 fun s => op.closing s h e1 with
            | (s2, some t) => s2.modEntry h seq fun q => { q with trap := some (op.trapOf q t) }
            | (s2, none) => op.retireOldest s2 h e1
    | _, _ => s

/-- What lies below an element of the oldest entry is performed, until something traps. -/
def performBelow (op : QOp) (n : Nat) : Nat → State → Nat → State
  | 0, s, _ => s
  | k + 1, s, h =>
    match (s.hart h).queue with
    | [] => s
    | e :: _ =>
      if e.trap.isSome then s
      else if !e.settled then performBelow op n k (op.probe s h e) h
      else match op.left e with
        | [] => s
        | j :: _ =>
          if (op.bounds e j).2 ≤ n then performBelow op n k (op.perform (op.before s h e j) h e j) h
          else match (op.rest e j).find? fun r => decide (r.1 < n) with
            | some r => performBelow op n k (op.performPart (op.before s h e j) h e r.1 (Nat.min r.2 n)) h
            | none => s

/-- The oldest entry, if any, goes back to the scalar side with those after it; nothing of them has been performed. -/
def State.unwindAll (s : State) (h : Nat) : State :=
  match (s.hart h).queue with
  | [] => s
  | e :: _ =>
    match entryOp e.instr with
    | some op => op.unwind s h e e.startsAt
    | none => s

/-- A hart frozen by one of its units, at the entry that it names or after it. -/
def State.unitStop (s : State) (h i : Nat) (exact mark : Bool) : State :=
  if !(s.hart h).active? then s else (if mark then s.modHart h (Hart.markFired i) else s).freeze h 2 i exact false 0 0

/-- A unit fires on the oldest entry of a hart (R382): elements below ELEM are performed and the hart stops there; an instruction performed as one
unit, or one whose next stop lies at its end, completes first. What traps on the way traps. -/
def State.fireQueued (s : State) (h : Nat) (e : QEntry) (i : Nat) (u : StopUnit) : State :=
  match entryOp e.instr with
  | none => s
  | some op =>
    let done (s : State) : State :=
      let t := s.completeEntry h
      if (t.hart h).queue.length < (s.hart h).queue.length then (t.unwindAll h).unitStop h i false false else t
    let hi := op.grain s h e u.elem
    if u.elem ≤ e.startsAt then (op.unwind s h e e.startsAt).unitStop h i true true
    else if (op.single e && !op.oneRow) || e.len ≤ hi then done s
    else
      let s1 := performBelow op hi (e.len + 2) s h
      match (s1.hart h).queue with
      | [] => s1
      | e1 :: _ =>
        if e1.trap.isSome then s1
        else if op.through s1 h e1 then done s1
        else
          let s2 := op.unwind s1 h e1 hi true
          s2.unitStop h i ((s2.hart h).es == u.elem) true

/-- The oldest entry of a hart completes and retires, keeps the trap it met, or meets a stop unit. -/
def State.completeOldest (s : State) (h : Nat) : State :=
  match (s.hart h).queue with
  | [] => s
  | e :: _ =>
    match (s.hart h).unitAhead e with
    | some u => if e.issued.isSome then s.fireQueued h e u.1 u.2 else s
    | none => s.completeEntry h

/-- ENTRY_COMPLETE (R307). -/
def execEntryComplete (h : Nat) (s : State) : Out := .next (if (s.hart h).moves then s.completeOldest h else s)

/-! ### Issue (R308, R313, R315) -/

/-- What the checks and comparisons of a head give: it waits, its issue is a trap, or it issues, with the entries it follows, its probe
still to be made where `late`. -/
inductive HeadTest where
  | wait
  | trap (s : State) (t : Trap)
  | go (s : State) (chain follow : List Nat) (late : Bool)

/-- A head of a hart's queue: the entry with ESTART as it now stands. -/
structure Head where
  h : Nat
  old : QEntry
  e : QEntry
  op : QOp
  test : HeadTest

/-- Whether the probe of an entry reads what entries before it have yet to write: a mask, or its index through a chain. -/
def QOp.isLate (op : QOp) (s : State) (h : Nat) (e : QEntry) (before : List QEntry) : Bool :=
  let a := s.hart h
  op.probes && e.vl != 0 && (before.any (fun q => !q.ended && match entryOp q.instr with
      | some oq => oq.kw.any op.kr.contains
      | none => false) ||
    (op.indexed && ((op.names a e).filter (·.pos == 2)).any fun n => ((s.core (coreOf h)).chainOn h a n).isSome))

/-- Whether the issue of an instruction does what no unwinding undoes, so that it issues once it is the oldest (R331): an engine command,
a release of a tile (DEDUCED, log 61). ROINV issues once every earlier entry has retired (R212). -/
def QOp.outward (op : QOp) (i : Instr) : Bool :=
  op.kind == .engine || match i with
    | .tilerel .. => true
    | .roinv => true
    | _ => false

/-- The head of a hart's queue, tested (R308). -/
def State.head (s : State) (h : Nat) : Option Head :=
  let a := s.hart h
  if !a.active? || a.queue.any (·.trap.isSome) then none
  else
    match a.queue.find? (·.issued.isNone) with
    | none => none
    | some e0 =>
      match entryOp e0.instr with
      | none => none
      | some op =>
        let e := { e0 with startsAt := if op.vector then a.es else 0 }
        let before := a.queue.takeWhile (·.issued.isSome)
        let late := op.isLate s h e before
        let checked := if late then (s, op.early a e) else op.check s h e
        let t := if (op.outward e0.instr && !before.isEmpty) || (a.unitAhead e0).isSome then HeadTest.wait
          else match checked with
            | (s1, some t) => .trap s1 t
            | (s1, none) =>
              match s1.issueTest h op e with
              | .wait => .wait
              | .empty t => .trap s1 t
              | .go l f => .go s1 l f late
        some ⟨h, e0, e, op, t⟩

/-- Whether a head is issuable. -/
def Head.ok (x : Head) : Bool :=
  match x.test with
  | .wait => false
  | _ => true

/-- A head issues, or its trap is its issue. -/
def Head.issue (x : Head) (s : State) : State :=
  let enter (s : State) : State := s.modHart x.h fun a => { a with queue := replaceFirst x.old x.e a.queue }
  match x.test with
  | .wait => s
  | .trap s1 t => s1.modHart x.h fun a => { a with queue := replaceFirst x.old { x.e with trap := some (x.op.trapOf x.e t) } a.queue }
  | .go s1 chain follow late =>
    let r := if late then (s1, none) else x.op.noteIssue s s1 x.h x.e
    let seq := (s1.core (coreOf x.h)).issues
    let s2 := x.op.issue (enter r.1) x.h x.e chain follow late r.2
    let empty := x.e.vl == 0 && x.op.width != 0 && !x.op.oneRow && !late
    if x.op.kind = .engine ∨ x.op.kind = .other ∨ empty then
      match (s2.hart x.h).queue.find? (·.issued == some seq) with
      | some e => (x.op.left e).foldl (fun s j => x.op.perform s x.h e j) s2
      | none => s2
    else s2

/-- The charge of a head (R309): nothing where its issue is a trap. -/
def Head.cost (x : Head) (s : State) : Nat :=
  match x.test with
  | .go .. => x.op.charge { x.e with len := x.op.len (s.hart x.h) x.e }
  | _ => 0

/-- The least of some counts. -/
def leastOf : List Nat → Option Nat
  | [] => none
  | n :: l => match leastOf l with
    | none => some n
    | some m => some (Nat.min n m)

/-- The virtual counts as the heads stand (R313): a hart whose head has become issuable joins at m. -/
def State.joinHeads (s : State) (core : Nat) (ready : List Nat) : State :=
  let c := s.core core
  let old := ready.filter fun h => (s.hart h).issuable
  let m := match leastOf (old.map fun h => (s.hart h).vcount) with
    | some v => Nat.max c.arbM v
    | none => c.arbM
  let s1 := (hartsOf core).foldl (fun s h => s.modHart h fun a =>
    if ready.contains h then { a with issuable := true, vcount := if a.issuable then a.vcount else Nat.max a.vcount m }
    else { a with issuable := false }) s
  s1.modCore core fun k => { k with arbM := m }

/-- The lane head with the least count; ties go to the lower hart. -/
def pickLane (s : State) (l : List Head) : Option Head :=
  l.foldl (fun m x => match m with
    | none => some x
    | some y => if (s.hart x.h).vcount < (s.hart y.h).vcount then some x else some y) none

/-- The matrix head served next: hart numbers counting onward from the hart served last. -/
def pickMatrix (last : Nat) (l : List Head) : Option Head :=
  [1, 2, 3, 4].findSome? fun i => l.find? fun x => x.h % 4 == (last + i) % 4

/-- The charge of an issue and the window of R313. -/
def State.chargeHead (s : State) (core : Nat) (ready : List Nat) (h cost : Nat) : State :=
  let s1 := s.modHart h fun a => { a with vcount := a.vcount + cost * (8 / Nat.max a.share 1) }
  let m := match leastOf (ready.map fun g => (s.hart g).vcount) with
    | some v => Nat.max (s.core core).arbM v
    | none => (s.core core).arbM
  let s2 := (hartsOf core).foldl (fun s g => s.modHart g fun a => { a with vcount := Nat.min a.vcount (m + 56) }) s1
  s2.modCore core fun k => { k with arbM := m }

/-- The issuable heads of a core. -/
def State.heads (s : State) (core : Nat) : List Head := ((hartsOf core).filterMap s.head).filter (·.ok)

/-- The harts whose head is not issuable now: they join again (R313). -/
def State.leaveHeads (s : State) (core : Nat) : State :=
  let ready := (s.heads core).map (·.h)
  (hartsOf core).foldl (fun s h => s.modHart h fun a => { a with issuable := a.issuable && ready.contains h }) s

/-- ENTRY_ISSUE (R308, R313, R315): at most one issue of the core; a matrix head goes before a lane head. -/
def State.issueOne (s : State) (core : Nat) : State :=
  let l := s.heads core
  let ready := l.map (·.h)
  let s1 := s.joinHeads core ready
  match pickMatrix (s1.core core).lastMatrix (l.filter (·.op.kind == .matrix)) with
  | some x =>
    match s1.head x.h with
    | some y => (((y.issue s1).modCore core fun k => { k with lastMatrix := x.h % 4 }).chargeHead core ready x.h 0).leaveHeads core
    | none => s1
  | none =>
    match pickLane s1 l with
    | some x =>
      match s1.head x.h with
      | some y => ((y.issue s1).chargeHead core ready x.h (y.cost s1)).leaveHeads core
      | none => s1
    | none => s1

def execEntryIssue (core : Nat) (s : State) : Out := .next (s.issueOne core)

/-! ### Traps of an entry (R330, R331, R334) -/

/-- The missing groups of the oldest entry below a group, performed. -/
def fillBelow (op : QOp) (j : Nat) : Nat → State → Nat → State
  | 0, s, _ => s
  | n + 1, s, h =>
    match (s.hart h).queue with
    | [] => s
    | e :: _ =>
      match op.left e with
      | [] => s
      | i :: _ => if i < j then fillBelow op j n (op.perform (op.before s h e i) h e i) h else s

/-- MACHINE_CHECK with LATER where a later element had been performed (R334). -/
def Trap.later (t : Trap) (b : Bool) : Trap :=
  if b && t.code == causeMachineCheck then { t with tval := t.tval ||| w64 (2 ^ 63) } else t

/-- The trap of the oldest entry is taken: what lies below its element is performed first. -/
def State.trapOldest (s : State) (h : Nat) : State :=
  match (s.hart h).queue with
  | [] => s
  | e :: _ =>
    match e.trap, entryOp e.instr with
    | some t, some op =>
      let at_ := (t.elem.getD e.startsAt) / op.groupSize e
      let s1 := if e.issued.isSome && !op.single e && op.elems then fillBelow op at_ (op.left e).length s h else s
      match (s1.hart h).queue with
      | [] => s1
      | e1 :: rest =>
        let t1 := e1.trap.getD t
        let el := t1.elem.getD e1.startsAt
        let above := e1.issued.isSome && !op.single e1 && op.elems && decide (el / op.groupSize e + 1 < op.topGroup e1)
        let t2 := t1.later (above || rest.any QEntry.performed)
        let s2 := op.unwind s1 h e1 el
        s2.takeTrap h (op.trapAt (s2.hart h) t2) e1.pc
    | _, _ => s

/-- TRAP_ENTRY (R335). -/
def execTrapEntry (h : Nat) (s : State) : Out := .next (if (s.hart h).active? then s.trapOldest h else s)

/-! ### The asynchronous stop (R333) -/

/-- What a stop may not part from the elements performed is performed: the rest of a block (R71). -/
def QOp.toGrain (op : QOp) (s : State) (h : Nat) (e : QEntry) : State :=
  let n := op.reached e
  let hi := Nat.min (op.grain s h e n) e.len
  if op.single e || n = e.startsAt || hi ≤ n then s
  else op.endIfDone (op.performPart s h e n hi) h (e.issued.getD 0)

/-- A hart brought to its stop, and whether the point is a vector entry. -/
structure Stopped where
  state : State
  vector : Bool

/-- The oldest entries of a hart that have completed retire: they did as they completed (R307). -/
def retireEnded : Nat → State → Nat → State
  | 0, s, _ => s
  | n + 1, s, h =>
    match (s.hart h).queue with
    | [] => s
    | e :: _ => if e.ended && e.trap.isNone then retireEnded n (s.completeEntry h) h else s

/-- Brings a hart to the first point of R333 at or after now: entries that complete on the way retire, and a trap that the oldest one raises is
taken. -/
def stopN : Nat → State → Nat → Stopped
  | 0, s, _ => ⟨s, false⟩
  | n + 1, s, h =>
    let a := s.hart h
    match a.queue with
    | [] => ⟨s, false⟩
    | e :: rest =>
      match entryOp e.instr with
      | none => ⟨s, false⟩
      | some op =>
        if e.trap.isSome then ⟨s.trapOldest h, false⟩
        else if e.ended then stopN n (s.completeEntry h) h
        else if (a.unitAhead e).isSome && e.performed && !op.contiguous e then ⟨s.completeOldest h, op.vector⟩
        else if e.issued.isNone then ⟨op.unwind s h e e.startsAt, op.vector⟩
        else if rest.any QEntry.performed || (op.begunAny e && op.single e) then stopN n (s.completeOldest h) h
        else if !e.settled then ⟨op.unwind s h e e.startsAt, op.vector⟩
        else
          let s1 := if op.contiguous e || op.indexed then s else fillBelow op (op.topGroup e) (op.left e).length s h
          let s2 := match (s1.hart h).queue with
            | e1 :: _ => if e1.trap.isSome then s1 else op.toGrain s1 h e1
            | [] => s1
          match (s2.hart h).queue with
          | [] => ⟨s2, false⟩
          | e1 :: _ =>
            if e1.trap.isSome then ⟨s2.trapOldest h, false⟩
            else if op.through s2 h e1 && (op.waits || e1.ended) then stopN n (s2.completeOldest h) h
            else ⟨op.unwind s2 h e1 (op.reached e1), op.vector⟩

/-- A hart brought to its stop. -/
def State.bringToStop (s : State) (h : Nat) : Stopped :=
  stopN (2 * (s.hart h).queue.length + 2) (retireEnded (s.hart h).queue.length s h) h

/-- The asynchronous stop of a pending pre-emption request (R337, R333, R240). -/
def State.preemptStop (s : State) (h : Nat) : State :=
  let a := s.hart h
  match a.mayPreempt with
  | none => s
  | some w =>
    if !a.active? || a.sup then s
    else
      let s1 := if a.queue.isEmpty then s.abandonWait h else s
      let r := s1.bringToStop h
      let b := r.state.hart h
      if b.sup || !b.active? then r.state
      else (r.state.modHart h fun a => { a with preempt := none }).takeTrap h
        ⟨causePreempt, w, if r.vector then some b.es else none⟩ b.pc

/-- ASYNC_STOP. -/
def execAsyncStop (h : Nat) (s : State) : Out := .next (s.preemptStop h)

end Sys2Proof.Machine
end

