-- ==== Sys2Proof/Machine/Firmware.lean ====
section
/-! DEFINITION. Firmware images (R415): LMS signatures as RFC 8554 has them for the two parameter sets of the manual (PRESUMED, log 84), the fused
key hash and the rollback counter. Where an image holds its version and its request to raise the counter the manual does not say (DESIGN CHOICE, log 78). -/
namespace Sys2Proof.Machine

/-- n bytes of a list from i on as a number, highest first. -/
def beAt (l : List Byte) (i n : Nat) : Nat := leNat (slice l i n).reverse

/-- A hash in the tree of a key: the key's identifier, a number of 32 bits, one of 16 bits, and the rest. -/
def keyHash (ident : List Byte) (q d : Nat) (rest : List Byte) : List Byte := sha256 (ident ++ beBytes 4 q ++ beBytes 2 d ++ rest)

/-- The four-bit digits of some bytes, the high digit of a byte first. -/
def digits4 (l : List Byte) : List Nat := l.flatMap fun b => [b.toNat / 16, b.toNat % 16]

/-- The 67 digits that a one-time signature signs: those of the message's hash, then those of their checksum. -/
def signedDigits (h : List Byte) : List Nat :=
  let d := digits4 h
  d ++ (digits4 (beBytes 2 ((d.foldl (fun n x => n + (15 - x)) 0) * 16))).take 3

/-- Steps j, j + 1, … of chain i of a one-time key, n of them. -/
def chainSteps (ident : List Byte) (q i : Nat) : Nat → Nat → List Byte → List Byte
  | 0, _, y => y
  | n + 1, j, y => chainSteps ident q i n (j + 1) (keyHash ident q i (beBytes 1 j ++ y))

/-- The one-time public key that a signature and a message lead to (LMOTS_SHA256_N32_W4). -/
def oneTimeKey (ident : List Byte) (q : Nat) (sig message : List Byte) : List Byte :=
  let h := keyHash ident q 0x8181 (slice sig 4 32 ++ message)
  keyHash ident q 0x8080 ((signedDigits h).zipIdx.flatMap fun x => chainSteps ident q x.2 (15 - x.1) x.1 (slice sig (36 + 32 * x.2) 32))

/-- The root that a leaf and its path lead to, from a node up. -/
def merkleRoot (ident : List Byte) : Nat → Nat → List Byte → List Byte → List Byte
  | 0, _, t, _ => t
  | n + 1, node, t, path =>
    let p := path.take 32
    merkleRoot ident n (node / 2) (keyHash ident (node / 2) 0x8383 (if node % 2 = 1 then p ++ t else t ++ p)) (path.drop 32)

/-- The height of the tree of a parameter set the device supports: LMS_SHA256_M32_H15 and LMS_SHA256_M32_H20. -/
def treeHeight (type : Nat) : Option Nat := if type = 7 then some 15 else if type = 8 then some 20 else none

/-- Whether an LMS signature of a message holds under a public key. -/
def lmsHolds (key message sig : List Byte) : Bool :=
  match treeHeight (beAt key 0 4) with
  | none => false
  | some h =>
    let q := beAt sig 0 4
    let ident := slice key 8 16
    let leaf := 2 ^ h + q
    key.length == 56 && sig.length == 4 + 2180 + 4 + 32 * h && beAt key 4 4 == 3 && beAt sig 4 4 == 3 &&
      beAt sig 2184 4 == beAt key 0 4 && decide (q < 2 ^ h) &&
      merkleRoot ident h leaf (keyHash ident leaf 0x8282 (oneTimeKey ident q (slice sig 4 2180) message)) (sig.drop 2188) == slice key 24 32

/-- The bytes of an image that its signature signs. -/
def signedBytes (f : Firmware) : List Byte := beBytes 2 f.version ++ [if f.raises then 1 else 0] ++ f.bytes

/-- Whether the device takes an image: its key is the fused one, its signature holds, and its version is not below the rollback counter. -/
def Fuses.accept (u : Fuses) (f : Firmware) : Bool :=
  sha256 f.key == u.keyHash && decide (f.version < 65536) && decide (u.rollback ≤ f.version) && lmsHolds f.key (signedBytes f) f.signature

/-- The rollback counter after an image has been loaded: it rises to the image's version where the image asks for it. -/
def Fuses.loaded (u : Fuses) (f : Firmware) : Fuses := if f.raises then { u with rollback := Nat.max u.rollback f.version } else u

/-- The images of a list that are loaded one after another, and the fuses after them. -/
def Fuses.load : Fuses → List Firmware → Fuses × List Firmware
  | u, [] => (u, [])
  | u, f :: l =>
    if u.accept f then
      let r := (u.loaded f).load l
      (r.1, f :: r.2)
    else u.load l

end Sys2Proof.Machine
end

