-- ==== Sys2Proof/Machine/Start.lean ====
section
/-! DEFINITION. Power, the start sequence and its record (R409 to R412), clock grants (R413, R414), firmware and attestation (R415, R416), and the writes of
the management block that are events of their own (R19, R337, R344, R349, R417, R420, R425). -/
namespace Sys2Proof.Machine

/-! ### Register writes -/

/-- REGISTER_WRITE (R19): the host writes n bytes at an offset of the management block. -/
def execRegisterWrite (off n : Nat) (v : Word) (s : State) : Out := .next (s.mgmtWrite off n v)

/-- HOST_QUEUE_CTL_WRITE (R420). -/
def execHostQueueCtlWrite (q off n : Nat) (v : Word) (s : State) : Out := .next (s.hostQueueWrite q off n v)

/-- MERGE_ASSIGN_WRITE (R425). -/
def execMergeAssignWrite (camp : Nat) (w : Word) (s : State) : Out := .next (s.mergeAssign camp w)

/-- KEYCTL_OPEN (R417). -/
def execKeyctlOpen (slot : Nat) (s : State) : Out := .next (s.keyctl (w64 (slot % 4096 + 2 ^ 16)))
/-- KEYCTL_CLOSE (R417). -/
def execKeyctlClose (slot : Nat) (s : State) : Out := .next (s.keyctl (w64 (slot % 4096 + 2 ^ 17)))

/-- PREEMPT_REQUEST_POST (R337). -/
def execPreemptRequestPost (h : Nat) (w : Word) (s : State) : Out := .next (s.postPreempt h w)

/-- ENGINE_RECORD_DISCARD (R344): a supervisor store of V := 0 into record i. -/
def execEngineRecordDiscard (h i : Nat) (s : State) : Out := .next (if (s.hart h).sup then s.discardRecord h i else s)

/-- SATP_WRITE (R349): held until every earlier entry of the hart has retired. -/
def execSatpWrite (h field : Nat) (v : Word) (s : State) : Out :=
  .next (if (s.hart h).sup && (s.hart h).queue.isEmpty then (s.landOwn h).modHart h fun a => a.setTranslation field v else s)

/-! ### Clock grants (R413, R414, R425) -/

/-- The greatest step a camp is granted: CEIL, 25 to 31 acting as 24. -/
def Camp.top (c : Camp) : Nat := Nat.min c.ceil.toNat 24
/-- The least: FLOOR, at most CEIL. -/
def Camp.bottom (c : Camp) : Nat := Nat.min (Nat.min c.floor.toNat 24) c.top

/-- Its share weight: 0 acts as 1 (R419). -/
def Camp.share (c : Camp) : Nat := Nat.max 1 c.weight.toNat

/-- The power that Ridgepole attributes to a camp at a step. -/
def powerAt (e : PowerEstimate) (p step : Nat) : Nat := (e.powers.getD p []).getD step 0

/-- Whether the budget allows all camps their steps. -/
def budgetAllows (e : PowerEstimate) (steps : List Nat) : Bool :=
  decide ((steps.zipIdx.map fun (x : Nat × Nat) => powerAt e x.2 x.1).sum ≤ e.budget)

/-- A camp with its share in hand: its number, the step it starts from, the step it may reach, its weight. -/
structure Bidder where
  camp : Nat
  base : Nat
  top : Nat
  weight : Nat

/-- The bidder whose next step is due first: the fewest steps to its weight, the lowest number among equals. -/
def nextBidder (steps : List Nat) (l : List Bidder) : Option Bidder :=
  l.foldl (fun best b =>
    match best with
    | none => some b
    | some a =>
      let owed (x : Bidder) : Nat := steps.getD x.camp 0 + 1 - x.base
      if owed b * a.weight < owed a * b.weight then some b else some a) none

/-- The budget beyond the present steps shared step by step in proportion to the weights (R413); a camp whose next step no longer fits takes no more. -/
def shareN (e : PowerEstimate) : Nat → List Bidder → List Nat → List Nat
  | 0, _, steps => steps
  | n + 1, l, steps =>
    match nextBidder steps (l.filter fun b => decide (steps.getD b.camp 0 < b.top)) with
    | none => steps
    | some b =>
      let more := steps.set b.camp (steps.getD b.camp 0 + 1)
      if budgetAllows e more then shareN e n l more else shareN e n (l.filter fun x => x.camp != b.camp) steps

/-- The steps that the budget gives the camps (R413): every FLOOR where it allows them, and what is left to the camps below CEIL that held a resident hart
during the previous tick; else shares of the floors in proportion to WEIGHT, down to CODE 0. -/
def State.grants (s : State) (e : PowerEstimate) : List Nat :=
  let camps := List.range Config.numCamps
  let floors := camps.map fun p => (s.camp p).bottom
  if budgetAllows e floors then
    shareN e 1000 ((camps.filter s.heldBefore.contains).map fun p => ⟨p, (s.camp p).bottom, (s.camp p).top, (s.camp p).share⟩) floors
  else shareN e 1000 (camps.map fun p => ⟨p, 0, (s.camp p).bottom, (s.camp p).share⟩) (camps.map fun _ => 0)

/-- The steps that a tick grants the camps: never CODE 24 to all of them (R2, R414); which camp then stays one step below is free. -/
def spared (tick : Nat) (grants : List Nat) : List Nat :=
  if grants.all (· == 24) then grants.set (Config.sparedCamp tick % Config.numCamps) 23 else grants

/-- Whether a boundary of 2 µs has passed whose grants have not been given, and they can still reach the camps in time, within 200 ns (R413). -/
def State.grantDue (s : State) : Bool := decide (s.dtime.toNat / 2000 ≠ s.tick) && decide (s.dtime.toNat % 2000 < 200)

/-- RIDGEPOLE_GRANT_TICK (R413, R414). A threatened limit forces CODE 0 and sets HEALTH.PLIM; after the alternate of step 2 every camp
runs at CODE 0. Between the boundaries nothing is granted. -/
def execRidgepoleGrantTick (power : PowerEstimate) (limit : Bool) (s : State) : Out :=
  if !s.grantDue then .next s
  else
    let zero := limit || s.startRecord.outcomes[1] == 3
    let grants := spared (s.dtime.toNat / 2000) (s.grants power)
    let s1 := (List.range Config.numCamps).foldl (fun t p =>
      t.modCamp p fun c => { c with code := .ofNat 8 (if zero then 0 else grants.getD p 0) }) s
    let s2 := { s1 with tick := s1.dtime.toNat / 2000 }
    .next (if limit then { s2 with health := s2.health ||| 8 } else s2)

/-! ### Power (R410) -/

/-- Whether an address lies on the module: its memory is lost with its power. -/
def State.onModule (s : State) (pa : Nat) : Bool :=
  match s.place pa with
  | .device _ => true
  | .local_ _ _ => true
  | _ => false

/-- The module without power: what flash holds, the host's and the peers' memory, the HDM range and the chip number stay. -/
def State.unpowered (s : State) : State :=
  { State.reset with
    agenda := s.agenda
    stepNs := s.stepNs
    power := false
    mem := s.mem.filter fun (e : Nat × Byte) => !s.onModule e.1
    bad := s.bad.filter fun x => !s.onModule (64 * x)
    hdm := s.hdm
    health := 0
    startA := s.startA
    startB := s.startB
    recordB := s.recordB
    fuses := s.fuses
    attest := { s.attest with report := [] }
    fabric := { State.reset.fabric with chip := s.fabric.chip } }

/-- POWER_LOSS (R410). -/
def execPowerLoss (s : State) : Out := .next s.unpowered

/-! ### The start sequence (R411, R412) -/

/-- What a step did: its outcome code and its counter. -/
structure StepResult where
  outcome : Nat
  count : Nat
  deriving DecidableEq, Repr

/-- Steps that have an alternate. -/
def hasAlternate (step : Nat) : Bool := !([7, 8, 11].contains step)

/-- One step from its outcome and counter at the previous start, and what the parts report now (R411, R412): 1 OK, 3 done by its
alternate, 4 skipped, 5 halted. -/
def runStep (step outcome count : Nat) (t : StepTrial) : StepResult :=
  let failed := if step = 9 then 4 else 5
  let alt (n : Nat) : StepResult := ⟨if hasAlternate step && t.alt then 3 else failed, Nat.min (n + 1) 255⟩
  if (outcome = 2 ∨ outcome = 3) ∧ count < 8 then alt count
  else
    let n := if 8 ≤ count then 0 else count
    if t.main then ⟨1, 0⟩ else alt n

/-- The steps in order from a step on: a halted one is the last. -/
def runSteps (old : StartRecord) : Nat → List StepTrial → List StepResult
  | _, [] => []
  | i, t :: l =>
    let r := runStep i (old.outcomes.toList.getD (i - 1) 0) (old.counts.toList.getD (i - 1) 0) t
    if r.outcome = 5 then [r] else r :: runSteps old (i + 1) l

/-- What a test of the rows of one kind leaves: each failed row on the next spare row of its array, of 4, or of its bank, of 64 (R409); rows beyond the
spares stay as they are. -/
def rowRepairs (rows : List RowFault) : List RowRepair :=
  rows.foldl (fun map r =>
    let n := (map.filter fun x => x.fault.sram == r.sram && x.fault.unit == r.unit).length
    if n < (if r.sram then 4 else 64) && !map.any (·.fault == r) then map ++ [⟨r, n⟩] else map) []

/-- What the core test leaves of the physical cores that fail, 84 a die, of which the last four are the spares: in ascending order each failed core takes
the next sound spare of its die, and those beyond the spares, the highest-numbered, stay disabled (R409). -/
def coreRepairs (failed : List Nat) : List CoreRepair :=
  (List.range 8).flatMap fun d =>
    let spares := (List.range 4).filter fun i => !failed.contains (84 * d + 80 + i)
    let lost := (List.range 80).filter fun i => failed.contains (84 * d + i)
    lost.zipIdx.map fun (e : Nat × Nat) => ⟨80 * d + e.1, spares[e.2]?⟩

/-- The outcome of step i, 0 where it did not run. -/
def outcomeAt (rs : List StepResult) (i : Nat) : Nat := ((rs[i - 1]?).map (·.outcome)).getD 0

/-- The repair maps after a start (R409, R411): what a test found where its main method ran, else the maps stored. -/
def StartRecord.repaired (old : StartRecord) (rs : List StepResult) (failed : Failing) : StartRecord :=
  let rowsOf (sram : Bool) (step : Nat) : List RowRepair :=
    if outcomeAt rs step = 1 then rowRepairs (failed.rows.filter (·.sram == sram)) else old.rows.filter (·.fault.sram == sram)
  { old with
    rows := rowsOf false 4 ++ rowsOf true 5
    cores := if outcomeAt rs 6 = 1 then coreRepairs failed.cores else old.cores }

/-- The record a start writes: its outcomes, its counts of starts since each main method succeeded, and the repair maps in force. Steps 12 to 16, which
have no main method, count nothing. -/
def StartRecord.next (old : StartRecord) (rs : List StepResult) (failed : Failing) : StartRecord :=
  let r := old.repaired rs failed
  { r with
    seq := (old.seq + 1) % 2 ^ 64
    outcomes := Vector.ofFn fun i => outcomeAt rs (i.val + 1)
    counts := Vector.ofFn fun i =>
      ((rs[i.val]?).map (·.count)).getD (if i.val < 11 then Nat.min (old.counts[i] + 1) 255 else 0) }

/-- HEALTH after a start (R421). -/
def healthOf (rs : List StepResult) (dead ports : List Nat) : Word :=
  let halted := (rs.getLast?.map (·.outcome)) == some 5
  let ready := outcomeAt rs 11 == 1
  w64 ((if ready then 1 else 0) + (if rs.any (·.outcome == 3) then 2 else 0) +
    (if !ports.isEmpty || outcomeAt rs 10 == 3 || outcomeAt rs 10 == 5 then 16 else 0) + (if dead.isEmpty then 0 else 32) +
    (if outcomeAt rs 1 == 5 then 64 else 0) + if halted then 128 + rs.length * 2 ^ 20 else 0)

/-- Whether the hash of a copy holds (R410). -/
def StartRecord.intact (r : StartRecord) : Bool := r.hash == sha256 r.bytes

/-- Whether a start reads copy B: the copy whose hash holds, of two such the one with the higher sequence number. -/
def State.readsB (s : State) : Bool :=
  s.startB.intact && (!s.startA.intact || decide (s.startA.seq < s.startB.seq))

/-- The record a start reads; where neither hash holds, one of no start and no repair (DESIGN CHOICE, log 90). -/
def State.flashRecord (s : State) : StartRecord :=
  if s.readsB then s.startB else if s.startA.intact then s.startA else StartRecord.blank

/-- The trials of a start with step 1 as the boot ROM finds it: each method needs a copy of the firmware that it accepts (R411, R415). -/
def bootTrials (u : Fuses) (images : List Firmware) (trials : List StepTrial) : List StepTrial :=
  trials.zipIdx.map fun t => if t.2 = 0 then ⟨t.1.main && images[0]?.any u.accept, t.1.alt && images[1]?.any u.accept⟩ else t.1

/-- The images a start tries to load after step 1: the copy that it took, and those that are no copy of the first. -/
def bootImages (outcome : Nat) (images : List Firmware) : List Firmware :=
  if outcome = 1 then images.take 1 ++ images.drop 2 else if outcome = 3 then images.drop 1 else []

/-- The rows newly mapped to a spare, as the error log records them: kind 2 (R408); where the rule names no SRC and LOC, those of a row's own store (DESIGN
CHOICE, log 91). -/
def State.logSpares (s : State) (old new : StartRecord) : State :=
  (new.rows.filter fun x => !old.rows.contains x).foldl (fun s x =>
    s.logError (mcValue false (if x.fault.sram then 3 else 0) x.fault.row) x.fault.unit 2 0xFFFF) s

/-- The steps of a start as the record it read and the parts give them. -/
def State.startSteps (s : State) (trials : List StepTrial) (images : List Firmware) : List StepResult :=
  runSteps s.flashRecord 1 (bootTrials s.fuses images (trials.take 11))

/-- The whole start from a module without power: `images` holds the two copies of the firmware, then every other image. The record goes to the copy that
was not read. -/
def State.startUp (s : State) (trials : List StepTrial) (ports : List Nat) (failed : Failing) (images : List Firmware) : State :=
  let old := s.flashRecord
  let rs := s.startSteps trials images
  let boot := s.fuses.load (bootImages (outcomeAt rs 1) images)
  let new := (old.next rs failed).sealed
  let down := if outcomeAt rs 9 = 4 ∨ outcomeAt rs 9 = 0 then List.range 16 else ports
  let toB := !s.readsB
  let measured := boot.2.map fun (f : Firmware) => sha256 f.bytes
  let tree := if outcomeAt rs 8 = 1 then s.attest.tree + 1 else s.attest.tree
  let s1 := { s with
    power := true
    startA := if toB then s.startA else new
    startB := if toB then new else s.startB
    recordB := toB
    health := healthOf rs (if outcomeAt rs 6 = 0 then [] else new.deadCores) down
    attest := ⟨s.attest.index + 1024, tree, measured, []⟩
    fuses := boot.1
    fabric := { s.fabric with
      ports := Vector.ofFn fun i => ⟨!down.contains i.val, 0, 0⟩
      routes := Config.startRoutes } }
  s1.logSpares old new

/-- POWER_ON_START (R411). -/
def execPowerOnStart (trials : List StepTrial) (ports : List Nat) (failed : Failing) (images : List Firmware) (s : State) : Out :=
  .next (if s.power then s else s.startUp trials ports failed images)

/-- A start whose power is lost while its record is written: that copy's hash fails, and the older copy stays in force (R410). -/
def State.startCut (s : State) (trials : List StepTrial) (ports : List Nat) (failed : Failing) (images : List Firmware) : State :=
  let t := (s.startUp trials ports failed images).unpowered
  let cut (r : StartRecord) : StartRecord := { r with hash := [] }
  if t.recordB then { t with startB := cut t.startB, recordB := false } else { t with startA := cut t.startA, recordB := true }

/-! ### Attestation (R416) -/

/-- Bytes of a signature of the two-level device key: two LMS signatures and a public key of the parameter sets of R415. -/
def signatureLen : Nat := 5396

/-- ATTESTATION_REPORT_REQUEST (R416): the one-time index rises in flash before the signature is released. -/
def execAttestationReportRequest (nonce : List Byte) (s : State) : Out :=
  if nonce.length ≠ 32 then .next s
  else
    let i := s.attest.index
    let body := s.attest.measurements.flatten ++ s.startRecord.outcomes.toList.map (BitVec.ofNat 8) ++ leBytes 8 s.health.toNat ++ nonce
    .next { s with attest := ⟨i + 1, s.attest.tree, s.attest.measurements,
      body ++ (List.range signatureLen).map (Config.signatureByte s.attest.tree i body)⟩ }

end Sys2Proof.Machine
end

