-- ==== Sys2Proof/Machine/Debug.lean ====
section
/-! DEFINITION. Debug (R377 to R400): the freeze of a hart, stop units, steps and their reports, trigger units, and the instructions
BRK and TREC. -/
namespace Sys2Proof.Machine

/-! ### Halts that reach a hart (R378, R379) -/

/-- The order of two causes that meet a hart in one cycle (R379): watchpoint, trigger, request. -/
def causeRank (cause : Nat) : Nat := if cause = 1 then 7 else cause

/-- The halts of one cycle that hold a hart: those posted when the first of them was. -/
def haltsAt (h : Nat) (l : List HaltOrder) : List HaltOrder :=
  let mine := l.filter fun o => o.harts.contains h
  mine.filter fun o => mine.head?.any fun p => p.time == o.time

/-- The halt whose cause a hart's stop records. -/
def firstCause (h : Nat) (l : List HaltOrder) : Option HaltOrder :=
  (haltsAt h l).foldl (fun m o =>
    match m with
    | none => some o
    | some p => if causeRank o.cause < causeRank p.cause then some o else some p) none

/-- A hart removed from some halts, those of one cycle. -/
def dropHalts (h : Nat) (gone : List HaltOrder) (l : List HaltOrder) : List HaltOrder :=
  l.filterMap fun o =>
    let r := if gone.contains o then o.harts.filter (· != h) else o.harts
    if r.isEmpty then none else some { o with harts := r }

/-- A halt posted for a hart arrives (R378): from now until its stop the hart issues and commits nothing, and what it retires and performs is
counted (R333, R379). -/
def State.arrive (s : State) (h : Nat) : State :=
  let a := s.hart h
  if (firstCause h s.halts).isNone || a.frozen || a.run != .running || a.skid.isSome then s
  else (retireEnded a.queue.length s h).modHart h fun a => { a with skid := some (0, 0) }

/-- A halt reaches a hart (R378): a running one stops at the first point of R333 and is frozen; its wait is kept (R241). -/
def State.haltArrives (s : State) (h : Nat) : State :=
  match firstCause h s.halts with
  | none => s
  | some o =>
    let s1 := { s.arrive h with halts := dropHalts h (haltsAt h s.halts) s.halts }
    let a := s1.hart h
    if a.frozen || a.run != .running then s1
    else
      let r := s1.bringToStop h
      let k := (r.state.hart h).skid.getD (0, 0)
      if (r.state.hart h).run != .running then r.state else r.state.freeze h o.cause o.unit false a.stepping.isSome k.1 k.2

/-- HALT_ARRIVAL (R378). -/
def execHaltArrival (h : Nat) (s : State) : Out := .next (s.haltArrives h)

/-- DEBUG_HALT_REQUEST (R377). -/
def execDebugHaltRequest (w : Word) (s : State) : Out := .next (if bits w.toNat 31 28 = 1 then s.dreqPost w else s)
/-- DEBUG_RELEASE_REQUEST (R378). -/
def execDebugReleaseRequest (w : Word) (s : State) : Out := .next (if bits w.toNat 31 28 = 2 then s.dreqPost w else s)
/-- DEBUG_STEP_REQUEST (R383). -/
def execDebugStepRequest (w : Word) (s : State) : Out := .next (if bits w.toNat 31 28 = 3 then s.dreqPost w else s)

/-- DEBUG_INJECT (R380): a write of DINJ; the word is executed next. -/
def execDebugInject (h : Nat) (w : W32) (s : State) : Out :=
  .next (if h < Config.numHarts then s.hubWrite (512 * h + 0x18) (w.setWidth 64) else s)

/-! ### Stop units (R381, R382) -/

/-- Insertion by ELEM. -/
def insertUnit (u : Nat × StopUnit) : List (Nat × StopUnit) → List (Nat × StopUnit)
  | [] => [u]
  | v :: l => if u.2.elem < v.2.elem then u :: v :: l else v :: insertUnit u l

/-- The enabled units of a hart that name its next instruction, by ELEM; not one that has stopped the hart there, but for one whose entry is
still in the queue. -/
def Hart.stopUnits (a : Hart) : List (Nat × StopUnit) :=
  (a.stops.toList.zipIdx.filter fun u => u.1.on a a.pc && (!u.1.fired || a.queue.any fun e => e.pc == a.pc)).foldl
    (fun l u => insertUnit (u.2, u.1) l) []

/-- Elements from ESTART up to hi - 1 are performed and the hart stops there, frozen by a unit. -/
def QOp.stopInside (op : QOp) (s : State) (e : QEntry) (i n hi : Nat) : State :=
  let r := op.run (op.start s s.cur e) s.cur e e.startsAt hi
  match r.trap with
  | some t => op.trapWhole r.state e r.flags t
  | none =>
    if (r.state.h).vlNat < e.vl then op.retire r.state e r.flags
    else
      let s1 := (r.state.dropUses s.cur [e]).modH fun a => (op.stopUnit e { a with fctl := fctlSet a.fctl r.flags } hi).markFired i
      s1.freeze s.cur 2 i (s1.h.es == n) false 0 0

/-- The instruction completes, and the hart is frozen before the next one (R382). -/
def QOp.stopAfter (op : QOp) (s : State) (e : QEntry) (i : Nat) : State :=
  let s1 := op.whole s e
  if s1.h.sup ≠ s.h.sup ∨ s1.h.run ≠ .running then s1 else s1.freeze s.cur 2 i false false 0 0

/-- What a unit does at the instruction at the PC of the acting hart, whose queue is empty: none where it does not fire. -/
def State.fire (s : State) (i : Nat) (u : StopUnit) : Option State :=
  let a := s.h
  let at_ (s : State) : State := (s.modH (Hart.markFired i)).freeze s.cur 2 i true false 0 0
  match s.fetch s.cur with
  | (_, .trap _) => none
  | (s1, .word w) =>
    match (decode w).toOption.bind fun i => (entryOp i).map fun op => (i, op) with
    | none => if u.elem = 0 then some (at_ s1) else none
    | some (ins, op) =>
      if u.elem = 0 then (if op.elems && a.es != 0 then none else some (at_ s1))
      else if !op.elems || op.oneRow then none
      else
        let e := newEntry ins op a
        match op.check s1 s.cur e with
        | (_, some _) => none
        | (s2, none) =>
          match s2.issueTest s.cur op e with
          | .empty _ => none
          | .wait => some s
          | .go _ _ =>
            let r := op.noteIssue s s2 s.cur e
            let e1 := op.issuedAlone s2 e r.2
            if e1.len ≤ u.elem ∨ u.elem < e1.startsAt then none
            else
              let s3 := r.1
              let hi := op.grain s3 s.cur e1 u.elem
              if op.single e1 ∨ e1.len ≤ hi then some (op.stopAfter s3 e1 i) else some (op.stopInside s3 e1 i u.elem hi)

/-- STOP_UNIT_FIRE (R381): unit u of a hart fires where its instruction comes next, or on the oldest entry of its queue. -/
def State.unitFires (s : State) (h u : Nat) : State :=
  let a := s.hart h
  if !a.active? then s
  else
    match a.queue with
    | e :: _ =>
      match a.unitAhead e with
      | some v => if v.1 = u then s.fireQueued h e u v.2 else s
      | none => s
    | [] =>
      match a.stops.toList[u]? with
      | none => s
      | some v =>
        if a.wait.isNone && v.on a a.pc && !v.fired then
          match { s with cur := h }.fire u v with
          | some t => { t with cur := s.cur }
          | none => s
        else s

/-- STOP_UNIT_FIRE (R381). -/
def execStopUnitFire (h u : Nat) (s : State) : Out := .next (s.unitFires h u)

/-! ### Steps (R383, R384) -/

/-- Whether what a stepped instruction started has drained, besides its operations and its queue. -/
def State.stepDrained (s : State) (h : Nat) (i : Instr) : Bool :=
  let a := s.hart h
  let m := (s.camp (campOf h)).merge
  !((entryOp i).any (·.stores) && (s.core (coreOf h)).stores.any fun p => p.h == h) && match i with
  | .vscadd .. => a.lanes.all (· == 0)
  | .sqopen _ _ _ c => (s.stream h (bits (a.getX c).toNat 22 22)).all (·.done)
  | .mgclose _ => m.st != .closing
  | .mgdrain _ => m.st != .draining
  | _ => true

/-- STEP_REPORT (R384). -/
def State.stepReports (s : State) (h : Nat) : State :=
  let a := s.hart h
  match a.stepping with
  | some ⟨first, some i⟩ =>
    if a.queue.isEmpty && a.wait.isNone && !(s.ops.any fun o => o.h == h && decide (first ≤ o.id)) && s.stepDrained h i then
      s.freeze h 5 0 false false 0 0
    else s
  | _ => s

/-- STEP_REPORT (R384). -/
def execStepReport (h : Nat) (s : State) : Out := .next (s.stepReports h)

/-! ### Triggers (R387, R388) -/

/-- Whether a source is true in this tick. -/
def State.sourceTrue (s : State) (src cmp : Nat) : Bool :=
  match src / 16384 with
  | 2 => decide (cmp ≤ s.dtime.toNat)
  | 3 => false
  | _ => s.trigEvents.any fun e => e.toNat == src

/-- A TRIG record to every ring. -/
def State.trigRecord (s : State) (t : Nat) (opened closed : Bool) : State :=
  (List.range Config.numCamps).foldl (fun s p =>
    s.spoor p 3 0 0xFFFF 0 [w64 (t + (if opened then 256 else 0) + if closed then 512 else 0)]) s

/-- The halt that a window requests as it opens. -/
def Trigger.halt (g : Trigger) (t : Nat) (s : State) : State :=
  let c := g.cfg.toNat
  if bits c 22 20 = 2 then s.postHalt (domainHarts (bits c 19 17) (bits c 16 1)) 4 t else s

/-- A trigger unit replaced. -/
def State.setTrigger (s : State) (t : Nat) (g : Trigger) : State :=
  { s with triggers := Vector.ofFn fun i => if i.val = t then g else s.triggers[i] }

/-- One unit in one tick. -/
def State.trigTick (s : State) (t : Nat) : State :=
  match s.triggers.toList[t]? with
  | none => s
  | some g =>
    let c := g.cfg.toNat
    if !bit c 0 then s
    else
      let start := s.sourceTrue (bits c 63 48) g.cmp.toNat
      let stop := s.sourceTrue (bits c 47 32) g.cmp.toNat
      if g.isOpen then
        if stop then (s.setTrigger t { g with isOpen := false }).trigRecord t false true else s
      else if start then
        let g1 := { g with wins := (g.wins + 1) % 2 ^ 32, isOpen := !stop }
        g.halt t ((s.setTrigger t g1).trigRecord t true stop)
      else s

/-- What the windows open at some moment of this tick take: the Spoor kinds that they record, and in bit 8 whether gated samplers count; those open before
it, and those that open in it. -/
def State.liveKinds (before after : State) : BitVec 9 :=
  (List.range 8).foldl (fun m i =>
    match before.triggers.toList[i]?, after.triggers.toList[i]? with
    | some a, some b =>
      if a.isOpen || b.isOpen || a.wins != b.wins then m ||| BitVec.ofNat 9 (bits a.cfg.toNat 31 24 + 256 * bits a.cfg.toNat 23 23) else m
    | _, _ => m) 0

/-- The evaluation of a tick's events by every unit. -/
def State.evalTriggers (s : State) : State :=
  let t := (List.range 8).foldl State.trigTick s
  let live := State.liveKinds s t
  { t.closeGates (live.getLsbD 8) with
    trigEvents := []
    ticked := some live }

/-- TRIGGER_TICK (R388): the units evaluate this tick, once (R387). -/
def execTriggerTick (s : State) : Out := .next (if s.ticked.isSome then s else s.evalTriggers)

/-! ### BRK and TREC (R398, R399) -/

/-- BRK (R398). -/
def execBrk (n : BitVec 10) (s : State) : Out :=
  held s fun s =>
    let s1 := s.trigEvent 1 n.toNat
    if s.h.dctl.getLsbD 0 then .next ((s1.modH Hart.advance).freeze s.cur 6 0 false false 0 0)
    else if s.h.sup then commit s1 id
    else .next (s1.takeTrap s.cur ⟨causeBreakpoint, n.setWidth 64, none⟩ s.h.pc)

/-- TREC (R399). -/
def execTrec (a b : Reg) (s : State) : Out :=
  held s fun s => commit (s.spoor (campOf s.cur) 1 s.h.ctx (hartId s.cur) s.h.pc [s.h.getX a, s.h.getX b]) id

end Sys2Proof.Machine
end

