-- ==== Sys2Proof/Machine/HartEnd.lean ====
section
/-! DEFINITION. The end of a hart and what it ends in its camp and on the device (R119, R325). -/
namespace Sys2Proof.Machine

/-- A kernel changed. -/
def State.modKernel (s : State) (k : Nat) (f : Kernel → Kernel) : State :=
  { s with kernels := s.kernels.map fun (x : Kernel) => if x.id == k then f x else x }

/-- The last hart of a kernel in a camp has ended: its WAITING and READY tasks end WITHDRAWN with REASON 2, and its merge is freed. -/
def State.campEnd (s : State) (camp k : Nat) : State :=
  (s.withdrawAll camp ((s.camp camp).tasks.filter fun t => t.kernel == k && t.st != .running)).mergeRelease camp k

/-- Closes the open stream queues of a hart. -/
def State.closeStreams (s : State) (h : Nat) : State :=
  [0, 1].foldl (fun s q => match s.stream h q with
    | some v => s.streamClose h q v
    | none => s) s

/-- What a hart left open ends: its stream queues close, and a task it parked ends. -/
def State.endLeftover (k : Nat) (s : State) (l : Leftover) : State :=
  let s1 := l.streams.foldl (fun s v =>
    if v.done then s else s.writeObject l.h (some k) v.objVa v.objPa (engineStatus codeWITHDRAWN 0 v.fetched) v.pc) s
  match l.parked with
  | some p => s1.withdrawTask (campOf l.h) l.h p.id
  | none => s1

/-- The last hart of a kernel on the device has ended: its stream queues close, its collectives end WITHDRAWN with REASON 2, and its
parked records are discarded. -/
def State.deviceEnd (s : State) (k : Nat) : State :=
  let hs := (s.harts.filter fun e => e.2.kernel == some k).map (·.1)
  let s1 := hs.foldl (fun s h => (s.discardAll h).closeStreams h) s
  let s2 := (((s1.kernel k).map (·.left)).getD []).foldl (State.endLeftover k) (s1.modKernel k fun x => { x with left := [] })
  let parked := s2.ops.filter fun o => o.kernel == some k && o.parked.isSome
  let s3 := parked.foldl (fun s o => (s.endOp o (engineStatus codeWITHDRAWN 0 o.prog)).saveWrite o.h (0x1000 + 128 * o.parked.getD 0) [0]) s2
  let colls := s3.ops.filter fun o => o.kernel == some k && match o.kind with
    | .fcoll .. => true
    | _ => false
  colls.foldl (fun s o => s.endOp o (engineStatus codeWITHDRAWN 2 0)) s3

/-- The registers of a hart that has ended: no wait, no level armed, no link, no queue. -/
def Hart.finish (a : Hart) (bySup : Bool) : Hart :=
  { a with run := .ended, supEnded := bySup, loops := Vector.replicate 6 none, links := [], wait := none, queue := [], task := none,
           preempt := none, stepping := none }

/-- A hart ends (R119, R325); at supervisor privilege its tasks end WITHDRAWN and its parked records are discarded. -/
def State.endHart (s : State) (h : Nat) (bySup : Bool) : State :=
  let s := s.landOwn h
  let a := s.hart h
  let s1 := if bySup then
      let t := match a.task with
        | some id => s.withdrawTask (campOf h) h id
        | none => s
      t.discardAll h
    else
      match a.task.bind fun id => s.findTask (campOf h) id with
      | some t => (s.taskDone h t).1
      | none => s
  let s2 := s1.modHart h fun a => a.finish bySup
  match a.kernel with
  | none => s2
  | some k =>
    let s3 := s2.modKernel k fun x => { x with live := x.live.filter (· != h), supervisorEnded := x.supervisorEnded || bySup }
    match s3.kernel k with
    | none => s3
    | some x =>
      let s4 := if x.live.any (fun g => campOf g == campOf h) then s3 else s3.campEnd (campOf h) k
      if x.live.isEmpty then s4.deviceEnd k else s4

end Sys2Proof.Machine
end

