-- ==== Sys2Proof/Machine/Launch.lean ====
section
/-! DEFINITION. Launches (R316 to R325): context records, start records and kernel images, the conditions of R322, the lane allocator,
the start of a hart, and the end of a kernel. -/
namespace Sys2Proof.Machine

/-! ### Context records (R316) -/

/-- REG of a context (R420). -/
def State.registered (s : State) (ctx : Nat) : Bool := ctx != 0 && (s.context ctx).record.getLsbD 0

/-- BASE and LEN that a context gives hart slot i: 0xFF means 64i, and 0 means 64. -/
def slotWindow (pwin plen : Word) (i : Nat) : Nat × Nat :=
  let b := bits pwin.toNat (8 * i + 7) (8 * i)
  let l := bits plen.toNat (8 * i + 7) (8 * i)
  (if b = 255 then 64 * i else b, if l = 0 then 64 else l)

/-! ### Images (R317, R318) -/

/-- Bytes at a virtual address with the permissions of a kernel load, read at their homes, a page at a time; none where refused. -/
def readVirt : Nat → State → XCtx → Word → Nat → Option (List Byte)
  | 0, _, _, _, _ => some []
  | f + 1, s, x, va, n =>
    if n = 0 then some []
    else
      let k := Nat.min n (4096 - va.toNat % 4096)
      match (s.translate x va .load).1 with
      | .ok pa => if (s.badRange pa k).isSome || s.peerRefuses x.ctx pa k then none else (readVirt f s x (va + w64 k) (n - k)).map (s.homeBytes pa k ++ ·)
      | _ => none

/-- The report of an uncorrectable byte, or of an uncorrectable table entry, that such a read meets (R406). -/
def noteVirt : Nat → State → XCtx → Word → Nat → State
  | 0, s, _, _, _ => s
  | f + 1, s, x, va, n =>
    if n = 0 then s
    else
      let k := Nat.min n (4096 - va.toNat % 4096)
      match (s.translate x va .load).1 with
      | .ok pa => if (s.badRange pa k).isSome then s.noteBad va pa k else noteVirt f s x (va + w64 k) (n - k)
      | .uncorrectable e => s.logBad 0 va e 0xFFFF
      | .refused _ => s

/-- n bytes of an image. -/
def State.imageBytes (s : State) (x : XCtx) (va : Word) (n : Nat) : Option (List Byte) := readVirt (n / 4096 + 2) s x va n

/-- The kind and count of a loop level. -/
def levelOf (hdr : List Byte) (i : Nat) : Nat × Nat :=
  let w := fieldAt hdr (16 + 4 * i) 4
  (bits w 31 30, bits w 23 0)

/-- The greatest count of a kind (R318). -/
def levelMax (kind : Nat) : Nat := [2 ^ 24 - 1, 4, 80, 8].getD kind 0

/-- The levels of a header. -/
def headerLevels (hdr : List Byte) : List (Nat × Nat) := (List.range (Nat.min (fieldAt hdr 0 1) 6)).map (levelOf hdr)

/-- A header within R317 and R318. -/
def headerOkay (hdr : List Byte) : Bool :=
  let n := fieldAt hdr 0 1
  let ls := headerLevels hdr
  decide (1 ≤ n) && decide (n ≤ 6) && decide (fieldAt hdr 1 1 ≤ 3) && fieldAt hdr 2 6 == 0 && fieldAt hdr 8 8 % 4 == 0 &&
    (slice hdr (16 + 4 * n) (24 - 4 * n)).all (· == 0) && decide (fieldAt hdr 40 4 ≤ 32) &&
    ((List.range n).all fun i => bits (fieldAt hdr (16 + 4 * i) 4) 29 24 == 0) &&
    ls.all (fun l => decide (1 ≤ l.2) && decide (l.2 ≤ levelMax l.1)) &&
    [1, 2, 3].all fun k => decide ((ls.filter fun l => l.1 == k).length ≤ 1)

/-- Initial definition i of an image. -/
def imageDef (raw : List Byte) (i : Nat) : Nat × Def :=
  (fieldAt raw (24 * i) 1, ⟨w64 (fieldAt raw (24 * i + 8) 8), w64 (fieldAt raw (24 * i + 16) 8)⟩)

/-- A window of rows holds a definition (R15, R46). -/
def windowHolds (base len : Nat) (d : Def) : Bool :=
  let w := Nat.min (base + len) 256 - base
  d.wf && ((d.shape base).firstOutside w).isNone

/-! ### The conditions of R322 -/

/-- What a start record and its image give. -/
structure Launch where
  rec_ : List Byte
  ctxRec : List Byte
  hdr : Option (List Byte)
  defs : Option (List (Nat × Def))
  image : Option (List Byte)
  x : XCtx
  cpl : Option Nat

/-- A start record's IREG fields. -/
def Launch.ireg (l : Launch) (i : Nat) : Nat := fieldAt l.rec_ (40 + i) 1
/-- A start record's COUNT fields. -/
def Launch.given (l : Launch) (i : Nat) : Nat := fieldAt l.rec_ (16 + 4 * i) 4

/-- The levels with the counts in force, and their registers (R320). -/
def Launch.levels (l : Launch) : List (Nat × Nat × Nat) :=
  (headerLevels (l.hdr.getD [])).zipIdx.map fun p =>
    (p.1.1, if l.given p.2 = 0 then p.1.2 else l.given p.2, l.ireg p.2)

/-- The count of a spatial kind; an absent one counts as 1. -/
def countOf (levels : List (Nat × Nat × Nat)) (kind : Nat) : Nat := ((levels.find? fun l => l.1 == kind).map (·.2.1)).getD 1

/-- Reason 1. -/
def Launch.malformed (l : Launch) : Bool :=
  let r := l.rec_
  let iregs := ((List.range 6).map l.ireg).filter (· != 0)
  let n := (headerLevels (l.hdr.getD [])).length
  decide (4 ≤ fieldAt r 10 1) || decide (4 ≤ fieldAt r 11 1) || decide (8 < fieldAt r 12 1) || decide (2 ≤ fieldAt r 13 1) ||
    fieldAt r 14 2 != 0 || fieldAt r 46 2 != 0 || fieldAt r 56 8 != 0 ||
    iregs.any (fun i => decide (i < 18) || decide (31 < i)) || decide (iregs.eraseDups.length ≠ iregs.length) ||
    (l.hdr.isSome && (List.range 6).any fun i =>
      if n ≤ i then l.given i != 0 || l.ireg i != 0
      else decide (levelMax (((headerLevels (l.hdr.getD [])).getD i (0, 0)).1) < l.given i)) ||
    (fieldAt r 48 8 != 0 && l.cpl.isNone)

/-- PWIN and PLEN of a context record. -/
def Launch.pwin (l : Launch) : Word := w64 (fieldAt l.ctxRec 48 8)
def Launch.plen (l : Launch) : Word := w64 (fieldAt l.ctxRec 56 8)

/-- The hart slots whose windows hold every definition. -/
def Launch.fits (l : Launch) : List Nat :=
  [0, 1, 2, 3].filter fun i =>
    let w := slotWindow l.pwin l.plen i
    (l.defs.getD []).all fun d => windowHolds w.1 w.2 d.2

/-- Those whose windows hold the plane image as well: the usable slots (R324). -/
def Launch.usable (l : Launch) : List Nat :=
  l.fits.filter fun i =>
    let w := slotWindow l.pwin l.plen i
    decide (fieldAt (l.hdr.getD []) 44 4 ≤ 1024 * (Nat.min (w.1 + w.2) 256 - w.1))

/-- CAMPS of a context record. -/
def Launch.camps (l : Launch) : Nat := fieldAt l.ctxRec 8 8 % 2 ^ 40
/-- SHARE. -/
def Launch.share (l : Launch) : Nat := 2 ^ (fieldAt l.rec_ 10 1 % 4)

/-- Enabled cores of a die within some camps. -/
def State.coresIn (s : State) (camps die : Nat) : List Nat :=
  ((List.range 80).map (80 * die + ·)).filter fun c => s.coreEnabled c && bit camps (c / 16)

/-- Reason 5: the launch can never be granted (R324). -/
def State.neverGrantable (s : State) (l : Launch) : Bool :=
  let harts := countOf l.levels 1
  decide (16 < harts * l.share) || decide (l.usable.length < harts) ||
    decide (((List.range 8).filter fun d => decide (countOf l.levels 2 ≤ (s.coresIn l.camps d).length)).length < countOf l.levels 3)

/-- The TENT total of a camp over every registered context (R316). -/
def State.tentTotal (s : State) (camp : Nat) : Nat :=
  s.contexts.foldl (fun n e =>
    let r := s.ctxRecord e.1
    if s.registered e.1 && bit (fieldAt r 8 8) camp then n + fieldAt r 24 2 else n) 0

/-- Reason 7. -/
def State.ctxRefused (s : State) (queueCtx : Nat) (l : Launch) : Bool :=
  let ctx := fieldAt l.rec_ 8 2
  let slot := fieldAt l.ctxRec 26 2
  ctx != queueCtx || !s.registered ctx ||
    ((List.range 40).any fun c => bit l.camps c && decide (2048 < s.tentTotal c)) ||
    slot == 0 || decide (4095 < slot) || !(s.keySlot slot).isOpen ||
    (List.range 40).any fun c => bit (fieldAt l.ctxRec 16 8) c && !((s.camp c).mergeV && (s.camp c).mergeCtx == ctx)

/-- The first reason of R322 that holds, 0 where none does. -/
def State.launchReason (s : State) (queueCtx : Nat) (l : Launch) : Nat :=
  if l.malformed then 1
  else if !(l.hdr.any headerOkay && l.defs.isSome && l.image.isSome) then 2
  else if l.fits.isEmpty then 3
  else if l.usable.isEmpty then 4
  else if s.neverGrantable l then 5
  else if fieldAt l.rec_ 11 1 % 4 < fieldAt (l.hdr.getD []) 1 1 then 6
  else if s.ctxRefused queueCtx l then 7
  else 0

/-! ### Taking a record (R319 to R322) -/

/-- Where a completion word lies now (R321): none where CPL is 0, misaligned or refused. It is translated anew for each word, so that none is written
under a translation that a request removed (R357; DESIGN CHOICE, log 76). -/
def State.completionPa (s : State) (x : XCtx) (cpl : Word) : Option Nat :=
  if cpl = 0 ∨ cpl.toNat % 8 ≠ 0 then none
  else match (s.translate x cpl .store).1 with
    | .ok pa => some pa
    | _ => none

/-- Reads what a start record names: CPL, the header, the definitions and the plane image. -/
def State.readLaunch (s : State) (queueCtx : Nat) (r : List Byte) : Launch :=
  let cr := s.ctxRecord queueCtx
  let x : XCtx := ⟨Config.numHarts, false, w64 (fieldAt cr 0 8), queueCtx, fieldAt cr 26 2⟩
  let cpl := s.completionPa x (w64 (fieldAt r 48 8))
  let img := w64 (fieldAt r 0 8)
  let hdr := if img.toNat % 256 ≠ 0 then none else s.imageBytes x img 64
  let h := hdr.getD []
  let nd := fieldAt h 40 4
  let raw := if hdr.isNone ∨ 32 < nd then none else s.imageBytes x (img + w64 (fieldAt h 48 8)) (24 * nd)
  let defs := raw.bind fun l =>
    if (List.range nd).all fun i => decide (fieldAt l (24 * i) 1 < 32) && fieldAt l (24 * i + 1) 7 == 0 then
      some ((List.range nd).map (imageDef l)) else none
  let image := if hdr.isNone then none else s.imageBytes x (img + w64 (fieldAt h 56 8)) (fieldAt h 44 4)
  { rec_ := r, ctxRec := cr, hdr := hdr, defs := defs, image := image, x := x, cpl := cpl }

/-- The reports of what the launch unit's reads met: a context record, the header, the definitions, the plane image. -/
def State.noteLaunch (s : State) (l : Launch) : State :=
  let note (va : Word) (n : Nat) (s : State) : State := noteVirt (n / 4096 + 2) s l.x va n
  let img := w64 (fieldAt l.rec_ 0 8)
  let h := l.hdr.getD []
  let s1 := s.contexts.foldl (fun s e => if s.registered e.1 then s.noteBad 0 (e.2.record.toNat / 256 * 256) 256 else s) s
  let s2 := if l.hdr.isNone && img.toNat % 256 = 0 then note img 64 s1 else s1
  let s3 := if l.hdr.isSome && l.defs.isNone && decide (fieldAt h 40 4 ≤ 32) then note (img + w64 (fieldAt h 48 8)) (24 * fieldAt h 40 4) s2 else s2
  if l.hdr.isSome && l.image.isNone then note (img + w64 (fieldAt h 56 8)) (fieldAt h 44 4) s3 else s3

/-- The record that waits for the allocator. -/
def Launch.waiting (l : Launch) (ctx order since : Nat) : WaitingRecord :=
  { ctx := ctx, kimg := w64 (fieldAt l.rec_ 0 8), ser := bit (fieldAt l.rec_ 13 1) 0, share := l.share,
    vlceil := fieldAt l.rec_ 11 1 % 4, harts := countOf l.levels 1, cores := countOf l.levels 2, dies := countOf l.levels 3,
    entry := w64 (fieldAt l.rec_ 0 8) + w64 (fieldAt (l.hdr.getD []) 8 8),
    args := (List.range (fieldAt l.rec_ 12 1)).map fun i => w64 (fieldAt l.rec_ (64 + 8 * i) 8), levels := l.levels,
    defs := l.defs.getD [], image := l.image.getD [], cpl := w64 (fieldAt l.rec_ 48 8), tent := fieldAt l.ctxRec 24 2,
    nobj := fieldAt l.ctxRec 28 2,
    slots := [0, 1, 2, 3].map fun i => l.usable.contains i, x := l.x, camps := w64 l.camps, pwin := l.pwin, plen := l.plen,
    dlcap := w64 (fieldAt l.ctxRec 32 8), dlesc := fieldAt l.ctxRec 40 1, aged := false, stale := false, order := order, since := since }

/-- Writes a completion word of queue n, with release at host scope; where its home refuses it, ERR says that it could not be written (R420). -/
def State.launchWord (s : State) (n : Nat) (cpl : Option Nat) (v : Word) : State :=
  match cpl with
  | none => s
  | some pa =>
    let r := s.deviceStore false pa (leBytes 8 v.toNat)
    if r.2 then r.1 else r.1.setQueue n { r.1.queue n with err := true }

/-- Whether a record slot can be read: host or device memory with no uncorrectable data (R319). -/
def State.slotReadable (s : State) (pa : Nat) : Bool :=
  (match s.place pa with
    | .device _ => true
    | .host => true
    | _ => false) && (s.badRange pa 128).isNone

/-- The launch unit takes the next record of a queue: it drops it, fails it, or passes it to the allocator. -/
def State.takeRecord (s : State) (n : Nat) (q : HostQueue) : State :=
  let pa := q.base.toNat + 128 * (q.head.toNat % 2 ^ q.lcap.toNat)
  let p := q.posted.headD (s.arrivals, s.dtime.toNat)
  let rest := q.posted.drop 1
  if !s.slotReadable pa then
    (if s.entryRefused pa then s else s.noteBad 0 pa 128).setQueue n { q with head := q.head + 1, err := true, posted := rest, last := none }
  else
    let l := s.readLaunch q.ctx (s.homeBytes pa 128)
    let badCpl := fieldAt l.rec_ 48 8 ≠ 0 ∧ l.cpl.isNone
    let q1 := if badCpl then { q with err := true } else q
    let reason := s.launchReason q.ctx l
    let s1 := ((s.noteLaunch l).setQueue n { q1 with posted := rest }).launchWord n l.cpl pendingWord
    if reason = 0 then s1.setQueue n { s1.queue n with record := some (l.waiting q.ctx p.1 p.2) }
    else
      let s2 := s1.launchWord n l.cpl (status codeFAULTED (reason * 256))
      s2.setQueue n { s2.queue n with head := q.head + 1, last := none }

/-- START_RECORD_TAKE (R322). -/
def execStartRecordTake (q : Nat) (s : State) : Out :=
  let v := s.queue q
  if q < 64 ∧ v.en ∧ v.ctx ≠ 0 ∧ v.record.isNone ∧ v.head ≠ v.tail ∧ s.health.getLsbD 0 then .next (s.takeRecord q v) else .next s

/-- DOORBELL_WRITE (R319). -/
def execDoorbellWrite (q : Nat) (tail : W32) (s : State) : Out := .next (s.doorbell q tail)

/-! ### The allocator (R323, R324) -/

/-- Whether a hart slot is free: from the end of its hart on (R324). -/
def State.slotFree (s : State) (h : Nat) : Bool := (s.hart h).run != .running

/-- Share units in use on a core. -/
def State.unitsUsed (s : State) (core : Nat) : Nat :=
  [0, 1, 2, 3].foldl (fun n i => let a := s.hart (4 * core + i); if a.run = .running then n + a.share else n) 0

/-- The free usable slots of a core for a record. -/
def State.freeSlots (s : State) (r : WaitingRecord) (core : Nat) : List Nat :=
  [0, 1, 2, 3].filter fun i => r.slots.getD i false && s.slotFree (4 * core + i)

/-- Whether a core takes its harts of a record. -/
def State.coreTakes (s : State) (r : WaitingRecord) (core : Nat) : Bool :=
  decide (r.harts ≤ (s.freeSlots r core).length) && decide (s.unitsUsed core + r.harts * r.share ≤ 16)

/-- Whether a record is grantable. -/
def State.grantable (s : State) (r : WaitingRecord) : Bool :=
  decide (r.dies ≤ ((List.range 8).filter fun d =>
    decide (r.cores ≤ ((s.coresIn r.camps.toNat d).filter (s.coreTakes r)).length)).length)

/-- Whether a record is considered: its queue's previous record where SER is set (R320), and Badger's one kernel at a time (R394). -/
def State.considered (s : State) (q : HostQueue) (r : WaitingRecord) : Bool :=
  !(r.ser && q.last.any fun k => s.kernels.any (·.id == k)) &&
    !((s.context r.ctx).bdg && s.kernels.any (·.ctx == r.ctx))

/-- A record is aged once it has waited 1 ms. -/
def State.agedSince (s : State) (since : Nat) : Bool := decide (since + 1000000 ≤ s.dtime.toNat)

/-- Whether another waiting record goes before one: an aged one that arrived before it, taken or still in a queue in service, or one that can be
granted now. -/
def State.goesBefore (s : State) (n : Nat) (r : WaitingRecord) : Bool :=
  s.queues.any fun e => e.1 != n &&
    ((match e.2.record with
      | some o => decide (o.order < r.order) && (o.aged || s.agedSince o.since || (s.considered e.2 o && s.grantable o))
      | none => false) ||
    (e.2.en && e.2.ctx != 0 && e.2.posted.any fun p => decide (p.1 < r.order) && s.agedSince p.2))

/-- The chosen harts fill the record (R323): the dies, on each the cores, on each core the slots. -/
def State.placeOkay (s : State) (r : WaitingRecord) (place : List Nat) : Bool :=
  let cores := (place.map coreOf).eraseDups
  let dies := (place.map (· / 320)).eraseDups
  place.eraseDups.length == place.length && dies.length == r.dies &&
    place.all (fun h => decide (h < Config.numHarts)) &&
    dies.all (fun d => (cores.filter fun c => c / 80 == d).length == r.cores) &&
    cores.all fun c =>
      (s.coresIn r.camps.toNat (c / 80)).contains c && s.coreTakes r c &&
        (place.filter fun h => coreOf h == c).length == r.harts &&
        (place.filter fun h => coreOf h == c).all fun h => (s.freeSlots r c).contains (h % 4)

/-- The rank of a number among the distinct numbers of a list. -/
def rankIn (l : List Nat) (n : Nat) : Nat := (l.eraseDups.filter (· < n)).length

/-- A hart's index at a level kind (R323). -/
def indexAt (place : List Nat) (kind h : Nat) : Nat :=
  match kind with
  | 1 => rankIn (place.filter fun g => coreOf g == coreOf h) h
  | 2 => rankIn ((place.filter fun g => g / 320 == h / 320).map coreOf) (coreOf h)
  | _ => rankIn (place.map (· / 320)) (h / 320)

/-- The x registers of a hart at its start (R320). -/
def startRegs (r : WaitingRecord) (place : List Nat) (h : Nat) : Vector Word 32 :=
  Vector.ofFn fun i =>
    match r.levels.find? fun l => l.2.2 != 0 && l.2.2 == i.val with
    | some l => w64 (if l.1 = 0 then l.2.1 else indexAt place l.1 h)
    | none => if 10 ≤ i.val then r.args.getD (i.val - 10) 0 else 0

/-- The definition table of a hart at its start (R15). -/
def startDefs (l : List (Nat × Def)) : Vector Def 32 :=
  Vector.ofFn fun i => (l.foldl (fun o d => if d.1 = i.val then some d.2 else o) none).getD ⟨0, 0⟩

/-- A hart as a launch starts it (R39, R320, R348); the debug hub's registers stay. -/
def Hart.started (a : Hart) (h k : Nat) (r : WaitingRecord) (place : List Nat) : Hart :=
  let w := slotWindow r.pwin r.plen (h % 4)
  { Hart.reset h with
    run := .running
    kernel := some k
    x := startRegs r place h
    pc := canonical r.entry
    hstat := 0
    dlcap := r.dlcap
    dlesc := w64 r.dlesc
    pwbase := w64 w.1
    pwlen := w64 w.2
    pwctl := w64 (r.ctx * 65536 + 1)
    defs := startDefs r.defs
    grpCeil := r.vlceil
    satp := r.x.root
    ctx := r.ctx
    share := r.share
    dstat := a.dstat
    dskid := a.dskid
    dctl := a.dctl
    dinj := a.dinj
    stops := a.stops }

/-- The cells of a window at a start: the plane image from row 0 on, and 0 (R58). -/
def planeAt (c : Core) (base rows : Nat) (image : List Byte) : FMap W32 :=
  let kept := c.plane.filter fun e => decide (e.1 < 256 * base) || decide (256 * (base + rows) ≤ e.1)
  (chunks 4 ((image.length + 3) / 4) image).zipIdx.foldl (fun m v =>
    FMap.set (fun _ => 0) m (256 * base + v.2) (.ofNat 32 v.1)) kept

/-- A core as a start leaves it: the read-only buffer empty, a window of the plane written whole, its accumulator region 0 (R39, R152). -/
def Core.started (x : Core) (base rows : Nat) (image : List Byte) : Core :=
  let inPlane (k : Nat) : Bool := decide (256 * base ≤ k) && decide (k < 256 * (base + rows))
  let inAcc (k : Nat) : Bool := decide (128 * (base / 2) ≤ k) && decide (k < 128 * (base / 2 + rows / 2))
  { x with
    ro := []
    plane := planeAt x base rows image
    acc := x.acc.filter fun e => !inAcc e.1
    badPlane := x.badPlane.filter fun k => !inPlane k
    badAcc := x.badAcc.filter fun k => !inAcc k }

/-- What the ended hart of a slot left open goes to its kernel, where that has not ended. -/
def State.leaveSlot (s : State) (h : Nat) : State :=
  let a := s.hart h
  let l : Leftover := ⟨h, a.streams.toList.filterMap id, a.parkedTask⟩
  match a.kernel with
  | some k => if l.streams.isEmpty && l.parked.isNone then s else s.modKernel k fun x => { x with left := l :: x.left }
  | none => s

/-- A hart starts: the read-only buffer of its core is emptied, with an acquire at device scope (R235), and its window is filled. A halt that
holds the device reaches it at once (R378). -/
def State.startHart (s : State) (k : Nat) (r : WaitingRecord) (place : List Nat) (h : Nat) : State :=
  let c := coreOf h
  let w := slotWindow r.pwin r.plen (h % 4)
  let s1 := ((s.leaveSlot h).acquire c 4).modCore c fun x => x.started w.1 (Nat.min (w.1 + w.2) 256 - w.1) r.image
  let s2 := s1.modHart h fun a => a.started h k r place
  if s.fabric.held then s2.freeze h 1 0 false false 0 0 else s2

/-- The camps that hold some harts. -/
def campsOf (hs : List Nat) : List Nat := (hs.map campOf).eraseDups

/-- The kernel that a grant starts. -/
def WaitingRecord.kernel (r : WaitingRecord) (k queue : Nat) (place : List Nat) : Kernel :=
  { id := k, ctx := r.ctx, image := r.kimg, queue := queue, place := place, live := place, left := [], cpl := r.cpl, tent := r.tent,
    nobj := r.nobj,
    supervisorEnded := false, dirty := [], x := r.x }

/-- A record is granted whole (R324, R325); HEAD counts it where its queue has not been put into service anew since it was taken (R420). -/
def State.grant (s : State) (n : Nat) (r : WaitingRecord) (place : List Nat) : State :=
  let k := s.nextKernel
  let q := s.queue n
  let s1 := { s with
    nextKernel := k + 1
    kernels := s.kernels ++ [r.kernel k n place] }.setContext r.ctx { s.context r.ctx with keySlot := r.x.key, tent := r.tent, nobj := r.nobj }
  let s2 := s1.setQueue n { q with record := none, head := if r.stale then q.head else q.head + 1, last := some k }
  let s3 := place.foldl (fun s h => s.startHart k r place h) s2
  (campsOf place).foldl (fun s c => s.spoor c 6 r.ctx 0xFFFF 0 [r.kimg, w64 place.length]) s3

/-- LAUNCH_GRANT (R324). -/
def execLaunchGrant (q : Nat) (place : List Nat) (s : State) : Out :=
  .next (match (s.queue q).record with
    | some r => if s.considered (s.queue q) r && !s.goesBefore q r && s.placeOkay r place then s.grant q r place else s
    | none => s)

/-- RECORD_AGED (R324): 1 ms after its arrival. -/
def execRecordAged (q : Nat) (s : State) : Out :=
  .next (match (s.queue q).record with
    | some r =>
      if s.agedSince r.since then s.setQueue q { s.queue q with record := some { r with aged := true } } else s
    | none => s)

/-! ### The end of a kernel (R325) -/

/-- Whether every operation of a kernel has ended. -/
def State.kernelDone (s : State) (k : Kernel) : Bool :=
  k.live.isEmpty && !(s.ops.any fun o => o.kernel == some k.id) &&
    !s.cores.any fun e => e.2.adds.any fun p => p.kernel == some k.id

/-- The wide marks a kernel holds are released (R233). -/
def State.releaseMarks (s : State) (k : Nat) : State :=
  let left (l : List MarkHolder) : List MarkHolder := l.filter (· != .kernel k)
  { s with marks := s.marks.filterMap fun e => if (left e.2).isEmpty then none else some (e.1, left e.2) }

/-- Writes the word of a kernel that ends; where CPL is refused by then, its queue's ERR bit says that it could not be written (R420). -/
def State.finalWord (s : State) (k : Kernel) (v : Word) : State :=
  match s.completionPa k.x k.cpl with
  | some pa => s.launchWord k.queue (some pa) v
  | none => if k.cpl = 0 then s else s.setQueue k.queue { s.queue k.queue with err := true }

/-- KERNEL_END (R325, R395). -/
def State.endKernel (s : State) (k : Kernel) : State :=
  let s1 := (s.releaseMarks k.id).flushAll
  let s2 := s1.fold_ k (campsOf k.place)
  let word := if k.supervisorEnded then status codeWITHDRAWN 512 else status codeOK (k.place.length * 65536)
  let s3 := s2.finalWord k word
  { s3 with
    kernels := s3.kernels.filter fun x => x.id != k.id
    harts := s3.harts.map fun (e : Nat × Hart) => if e.2.kernel = some k.id then (e.1, { e.2 with kernel := none }) else e }

/-- A write of DGCTL that was held back takes effect once no kernel of the context is left (R393). -/
def State.dgctlLate (s : State) (ctx : Nat) : State :=
  match (s.context ctx).bdgPending with
  | some b => if s.kernels.any fun k => k.ctx == ctx then s else s.setContext ctx ((s.context ctx).applyBdg b)
  | none => s

/-- KERNEL_END (R325). -/
def execKernelEnd (k : Nat) (s : State) : Out :=
  .next (match s.kernel k with
    | some x => if s.kernelDone x then (s.endKernel x).dgctlLate x.ctx else s
    | none => s)

end Sys2Proof.Machine
end

