-- ==== Sys2Proof/Machine/ScalarFloat.lean ====
section
/-! DEFINITION. Scalar floating-point instructions (R106 to R108). -/
namespace Sys2Proof.Machine

/-- An operand's bit pattern: the low bits of its register (R24). -/
def fbits (f : FFmt) (v : Word) : Nat := v.toNat % 2 ^ f.width
/-- An operand's value. -/
def fval (f : FFmt) (v : Word) : FVal := fdecode f (fbits f v)

/-- A result with its flags: x[d] := the result, higher bits 0 (R24), and FCTL's flags set (R31). -/
def writeF (s : State) (d : Reg) (r : FRes) : Out :=
  commit s fun a => { a with fctl := fctlSet a.fctl r.2 }.setX d (w64 r.1)

/-- FADD, FSUB, FMUL and FDIV: one rounding in the mode the word selects. -/
def fbin (f : FFmt) (op : RMode → FFmt → FVal → FVal → FRes) (s : State) (d a b : Reg) (r : BitVec 5) : Out :=
  writeF s d (op (rmOfSelection s.h.fctl r.toNat) f (fval f (s.h.getX a)) (fval f (s.h.getX b)))

/-- FSQRT. -/
def fsqrtOp (f : FFmt) (s : State) (d a : Reg) (r : BitVec 5) : Out :=
  writeF s d (fsqrt (rmOfSelection s.h.fctl r.toNat) f (fval f (s.h.getX a)))

/-- FMIN and FMAX. -/
def fminmaxOp (mx : Bool) (f : FFmt) (s : State) (d a b : Reg) : Out :=
  writeF s d (fminmax mx f (fbits f (s.h.getX a)) (fbits f (s.h.getX b)))

/-- A truth result and its flags (R106, R107). -/
def fcmp (f : FFmt) (rel : FVal → FVal → Bool) (quiet : Bool) (s : State) (d a b : Reg) : Out :=
  let x := fval f (s.h.getX a)
  let y := fval f (s.h.getX b)
  writeF s d ((truth (rel x y)).toNat, if quiet then 0 else fsnan x ||| fsnan y)

/-- FCVT to a 64-bit integer between lo and hi (R67). -/
def fcvtToOp (f : FFmt) (lo hi : Int) (s : State) (d a : Reg) (r : BitVec 5) : Out :=
  let v := ftoInt (rmOfSelection s.h.fctl r.toNat) lo hi (fval f (s.h.getX a))
  writeF s d (wrapN 64 v.1, v.2)

/-- FCVT from a 64-bit integer. -/
def fcvtFromOp (f : FFmt) (signed : Bool) (s : State) (d a : Reg) (r : BitVec 5) : Out :=
  let v := s.h.getX a
  writeF s d (fofIntVal (rmOfSelection s.h.fctl r.toNat) f (if signed then v.toInt else v.toNat))

/-- FCVT from the float format of a code; a code outside 8 to 10 or the opcode's own raises ILLEGAL (R106). -/
def fcvtFloatOp (own : Nat) (i : Instr) (s : State) (d a : Reg) (r src : BitVec 5) : Out :=
  if src.toNat < 8 ∨ 10 < src.toNat ∨ src.toNat = own then illegal s i
  else writeF s d (fconvert (rmOfSelection s.h.fctl r.toNat) (ffmtOf own) (fval (ffmtOf src.toNat) (s.h.getX a)))

/-! ### The instructions -/

/-- FADD in f32 (R106). -/
def execFaddF32 (d a b : Reg) (r : BitVec 5) (s : State) : Out := fbin fmtF32 fadd s d a b r
/-- FSUB in f32 (R106). -/
def execFsubF32 (d a b : Reg) (r : BitVec 5) (s : State) : Out := fbin fmtF32 fsub s d a b r
/-- FMUL in f32 (R106). -/
def execFmulF32 (d a b : Reg) (r : BitVec 5) (s : State) : Out := fbin fmtF32 fmul s d a b r
/-- FDIV in f32 (R106). -/
def execFdivF32 (d a b : Reg) (r : BitVec 5) (s : State) : Out := fbin fmtF32 fdiv s d a b r
/-- FSQRT in f32 (R106). -/
def execFsqrtF32 (d a : Reg) (r : BitVec 5) (s : State) : Out := fsqrtOp fmtF32 s d a r
/-- FMIN in f32 (R106, R107). -/
def execFminF32 (d a b : Reg) (s : State) : Out := fminmaxOp false fmtF32 s d a b
/-- FMAX in f32 (R106, R107). -/
def execFmaxF32 (d a b : Reg) (s : State) : Out := fminmaxOp true fmtF32 s d a b
/-- FEQ in f32 (R106, R107). -/
def execFeqF32 (d a b : Reg) (s : State) : Out := fcmp fmtF32 feqv true s d a b
/-- FLT in f32 (R106, R107). -/
def execFltF32 (d a b : Reg) (s : State) : Out := fcmp fmtF32 fltv false s d a b
/-- FLE in f32 (R106, R107). -/
def execFleF32 (d a b : Reg) (s : State) : Out := fcmp fmtF32 (fun x y => fltv x y || feqv x y) false s d a b
/-- FCVT from f32 to i64 (R106, R67). -/
def execFcvtToI64F32 (d a : Reg) (r : BitVec 5) (s : State) : Out := fcvtToOp fmtF32 (-2 ^ 63) (2 ^ 63 - 1) s d a r
/-- FCVT from f32 to n64 (R106, R67). -/
def execFcvtToN64F32 (d a : Reg) (r : BitVec 5) (s : State) : Out := fcvtToOp fmtF32 0 (2 ^ 64 - 1) s d a r
/-- FCVT from i64 to f32 (R106). -/
def execFcvtFromI64F32 (d a : Reg) (r : BitVec 5) (s : State) : Out := fcvtFromOp fmtF32 true s d a r
/-- FCVT from n64 to f32 (R106). -/
def execFcvtFromN64F32 (d a : Reg) (r : BitVec 5) (s : State) : Out := fcvtFromOp fmtF32 false s d a r
/-- FCVT from another float to f32 (R106, R67). -/
def execFcvtFromFloatF32 (d a : Reg) (r src : BitVec 5) (s : State) : Out :=
  fcvtFloatOp 8 (.fcvtFromFloatF32 d a r src) s d a r src
/-- FADD in f16 (R106). -/
def execFaddF16 (d a b : Reg) (r : BitVec 5) (s : State) : Out := fbin fmtF16 fadd s d a b r
/-- FSUB in f16 (R106). -/
def execFsubF16 (d a b : Reg) (r : BitVec 5) (s : State) : Out := fbin fmtF16 fsub s d a b r
/-- FMUL in f16 (R106). -/
def execFmulF16 (d a b : Reg) (r : BitVec 5) (s : State) : Out := fbin fmtF16 fmul s d a b r
/-- FDIV in f16 (R106). -/
def execFdivF16 (d a b : Reg) (r : BitVec 5) (s : State) : Out := fbin fmtF16 fdiv s d a b r
/-- FSQRT in f16 (R106). -/
def execFsqrtF16 (d a : Reg) (r : BitVec 5) (s : State) : Out := fsqrtOp fmtF16 s d a r
/-- FMIN in f16 (R106, R107). -/
def execFminF16 (d a b : Reg) (s : State) : Out := fminmaxOp false fmtF16 s d a b
/-- FMAX in f16 (R106, R107). -/
def execFmaxF16 (d a b : Reg) (s : State) : Out := fminmaxOp true fmtF16 s d a b
/-- FEQ in f16 (R106, R107). -/
def execFeqF16 (d a b : Reg) (s : State) : Out := fcmp fmtF16 feqv true s d a b
/-- FLT in f16 (R106, R107). -/
def execFltF16 (d a b : Reg) (s : State) : Out := fcmp fmtF16 fltv false s d a b
/-- FLE in f16 (R106, R107). -/
def execFleF16 (d a b : Reg) (s : State) : Out := fcmp fmtF16 (fun x y => fltv x y || feqv x y) false s d a b
/-- FCVT from f16 to i64 (R106, R67). -/
def execFcvtToI64F16 (d a : Reg) (r : BitVec 5) (s : State) : Out := fcvtToOp fmtF16 (-2 ^ 63) (2 ^ 63 - 1) s d a r
/-- FCVT from f16 to n64 (R106, R67). -/
def execFcvtToN64F16 (d a : Reg) (r : BitVec 5) (s : State) : Out := fcvtToOp fmtF16 0 (2 ^ 64 - 1) s d a r
/-- FCVT from i64 to f16 (R106). -/
def execFcvtFromI64F16 (d a : Reg) (r : BitVec 5) (s : State) : Out := fcvtFromOp fmtF16 true s d a r
/-- FCVT from n64 to f16 (R106). -/
def execFcvtFromN64F16 (d a : Reg) (r : BitVec 5) (s : State) : Out := fcvtFromOp fmtF16 false s d a r
/-- FCVT from another float to f16 (R106, R67). -/
def execFcvtFromFloatF16 (d a : Reg) (r src : BitVec 5) (s : State) : Out :=
  fcvtFloatOp 9 (.fcvtFromFloatF16 d a r src) s d a r src
/-- FADD in bf16 (R106). -/
def execFaddBf16 (d a b : Reg) (r : BitVec 5) (s : State) : Out := fbin fmtBf16 fadd s d a b r
/-- FSUB in bf16 (R106). -/
def execFsubBf16 (d a b : Reg) (r : BitVec 5) (s : State) : Out := fbin fmtBf16 fsub s d a b r
/-- FMUL in bf16 (R106). -/
def execFmulBf16 (d a b : Reg) (r : BitVec 5) (s : State) : Out := fbin fmtBf16 fmul s d a b r
/-- FDIV in bf16 (R106). -/
def execFdivBf16 (d a b : Reg) (r : BitVec 5) (s : State) : Out := fbin fmtBf16 fdiv s d a b r
/-- FSQRT in bf16 (R106). -/
def execFsqrtBf16 (d a : Reg) (r : BitVec 5) (s : State) : Out := fsqrtOp fmtBf16 s d a r
/-- FMIN in bf16 (R106, R107). -/
def execFminBf16 (d a b : Reg) (s : State) : Out := fminmaxOp false fmtBf16 s d a b
/-- FMAX in bf16 (R106, R107). -/
def execFmaxBf16 (d a b : Reg) (s : State) : Out := fminmaxOp true fmtBf16 s d a b
/-- FEQ in bf16 (R106, R107). -/
def execFeqBf16 (d a b : Reg) (s : State) : Out := fcmp fmtBf16 feqv true s d a b
/-- FLT in bf16 (R106, R107). -/
def execFltBf16 (d a b : Reg) (s : State) : Out := fcmp fmtBf16 fltv false s d a b
/-- FLE in bf16 (R106, R107). -/
def execFleBf16 (d a b : Reg) (s : State) : Out := fcmp fmtBf16 (fun x y => fltv x y || feqv x y) false s d a b
/-- FCVT from bf16 to i64 (R106, R67). -/
def execFcvtToI64Bf16 (d a : Reg) (r : BitVec 5) (s : State) : Out := fcvtToOp fmtBf16 (-2 ^ 63) (2 ^ 63 - 1) s d a r
/-- FCVT from bf16 to n64 (R106, R67). -/
def execFcvtToN64Bf16 (d a : Reg) (r : BitVec 5) (s : State) : Out := fcvtToOp fmtBf16 0 (2 ^ 64 - 1) s d a r
/-- FCVT from i64 to bf16 (R106). -/
def execFcvtFromI64Bf16 (d a : Reg) (r : BitVec 5) (s : State) : Out := fcvtFromOp fmtBf16 true s d a r
/-- FCVT from n64 to bf16 (R106). -/
def execFcvtFromN64Bf16 (d a : Reg) (r : BitVec 5) (s : State) : Out := fcvtFromOp fmtBf16 false s d a r
/-- FCVT from another float to bf16 (R106, R67). -/
def execFcvtFromFloatBf16 (d a : Reg) (r src : BitVec 5) (s : State) : Out :=
  fcvtFloatOp 10 (.fcvtFromFloatBf16 d a r src) s d a r src
/-- FMADD (R108). -/
def execFmadd (d a b c : Reg) (f : BitVec 2) (r : BitVec 3) (s : State) : Out :=
  if f = 3 then illegal s (.fmadd d a b c f r)
  else
    let g := ffmtOf (8 + f.toNat)
    writeF s d (ffma (rmOfSelection s.h.fctl r.toNat) g (fval g (s.h.getX a)) (fval g (s.h.getX b)) (fval g (s.h.getX c)))

end Sys2Proof.Machine
end

