-- ==== Sys2Proof/Machine/System.lean ====
section
/-! DEFINITION. System instructions (R97, R119 to R124, R341). -/
namespace Sys2Proof.Machine

/-- EXIT (R119): the hart ends; at supervisor privilege it counts as ended by supervisor action. -/
def execExit (s : State) : Out := held s fun s => .next (s.endHart s.cur s.h.sup)

/-- SCALL (R120): like EXIT it waits for the hart's stores at their core-scope homes (R119). -/
def execScall (a : Reg) (s : State) : Out :=
  held s fun s => .next ((s.landOwn s.cur).takeTrap s.cur ⟨causeSyscall, s.h.getX a, none⟩ (s.h.pc + 4))

/-- TRET (R121). -/
def execTret (s : State) : Out :=
  held s fun s => if s.h.sup then .next (s.returnTrap s.cur) else illegal s .tret

/-- ICINV (R97, R98). -/
def execIcinv (a b : Reg) (s : State) : Out :=
  held s fun s => commit ((s.landOwn s.cur).icacheInvalidate s.cur (s.h.getX a) (s.h.getX b).toNat) id

/-- YIELD.P (R122, R341). -/
def execYieldP (s : State) : Out :=
  held s fun s => if s.h.sup then commit s id else .next ((s.landOwn s.cur).takeTrap s.cur ⟨causeYield, 0, none⟩ (s.h.pc + 4))

/-- XLINV (R124). -/
def execXlinv (a b : Reg) (s : State) : Out :=
  held s fun s =>
    if s.h.sup then
      commit (s.tlbDrop (coreOf s.cur) (s.h.getX a).toNat ((s.h.getX b).toNat % 65536) false) id
    else illegal s (.xlinv a b)

end Sys2Proof.Machine
end

