-- ==== Sys2Proof/Machine/Tasks.lean ====
section
/-! DEFINITION. The task instructions (R270 to R283): submission, TCHK and TDONE, and the re-test of summary words. -/
namespace Sys2Proof.Machine

/-! ### The descriptor (R271, R272) -/

/-- A descriptor's fields. -/
structure TaskDesc where
  entry : Nat
  abse : Nat
  wdraw : Nat
  cls : Nat
  nr : Nat
  nw : Nat
  flags : Nat
  reads : List (Nat × Nat × Nat)
  writes : List (Nat × Nat)
  deriving DecidableEq, Repr

/-- The fields of a descriptor's 256 bytes; only counted ranges are read. -/
def taskDesc (l : List Byte) : TaskDesc where
  entry := fieldAt l 0 8
  abse := fieldAt l 8 8
  wdraw := fieldAt l 16 8
  cls := fieldAt l 24 1
  nr := fieldAt l 25 1
  nw := fieldAt l 26 1
  flags := fieldAt l 27 1
  reads := (List.range (Nat.min (fieldAt l 25 1) 4)).map fun i =>
    (fieldAt l (64 + 32 * i) 8, fieldAt l (72 + 32 * i) 8, fieldAt l (80 + 32 * i) 8)
  writes := (List.range (Nat.min (fieldAt l 26 1) 2)).map fun j => (fieldAt l (192 + 32 * j) 8, fieldAt l (200 + 32 * j) 8)

/-- The bytes of a descriptor that must be zero for its counts, as (offset, bytes). -/
def TaskDesc.zeros (t : TaskDesc) : List (Nat × Nat) :=
  [(28, 36)] ++ ((List.range 4).map fun i => if i < t.nr then (88 + 32 * i, 8) else (64 + 32 * i, 32)) ++
    ((List.range 2).map fun j => if j < t.nw then (208 + 32 * j, 16) else (192 + 32 * j, 32))

/-- R272. -/
def TaskDesc.malformed (t : TaskDesc) (l : List Byte) : Bool :=
  let lens := t.reads.map (·.2.1) ++ t.writes.map (·.2)
  let sumas := t.reads.map (·.2.2)
  t.zeros.any (fun z => fieldAt l z.1 z.2 != 0) || decide (4 < t.nr) || decide (2 < t.nw) || decide (5 < t.cls) || decide (2 ≤ t.flags) ||
    t.entry == 0 || t.entry % 4 != 0 || t.abse % 4 != 0 || t.wdraw % 4 != 0 ||
    lens.any (fun n => n == 0 || decide (2 ^ 40 < n)) || t.writes.any (fun w => w.1 % 64 != 0 || w.2 % 64 != 0) ||
    sumas.any (· % 4 != 0) ||
    if t.cls = 0 then sumas.any (· != 0) || t.abse != 0 else t.abse == 0 || sumas.all (· == 0)

/-- Table entries of a task (R270). -/
def TaskDesc.entries (t : TaskDesc) : Nat := 1 + t.nr + t.nw

/-! ### Shares (R270, R316) -/

/-- Table entries that some tasks hold. -/
def tableEntries (l : List Task) : Nat := l.foldl (fun n t => n + 1 + t.reads.length + t.writes.length) 0

/-- Entries that the live tasks of a context hold in a camp. -/
def Camp.entriesUsed (c : Camp) (ctx : Nat) : Nat := tableEntries (c.tasks.filter fun t => t.ctx == ctx)

/-- Entries free for a hart of its context's share of the table of 2,048: none where it belongs to no kernel. -/
def State.freeEntries (s : State) (h : Nat) : Nat :=
  let a := s.hart h
  let c := s.camp (campOf h)
  if a.kernel.isNone then 0 else Nat.min (s.tent h - c.entriesUsed a.ctx) (2048 - tableEntries c.tasks)

/-! ### TSUB (R273) -/

/-- A task accepted: its dependences derived, the demands of its live producers raised, its object pending, its state entered. -/
def State.acceptTask (s : State) (h : Nat) (t : TaskDesc) (g0 g1 obj : Word) (pa k : Nat) : State :=
  let camp := campOf h
  let t0 : Task :=
    { id := s.nextTask, kernel := k, ctx := (s.hart h).ctx, x := s.xctx h, entry := w64 t.entry, abse := w64 t.abse, wdraw := w64 t.wdraw,
      cls := t.cls, keep := t.flags % 2 == 1, reads := t.reads.map fun r => (r.1, r.2.1), writes := t.writes,
      summaries := (t.reads.map (·.2.2)).filter (· != 0), g0 := g0, g1 := g1, obj := obj, objPa := pa, st := .waiting, path := 0,
      w := false, demand := 0, late := 0, raised := [] }
  let s1 := s.modCamp camp fun c => { c with tasks := c.tasks ++ [t0] }
  let ps := (((s1.camp camp).producers t0).filter fun p => !p.w).map (·.id)
  let s2 := s1.modCamp camp fun c =>
    { c with tasks := c.tasks.map fun u =>
        if u.id == t0.id then { u with raised := ps } else if ps.contains u.id then { u with demand := u.demand + 1 } else u }
  let s3 := { s2 with nextTask := s2.nextTask + 1 }.taskObject t0 pendingWord
  s3.unitSettle camp

/-- The step of TSUB at the unit. -/
def State.submit (s : State) (h : Nat) (t : TaskDesc) (g0 g1 obj : Word) (pa : Nat) : State :=
  let s1 := (s.pin (s.xctx h) obj .store).evict (coreOf h) (pa / 256)
  let free := s1.freeEntries h
  match (s1.hart h).kernel with
  | none => s1.unitStore pa (leBytes 8 (status codeFULL 0).toNat)
  | some k =>
    if free < t.entries then
      (s1.unitStore pa (leBytes 8 (status codeFULL (free * 256)).toNat)).noteDirty (some k) obj 8
    else s1.acceptTask h t g0 g1 obj pa k

/-- The probes of the summary words. -/
def probeSumas (h : Nat) : List Nat → State → State × Option Trap
  | [], s => (s, none)
  | a :: l, s =>
    if a = 0 then probeSumas h l s
    else match s.probeVa h (w64 a) .load with
      | (s, .error t) => (s, some t)
      | (s, .ok _) => probeSumas h l s

/-- TSUB (R273). -/
def execTsub (d a b c : Reg) (s : State) : Out :=
  held s fun s =>
    let o := s.h.getX d
    let p := s.h.getX a
    if d = 0 then raise s (engineArg 1 0)
    else match s.objCheck s.cur d o with
      | (s1, some t) => raiseIn s s1 t
      | (s1, none) =>
        if p.toNat % 256 ≠ 0 then raiseIn s s1 (engineArg 0 1)
        else match s1.loadRun (.hart s.cur) (s.xctx s.cur) p 256 with
          | (s2, _, some e) => let r := s2.accessTrap s.cur false p e; raiseIn s r.1 r.2
          | (s2, l, none) =>
            let t := taskDesc l
            if t.malformed l then raiseIn s s2 (engineArg 1 1)
            else match probeSumas s.cur (t.reads.map (·.2.2)) s2 with
              | (s3, some t) => raiseIn s s3 t
              | (s3, none) =>
                match s3.probeVa s.cur o .store with
                | (s4, .error t) => raiseIn s s4 t
                | (s4, .ok pa) =>
                  commit ((s4.releaseAt (coreOf s.cur) 2).submit s.cur t (s.h.getX b) (s.h.getX c) o pa) id

/-! ### TCHK and TDONE (R282, R283) -/

/-- The current task of a hart. -/
def State.currentTask (s : State) (h : Nat) : Option Task := (s.hart h).task.bind fun id => s.findTask (campOf h) id

/-- TCHK's word. -/
def State.taskWord (s : State) (h : Nat) : Word :=
  let late := match (s.hart h).kernel with
    | some k => FMap.get (fun _ => 0) (s.camp (campOf h)).tlate k
    | none => 0
  w64 (late % 2 ^ 32 * 2 ^ 32 + match s.currentTask h with
    | some t => t.path % 4 * 4 + 2 + (if t.w then 1 else 0)
    | none => 0)

/-- TCHK (R282). -/
def execTchk (d : Reg) (s : State) : Out :=
  held s fun s =>
    let v := s.taskWord s.cur
    match s.currentTask s.cur with
    | none => writeX s d v
    | some t =>
      if t.w && t.wdraw != 0 && t.path != 2 then
        .next ((s.modCamp (campOf s.cur) fun c => c.setTask { t with path := 2 }).modH fun a =>
          ((a.setX d v).setX 13 2).redirect t.wdraw)
      else writeX s d v

/-- TDONE (R283). -/
def execTdone (d : Reg) (s : State) : Out :=
  held s fun s =>
    match s.currentTask s.cur with
    | none => raise s ⟨causeTaskState, 0, none⟩
    | some t => let r := s.taskDone s.cur t; writeX r.1 d r.2

/-- TASK_SUMMARY_RETEST (R276). -/
def execTaskSummaryRetest (camp : Nat) (s : State) : Out :=
  .next ({ s with retests := s.retests.filter (· != camp) }.unitSettle camp)

end Sys2Proof.Machine
end

