-- ==== Sys2Proof/Machine/Dispatch.lean ====
section
/-! DEFINITION. The dispatch of the steps of the device: one arm per row of the opcode table. -/
namespace Sys2Proof.Machine

def exec (i : Instr) (s : State) : Host.Outcome State Fault Refusal :=
  match i with
  | .add d a b => Sys2Proof.Machine.execAdd d a b s
  | .sub d a b => Sys2Proof.Machine.execSub d a b s
  | .and d a b => Sys2Proof.Machine.execAnd d a b s
  | .or d a b => Sys2Proof.Machine.execOr d a b s
  | .xor d a b => Sys2Proof.Machine.execXor d a b s
  | .sll d a b => Sys2Proof.Machine.execSll d a b s
  | .srl d a b => Sys2Proof.Machine.execSrl d a b s
  | .sra d a b => Sys2Proof.Machine.execSra d a b s
  | .slt d a b => Sys2Proof.Machine.execSlt d a b s
  | .sltu d a b => Sys2Proof.Machine.execSltu d a b s
  | .min d a b => Sys2Proof.Machine.execMin d a b s
  | .max d a b => Sys2Proof.Machine.execMax d a b s
  | .minu d a b => Sys2Proof.Machine.execMinu d a b s
  | .maxu d a b => Sys2Proof.Machine.execMaxu d a b s
  | .mul d a b => Sys2Proof.Machine.execMul d a b s
  | .mulh d a b => Sys2Proof.Machine.execMulh d a b s
  | .mulhu d a b => Sys2Proof.Machine.execMulhu d a b s
  | .div d a b => Sys2Proof.Machine.execDiv d a b s
  | .divu d a b => Sys2Proof.Machine.execDivu d a b s
  | .rem d a b => Sys2Proof.Machine.execRem d a b s
  | .remu d a b => Sys2Proof.Machine.execRemu d a b s
  | .clz d a => Sys2Proof.Machine.execClz d a s
  | .ctz d a => Sys2Proof.Machine.execCtz d a s
  | .cpop d a => Sys2Proof.Machine.execCpop d a s
  | .sel d a b c => Sys2Proof.Machine.execSel d a b c s
  | .addi d a im => Sys2Proof.Machine.execAddi d a im s
  | .andi d a im => Sys2Proof.Machine.execAndi d a im s
  | .ori d a im => Sys2Proof.Machine.execOri d a im s
  | .xori d a im => Sys2Proof.Machine.execXori d a im s
  | .slti d a im => Sys2Proof.Machine.execSlti d a im s
  | .sltiu d a im => Sys2Proof.Machine.execSltiu d a im s
  | .slli d a sh => Sys2Proof.Machine.execSlli d a sh s
  | .srli d a sh => Sys2Proof.Machine.execSrli d a sh s
  | .srai d a sh => Sys2Proof.Machine.execSrai d a sh s
  | .lui d im => Sys2Proof.Machine.execLui d im s
  | .auipc d im => Sys2Proof.Machine.execAuipc d im s
  | .faddF32 d a b r => Sys2Proof.Machine.execFaddF32 d a b r s
  | .fsubF32 d a b r => Sys2Proof.Machine.execFsubF32 d a b r s
  | .fmulF32 d a b r => Sys2Proof.Machine.execFmulF32 d a b r s
  | .fdivF32 d a b r => Sys2Proof.Machine.execFdivF32 d a b r s
  | .fsqrtF32 d a r => Sys2Proof.Machine.execFsqrtF32 d a r s
  | .fminF32 d a b => Sys2Proof.Machine.execFminF32 d a b s
  | .fmaxF32 d a b => Sys2Proof.Machine.execFmaxF32 d a b s
  | .feqF32 d a b => Sys2Proof.Machine.execFeqF32 d a b s
  | .fltF32 d a b => Sys2Proof.Machine.execFltF32 d a b s
  | .fleF32 d a b => Sys2Proof.Machine.execFleF32 d a b s
  | .fcvtToI64F32 d a r => Sys2Proof.Machine.execFcvtToI64F32 d a r s
  | .fcvtToN64F32 d a r => Sys2Proof.Machine.execFcvtToN64F32 d a r s
  | .fcvtFromI64F32 d a r => Sys2Proof.Machine.execFcvtFromI64F32 d a r s
  | .fcvtFromN64F32 d a r => Sys2Proof.Machine.execFcvtFromN64F32 d a r s
  | .fcvtFromFloatF32 d a r sh => Sys2Proof.Machine.execFcvtFromFloatF32 d a r sh s
  | .faddF16 d a b r => Sys2Proof.Machine.execFaddF16 d a b r s
  | .fsubF16 d a b r => Sys2Proof.Machine.execFsubF16 d a b r s
  | .fmulF16 d a b r => Sys2Proof.Machine.execFmulF16 d a b r s
  | .fdivF16 d a b r => Sys2Proof.Machine.execFdivF16 d a b r s
  | .fsqrtF16 d a r => Sys2Proof.Machine.execFsqrtF16 d a r s
  | .fminF16 d a b => Sys2Proof.Machine.execFminF16 d a b s
  | .fmaxF16 d a b => Sys2Proof.Machine.execFmaxF16 d a b s
  | .feqF16 d a b => Sys2Proof.Machine.execFeqF16 d a b s
  | .fltF16 d a b => Sys2Proof.Machine.execFltF16 d a b s
  | .fleF16 d a b => Sys2Proof.Machine.execFleF16 d a b s
  | .fcvtToI64F16 d a r => Sys2Proof.Machine.execFcvtToI64F16 d a r s
  | .fcvtToN64F16 d a r => Sys2Proof.Machine.execFcvtToN64F16 d a r s
  | .fcvtFromI64F16 d a r => Sys2Proof.Machine.execFcvtFromI64F16 d a r s
  | .fcvtFromN64F16 d a r => Sys2Proof.Machine.execFcvtFromN64F16 d a r s
  | .fcvtFromFloatF16 d a r sh => Sys2Proof.Machine.execFcvtFromFloatF16 d a r sh s
  | .faddBf16 d a b r => Sys2Proof.Machine.execFaddBf16 d a b r s
  | .fsubBf16 d a b r => Sys2Proof.Machine.execFsubBf16 d a b r s
  | .fmulBf16 d a b r => Sys2Proof.Machine.execFmulBf16 d a b r s
  | .fdivBf16 d a b r => Sys2Proof.Machine.execFdivBf16 d a b r s
  | .fsqrtBf16 d a r => Sys2Proof.Machine.execFsqrtBf16 d a r s
  | .fminBf16 d a b => Sys2Proof.Machine.execFminBf16 d a b s
  | .fmaxBf16 d a b => Sys2Proof.Machine.execFmaxBf16 d a b s
  | .feqBf16 d a b => Sys2Proof.Machine.execFeqBf16 d a b s
  | .fltBf16 d a b => Sys2Proof.Machine.execFltBf16 d a b s
  | .fleBf16 d a b => Sys2Proof.Machine.execFleBf16 d a b s
  | .fcvtToI64Bf16 d a r => Sys2Proof.Machine.execFcvtToI64Bf16 d a r s
  | .fcvtToN64Bf16 d a r => Sys2Proof.Machine.execFcvtToN64Bf16 d a r s
  | .fcvtFromI64Bf16 d a r => Sys2Proof.Machine.execFcvtFromI64Bf16 d a r s
  | .fcvtFromN64Bf16 d a r => Sys2Proof.Machine.execFcvtFromN64Bf16 d a r s
  | .fcvtFromFloatBf16 d a r sh => Sys2Proof.Machine.execFcvtFromFloatBf16 d a r sh s
  | .fmadd d a b c f r => Sys2Proof.Machine.execFmadd d a b c f r s
  | .lb d a im => Sys2Proof.Machine.execLb d a im s
  | .lh d a im => Sys2Proof.Machine.execLh d a im s
  | .lw d a im => Sys2Proof.Machine.execLw d a im s
  | .ld d a im => Sys2Proof.Machine.execLd d a im s
  | .lbu d a im => Sys2Proof.Machine.execLbu d a im s
  | .lhu d a im => Sys2Proof.Machine.execLhu d a im s
  | .sb d a im => Sys2Proof.Machine.execSb d a im s
  | .sh d a im => Sys2Proof.Machine.execSh d a im s
  | .sw d a im => Sys2Proof.Machine.execSw d a im s
  | .sd d a im => Sys2Proof.Machine.execSd d a im s
  | .beq a b o => Sys2Proof.Machine.execBeq a b o s
  | .bne a b o => Sys2Proof.Machine.execBne a b o s
  | .blt a b o => Sys2Proof.Machine.execBlt a b o s
  | .bge a b o => Sys2Proof.Machine.execBge a b o s
  | .jal d o => Sys2Proof.Machine.execJal d o s
  | .jalr d a im => Sys2Proof.Machine.execJalr d a im s
  | .crr d n => Sys2Proof.Machine.execCrr d n s
  | .crw d a n => Sys2Proof.Machine.execCrw d a n s
  | .crs d a n => Sys2Proof.Machine.execCrs d a n s
  | .crc d a n => Sys2Proof.Machine.execCrc d a n s
  | .exit => Sys2Proof.Machine.execExit s
  | .scall a => Sys2Proof.Machine.execScall a s
  | .tret => Sys2Proof.Machine.execTret s
  | .icinv a b => Sys2Proof.Machine.execIcinv a b s
  | .yieldP => Sys2Proof.Machine.execYieldP s
  | .xlinv a b => Sys2Proof.Machine.execXlinv a b s
  | .loop a b o => Sys2Proof.Machine.execLoop a b o s
  | .vaddVv d a b f y x k => Sys2Proof.Machine.execVaddVv d a b f y x k s
  | .vaddVx d a b f x k => Sys2Proof.Machine.execVaddVx d a b f x k s
  | .vsubVv d a b f y x k => Sys2Proof.Machine.execVsubVv d a b f y x k s
  | .vsubVx d a b f x k => Sys2Proof.Machine.execVsubVx d a b f x k s
  | .vmulVv d a b f y x k => Sys2Proof.Machine.execVmulVv d a b f y x k s
  | .vmulVx d a b f x k => Sys2Proof.Machine.execVmulVx d a b f x k s
  | .vfmaVv d a b f y x k => Sys2Proof.Machine.execVfmaVv d a b f y x k s
  | .vfmaVx d a b f x k => Sys2Proof.Machine.execVfmaVx d a b f x k s
  | .vmin d a b f y x k => Sys2Proof.Machine.execVmin d a b f y x k s
  | .vmax d a b f y x k => Sys2Proof.Machine.execVmax d a b f y x k s
  | .vdiv d a b f y x k => Sys2Proof.Machine.execVdiv d a b f y x k s
  | .vsqrt d a f x k => Sys2Proof.Machine.execVsqrt d a f x k s
  | .vcmpeqVv d a b f y x k => Sys2Proof.Machine.execVcmpeqVv d a b f y x k s
  | .vcmpneVv d a b f y x k => Sys2Proof.Machine.execVcmpneVv d a b f y x k s
  | .vcmpltVv d a b f y x k => Sys2Proof.Machine.execVcmpltVv d a b f y x k s
  | .vcmpleVv d a b f y x k => Sys2Proof.Machine.execVcmpleVv d a b f y x k s
  | .vcmpeqVx d a b f x k => Sys2Proof.Machine.execVcmpeqVx d a b f x k s
  | .vcmpneVx d a b f x k => Sys2Proof.Machine.execVcmpneVx d a b f x k s
  | .vcmpltVx d a b f x k => Sys2Proof.Machine.execVcmpltVx d a b f x k s
  | .vcmpleVx d a b f x k => Sys2Proof.Machine.execVcmpleVx d a b f x k s
  | .vand d a b w y x k => Sys2Proof.Machine.execVand d a b w y x k s
  | .vor d a b w y x k => Sys2Proof.Machine.execVor d a b w y x k s
  | .vxor d a b w y x k => Sys2Proof.Machine.execVxor d a b w y x k s
  | .vandn d a b w y x k => Sys2Proof.Machine.execVandn d a b w y x k s
  | .vorn d a b w y x k => Sys2Proof.Machine.execVorn d a b w y x k s
  | .vsll d a b sh w x k => Sys2Proof.Machine.execVsll d a b sh w x k s
  | .vsrl d a b sh w x k => Sys2Proof.Machine.execVsrl d a b sh w x k s
  | .vsra d a b sh w x k => Sys2Proof.Machine.execVsra d a b sh w x k s
  | .vsel d a b w y x k => Sys2Proof.Machine.execVsel d a b w y x k s
  | .vclamp d a b f y x k => Sys2Proof.Machine.execVclamp d a b f y x k s
  | .vcvt d a f x k sh => Sys2Proof.Machine.execVcvt d a f x k sh s
  | .vcvtsn d a b f x k => Sys2Proof.Machine.execVcvtsn d a b f x k s
  | .vcvtsw d a b f y x k => Sys2Proof.Machine.execVcvtsw d a b f y x k s
  | .vscale d a f x k => Sys2Proof.Machine.execVscale d a f x k s
  | .vredsum d a b t y x k => Sys2Proof.Machine.execVredsum d a b t y x k s
  | .vredmax d a b t y x k => Sys2Proof.Machine.execVredmax d a b t y x k s
  | .vredmin d a b t y x k => Sys2Proof.Machine.execVredmin d a b t y x k s
  | .vcompress d a w x k => Sys2Proof.Machine.execVcompress d a w x k s
  | .vexpand d a w x k => Sys2Proof.Machine.execVexpand d a w x k s
  | .vconfl d a f x k => Sys2Proof.Machine.execVconfl d a f x k s
  | .vslideup d a b sh w x k => Sys2Proof.Machine.execVslideup d a b sh w x k s
  | .vslidedn d a b sh w x k => Sys2Proof.Machine.execVslidedn d a b sh w x k s
  | .vmv d a w x k => Sys2Proof.Machine.execVmv d a w x k s
  | .vbcast d b w => Sys2Proof.Machine.execVbcast d b w s
  | .vgetx d a b w => Sys2Proof.Machine.execVgetx d a b w s
  | .vputx d a b w => Sys2Proof.Machine.execVputx d a b w s
  | .kand d a b => Sys2Proof.Machine.execKand d a b s
  | .kor d a b => Sys2Proof.Machine.execKor d a b s
  | .kxor d a b => Sys2Proof.Machine.execKxor d a b s
  | .kandn d a b => Sys2Proof.Machine.execKandn d a b s
  | .knot d a => Sys2Proof.Machine.execKnot d a s
  | .kpop d a => Sys2Proof.Machine.execKpop d a s
  | .kfirst d a => Sys2Proof.Machine.execKfirst d a s
  | .nawait d a b => Sys2Proof.Machine.execNawait d a b s
  | .vidx d sh t f => Sys2Proof.Machine.execVidx d sh t f s
  | .setvl d a g l f => Sys2Proof.Machine.execSetvl d a g l f s
  | .vdef d a b => Sys2Proof.Machine.execVdef d a b s
  | .vdgeta d a => Sys2Proof.Machine.execVdgeta d a s
  | .vdgetb d a => Sys2Proof.Machine.execVdgetb d a s
  | .mma a v f o t => Sys2Proof.Machine.execMma a v f o t s
  | .mmas a v f o t => Sys2Proof.Machine.execMmas a v f o t s
  | .mmag a v f o t => Sys2Proof.Machine.execMmag a v f o t s
  | .aczero o e => Sys2Proof.Machine.execAczero o e s
  | .acrd d f o => Sys2Proof.Machine.execAcrd d f o s
  | .acwr a f o => Sys2Proof.Machine.execAcwr a f o s
  | .tilerel a => Sys2Proof.Machine.execTilerel a s
  | .tilewait d a b c => Sys2Proof.Machine.execTilewait d a b c s
  | .vld d a im w => Sys2Proof.Machine.execVld d a im w s
  | .vst d a im w => Sys2Proof.Machine.execVst d a im w s
  | .vldm d a w k => Sys2Proof.Machine.execVldm d a w k s
  | .vlds d a b w k => Sys2Proof.Machine.execVlds d a b w k s
  | .vldi d a b w y k => Sys2Proof.Machine.execVldi d a b w y k s
  | .vldiw d a b w y k => Sys2Proof.Machine.execVldiw d a b w y k s
  | .vldro d a w k => Sys2Proof.Machine.execVldro d a w k s
  | .vstm d a w k => Sys2Proof.Machine.execVstm d a w k s
  | .vsts d a b w k => Sys2Proof.Machine.execVsts d a b w k s
  | .vsti d a b w y k => Sys2Proof.Machine.execVsti d a b w y k s
  | .vstiw d a b w y k => Sys2Proof.Machine.execVstiw d a b w y k s
  | .sqopen d a b c => Sys2Proof.Machine.execSqopen d a b c s
  | .sqclose d a => Sys2Proof.Machine.execSqclose d a s
  | .sqpop d a b t n => Sys2Proof.Machine.execSqpop d a b t n s
  | .vldz d a b f => Sys2Proof.Machine.execVldz d a b f s
  | .tfetch d a b c => Sys2Proof.Machine.execTfetch d a b c s
  | .acopy d a b c => Sys2Proof.Machine.execAcopy d a b c s
  | .tdrain d a b c => Sys2Proof.Machine.execTdrain d a b c s
  | .bankopSplit d a b c => Sys2Proof.Machine.execBankopSplit d a b c s
  | .bankopJoin d a b c => Sys2Proof.Machine.execBankopJoin d a b c s
  | .bankopXp8 d a b c => Sys2Proof.Machine.execBankopXp8 d a b c s
  | .bankopXp16 d a b c => Sys2Proof.Machine.execBankopXp16 d a b c s
  | .bankopDenc d a b c => Sys2Proof.Machine.execBankopDenc d a b c s
  | .bankopDdec d a b c => Sys2Proof.Machine.execBankopDdec d a b c s
  | .bankopZsum d a b c => Sys2Proof.Machine.execBankopZsum d a b c s
  | .fread d a b c => Sys2Proof.Machine.execFread d a b c s
  | .aadd d a b w sh o => Sys2Proof.Machine.execAadd d a b w sh o s
  | .aand d a b w sh o => Sys2Proof.Machine.execAand d a b w sh o s
  | .aor d a b w sh o => Sys2Proof.Machine.execAor d a b w sh o s
  | .axor d a b w sh o => Sys2Proof.Machine.execAxor d a b w sh o s
  | .amin d a b w sh o => Sys2Proof.Machine.execAmin d a b w sh o s
  | .amax d a b w sh o => Sys2Proof.Machine.execAmax d a b w sh o s
  | .aminu d a b w sh o => Sys2Proof.Machine.execAminu d a b w sh o s
  | .amaxu d a b w sh o => Sys2Proof.Machine.execAmaxu d a b w sh o s
  | .aswap d a b w sh o => Sys2Proof.Machine.execAswap d a b w sh o s
  | .acas d a b c sh o => Sys2Proof.Machine.execAcas d a b c sh o s
  | .vgl d a b w y k => Sys2Proof.Machine.execVgl d a b w y k s
  | .vglw d a b w y k => Sys2Proof.Machine.execVglw d a b w y k s
  | .vsc d a b w y k => Sys2Proof.Machine.execVsc d a b w y k s
  | .vscw d a b w y k => Sys2Proof.Machine.execVscw d a b w y k s
  | .vscadd d a b f y k => Sys2Proof.Machine.execVscadd d a b f y k s
  | .fence d a b sh => Sys2Proof.Machine.execFence d a b sh s
  | .bar d a b sh => Sys2Proof.Machine.execBar d a b sh s
  | .waita d a b sh => Sys2Proof.Machine.execWaita d a b sh s
  | .vwaita d a b sh => Sys2Proof.Machine.execVwaita d a b sh s
  | .phend d b sh => Sys2Proof.Machine.execPhend d b sh s
  | .twaitTake d b => Sys2Proof.Machine.execTwaitTake d b s
  | .twait d a b => Sys2Proof.Machine.execTwait d a b s
  | .mgwait d a b => Sys2Proof.Machine.execMgwait d a b s
  | .qsend d a b sh => Sys2Proof.Machine.execQsend d a b sh s
  | .qrecv d a b sh => Sys2Proof.Machine.execQrecv d a b sh s
  | .lsync => Sys2Proof.Machine.execLsync s
  | .roinv => Sys2Proof.Machine.execRoinv s
  | .cmread d a => Sys2Proof.Machine.execCmread d a s
  | .tsub d a b c => Sys2Proof.Machine.execTsub d a b c s
  | .tchk d => Sys2Proof.Machine.execTchk d s
  | .tdone d => Sys2Proof.Machine.execTdone d s
  | .mgopen d a => Sys2Proof.Machine.execMgopen d a s
  | .mgclose d => Sys2Proof.Machine.execMgclose d s
  | .mgdrain d => Sys2Proof.Machine.execMgdrain d s
  | .mgpush d a b y x k => Sys2Proof.Machine.execMgpush d a b y x k s
  | .fgather d a b c => Sys2Proof.Machine.execFgather d a b c s
  | .freduce d a b c => Sys2Proof.Machine.execFreduce d a b c s
  | .fflag d a b c => Sys2Proof.Machine.execFflag d a b c s
  | .fcoll d a => Sys2Proof.Machine.execFcoll d a s
  | .brk n => Sys2Proof.Machine.execBrk n s
  | .trec a b => Sys2Proof.Machine.execTrec a b s
  | .dget d a => Sys2Proof.Machine.execDget d a s
  | .illegalWord w => Sys2Proof.Machine.execIllegalWord w s
  | .entryIssue core => Sys2Proof.Machine.execEntryIssue core s
  | .laneGroupStart core lane => Sys2Proof.Machine.execLaneGroupStart core lane s
  | .entryComplete h => Sys2Proof.Machine.execEntryComplete h s
  | .trapEntry h => Sys2Proof.Machine.execTrapEntry h s
  | .asyncStop h => Sys2Proof.Machine.execAsyncStop h s
  | .waitWake h => Sys2Proof.Machine.execWaitWake h s
  | .waitDeadlineExpiry h => Sys2Proof.Machine.execWaitDeadlineExpiry h s
  | .streamEntryFetched h q => Sys2Proof.Machine.execStreamEntryFetched h q s
  | .tileFillComplete id => Sys2Proof.Machine.execTileFillComplete id s
  | .tileFillFault id => Sys2Proof.Machine.execTileFillFault id s
  | .tileDrainComplete id => Sys2Proof.Machine.execTileDrainComplete id s
  | .tileDrainFault id => Sys2Proof.Machine.execTileDrainFault id s
  | .acopyComplete id => Sys2Proof.Machine.execAcopyComplete id s
  | .bankopLineOperation id n => Sys2Proof.Machine.execBankopLineOperation id n s
  | .bankopComplete id => Sys2Proof.Machine.execBankopComplete id s
  | .freadComplete id peer reason => Sys2Proof.Machine.execFreadComplete id peer reason s
  | .nvmeCompletion slot status => Sys2Proof.Machine.execNvmeCompletion slot status s
  | .scatterAddPerform core => Sys2Proof.Machine.execScatterAddPerform core s
  | .mergePassEnd camp => Sys2Proof.Machine.execMergePassEnd camp s
  | .mergeDrainComplete camp => Sys2Proof.Machine.execMergeDrainComplete camp s
  | .l2WriteBack core line evict => Sys2Proof.Machine.execL2WriteBack core line evict s
  | .mscEviction line => Sys2Proof.Machine.execMscEviction line s
  | .wideMarkExpire line => Sys2Proof.Machine.execWideMarkExpire line s
  | .taskSummaryRetest camp => Sys2Proof.Machine.execTaskSummaryRetest camp s
  | .doorbellWrite q tail => Sys2Proof.Machine.execDoorbellWrite q tail s
  | .startRecordTake q => Sys2Proof.Machine.execStartRecordTake q s
  | .launchGrant q place => Sys2Proof.Machine.execLaunchGrant q place s
  | .recordAged q => Sys2Proof.Machine.execRecordAged q s
  | .kernelEnd k => Sys2Proof.Machine.execKernelEnd k s
  | .cxlMemRead pa => Sys2Proof.Machine.execCxlMemRead pa s
  | .cxlMemWrite pa data => Sys2Proof.Machine.execCxlMemWrite pa data s
  | .migrate => Sys2Proof.Machine.execMigrate s
  | .migrateCopyDone => Sys2Proof.Machine.execMigrateCopyDone s
  | .shoot => Sys2Proof.Machine.execShoot s
  | .shootDrained => Sys2Proof.Machine.execShootDrained s
  | .fabricFlitReplay port ok => Sys2Proof.Machine.execFabricFlitReplay port ok s
  | .fabricLinkDown port => Sys2Proof.Machine.execFabricLinkDown port s
  | .fabricWritePacket p => Sys2Proof.Machine.execFabricWritePacket p s
  | .fabricReadRequest src domain width window addrs => Sys2Proof.Machine.execFabricReadRequest src domain width window addrs s
  | .fabricFlagApply src seq domain va value isAdd => Sys2Proof.Machine.execFabricFlagApply src seq domain va value isAdd s
  | .fgatherComplete id elems reason => Sys2Proof.Machine.execFgatherComplete id elems reason s
  | .freduceComplete id reason => Sys2Proof.Machine.execFreduceComplete id reason s
  | .fcollComplete id => Sys2Proof.Machine.execFcollComplete id s
  | .haltNotice chip freeze => Sys2Proof.Machine.execHaltNotice chip freeze s
  | .releaseNotice chip => Sys2Proof.Machine.execReleaseNotice chip s
  | .debugHaltRequest w => Sys2Proof.Machine.execDebugHaltRequest w s
  | .debugReleaseRequest w => Sys2Proof.Machine.execDebugReleaseRequest w s
  | .debugStepRequest w => Sys2Proof.Machine.execDebugStepRequest w s
  | .haltArrival h => Sys2Proof.Machine.execHaltArrival h s
  | .stepReport h => Sys2Proof.Machine.execStepReport h s
  | .debugInject h w => Sys2Proof.Machine.execDebugInject h w s
  | .stopUnitFire h u => Sys2Proof.Machine.execStopUnitFire h u s
  | .triggerTick => Sys2Proof.Machine.execTriggerTick s
  | .ridgepoleGrantTick power limit => Sys2Proof.Machine.execRidgepoleGrantTick power limit s
  | .powerOnStart trials ports failed images => Sys2Proof.Machine.execPowerOnStart trials ports failed images s
  | .keyctlOpen slot => Sys2Proof.Machine.execKeyctlOpen slot s
  | .keyctlClose slot => Sys2Proof.Machine.execKeyctlClose slot s
  | .mergeAssignWrite camp w => Sys2Proof.Machine.execMergeAssignWrite camp w s
  | .hostQueueCtlWrite q off n v => Sys2Proof.Machine.execHostQueueCtlWrite q off n v s
  | .preemptRequestPost h w => Sys2Proof.Machine.execPreemptRequestPost h w s
  | .engineRecordDiscard h im => Sys2Proof.Machine.execEngineRecordDiscard h im s
  | .satpWrite h field v => Sys2Proof.Machine.execSatpWrite h field v s
  | .badgerEnable ctx v => Sys2Proof.Machine.execBadgerEnable ctx v s
  | .registerWrite off n v => Sys2Proof.Machine.execRegisterWrite off n v s
  | .hostAtomic pa op n operand => Sys2Proof.Machine.execHostAtomic pa op n operand s
  | .fabricAcknowledgement chip seq reason => Sys2Proof.Machine.execFabricAcknowledgement chip seq reason s
  | .attestationReportRequest nonce => Sys2Proof.Machine.execAttestationReportRequest nonce s
  | .powerLoss => Sys2Proof.Machine.execPowerLoss s
  | .loadDataArrival h => Sys2Proof.Machine.execLoadDataArrival h s

end Sys2Proof.Machine
end

