-- ==== Sys2Proof/Machine/Events.lean ====
section
/-! DEFINITION. What each event of a schedule does: the meaning of its row of the table. -/
namespace Sys2Proof.Machine

/-- An event performed. -/
def Event.perform (e : Event) (s : State) : Out :=
  match e with
  | .entryIssue core => execEntryIssue core s
  | .laneGroupStart core lane => execLaneGroupStart core lane s
  | .entryComplete h => execEntryComplete h s
  | .trapEntry h => execTrapEntry h s
  | .asyncStop h => execAsyncStop h s
  | .waitWake h => execWaitWake h s
  | .waitDeadlineExpiry h => execWaitDeadlineExpiry h s
  | .streamEntryFetched h q => execStreamEntryFetched h q s
  | .tileFillComplete id => execTileFillComplete id s
  | .tileFillFault id => execTileFillFault id s
  | .tileDrainComplete id => execTileDrainComplete id s
  | .tileDrainFault id => execTileDrainFault id s
  | .acopyComplete id => execAcopyComplete id s
  | .bankopLineOperation id n => execBankopLineOperation id n s
  | .bankopComplete id => execBankopComplete id s
  | .freadComplete id peer reason => execFreadComplete id peer reason s
  | .nvmeCompletion slot status => execNvmeCompletion slot status s
  | .scatterAddPerform core => execScatterAddPerform core s
  | .mergePassEnd camp => execMergePassEnd camp s
  | .mergeDrainComplete camp => execMergeDrainComplete camp s
  | .l2WriteBack core line evict => execL2WriteBack core line evict s
  | .mscEviction line => execMscEviction line s
  | .wideMarkExpire line => execWideMarkExpire line s
  | .taskSummaryRetest camp => execTaskSummaryRetest camp s
  | .doorbellWrite q tail => execDoorbellWrite q tail s
  | .startRecordTake q => execStartRecordTake q s
  | .launchGrant q place => execLaunchGrant q place s
  | .recordAged q => execRecordAged q s
  | .kernelEnd k => execKernelEnd k s
  | .cxlMemRead pa => execCxlMemRead pa s
  | .cxlMemWrite pa data => execCxlMemWrite pa data s
  | .migrate => execMigrate s
  | .migrateCopyDone => execMigrateCopyDone s
  | .shoot => execShoot s
  | .shootDrained => execShootDrained s
  | .fabricFlitReplay port ok => execFabricFlitReplay port ok s
  | .fabricLinkDown port => execFabricLinkDown port s
  | .fabricWritePacket p => execFabricWritePacket p s
  | .fabricReadRequest src domain width window addrs => execFabricReadRequest src domain width window addrs s
  | .fabricFlagApply src seq domain va value isAdd => execFabricFlagApply src seq domain va value isAdd s
  | .fgatherComplete id elems reason => execFgatherComplete id elems reason s
  | .freduceComplete id reason => execFreduceComplete id reason s
  | .fcollComplete id => execFcollComplete id s
  | .haltNotice chip freeze => execHaltNotice chip freeze s
  | .releaseNotice chip => execReleaseNotice chip s
  | .debugHaltRequest w => execDebugHaltRequest w s
  | .debugReleaseRequest w => execDebugReleaseRequest w s
  | .debugStepRequest w => execDebugStepRequest w s
  | .haltArrival h => execHaltArrival h s
  | .stepReport h => execStepReport h s
  | .debugInject h w => execDebugInject h w s
  | .stopUnitFire h u => execStopUnitFire h u s
  | .triggerTick => execTriggerTick s
  | .ridgepoleGrantTick power limit => execRidgepoleGrantTick power limit s
  | .powerOnStart trials ports failed images => execPowerOnStart trials ports failed images s
  | .keyctlOpen slot => execKeyctlOpen slot s
  | .keyctlClose slot => execKeyctlClose slot s
  | .mergeAssignWrite camp w => execMergeAssignWrite camp w s
  | .hostQueueCtlWrite q off n v => execHostQueueCtlWrite q off n v s
  | .preemptRequestPost h w => execPreemptRequestPost h w s
  | .engineRecordDiscard h im => execEngineRecordDiscard h im s
  | .satpWrite h field v => execSatpWrite h field v s
  | .badgerEnable ctx v => execBadgerEnable ctx v s
  | .registerWrite off n v => execRegisterWrite off n v s
  | .hostAtomic pa op n operand => execHostAtomic pa op n operand s
  | .fabricAcknowledgement chip seq reason => execFabricAcknowledgement chip seq reason s
  | .attestationReportRequest nonce => execAttestationReportRequest nonce s
  | .powerLoss => execPowerLoss s
  | .loadDataArrival h => execLoadDataArrival h s

end Sys2Proof.Machine
end

