-- ==== Sys2Proof/Machine/Run.lean ====
section
/-! DEFINITION. Which agent acts in a step, with which instruction or event, and what follows every step: device time, the hart's step and
stop units, triggers. The manual leaves the order of agents open (R4); the agenda of the state names it, and an empty agenda gives the
model's own schedule. -/
namespace Sys2Proof.Machine

/-! ### Time and triggers -/

/-- The camps that hold a resident hart. -/
def State.residentCamps (s : State) : List Nat :=
  ((s.harts.filter fun e => e.2.run == .running && !e.2.sup).map fun e => campOf e.1).eraseDups

/-- The camps that held a resident hart in this tick of clock grants and in the one before, once device time has passed (R413). -/
def State.holdCamps (s : State) (ns : Nat) : State :=
  let l := s.residentCamps
  let here := s.heldCamps ++ l.filter fun p => !s.heldCamps.contains p
  let from_ := s.dtime.toNat / 2000
  let upto := (s.dtime + w64 ns).toNat / 2000
  if upto = from_ then { s with heldCamps := here } else { s with heldCamps := l, heldBefore := if upto = from_ + 1 then here else l }

/-- Device time passes; RTIME advances for the harts that are resident and not frozen (R33). -/
def State.pass (s : State) (ns : Nat) : State :=
  { s.holdCamps ns with
    dtime := s.dtime + w64 ns
    harts := s.harts.map fun (e : Nat × Hart) =>
      if e.2.run = .running ∧ !e.2.sup ∧ !e.2.frozen then (e.1, { e.2 with rtime := e.2.rtime + w64 ns }) else e }

/-- Whether Ridgepole has a trigger to evaluate. -/
def State.hasTrigger (s : State) : Bool := !s.trigEvents.isEmpty || s.triggers.any fun t => t.cfg.getLsbD 0 || t.isOpen

/-- A tick of device time ends: the triggers are evaluated, once, and the events of the tick reach their rings (R387 to R389). -/
def State.endTick (s : State) : State :=
  if s.spoorQueue.isEmpty && !s.hasTrigger && s.ticked.isNone then s
  else
    let t := if s.ticked.isSome then s else s.evalTriggers
    { t.recordAll (t.ticked.getD 0) with ticked := none }

/-- Ticks pass one by one. -/
def ticksN : Nat → State → State
  | 0, s => s
  | n + 1, s => ticksN n (s.endTick.pass 1)

/-- Device time passes, with the triggers evaluated in each tick. -/
def State.elapse (s : State) (ns : Nat) : State :=
  if ns = 0 then s else if s.hasTrigger then ticksN ns s else s.endTick.pass ns

/-! ### The sizes of the caches (R95, R172) -/

/-- The numbers of a list whose value under f holds more of them than `ways`. -/
def crowded (f : Nat → Nat) (ways : Nat) (l : List Nat) : List Nat := l.filter fun x => decide (ways < (l.filter fun y => f y == f x).length)

/-- Whether a core's L2 holds dirty bytes of a line. -/
def State.dirtyLine (s : State) (c line : Nat) : Bool :=
  (s.core c).l2.any fun e => e.1 / 4 == line && !(dirtyBytes e.1 e.2).isEmpty

/-- Slice and set of a line in an L2: 4 slices of 256 sets of 12 ways. The manual gives a line its slice and no set: here a slice's lines take its sets
in turn (DESIGN CHOICE, log 74). -/
def l2Set (line : Nat) : Nat := line % 1024

/-- A core's L2 gives up lines while a set of it holds more than 12. -/
def trimL2N : Nat → State → Nat → State
  | 0, s, _ => s
  | n + 1, s, c =>
    let l := (crowded l2Set 12 (s.core c).lines).filter fun x => s.hasPlace (256 * x) || !s.dirtyLine c x
    match l[Config.l2Victim c (s.dtime.toNat + n) % l.length]? with
    | some x => trimL2N n (s.evict c x) c
    | none => s

/-- The lines of an instruction cache. -/
def Core.icacheLines (k : Core) : List Nat := (k.icache.map fun e => e.1 / 256).eraseDups

/-- A core's instruction cache drops lines while a set of it, of 64, holds more than 4. The manual does not say which set a line has: here lines take
the sets in turn (DESIGN CHOICE, log 74). -/
def trimIcacheN : Nat → State → Nat → State
  | 0, s, _ => s
  | n + 1, s, c =>
    let l := crowded (· % 64) 4 (s.core c).icacheLines
    match l[Config.icacheVictim c (s.dtime.toNat + n) % l.length]? with
    | some x => trimIcacheN n (s.modCore c fun k => { k with icache := k.icache.filter fun e => e.1 / 256 != x }) c
    | none => s

/-- The caches of a core keep to their sizes. -/
def State.trimCore (s : State) (c : Nat) : State :=
  let k := s.core c
  let s1 := if k.l2.length ≤ 12 then s else trimL2N k.l2.length s c
  if k.icacheLines.length ≤ 4 then s1 else trimIcacheN k.icache.length s1 c

/-- The caches of every core do (DESIGN CHOICE, log 74: at the end of a step, which may touch more lines than a set holds). -/
def State.trim (s : State) : State := s.cores.foldl (fun s e => s.trimCore e.1) s

/-- No step stalls any more. -/
def State.unstalled (s : State) : State := if s.fabric.stalled then { s with fabric := { s.fabric with stalled := false } } else s

/-- What follows every step: the caches keep to their sizes, and device time passes (R388). -/
def State.settle (s : State) : State := (s.trim.forgetQueues.elapse s.stepNs).unstalled

/-! ### The schedule of an empty agenda -/

/-- The next hart after the acting one that runs and is not frozen; the acting one where there is none. -/
def State.nextHart (s : State) : Nat :=
  let l := (s.harts.filter fun e => e.2.active?).map (·.1)
  ((l.find? fun h => decide (s.cur < h)).or l.head?).getD s.cur

/-- The events by which an engine operation goes on. -/
def Op.events (o : Op) : List Event :=
  if o.parked.isSome then []
  else match o.kind with
    | .fill .. => [.tileFillComplete o.id, .tileFillFault o.id]
    | .drain .. => [.tileDrainComplete o.id, .tileDrainFault o.id]
    | .copy .. => [.acopyComplete o.id]
    | .bankop _ start len _ done _ _ =>
      match (List.range (rangeLines start len)).find? fun n => !done.contains n with
      | some n => [.bankopLineOperation o.id n, .bankopComplete o.id]
      | none => [.bankopComplete o.id]
    | .fread .. => [.freadComplete o.id [] 0]
    | .fgather _ _ _ n => if n = 0 then [.fgatherComplete o.id [] 0] else []
    | .freduce .. => [.freduceComplete o.id 0]
    | .fflag dst _ _ seq => [.fabricAcknowledgement (remoteChip dst) seq 0]
    | .fcoll .. => [.fcollComplete o.id]

/-- The first placement of a record (R323). -/
def State.firstPlace (s : State) (r : WaitingRecord) : List Nat :=
  let takes (d : Nat) : List Nat := (s.coresIn r.camps.toNat d).filter (s.coreTakes r)
  let dies := ((List.range 8).filter fun d => decide (r.cores ≤ (takes d).length)).take r.dies
  dies.flatMap fun d => ((takes d).take r.cores).flatMap fun c => ((s.freeSlots r c).take r.harts).map (4 * c + ·)

/-- The launch unit's events for a queue. -/
def State.queueEvents (s : State) (n : Nat) (q : HostQueue) : List Event :=
  match q.record with
  | some r => [.recordAged n, .launchGrant n (s.firstPlace r)]
  | none => if q.head = q.tail then [] else [.startRecordTake n]

/-- The events of a camp's merge network. -/
def Merge.events (m : Merge) (camp : Nat) : List Event :=
  match m.st with
  | .closing => [.mergePassEnd camp]
  | .draining => [.mergeDrainComplete camp]
  | _ => []

/-- The events of a hart: its streams, its step. -/
def Hart.events (a : Hart) (h : Nat) : List Event :=
  (if a.streams[0].isSome then [.streamEntryFetched h 0] else []) ++ (if a.streams[1].isSome then [.streamEntryFetched h 1] else []) ++
    if a.stepping.isSome then [.stepReport h] else []

/-- The grant of a clock step, every 2 µs of DTIME (R413). -/
def State.tickEvent (s : State) : Option Event :=
  let n := s.dtime.toNat / 2000
  if s.grantDue then
    some (.ridgepoleGrantTick ⟨Config.budget n, (List.range Config.numCamps).map fun p => (List.range 25).map (Config.stepPower n p)⟩
      (Config.limitThreatened n))
  else none

/-- What the units of the device may do next. -/
def State.pendingEvents (s : State) : List Event :=
  s.ops.flatMap Op.events ++ (s.harts.flatMap fun e => e.2.events e.1) ++
    (s.cores.flatMap fun e => if e.2.adds.isEmpty then [] else [.scatterAddPerform e.1]) ++
    (s.camps.flatMap fun e => e.2.merge.events e.1) ++ (s.kernels.map fun k => .kernelEnd k.id) ++
    (s.xreqs.flatMap fun q => if q.isShoot then [.shootDrained] else [.migrateCopyDone]) ++
    (if s.ringHead = s.ringTail then [] else [.migrate, .shoot]) ++ s.queues.flatMap fun e => s.queueEvents e.1 e.2

/-! ### A step's plan -/

/-- What is done with the state that an instruction leaves. -/
inductive After where
  | commit (h : Nat) (i : Instr) (pc : Word) (sup : Bool) (loops : Vector (Option LoopLevel) 6)
  | inject (h : Nat) (w : W32) (before : State)

/-- What a step does: its outcome, an event to perform, a word that is no instruction, or an instruction to execute in a state. -/
inductive Plan where
  | done (o : Out)
  | event (e : Event) (s : State)
  | illegal (w : W32) (s : State) (k : After)
  | go (i : Instr) (s : State) (k : After)

/-- The step is over. -/
def Plan.over (s : State) : Plan := .done (.next s.settle)

/-! ### Injected words (R380) -/

/-- A level that no instruction of the hart meets: it is lost where a trap is taken. -/
def sentinel : Vector (Option LoopLevel) 6 := (Vector.replicate 6 none).set 5 (some ⟨0, 0xFFFFFFFFFFFFFFFF, 0⟩)

/-- Words that DINJ refuses: branches, jumps, LOOP, W-format waits, and opcode 0x21. -/
def injectRefused (i : Instr) : Bool :=
  (waitOf i).isSome || (encode i).toNat % 128 == 0x21 || match i with
    | .beq .. | .bne .. | .blt .. | .bge .. | .jal .. | .jalr .. | .loop .. => true
    | _ => false

/-- IERR of DSTAT. -/
def Hart.setIerr (b : Bool) (a : Hart) : Hart :=
  { a with dstat := (a.dstat &&& ~~~0x800000) ||| if b then 0x800000 else 0 }

/-- The hart as an injected word finds it: at supervisor privilege, in no wait. -/
def Hart.forInject (a : Hart) : Hart := { a with hstat := a.hstat ||| 1, wait := none, loops := sentinel }

/-- What an injected word does not change. -/
def Hart.afterInject (a b : Hart) : Hart :=
  { b with pc := a.pc, hstat := (b.hstat &&& ~~~1) ||| (a.hstat &&& 1), wait := a.wait, loops := a.loops }

/-- The plan for a word written to DINJ. -/
def State.planInject (s : State) (h : Nat) (w : W32) : Plan :=
  let s0 := { s with inject := none }
  if !(s.hart h).frozen then .over s0
  else
    match decode w with
    | .error _ => .over (s0.modHart h (Hart.setIerr true))
    | .ok i =>
      if injectRefused i then .over (s0.modHart h (Hart.setIerr true))
      else .go i ({ s0 with cur := h, defer := false }.modHart h Hart.forInject) (.inject h w s0)

/-- The other harts of a core complete what they hold of its pending-write list. -/
def State.completeOthers (s : State) (h : Nat) : State :=
  (hartsOf (coreOf h)).foldl (fun s g => if g = h then s else s.completeOldest g) s

/-- After an injected word: refused where it trapped; where it waits for another hart's instruction it is tried again. -/
def State.endInject (before t : State) (h : Nat) (w : W32) : State :=
  if (t.hart h).loops ≠ sentinel then before.modHart h (Hart.setIerr true)
  else if !(t.hart h).queue.isEmpty then { before with inject := some (h, w) }.completeOthers h
  else { (t.modHart h fun b => ((before.hart h).afterInject b).setIerr false) with cur := before.cur, defer := before.defer }

/-! ### A hart's next instruction -/

/-- A step in progress has committed its instruction. -/
def Hart.stepped (i : Instr) (a : Hart) : Hart :=
  match a.stepping with
  | some ⟨f, none⟩ => { a with stepping := some ⟨f, some i⟩ }
  | _ => a

/-- The turn of the next hart. -/
def State.passTurn (s : State) : State := { s with cur := s.nextHart }

/-- Progress of the acting hart's queue: its oldest entry's trap, a stop unit, its completion, or an issue of its core. -/
def State.planQueue (s : State) (e : QEntry) : Plan :=
  if e.trap.isSome then .event (.trapEntry s.cur) s.passTurn
  else match s.h.unitAhead e with
  | some u => .event (.stopUnitFire s.cur u.1) s.passTurn
  | none =>
  if e.issued.isSome then .event (.entryComplete s.cur) s.passTurn
  else .event (.entryIssue (coreOf s.cur)) s.passTurn

/-- The instruction at the acting hart's PC. A step over a word that is no instruction has nothing to drain but its trap, as over EXIT. -/
def State.planFetch (s : State) : Plan :=
  let a := s.h
  match s.fetch s.cur with
  | (s1, .trap t) => if a.queue.isEmpty then .over ((s1.takeTrap s.cur t a.pc).modHart s.cur (Hart.stepped .exit)).passTurn else .over s.passTurn
  | (s1, .word w) =>
    match decode w with
    | .ok i => .go i s1 (.commit s.cur i a.pc a.sup a.loops)
    | .error _ => .illegal w s1 (.commit s.cur .exit a.pc a.sup a.loops)

/-- Whether the scalar side waits for the last entry of the queue. -/
def Hart.waitsQueue (a : Hart) : Bool :=
  match a.queue.getLast? with
  | some e => (entryOp e.instr).any (·.waits)
  | none => false

/-- The commit of the acting hart: a stop unit that names the instruction fires first, a wait attempts again, and a step commits once
(R381, R237, R383). -/
def State.planCommit (s : State) : Plan :=
  let a := s.h
  if a.stepping.any (·.done.isSome) ∧ a.wait.isNone then
    match a.queue with
    | e :: _ => s.planQueue e
    | [] => .event (.stepReport s.cur) s.passTurn
  else
    match a.wait with
    | some w => .go w.instr s (.commit s.cur w.instr a.pc a.sup a.loops)
    | none =>
      match a.stopUnits, a.queue with
      | [], e :: _ => if a.waitsQueue then s.planQueue e else s.planFetch
      | _, e :: _ => s.planQueue e
      | l, [] =>
        match l.findSome? fun u => s.fire u.1 u.2 with
        | some t => .over t.passTurn
        | none => s.planFetch

/-- A step of a hart that the agenda names. -/
def State.planHart (s : State) : Plan :=
  if s.h.active? then s.planCommit else .over s

/-- Steps so far at the present pace: what the harts and the units take turns by. -/
def State.turn (s : State) : Nat := s.dtime.toNat / Nat.max 1 s.stepNs

/-- The acting hart's part of the model's own schedule: a pre-emption request, what its queue holds, its next instruction. -/
def State.planActing (s : State) : Plan :=
  let a := s.h
  if !a.active? then .over s.passTurn
  else if a.mayPreempt.isSome && !a.sup then .event (.asyncStop s.cur) s
  else
    match a.queue, a.wait with
    | e :: _, none => s.planQueue e
    | _, _ => s.planCommit

/-- The step of the model's own schedule: halts in Ridgepole's order and its clock grants, then the harts in turn, one instruction each; the device's
units take every second step while they have anything to do. -/
def State.planDefault (s : State) : Plan :=
  match s.halts with
  | o :: _ => .event (.haltArrival (o.harts.headD 0)) s
  | [] =>
    match s.tickEvent with
    | some e => .event e s
    | none =>
    let l := s.pendingEvents
    match (if s.turn % 2 = 1 then l[s.turn / 2 % l.length]? else none) with
    | some e => .event e s
    | none => s.planActing

/-- The memory takes its time from now on, or does so no more: what it then owes is performed first (R220, R254). -/
def State.setSlow (s : State) (on : Bool) : State :=
  let s1 := if on then s.cores.foldl (fun s e => s.flush e.1) s else s.landAll
  { s1 with
    slow := on
    cores := s1.cores.map fun (e : Nat × Core) => (e.1, { e.2 with owed := [] }) }

/-- What an item of the agenda that is no instruction does. -/
def Agenda.apply (g : Agenda) (s : State) : State :=
  match g with
  | .time ns => s.elapse ns
  | .pace ns => { s with stepNs := ns }
  | .prefetch h => if (s.hart h).active? then s.prefetch h else s
  | .icacheDrop core pa => s.modCore core fun k => { k with icache := FMap.erase k.icache pa }
  | .icacheLoad core pa => s.icacheRefresh core pa
  | .loopDrop h => s.modHart h fun a => { a with loopBuf := [] }
  | .arrive h => s.arrive h
  | .element h n i => s.performElement h n i
  | .dataOf h n j => s.dataOf h n j
  | .slowStores on => s.setSlow on
  | .sliceStore core n => s.landNth core n
  | .matrixRow core => s.matrixStep core
  | .tlbDrop core n => s.modCore core fun k => { k with tlb := k.tlb.eraseIdx n }
  | .roDrop core sector => s.modCore core fun k => { k with ro := FMap.erase k.ro sector }
  | .opProgress id n =>
    match s.running id with
    | some o => s.copyAdvance o n
    | none => s
  | .poison sector => { s with bad := sector :: s.bad.filter (· != sector) }
  | .poisonPlane core cell => s.modCore core fun k => { k with badPlane := cell :: k.badPlane.filter (· != cell) }
  | .poisonAcc core cell => s.modCore core fun k => { k with badAcc := cell :: k.badAcc.filter (· != cell) }
  | .poisonL2 core word => s.modCore core fun k => { k with badL2 := word :: k.badL2.filter (· != word) }
  | .poisonLocal word => { s with badLocal := word :: s.badLocal.filter (· != word) }
  | .corrected src loc pa id => s.logError (mcValue false src loc.toNat) pa 0 id
  | .rowFails sram unit row => s.logError (mcValue false (if sram then 3 else 0) row) unit 1 0xFFFF
  | .coreFails core => s.logError (mcValue false 5 core) 0 1 0xFFFF
  | .startCut trials ports failed images => if s.power then s else s.startCut trials ports failed images
  | .addition core n => s.performAdd core n
  | .mergePiece camp off n => s.mergePiece camp off n
  | .poisonFetch core pa => s.modCore core fun k => { k with badFetch := pa :: k.badFetch.filter (· != pa) }
  | .opPiece id n data => s.opPiece id n data
  | .peerPage chip page on =>
    let l := s.fabric.closed.filter (· != (chip, page))
    { s with fabric := { s.fabric with closed := if on then (chip, page) :: l else l } }
  | .foreign pa v =>
    match s.place pa with
    | .host => { s with mem := s.mem.write pa v }
    | .peer _ _ => { s with mem := s.mem.write pa v }
    | _ => s
  | _ => s

/-- The step that the head of the agenda names. -/
def Agenda.plan (g : Agenda) (s : State) : Plan :=
  match g with
  | .run h => { s with cur := h, defer := false }.planHart
  | .enqueue h => { s with cur := h, defer := true }.planHart
  | .event e => .event e s
  | g =>
    let t := g.apply s
    .done (.next (if t.fabric.stalled then s else t.trim.forgetQueues))

/-- What a step does. A word injected, which may wait for other harts and units, takes turns with them. Without power only the agenda acts; with
none of it left the machine stops (R410). -/
def State.plan (s : State) : Plan :=
  if !s.power && s.agenda.isEmpty then .done (.fault .noPower)
  else
    match s.inject, s.retests, s.agenda with
    | some (h, w), _, _ => if s.turn % 2 = 1 then { s with defer := false }.planDefault else s.planInject h w
    | none, c :: _, _ => .event (.taskSummaryRetest c) s
    | none, [], g :: l => g.plan { s with agenda := l }
    | none, [], [] => { s with defer := false }.planDefault

/-! ### After a step -/

/-- Branches and jumps: one that is taken to itself has completed at the PC it had. -/
def jumps (i : Instr) : Bool :=
  match i with
  | .beq .. | .bne .. | .blt .. | .bge .. | .jal .. | .jalr .. => true
  | _ => false

/-- Whether an instruction that leaves kernel privilege or ends the hart has completed: EXIT has ended it, or SCALL or YIELD.P, at kernel privilege, has
raised its own trap (R119, R120, R122). -/
def Hart.wentOut (a : Hart) (i : Instr) (pc : Word) (sup : Bool) : Bool :=
  match i with
  | .exit => a.run == .ended
  | .scall _ | .yieldP => !sup && a.sup && a.trappc == pc + 4
  | _ => false

/-- Whether a hart's instruction has completed without a trap that stopped it: the PC has moved, or came back round a loop or by a branch, or the
instruction is one that completes so. -/
def Hart.wentOn (a : Hart) (i : Instr) (pc : Word) (sup : Bool) (loops : Vector (Option LoopLevel) 6) : Bool :=
  ((a.pc != pc || a.loops != loops || jumps i) && (sup || !a.sup)) || a.wentOut i pc sup

/-- The bookkeeping of a hart's commit: the step it was asked for, the stop units that may fire again once their entry has completed, and the turn
of the next hart. -/
def State.committed (t : State) (h : Nat) (i : Instr) (pc : Word) (sup : Bool) (loops : Vector (Option LoopLevel) 6) : State :=
  let a := t.hart h
  let t1 := if a.stepping.isSome ∨ a.stops.any (·.fired) then
      t.modHart h fun a =>
        (if a.wentOn i pc sup loops && !a.queue.any fun e => e.pc == pc then a.clearFired pc else a).stepped i
    else t
  t1.passTurn

/-- The state at the end of a step. -/
def After.finish (k : After) (t : State) : State :=
  match k with
  | .commit h i pc sup loops => (t.committed h i pc sup loops).settle
  | .inject h w before => (before.endInject t h w).settle

/-- The end of a step that did not take place: a write packet it would send has no place or is held, and it is tried again (R367, R373). -/
def After.stall (k : After) (s : State) : State :=
  match k with
  | .commit .. => s.passTurn.settle
  | .inject h w before => { before with inject := some (h, w) }.settle

/-- The end of an instruction's step that began in one state and led to another. -/
def After.close (k : After) (s t : State) : State := if t.fabric.stalled then k.stall s else k.finish t

/-- The end of an event's step. -/
def State.closeEvent (s t : State) : State := if t.fabric.stalled then s.settle else t.settle

/-! ### A word placed for the next step -/

/-- The state whose next step fetches a word: the acting hart runs at supervisor privilege at address 0 of its save page, which holds it;
the agenda names that hart and no copy of the old word is held. -/
def State.placeWord (s : State) (w : W32) : State :=
  let h := s.cur
  let s1 := { s with
    agenda := [.run h]
    inject := none
    retests := []
    halts := []
    power := true }.saveWrite h 0 (leBytes 4 w.toNat)
  let s2 := s1.modCore (coreOf h) fun k => { k with icache := [] }
  s2.modHart h fun a =>
    { a with
      run := .running
      pc := 0
      hstat := a.hstat ||| 1
      queue := []
      wait := none
      tileSince := none
      fetchBuf := []
      loopBuf := []
      frozen := false
      skid := none
      stepping := none
      stops := Vector.replicate 4 ⟨0, 0, false⟩ }

end Sys2Proof.Machine
end

