-- ==== Sys2Proof/Machine/Step.lean ====
section
/-! DEFINITION. One step of the device, and the placing of a word that the next step executes. -/
namespace Sys2Proof.Machine

/-- One step: what the plan says, an event or an instruction performed, and what follows it. -/
def step (s : State) : Host.Outcome State Fault Refusal :=
  match s.plan with
  | .done o => o
  | .event e t =>
    match e.perform t with
    | .next u => .next (t.closeEvent u)
    | .fault f => .fault f
    | .refused r => .refused r
  | .illegal w t k =>
    match execIllegalWord w t with
    | .next u => .next (k.close t u)
    | .fault f => .fault f
    | .refused r => .refused r
  | .go i t k =>
    match exec i t with
    | .next u => .next (k.close t u)
    | .fault f => .fault f
    | .refused r => .refused r

/-- The state with an instruction of the table stored where the next step fetches it. -/
def State.withFetchWord (s : State) (_nbits w : Nat) : State := s.placeWord (.ofNat 32 w)

end Sys2Proof.Machine
end

