-- ==== Sys2Proof/Safety.lean ====
section
/-! DEFINITION. What the statements say of a step: how an instruction completes or traps and what it leaves alone; the results that the
rules of the spec give, written from the spec's own tables; and the invariant of memory. -/
namespace Sys2Proof

/-- Whether a row of the table is an instruction word: every other row is an event of the device. -/
def Instr.isWord (i : Instr) : Bool := decide (encode i ≠ 0)

/-- The instructions of R339's list that are no access of a control register: those of opcodes 0x30 to 0x4D, 0x50 to 0x5B, 0x60 to 0x69, 0x6B, 0x6C,
0x72, 0x73 and 0x7B, SQOPEN and SQCLOSE. -/
def Instr.ofPlane (i : Instr) : Bool :=
  match i with
  | .vaddVv .. | .vaddVx .. | .vsubVv .. | .vsubVx .. | .vmulVv .. | .vmulVx .. | .vfmaVv .. | .vfmaVx .. | .vmin .. | .vmax .. | .vdiv .. | .vsqrt ..
  | .vcmpeqVv .. | .vcmpneVv .. | .vcmpltVv .. | .vcmpleVv .. | .vcmpeqVx .. | .vcmpneVx .. | .vcmpltVx .. | .vcmpleVx .. | .vand .. | .vor .. | .vxor .. | .vandn .. | .vorn .. | .vsll .. | .vsrl .. | .vsra .. | .vsel .. | .vclamp ..
  | .vcvt .. | .vcvtsn .. | .vcvtsw .. | .vscale .. | .vredsum .. | .vredmax .. | .vredmin .. | .vcompress .. | .vexpand .. | .vconfl .. | .vslideup .. | .vslidedn .. | .vmv .. | .vbcast .. | .vgetx .. | .vputx ..
  | .kand .. | .kor .. | .kxor .. | .kandn .. | .knot .. | .kpop .. | .kfirst .. | .nawait .. | .vidx .. | .setvl .. | .vdef .. | .vdgeta .. | .vdgetb .. | .mma .. | .mmas .. | .mmag .. | .aczero .. | .acrd .. | .acwr .. | .tilerel .. | .tilewait ..
  | .vld .. | .vst .. | .vldm .. | .vlds .. | .vldi .. | .vldiw .. | .vldro .. | .vstm .. | .vsts .. | .vsti .. | .vstiw .. | .sqopen .. | .sqclose .. | .sqpop .. | .vldz .. | .vgl .. | .vglw .. | .vsc .. | .vscw .. | .vscadd .. | .mgpush .. => true
  | _ => false

end Sys2Proof

namespace Sys2Proof.Machine

/-! ### How a step ends, with its frame -/

/-- Nothing but the harts differs. -/
def State.SameButHarts (t s : State) : Prop := { t with harts := s.harts } = s

/-- Nothing but the harts and the cores differs. -/
def State.SameButUnits (t s : State) : Prop := { t with harts := s.harts, cores := s.cores } = s

/-- The instruction completes: the acting hart is then `a`, and every other hart and every other part of the machine is as before. -/
def Completes (i : Instr) (s : State) (a : Hart) : Prop :=
  ∃ t, exec i s = .next t ∧ t.hart s.cur = a ∧ (∀ h, h ≠ s.cur → t.hart h = s.hart h) ∧ t.SameButHarts s

/-- The instruction completes: of the state `u` that its translations or the charge of its issue left, the acting hart is then `a` and its
core `k`; every other hart and core and every other part of the machine is as `u` has it. -/
def CompletesOn (i : Instr) (s u : State) (a : Hart) (k : Core) : Prop :=
  ∃ t, exec i s = .next t ∧ t.hart s.cur = a ∧ t.core (coreOf s.cur) = k ∧ (∀ h, h ≠ s.cur → t.hart h = u.hart h) ∧
    (∀ c, c ≠ coreOf s.cur → t.core c = u.core c) ∧ t.SameButUnits u

/-- What the issue of an instruction of the queue that runs at its commit leaves of the counters that its core's sequencer chooses by: its hart is
charged its beats, or is the one its matrix engine served last (R309, R313, R315). -/
def State.issues (s : State) (i : Instr) : State :=
  match entryOp i with
  | some op => s.charged s.cur (op.charge (newEntry i op s.h)) (op.kind == .matrix)
  | none => s

/-- The instruction takes a trap at `pc` with a cause and a TVAL, as R335 says, and does nothing else. -/
def Traps (i : Instr) (s : State) (code : Nat) (tval : Word) (pc : Word) : Prop :=
  Completes i s (s.h.trapTo (s.camp (campOf s.cur)).entrypc ⟨code, tval, none⟩ pc)

/-- The instruction takes a trap with a cause and a TVAL at its own PC, with TRAPEI the element where one is given, before any effect (R335). -/
def TrapsAt (i : Instr) (s : State) (code tval : Nat) (elem : Option Nat) : Prop :=
  CompletesOn i s s (s.h.trapTo (s.camp (campOf s.cur)).entrypc ⟨code, BitVec.ofNat 64 tval, elem⟩ s.h.pc) (s.core (coreOf s.cur))

/-- The instruction takes LOAD_FAULT or STORE_FAULT for an address whose translation was refused with a reason of R350, which the translation
record then holds (R110, R348): of the state `u` that the walk left, nothing else changes. -/
def Faults (i : Instr) (s u : State) (acc : Access) (va : Word) (reason : Nat) (elem : Option Nat) : Prop :=
  CompletesOn i s u (Hart.trapTo { s.h with xreason := reason } (s.camp (campOf s.cur)).entrypc
    ⟨if acc = .store then 6 else 5, va, elem⟩ s.h.pc) (u.core (coreOf s.cur))

/-! ### Scalar integer results (R101 to R105) -/

/-- The 64 bits of a word, bit 0 first. -/
def bitList (w : Word) : List Bool := (List.range 64).map w.getLsbD

/-- The register that an integer instruction writes, and the integer whose residue modulo 2^64 it writes there, by the tables of R101 to
R105: registers are read as signed (`S`) or unsigned (`U`) numbers. -/
def intResult (h : Hart) (i : Instr) : Option (Reg × Int) :=
  let S (r : Reg) : Int := (h.getX r).toInt
  let U (r : Reg) : Int := ((h.getX r).toNat : Int)
  let N (r : Reg) : Nat := (h.getX r).toNat
  match i with
  | .add d a b => some (d, S a + S b)
  | .sub d a b => some (d, S a - S b)
  | .and d a b => some (d, (N a &&& N b : Nat))
  | .or d a b => some (d, (N a ||| N b : Nat))
  | .xor d a b => some (d, (N a ^^^ N b : Nat))
  | .sll d a b => some (d, U a * 2 ^ (N b % 64))
  | .srl d a b => some (d, U a / 2 ^ (N b % 64))
  | .sra d a b => some (d, S a / 2 ^ (N b % 64))
  | .slt d a b => some (d, if S a < S b then 1 else 0)
  | .sltu d a b => some (d, if U a < U b then 1 else 0)
  | .min d a b => some (d, Min.min (S a) (S b))
  | .max d a b => some (d, Max.max (S a) (S b))
  | .minu d a b => some (d, Min.min (U a) (U b))
  | .maxu d a b => some (d, Max.max (U a) (U b))
  | .mul d a b => some (d, S a * S b)
  | .mulh d a b => some (d, S a * S b / 2 ^ 64)
  | .mulhu d a b => some (d, U a * U b / 2 ^ 64)
  | .div d a b => some (d, if S b = 0 then -1 else (S a).tdiv (S b))
  | .divu d a b => some (d, if U b = 0 then 2 ^ 64 - 1 else U a / U b)
  | .rem d a b => some (d, if S b = 0 then S a else S a - S b * (S a).tdiv (S b))
  | .remu d a b => some (d, if U b = 0 then U a else U a - U b * (U a / U b))
  | .clz d a => some (d, ((bitList (h.getX a)).reverse.takeWhile (!·)).length)
  | .ctz d a => some (d, ((bitList (h.getX a)).takeWhile (!·)).length)
  | .cpop d a => some (d, (bitList (h.getX a)).count true)
  | .sel d a b c => some (d, if U c ≠ 0 then U a else U b)
  | .addi d a im => some (d, S a + im.toInt)
  | .andi d a im => some (d, (N a &&& (im.signExtend 64).toNat : Nat))
  | .ori d a im => some (d, (N a ||| (im.signExtend 64).toNat : Nat))
  | .xori d a im => some (d, (N a ^^^ (im.signExtend 64).toNat : Nat))
  | .slti d a im => some (d, if S a < im.toInt then 1 else 0)
  | .sltiu d a im => some (d, if U a < im.toInt % 2 ^ 64 then 1 else 0)
  | .slli d a n => some (d, U a * 2 ^ n.toNat)
  | .srli d a n => some (d, U a / 2 ^ n.toNat)
  | .srai d a n => some (d, S a / 2 ^ n.toNat)
  | .lui d im => some (d, im.toInt * 4096)
  | .auipc d im => some (d, h.pc.toNat + im.toInt * 4096)
  | _ => none

/-! ### Scalar floating-point results (R106 to R108) -/

/-- The register that a floating-point instruction writes, its result and its flags, by the table of R106: the operand read from the low
bits of its register at its exact value (`V`), one rounding in the mode the word selects (`M`). -/
def floatResult (h : Hart) (i : Instr) : Option (Reg × FRes) :=
  let V (f : FFmt) (r : Reg) : FVal := fdecode f ((h.getX r).toNat % 2 ^ f.width)
  let B (f : FFmt) (r : Reg) : Nat := (h.getX r).toNat % 2 ^ f.width
  let M (r : Nat) : RMode := rmOfSelection h.fctl r
  let add (f : FFmt) (d a b : Reg) (r : BitVec 5) : Option (Reg × FRes) := some (d, fadd (M r.toNat) f (V f a) (V f b))
  let sub (f : FFmt) (d a b : Reg) (r : BitVec 5) : Option (Reg × FRes) := some (d, fadd (M r.toNat) f (V f a) (V f b).neg)
  let mul (f : FFmt) (d a b : Reg) (r : BitVec 5) : Option (Reg × FRes) := some (d, fmul (M r.toNat) f (V f a) (V f b))
  let div (f : FFmt) (d a b : Reg) (r : BitVec 5) : Option (Reg × FRes) := some (d, fdiv (M r.toNat) f (V f a) (V f b))
  let sqrt (f : FFmt) (d a : Reg) (r : BitVec 5) : Option (Reg × FRes) := some (d, fsqrt (M r.toNat) f (V f a))
  let minmax (mx : Bool) (f : FFmt) (d a b : Reg) : Option (Reg × FRes) := some (d, fminmax mx f (B f a) (B f b))
  let eq (f : FFmt) (d a b : Reg) : Option (Reg × FRes) := some (d, if feqv (V f a) (V f b) then 1 else 0, 0)
  let lt (f : FFmt) (d a b : Reg) : Option (Reg × FRes) :=
    some (d, if fltv (V f a) (V f b) then 1 else 0, fsnan (V f a) ||| fsnan (V f b))
  let le (f : FFmt) (d a b : Reg) : Option (Reg × FRes) :=
    some (d, if fltv (V f a) (V f b) ∨ feqv (V f a) (V f b) then 1 else 0, fsnan (V f a) ||| fsnan (V f b))
  let toI (f : FFmt) (d a : Reg) (r : BitVec 5) (lo hi : Int) : Option (Reg × FRes) :=
    let k := ftoInt (M r.toNat) lo hi (V f a)
    some (d, (k.1 % 2 ^ 64).toNat, k.2)
  let ofI (f : FFmt) (d : Reg) (r : BitVec 5) (k : Int) : Option (Reg × FRes) := some (d, fofInt (M r.toNat) f k 0 false)
  let ofF (own : Nat) (d a : Reg) (r src : BitVec 5) : Option (Reg × FRes) :=
    if 8 ≤ src.toNat ∧ src.toNat ≤ 10 ∧ src.toNat ≠ own then some (d, fconvert (M r.toNat) (ffmtOf own) (V (ffmtOf src.toNat) a)) else none
  match i with
  | .faddF32 d a b r => add fmtF32 d a b r
  | .fsubF32 d a b r => sub fmtF32 d a b r
  | .fmulF32 d a b r => mul fmtF32 d a b r
  | .fdivF32 d a b r => div fmtF32 d a b r
  | .fsqrtF32 d a r => sqrt fmtF32 d a r
  | .fminF32 d a b => minmax false fmtF32 d a b
  | .fmaxF32 d a b => minmax true fmtF32 d a b
  | .feqF32 d a b => eq fmtF32 d a b
  | .fltF32 d a b => lt fmtF32 d a b
  | .fleF32 d a b => le fmtF32 d a b
  | .fcvtToI64F32 d a r => toI fmtF32 d a r (-2 ^ 63) (2 ^ 63 - 1)
  | .fcvtToN64F32 d a r => toI fmtF32 d a r 0 (2 ^ 64 - 1)
  | .fcvtFromI64F32 d a r => ofI fmtF32 d r (h.getX a).toInt
  | .fcvtFromN64F32 d a r => ofI fmtF32 d r (h.getX a).toNat
  | .fcvtFromFloatF32 d a r src => ofF 8 d a r src
  | .faddF16 d a b r => add fmtF16 d a b r
  | .fsubF16 d a b r => sub fmtF16 d a b r
  | .fmulF16 d a b r => mul fmtF16 d a b r
  | .fdivF16 d a b r => div fmtF16 d a b r
  | .fsqrtF16 d a r => sqrt fmtF16 d a r
  | .fminF16 d a b => minmax false fmtF16 d a b
  | .fmaxF16 d a b => minmax true fmtF16 d a b
  | .feqF16 d a b => eq fmtF16 d a b
  | .fltF16 d a b => lt fmtF16 d a b
  | .fleF16 d a b => le fmtF16 d a b
  | .fcvtToI64F16 d a r => toI fmtF16 d a r (-2 ^ 63) (2 ^ 63 - 1)
  | .fcvtToN64F16 d a r => toI fmtF16 d a r 0 (2 ^ 64 - 1)
  | .fcvtFromI64F16 d a r => ofI fmtF16 d r (h.getX a).toInt
  | .fcvtFromN64F16 d a r => ofI fmtF16 d r (h.getX a).toNat
  | .fcvtFromFloatF16 d a r src => ofF 9 d a r src
  | .faddBf16 d a b r => add fmtBf16 d a b r
  | .fsubBf16 d a b r => sub fmtBf16 d a b r
  | .fmulBf16 d a b r => mul fmtBf16 d a b r
  | .fdivBf16 d a b r => div fmtBf16 d a b r
  | .fsqrtBf16 d a r => sqrt fmtBf16 d a r
  | .fminBf16 d a b => minmax false fmtBf16 d a b
  | .fmaxBf16 d a b => minmax true fmtBf16 d a b
  | .feqBf16 d a b => eq fmtBf16 d a b
  | .fltBf16 d a b => lt fmtBf16 d a b
  | .fleBf16 d a b => le fmtBf16 d a b
  | .fcvtToI64Bf16 d a r => toI fmtBf16 d a r (-2 ^ 63) (2 ^ 63 - 1)
  | .fcvtToN64Bf16 d a r => toI fmtBf16 d a r 0 (2 ^ 64 - 1)
  | .fcvtFromI64Bf16 d a r => ofI fmtBf16 d r (h.getX a).toInt
  | .fcvtFromN64Bf16 d a r => ofI fmtBf16 d r (h.getX a).toNat
  | .fcvtFromFloatBf16 d a r src => ofF 10 d a r src
  | .fmadd d a b c f r =>
    match f.toNat with
    | 0 => some (d, ffma (M r.toNat) fmtF32 (V fmtF32 a) (V fmtF32 b) (V fmtF32 c))
    | 1 => some (d, ffma (M r.toNat) fmtF16 (V fmtF16 a) (V fmtF16 b) (V fmtF16 c))
    | 2 => some (d, ffma (M r.toNat) fmtBf16 (V fmtBf16 a) (V fmtBf16 b) (V fmtBf16 c))
    | _ => none
  | _ => none

/-! ### Loop levels (R114) -/

/-- Level n of a hart is armed and ends at the word at the PC. -/
def Hart.endsHere (a : Hart) (n : Fin 6) (l : LoopLevel) : Prop := a.loops[n] = some l ∧ l.fin = a.pc

/-- The levels of a hart after an end check that made idle the levels ending here for which `p` holds. -/
def Hart.idledLoops (a : Hart) (p : Fin 6 → Bool) : Vector (Option LoopLevel) 6 :=
  Vector.ofFn fun n => match a.loops[n] with
    | some l => if l.fin = a.pc ∧ p n then none else some l
    | none => none

/-! ### Control registers (R22, R117, R118) -/

/-- The registers that a read may name, and those that a write may name, at a privilege (R22, R33). -/
def crMayRead (sup : Bool) (n : Nat) : Bool :=
  [0x000, 0x001, 0x002, 0x003, 0x004, 0x005, 0x006, 0x007, 0x008, 0x010, 0x011, 0x012, 0x013].contains n ||
    (sup && [0x014, 0x018, 0x019, 0x01A, 0x01B, 0x01C].contains n) || (decide (0x100 ≤ n) && decide (n ≤ 0x27F))
def crMayWrite (sup : Bool) (n : Nat) : Bool :=
  [0x000, 0x003, 0x004].contains n || (decide (0x180 ≤ n) && decide (n ≤ 0x27F)) ||
    (sup && n != 7 && crMayRead true n)

/-- Registers of the plane side (R37, R339). -/
def crOfPlane (n : Nat) : Bool := [0x000, 0x001, 0x002].contains n || (decide (0x100 ≤ n) && decide (n ≤ 0x27F))

/-- What a read of a register of R22 returns. -/
def crValue (s : State) (h n : Nat) : Word :=
  let a := s.hart h
  let word (m : BitVec 8192) (j : Nat) : Word := BitVec.ofNat 64 (m.toNat / 2 ^ (64 * j))
  if n = 0x000 then a.vtype else if n = 0x001 then a.vl else if n = 0x002 then a.estart else if n = 0x003 then a.fctl
  else if n = 0x004 then a.dlmode else if n = 0x005 then a.dlstat else if n = 0x006 then a.rtime else if n = 0x007 then s.dtime
  else if n = 0x008 then BitVec.ofNat 64 (h / 320 * 2 ^ 13 + h / 64 % 5 * 2 ^ 10 + h / 4 % 16 * 2 ^ 6 + h % 4)
  else if n = 0x010 then a.dlcap else if n = 0x011 then a.dlesc else if n = 0x012 then a.pwbase else if n = 0x013 then a.pwlen
  else if n = 0x014 then a.pwctl else if n = 0x018 then a.hstat else if n = 0x019 then a.tcause else if n = 0x01A then a.tval
  else if n = 0x01B then a.trappc else if n = 0x01C then a.trapei
  else if n < 0x180 then word a.edone (n - 0x100) else if n < 0x200 then word a.fmask (n - 0x180) else word a.smiss (n - 0x200)

/-- The value that a register whose fields are all RW or RES holds after a write of `v`: its RW fields replaced (R19), with the limits of
R26 to R38; none where the write is ILLEGAL (R27, R28, R31, R118). HSTAT keeps PRV; HARTID is not changed. -/
def crAfterWrite (s : State) (h n : Nat) (v : Word) : Option Word :=
  let a := s.hart h
  if n = 0x000 then
    (if (v.toNat / 2048 % 32 ≤ 14 ∨ 16 ≤ v.toNat / 2048 % 32 ∧ v.toNat / 2048 % 32 ≤ 22) ∧
        (a.sup = true ∨ v.toNat / 512 % 4 ≤ a.grpCeil) then some (v &&& 0xFF80) else none)
  else if n = 0x001 then (if v.toNat % 16384 ≤ vlmax a.vtype then some (v &&& 0x3FFF) else none)
  else if n = 0x002 then some (v &&& 0x3FFF)
  else if n = 0x003 then (if v.toNat % 8 < 4 then some (v &&& 0xFF) else none)
  else if n = 0x004 then some (v &&& 1)
  else if n = 0x008 then some (crValue s h 0x008)
  else if n = 0x011 then some (v &&& 0xFF)
  else if n = 0x012 then some (v &&& 0xFF)
  else if n = 0x013 then some (if v.toNat % 512 < 256 then v &&& 0x1FF else 256)
  else if n = 0x014 then some (v &&& 0xFFFF0001)
  else if n = 0x018 then some ((v &&& 2) ||| (a.hstat &&& 1))
  else if n = 0x019 then some (v &&& 0x800000000000FFFF)
  else if n = 0x01B then some (canonical v &&& ~~~3)
  else if n = 0x01C then some (v &&& 0x8000000000003FFF)
  else some v

/-! ### Lengths (R45, R133) -/

/-- P of a format code (R41, R45): columns of one row. -/
def planeColumns (code : Nat) : Nat :=
  if [3, 7].contains code then 128 else if [2, 6, 8].contains code then 256 else if [1, 5, 9, 10].contains code then 512
  else if [0, 4, 11, 12, 14].contains code then 1024 else if code = 13 then 2048 else 8192

/-- What SETVL grants for a request: `n` of R133. -/
def grantOf (f g b req : Nat) : Nat :=
  let vlm := Nat.min (planeColumns f * 2 ^ g) 8192
  let n := Nat.min req vlm
  let B := if b = 0 then 0 else 8 * 2 ^ b
  if b ≠ 0 ∧ B ≤ n then n - n % B else n

/-! ### Memory as a core sees it (R178, R216) -/

/-- The byte that an ordinary access through core c finds at a physical address: the copy in its L2, else the byte at its home; a local
store is its own home. An address of the module's own peer window has no byte of its own: accesses fold it first (R363). -/
def State.seen (s : State) (c pa : Nat) : Byte :=
  if s.fold pa ≠ pa then 0 else if (s.place pa).cached then s.l2Byte c pa else s.mem.read pa

/-- No watchpoint of the device is enabled (R385). -/
def State.unwatched (s : State) : Prop := ∀ e ∈ s.camps, ∀ w ∈ e.2.watches.toList, w.cfg.getLsbD 0 = false

/-- Stores are performed at once (R220): the slices' store queues keep nothing, and the acting hart's core holds none. -/
structure Prompt (s : State) : Prop where
  fast : s.slow = false
  empty : (s.core (coreOf s.cur)).stores = []

/-- A hart's access of n bytes at a virtual address reaches memory: it is translated to `pa`, which leaves the state `u`, its bytes lie in one
line at an address that is already folded, no other chip refuses them, and none of them is uncorrectable. -/
structure Reaches (s : State) (va : Word) (acc : Access) (n pa : Nat) (u : State) : Prop where
  prompt : Prompt s
  outside : s.h.sup = false ∨ va.toNat < 0x1000 ∨ 0x4000 ≤ va.toNat
  translated : (s.translate (s.xctx s.cur) va acc).1 = .ok pa
  left : u = (s.walkAcquire (s.xctx s.cur) va acc).keep s.cur (s.translate (s.xctx s.cur) va acc).2
  folded : ∀ i, i < n → s.fold (pa + i) = pa + i ∧ ((s.place (pa + i)).cached = (s.place pa).cached)
  plain : (s.place pa).cached = true ∨ ∃ slot off, s.place pa = .local_ slot off
  inLine : pa % n = 0
  filled : u.fillRefused (coreOf s.cur) s.h.ctx pa n (acc == .store) = false
  sound : ∀ i, i < n → u.badHeld (coreOf s.cur) (pa + i) = none

/-! ### Vector instructions (R127 to R150) -/

/-- Nothing keeps an instruction of the queue from running at its commit (R37, R307, R308): the schedule lets it run, no hart of the core has an
entry in its queue, the window is owned, the core's pending-write list is empty, and no cell of its plane is uncorrectable. -/
structure Idle (s : State) : Prop where
  runs : s.defer = false
  queues : ∀ h, coreOf h = coreOf s.cur → (s.hart h).queue = []
  owns : s.h.owns = true
  pending : (s.core (coreOf s.cur)).pend = []
  sound : (s.core (coreOf s.cur)).badPlane = []

/-- A name can be used with an element width and a number of elements (R44, R46, R125). -/
structure Usable (s : State) (r : Reg) (w n : Nat) : Prop where
  wf : (s.h.getDef r).wf = true
  width : (s.h.getDef r).width = w
  inside : ((s.h.getDef r).shape s.h.base).firstOutside s.h.windowRows = none
  holds : n ≤ ((s.h.getDef r).shape s.h.base).count

/-- TVAL of PLANE_BOUNDS (R47): the element that lies outside, saturated, its column and its row in 16 bits each, the reason and the entry. -/
def boundsOf (p : Shape) (reason entry e : Nat) : Nat :=
  Nat.min e 16383 * 2 ^ 48 + ((p.pos e).2 % 65536).toNat * 2 ^ 32 + ((p.pos e).1 % 65536).toNat * 2 ^ 16 + reason * 32 + entry

/-- What R46 finds wrong with a name that must hold n elements, as TVAL of PLANE_BOUNDS: 3 an entry that gives no shape, 1 an element outside the
window, 2 too few elements. -/
def State.nameFails (s : State) (r : Reg) (n : Nat) : Option Nat :=
  let p := (s.h.getDef r).shape s.h.base
  if (s.h.getDef r).wf = false then some (3 * 32 + r.toNat)
  else match p.firstOutside s.h.windowRows with
    | some e => some (boundsOf p 1 r.toNat e)
    | none => if p.count < n then some (boundsOf p 2 r.toNat p.count) else none

/-- Element e of a name now. -/
def State.el (s : State) (r : Reg) (e : Nat) : Nat := (s.core (coreOf s.cur)).elem (s.h.shapeOf r) e

/-- The elements that an instruction performs: from ESTART to VL - 1, active under mask k, where k = 0 is no mask (R11, R128). -/
def State.performs (s : State) (k : KReg) : List Nat :=
  (List.range s.h.vl.toNat).filter fun e => decide (s.h.estart.toNat ≤ e) && (k == 0 || (s.h.getK k).getLsbD e)

/-- What an instruction of elements does: the names it uses with their widths and the elements each must hold, its destination, its mask,
and for each element it performs the element of the destination that it writes, with the value and the flags, or nothing. -/
structure VecForm where
  names : List (Reg × Nat × Nat)
  dest : Reg
  mask : KReg
  piece : Nat → Option Piece

/-- The instruction completes: it has written the elements of its form and nothing else in the plane, their flags are in FCTL, ESTART is 0,
and the PC has gone on; every other register, cell and byte is as before. -/
def VecCompletes (i : Instr) (s : State) (v : VecForm) : Prop :=
  let l := (s.performs v.mask).filterMap v.piece
  let u := s.issues i
  CompletesOn i s u
    (Hart.advance { u.h with
      estart := 0
      fctl := s.h.fctl ||| ((l.foldl (fun (f : Flags) (p : Piece) => f ||| p.flags) 0) &&& 0xF8).setWidth 64 })
    (l.foldl (fun (c : Core) (p : Piece) => c.setElem (s.h.shapeOf v.dest) p.idx p.val) (u.core (coreOf s.cur)))

/-- The value of an integer pattern, signed for codes 0 to 3 (R27, R59). -/
def intOf (code v : Nat) : Int := if code < 4 then (if v % 2 ^ fmtWidth code < 2 ^ (fmtWidth code - 1) then (v % 2 ^ fmtWidth code : Nat)
  else (v % 2 ^ fmtWidth code : Nat) - 2 ^ fmtWidth code) else (v % 2 ^ fmtWidth code : Nat)

/-- wrap(k, fmt) as a pattern. -/
def wrapTo (code : Nat) (k : Int) : FRes := ((k % 2 ^ fmtWidth code).toNat, 0)

/-- OP of R135 and R140 for a format code, in the mode of FCTL.RM. -/
def opAdd (m : RMode) (f u v : Nat) : FRes :=
  if f < 8 then wrapTo f (intOf f u + intOf f v) else fadd m (ffmtOf f) (fdecode (ffmtOf f) u) (fdecode (ffmtOf f) v)
def opSub (m : RMode) (f u v : Nat) : FRes :=
  if f < 8 then wrapTo f (intOf f u - intOf f v) else fadd m (ffmtOf f) (fdecode (ffmtOf f) u) (fdecode (ffmtOf f) v).neg
def opMul (m : RMode) (f u v : Nat) : FRes :=
  if f < 8 then wrapTo f (intOf f u * intOf f v) else fmul m (ffmtOf f) (fdecode (ffmtOf f) u) (fdecode (ffmtOf f) v)
def opFma (m : RMode) (f o u v : Nat) : FRes :=
  if f < 8 then wrapTo f (intOf f o + intOf f u * intOf f v)
  else ffma m (ffmtOf f) (fdecode (ffmtOf f) u) (fdecode (ffmtOf f) v) (fdecode (ffmtOf f) o)
def opMin (f u v : Nat) : FRes := if f < 8 then (if intOf f v < intOf f u then v else u, 0) else fminmax false (ffmtOf f) u v
def opMax (f u v : Nat) : FRes := if f < 8 then (if intOf f u < intOf f v then v else u, 0) else fminmax true (ffmtOf f) u v
def opClamp (f o u v : Nat) : FRes := ((opMin f (opMax f o u).1 v).1, (opMax f o u).2 ||| (opMin f (opMax f o u).1 v).2)

/-- The arithmetic instructions (R135, R140). -/
def vecArithmetic (s : State) (i : Instr) : Option VecForm :=
  let n := s.h.vl.toNat
  let m := rmOfFctl s.h.fctl
  let E := s.el
  let X (f : BitVec 5) (b : Reg) : Nat := (s.h.getX b).toNat % 2 ^ fmtWidth f.toNat
  let vv (d a b : Reg) (f : BitVec 5) (k : KReg) (op : Nat → FRes) : Option VecForm :=
    some ⟨[(d, fmtWidth f.toNat, n), (a, fmtWidth f.toNat, n), (b, fmtWidth f.toNat, n)], d, k, fun e => some ⟨e, (op e).1, (op e).2⟩⟩
  let vx (d a : Reg) (f : BitVec 5) (k : KReg) (op : Nat → FRes) : Option VecForm :=
    some ⟨[(d, fmtWidth f.toNat, n), (a, fmtWidth f.toNat, n)], d, k, fun e => some ⟨e, (op e).1, (op e).2⟩⟩
  match i with
  | .vaddVv d a b f _ _ k => vv d a b f k fun e => opAdd m f.toNat (E a e) (E b e)
  | .vaddVx d a b f _ k => vx d a f k fun e => opAdd m f.toNat (E a e) (X f b)
  | .vsubVv d a b f _ _ k => vv d a b f k fun e => opSub m f.toNat (E a e) (E b e)
  | .vsubVx d a b f _ k => vx d a f k fun e => opSub m f.toNat (E a e) (X f b)
  | .vmulVv d a b f _ _ k => vv d a b f k fun e => opMul m f.toNat (E a e) (E b e)
  | .vmulVx d a b f _ k => vx d a f k fun e => opMul m f.toNat (E a e) (X f b)
  | .vfmaVv d a b f _ _ k => vv d a b f k fun e => opFma m f.toNat (E d e) (E a e) (E b e)
  | .vfmaVx d a b f _ k => vx d a f k fun e => opFma m f.toNat (E d e) (E a e) (X f b)
  | .vmin d a b f _ _ k => vv d a b f k fun e => opMin f.toNat (E a e) (E b e)
  | .vmax d a b f _ _ k => vv d a b f k fun e => opMax f.toNat (E a e) (E b e)
  | .vdiv d a b f _ _ k => vv d a b f k fun e => fdiv m (ffmtOf f.toNat) (fdecode (ffmtOf f.toNat) (E a e)) (fdecode (ffmtOf f.toNat) (E b e))
  | .vsqrt d a f _ k => vx d a f k fun e => fsqrt m (ffmtOf f.toNat) (fdecode (ffmtOf f.toNat) (E a e))
  | .vclamp d a b f _ _ k => vv d a b f k fun e => opClamp f.toNat (E d e) (E a e) (E b e)
  | _ => none

/-- Logic, shifts, select and moves on bit patterns (R134, R137 to R139, R147, R148, R145). -/
def vecPatterns (s : State) (i : Instr) : Option VecForm :=
  let n := s.h.vl.toNat
  let E := s.el
  let W (w : BitVec 2) : Nat := 8 * 2 ^ w.toNat
  let names2 (d a : Reg) (w : BitVec 2) : List (Reg × Nat × Nat) := [(d, W w, n), (a, W w, n)]
  let names3 (d a b : Reg) (w : BitVec 2) : List (Reg × Nat × Nat) := [(d, W w, n), (a, W w, n), (b, W w, n)]
  let logic (d a b : Reg) (w : BitVec 2) (k : KReg) (op : BitVec 64 → BitVec 64 → BitVec 64) : Option VecForm :=
    some ⟨names3 d a b w, d, k, fun e => some ⟨e, (op (BitVec.ofNat 64 (E a e)) (BitVec.ofNat 64 (E b e))).toNat % 2 ^ W w, 0⟩⟩
  let amount (b : Reg) (sh : BitVec 1) : Nat := if sh = 1 then b.toNat else (s.h.getX b).toNat
  let sx (w : BitVec 2) (u : Nat) : Int := if u < 2 ^ (W w - 1) then u else (u : Int) - 2 ^ W w
  match i with
  | .vand d a b w _ _ k => logic d a b w k fun u v => u &&& v
  | .vor d a b w _ _ k => logic d a b w k fun u v => u ||| v
  | .vxor d a b w _ _ k => logic d a b w k fun u v => u ^^^ v
  | .vandn d a b w _ _ k => logic d a b w k fun u v => u &&& ~~~v
  | .vorn d a b w _ _ k => logic d a b w k fun u v => u ||| ~~~v
  | .vsll d a b sh w _ k => some ⟨names2 d a w, d, k, fun e => some ⟨e, E a e * 2 ^ (amount b sh % W w) % 2 ^ W w, 0⟩⟩
  | .vsrl d a b sh w _ k => some ⟨names2 d a w, d, k, fun e => some ⟨e, E a e / 2 ^ (amount b sh % W w), 0⟩⟩
  | .vsra d a b sh w _ k =>
    some ⟨names2 d a w, d, k, fun e => some ⟨e, (sx w (E a e) / 2 ^ (amount b sh % W w) % 2 ^ W w).toNat, 0⟩⟩
  | .vsel d a b w _ _ k => some ⟨names3 d a b w, d, 0, fun e => some ⟨e, if (s.h.getK k).getLsbD e then E a e else E b e, 0⟩⟩
  | .vmv d a w _ k => some ⟨names2 d a w, d, k, fun e => some ⟨e, E a e, 0⟩⟩
  | .vbcast d b w => some ⟨[(d, W w, n)], d, 0, fun e => some ⟨e, (s.h.getX b).toNat % 2 ^ W w, 0⟩⟩
  | .vidx d st t f => some ⟨[(d, fmtWidth f.toNat, n)], d, 0, fun e =>
      some ⟨e, ((st.toInt + e * t.toInt) % 2 ^ fmtWidth f.toNat).toNat, 0⟩⟩
  | .vslideup d a b sh w _ k => some ⟨names2 d a w, d, k, fun e =>
      if amount b sh ≤ e then some ⟨e, E a (e - amount b sh), 0⟩ else none⟩
  | .vslidedn d a b sh w _ k => some ⟨names2 d a w, d, k, fun e =>
      if e + amount b sh < n then some ⟨e, E a (e + amount b sh), 0⟩ else some ⟨e, 0, 0⟩⟩
  | .vcompress d a w _ k => some ⟨names2 d a w, d, k, fun e =>
      some ⟨((List.range e).filter fun j => k == 0 || (s.h.getK k).getLsbD j).length, E a e, 0⟩⟩
  | .vexpand d a w _ k => some ⟨names2 d a w, d, k, fun e =>
      some ⟨e, E a ((List.range e).filter fun j => k == 0 || (s.h.getK k).getLsbD j).length, 0⟩⟩
  | _ => none

/-- Conversions element by element (R67, R141, R143): `n64` and the other integers wrap from integers and saturate from floats. -/
def opConvert (m : RMode) (dst src u : Nat) : FRes :=
  let rnd : RMode := if dst < 11 then m else .rne
  let lo : Int := if dst < 4 then -2 ^ (fmtWidth dst - 1) else 0
  let hi : Int := if dst < 4 then 2 ^ (fmtWidth dst - 1) - 1 else 2 ^ fmtWidth dst - 1
  if src < 8 then (if dst < 8 then wrapTo dst (intOf src u) else fofInt rnd (ffmtOf dst) (intOf src u) 0 false)
  else if dst < 8 then ((wrapTo dst (ftoInt m lo hi (fdecode (ffmtOf src) u)).1).1, (ftoInt m lo hi (fdecode (ffmtOf src) u)).2)
  else fconvert rnd (ffmtOf dst) (fdecode (ffmtOf src) u)

/-- A value times a power of two. -/
def timesPow (v : FVal) (x : Int) : FVal :=
  match v with
  | .fin g m e => .fin g m (e + x)
  | .inf g => .inf g
  | .nan q => .nan q

/-- VCVT and VCVTSW. For VCVTSW the field f is 3 × wide + narrow, the wide formats f32, f16, bf16 and the narrow ones e4m3, e5m2, e2m1; the
scale of a block of B elements is element e / B of vb, 2^(code - 127), and code 255 gives a NaN (R69, R72). -/
def vecConversions (s : State) (i : Instr) : Option VecForm :=
  let n := s.h.vl.toNat
  let m := rmOfFctl s.h.fctl
  let B := 8 * 2 ^ (s.h.vtype.toNat / 128 % 4)
  match i with
  | .vcvt d a f _ k src => some ⟨[(d, fmtWidth f.toNat, n), (a, fmtWidth src.toNat, n)], d, k, fun e =>
      some ⟨e, (opConvert m f.toNat src.toNat (s.el a e)).1, (opConvert m f.toNat src.toNat (s.el a e)).2⟩⟩
  | .vcvtsw d a b f _ _ k =>
    if s.h.vtype.toNat / 128 % 4 = 0 then none
    else
      let wide := 8 + f.toNat / 3
      let narrow := 11 + f.toNat % 3
      let r (e : Nat) : FRes := if s.el b (e / B) = 255 then ((ffmtOf wide).nan, 0)
        else fconvert m (ffmtOf wide) (timesPow (fdecode (ffmtOf narrow) (s.el a e)) ((s.el b (e / B) : Int) - 127))
      some ⟨[(d, fmtWidth wide, n), (a, fmtWidth narrow, n), (b, 8, (n + B - 1) / B)], d, k, fun e => some ⟨e, (r e).1, (r e).2⟩⟩
  | _ => none

/-- What an instruction into a mask register does: its names, its destination, its mask, and the bit and flags of each element. -/
structure MaskForm where
  names : List (Reg × Nat × Nat)
  dest : KReg
  mask : KReg
  bit : Nat → Bool
  flags : Nat → Flags

/-- The instruction completes: the bits it performs are written to its mask register and every other bit of it kept. -/
def MaskCompletes (i : Instr) (s : State) (v : MaskForm) : Prop :=
  ∃ m : BitVec 8192, CompletesOn i s (s.issues i)
      (Hart.advance { (s.issues i).h.setK v.dest m with
        estart := 0
        fctl := s.h.fctl ||| (((s.performs v.mask).foldl (fun (f : Flags) e => f ||| v.flags e) 0) &&& 0xF8).setWidth 64 })
      ((s.issues i).core (coreOf s.cur)) ∧
    ∀ e, e < 8192 → m.getLsbD e = if e ∈ s.performs v.mask then v.bit e else (s.h.getK v.dest).getLsbD e

/-- The conditions of R136: 0 EQ, 1 NE, 2 LT, 3 LE, on the patterns of a format code. -/
def holds (cond f u v : Nat) : Bool :=
  if f < 8 then
    (if cond = 0 then decide (intOf f u = intOf f v) else if cond = 1 then decide (intOf f u ≠ intOf f v)
      else if cond = 2 then decide (intOf f u < intOf f v) else decide (intOf f u ≤ intOf f v))
  else
    let x := fdecode (ffmtOf f) u
    let y := fdecode (ffmtOf f) v
    if cond = 0 then feqv x y else if cond = 1 then !feqv x y else if cond = 2 then fltv x y else fltv x y || feqv x y

/-- NV of a comparison: LT and LE of a signalling NaN. -/
def holdsFlags (cond f u v : Nat) : Flags :=
  if f < 8 ∨ cond < 2 then 0 else fsnan (fdecode (ffmtOf f) u) ||| fsnan (fdecode (ffmtOf f) v)

/-- Comparisons, mask operations and conflict detection (R136, R146, R150). -/
def maskForm (s : State) (i : Instr) : Option MaskForm :=
  let n := s.h.vl.toNat
  let E := s.el
  let K (k : KReg) (e : Nat) : Bool := (s.h.getK k).getLsbD e
  let X (f : BitVec 5) (b : Reg) : Nat := (s.h.getX b).toNat % 2 ^ fmtWidth f.toNat
  let vv (c : Nat) (d : KReg) (a b : Reg) (f : BitVec 5) (k : KReg) : Option MaskForm :=
    some ⟨[(a, fmtWidth f.toNat, n), (b, fmtWidth f.toNat, n)], d, k, fun e => holds c f.toNat (E a e) (E b e),
      fun e => holdsFlags c f.toNat (E a e) (E b e)⟩
  let vx (c : Nat) (d : KReg) (a b : Reg) (f : BitVec 5) (k : KReg) : Option MaskForm :=
    some ⟨[(a, fmtWidth f.toNat, n)], d, k, fun e => holds c f.toNat (E a e) (X f b), fun e => holdsFlags c f.toNat (E a e) (X f b)⟩
  let km (d : KReg) (b : Nat → Bool) : Option MaskForm := some ⟨[], d, 0, b, fun _ => 0⟩
  match i with
  | .vcmpeqVv d a b f _ _ k => vv 0 d a b f k
  | .vcmpneVv d a b f _ _ k => vv 1 d a b f k
  | .vcmpltVv d a b f _ _ k => vv 2 d a b f k
  | .vcmpleVv d a b f _ _ k => vv 3 d a b f k
  | .vcmpeqVx d a b f _ k => vx 0 d a b f k
  | .vcmpneVx d a b f _ k => vx 1 d a b f k
  | .vcmpltVx d a b f _ k => vx 2 d a b f k
  | .vcmpleVx d a b f _ k => vx 3 d a b f k
  | .vconfl d a f _ k => some ⟨[(a, fmtWidth f.toNat, n)], d, k,
      fun e => (List.range e).all fun j => !(k == 0 || K k j) || E a j != E a e, fun _ => 0⟩
  | .kand d a b => km d fun e => K a e && K b e
  | .kor d a b => km d fun e => K a e || K b e
  | .kxor d a b => km d fun e => K a e != K b e
  | .kandn d a b => km d fun e => K a e && !K b e
  | .knot d a => km d fun e => !K a e
  | _ => none

/-- The active elements of block b of length B below VL (R69, R70). -/
def State.blockElems (s : State) (k : KReg) (B b : Nat) : List Nat :=
  (List.range s.h.vl.toNat).filter fun e => decide (e / B = b) && (k == 0 || (s.h.getK k).getLsbD e)

/-- A scaled narrowing of R70 into format `dst`: for each block from ESTART's on with an active element, the scale written into `vs`, then,
with `vd`, its elements. -/
def narrowWrites (s : State) (vd : Option Reg) (vs va : Reg) (k : KReg) (src dst B : Nat) : List (Reg × Piece) :=
  (List.range ((s.h.vl.toNat + B - 1) / B)).flatMap fun b =>
    let l := s.blockElems k B b
    if b < s.h.estart.toNat / B ∨ l = [] ∨ s.h.vl.toNat ≤ s.h.estart.toNat then []
    else
      let sc := blockScale dst (l.map fun e => fdecode (ffmtOf src) (s.el va e))
      let one (e : Nat) : FRes := match sc.2.1 with
        | none => (0, 0)
        | some x => fconvert .rne (ffmtOf dst) (timesPow (fdecode (ffmtOf src) (s.el va e)) (-x))
      (vs, ⟨b, sc.1, sc.2.2⟩) :: match vd with
        | none => []
        | some d => l.map fun e => (d, ⟨e, (one e).1, (one e).2⟩)

/-- Format code of a reduction's type (R87): f32, f16, bf16, i32, n32, i64, n64. -/
def reductionCode (t : Nat) : Nat :=
  if t = 0 then 8 else if t = 1 then 9 else if t = 2 then 10 else if t = 3 then 2 else if t = 4 then 6 else if t = 5 then 3 else 7

/-- A page's address. -/
def pageVa (va : Word) : Word := BitVec.ofNat 64 (va.toNat / 4096 * 4096)

/-- Of the elements `l` of a vector access, `e` is the lowest one that is not translated, refused with a reason of R350; no page is walked for. -/
structure FirstRefused (s : State) (l : List Nat) (va : Nat → Word) (acc : Access) (n e reason : Nat) : Prop where
  mem : e ∈ l
  aligned : ∀ j ∈ l, (va j).toNat % n = 0
  known : ∀ j ∈ l, s.walkAcquire (s.xctx s.cur) (pageVa (va j)) acc = s ∧ (s.translate (s.xctx s.cur) (pageVa (va j)) acc).2 = none
  refused : (s.translate (s.xctx s.cur) (pageVa (va e)) acc).1 = .refused reason
  below : ∀ j ∈ l, j < e → ∃ pa, (s.translate (s.xctx s.cur) (pageVa (va j)) acc).1 = .ok pa ∧
    (acc = .store → s.storeRefused (pa + (va j).toNat % 4096) n = false)

/-! ### Engine commands (R195) -/

/-- Nothing keeps an engine command from issuing at its commit (R195, R307): the schedule lets it run, no hart of the core has an entry in its
queue, stores are performed at once, and the hart has room for an operation. -/
structure CanIssue (s : State) : Prop where
  runs : s.defer = false
  queues : ∀ h, coreOf h = coreOf s.cur → (s.hart h).queue = []
  prompt : Prompt s
  room : s.opCount s.cur < 16

/-- The operation that a hart's next command without an object puts in flight, from a state. -/
def State.opOf (u : State) (h : Nat) (kind : OpKind) (prog : Nat) : Op :=
  { id := u.nextOp, h := h, kernel := (u.hart h).kernel, x := u.xctx h, kind := kind, objVa := 0, objPa := none,
    pc := (u.hart h).pc, prog := prog, parked := none, done := [] }

/-- The command has issued: of the state `u` that its charge and its reads left, its operation is in flight, the hart's core is `k`, the hart goes on, and
nothing else differs. -/
def IssuesOn (i : Instr) (s u : State) (kind : OpKind) (prog : Nat) (k : Core) : Prop :=
  ∃ t, exec i s = .next t ∧ t.hart s.cur = (u.hart s.cur).advance ∧ (∀ h, h ≠ s.cur → t.hart h = u.hart h) ∧
    t.core (coreOf s.cur) = k ∧ (∀ c, c ≠ coreOf s.cur → t.core c = u.core c) ∧
    t.SameButUnits { u with ops := u.ops ++ [u.opOf s.cur kind prog], nextOp := u.nextOp + 1 }

/-- The command has issued and its core is as its reads left it. -/
def Issues (i : Instr) (s u : State) (kind : OpKind) (prog : Nat) : Prop := IssuesOn i s u kind prog (u.core (coreOf s.cur))

/-- The hart may use a tile (R155): below 512, and free, its own, or at supervisor privilege (R336). -/
def MayUseTile (s : State) (v : Word) : Prop :=
  v.toNat < 512 ∧ (s.h.sup = true ∨ ((s.core (coreOf s.cur)).tile v.toNat).owner = none ∨
    ((s.core (coreOf s.cur)).tile v.toNat).owner = some s.h.ctx)

/-- A row descriptor and row address that R206 accepts. -/
def RowsOkay (row desc : Word) : Prop :=
  (∃ n, 5 ≤ n ∧ n ≤ 12 ∧ desc.toNat % 65536 = 2 ^ n) ∧ row.toNat % 32 = 0 ∧ desc.toNat / 65536 % 32 = 0

/-- Round up to a multiple of 64. -/
def ceil64 (n : Nat) : Nat := (n + 63) / 64 * 64

/-- The code of a tile's state (R154). -/
def tileCode (t : Tile) : Nat := if t.st = .empty then 0 else if t.st = .filling then 1 else if t.st = .ready then 2 else 3

/-! ### The matrix engine (R152 to R167) -/

/-- K of a format, and the planes of a bit-plane format (R162). -/
def depthOf (code : Nat) : Nat := if code = 9 ∨ code = 10 then 32 else if code = 13 then 128 else 64
def planesFor (code : Nat) : Nat := if 16 ≤ code then code - 14 else 0

/-- The loop of R76 over n pairs: groups of four, each summed exactly, one rounding to nearest even a group; NV and OF alone. -/
def sumR76 (acc n : Nat) (p : Nat → FVal × FVal) : FRes :=
  (List.range ((n + 3) / 4)).foldl (fun (r : FRes) (g : Nat) =>
    let z := ((List.range n).filter fun k => k / 4 = g).foldl (fun (z : FVal) (k : Nat) => groupAdd z (p k)) (.fin false 0 0)
    let q := fadd .rne fmtF32 (fdecode fmtF32 r.1) z
    (q.1, r.2 ||| matrixFlags q.2)) (acc, 0)

/-- An element with its block scale (R72): a scale of 255 is a NaN. -/
def withScale (code sc q : Nat) : FVal := if sc = 255 then .nan false else timesPow (fdecode (ffmtOf code) q) ((sc : Int) - 127)

/-- Element (m, k) of an integer operand A of n columns: an i8, or the two's-complement value whose bits the planes hold, the highest in
row 0 (R74, R162). -/
def State.matrixA (s : State) (va : Reg) (code n m k : Nat) : Int :=
  let P := planesFor code
  if P = 0 then intOf 0 (s.el va (m * n + k))
  else
    let v := (List.range P).foldl (fun (b : Nat) (j : Nat) => 2 * b + s.el va (j * (s.h.shapeOf va).cols + 64 * m + k)) 0
    if v < 2 ^ (P - 1) then v else (v : Int) - 2 ^ P

/-- row_update of R163 for cell (m, n) of the block: `acc` is the cell before and `tile` the tile's 4,096 bytes as one number. -/
def State.matrixUpdate (s : State) (v : MmaKind) (va : Reg) (code B tile acc m n : Nat) : FRes :=
  let K := depthOf code
  let len := if v = .sparse then (s.h.shapeOf va).cols else K
  let w := if 16 ≤ code then 8 else fmtWidth code
  let T (k : Nat) : Nat := tile / 2 ^ ((64 * k + n) * w) % 2 ^ w
  let idx (k : Nat) : Nat := if v = .sparse then s.el (va + 1) (m * len + k) else k
  if code = 0 ∨ 16 ≤ code then
    let z := (List.range len).foldl (fun (z : Int) (k : Nat) =>
      if idx k < K then z + s.matrixA va code len m k * intOf 0 (T (idx k)) else z) (intOf 2 acc)
    ((z % 2 ^ 32).toNat, 0)
  else
    sumR76 acc len fun k =>
      if K ≤ idx k then (.fin false 0 0, .fin false 0 0)
      else if v = .scaled then
        (withScale code (s.el (va + 1) (m * (K / B) + k / B)) (s.el va (m * len + k)), withScale code (s.el (va + 2) (k / B * 64 + n)) (T k))
      else (fdecode (ffmtOf code) (s.el va (m * len + k)), fdecode (ffmtOf code) (T (idx k)))

/-- Nothing keeps a matrix instruction from running at its commit: besides `Idle`, no accumulator cell is uncorrectable. -/
structure MatrixIdle (s : State) : Prop extends Idle s where
  acc : (s.core (coreOf s.cur)).badAcc = []

/-- Number of cell (i, j) of the block at an origin in the acting hart's region (R152, R153). -/
def State.blockCell (s : State) (o : Word) (i j : Nat) : Nat := 128 * (s.h.base / 2 + o.toNat % 256 + i) + (o.toNat / 256 % 256 + j)

/-- A block of R rows and C columns at an origin lies in the region (R153). -/
def State.blockFits (s : State) (o : Word) (R C : Nat) : Prop :=
  o.toNat % 256 + R ≤ s.h.windowRows / 2 ∧ o.toNat / 256 % 256 + C ≤ 128

/-- Cells (i, j) of the block, with i from ESTART to R - 1 and j below C, hold `val i j`; every other cell of the store is as before. -/
def State.blockHolds (s : State) (k : Core) (o : Word) (R C : Nat) (val : Nat → Nat → Nat) : Prop :=
  (∀ i j, s.h.estart.toNat ≤ i → i < R → j < C → k.accCell (s.blockCell o i j) = val i j % 2 ^ 32) ∧
  (∀ q, (∀ i j, s.h.estart.toNat ≤ i → i < R → j < C → q ≠ s.blockCell o i j) → k.accCell q = (s.core (coreOf s.cur)).accCell q)

/-- The flags of cells (i, j) of the block from ESTART's row on. -/
def State.blockFlags (s : State) (R C : Nat) (fl : Nat → Nat → Flags) : Flags :=
  (((List.range R).filter fun i => s.h.estart.toNat ≤ i).flatMap fun i => (List.range C).map fun j => fl i j).foldl (fun f g => f ||| g) 0

/-! ### Vector memory instructions (R189 to R194) -/

/-- The sampler of the acting hart's core is off, and no watchpoint is enabled (R385, R391). -/
def State.unobserved (s : State) : Prop := s.unwatched ∧ (s.core (coreOf s.cur)).samp0.getLsbD 0 = false

/-- An element of n bytes at a virtual address reaches memory at `pa`: its page is translated (R192), its bytes are folded, lie in cached
memory or a local store, no other chip refuses them, and none of them is uncorrectable. -/
structure Lands (s : State) (va : Word) (acc : Access) (n pa : Nat) : Prop where
  prompt : Prompt s
  outside : s.h.sup = false ∨ va.toNat < 0x1000 ∨ 0x4000 ≤ va.toNat
  aligned : va.toNat % n = 0
  page : va.toNat % 4096 ≤ pa ∧
    s.translate (s.xctx s.cur) (BitVec.ofNat 64 (va.toNat / 4096 * 4096)) acc = (.ok (pa - va.toNat % 4096), none)
  inLine : pa % n = 0
  folded : ∀ i, i < n → s.fold (pa + i) = pa + i ∧ ((s.place (pa + i)).cached = (s.place pa).cached)
  plain : (s.place pa).cached = true ∨ ∃ slot off, s.place pa = .local_ slot off
  filled : s.fillRefused (coreOf s.cur) s.h.ctx pa n (acc == .store) = false
  sound : ∀ i, i < n → s.badHeld (coreOf s.cur) (pa + i) = none

/-- A store of n bytes at `pa` is not refused, whatever is stored before it: no merge is open. -/
def State.takesStore (s : State) (pa n : Nat) : Prop := s.storeRefused pa n = false ∧ ∀ e ∈ s.camps, e.2.merge.st = .free

/-- The byte that the acting hart's core sees at `q` after elements `l` were stored in ascending order, element e as the n bytes of `val e`
at `pa e`: the last that covers it wins (R191). -/
def State.seenAfter (s : State) (l : List Nat) (pa : Nat → Nat) (n : Nat) (val : Nat → Nat) (q : Nat) : Byte :=
  l.foldl (fun (b : Byte) (e : Nat) => if pa e ≤ q ∧ q < pa e + n then BitVec.ofNat 8 (val e / 2 ^ (8 * (q - pa e))) else b)
    (s.seen (coreOf s.cur) q)

/-- What a store leaves: the bytes that its core sees are those of `seenAfter`, no byte at its home outside the elements changes, and no
plane cell and no other hart's registers or PC change. -/
structure Stored (s t : State) (l : List Nat) (pa : Nat → Nat) (n : Nat) (val : Nat → Nat) : Prop where
  bytes : ∀ q, t.seen (coreOf s.cur) q = s.seenAfter l pa n val q
  home : ∀ q, (∀ e ∈ l, ¬(pa e ≤ q ∧ q < pa e + n)) → t.mem.read q = s.mem.read q
  planes : ∀ c, (t.core c).plane = (s.core c).plane
  others : ∀ h, h ≠ s.cur → (t.hart h).x = (s.hart h).x ∧ (t.hart h).pc = (s.hart h).pc

/-- The n bytes from `pa` on as the acting hart's core sees them, lowest first, as a number. -/
def State.seenNat (s : State) (pa n : Nat) : Nat := leNat ((List.range n).map fun j => s.seen (coreOf s.cur) (pa + j))

/-- What a load leaves of its core: the plane with the elements written, the accumulator and the tiles as before, and every byte as the
core saw it. -/
structure Loaded (s : State) (k : Core) (d : Reg) (l : List Nat) (val : Nat → Nat) : Prop where
  plane : k.plane = (l.foldl (fun (c : Core) (e : Nat) => c.setElem (s.h.shapeOf d) e (val e)) (s.core (coreOf s.cur))).plane
  acc : k.acc = (s.core (coreOf s.cur)).acc
  tiles : k.tiles = (s.core (coreOf s.cur)).tiles
  bytes : ∀ q, (s.setCore (coreOf s.cur) k).seen (coreOf s.cur) q = s.seen (coreOf s.cur) q

/-- The elements that an indexed instruction performs: those not yet done before a stop (R193). -/
def State.indexed (s : State) (k : KReg) : List Nat := (s.performs k).filter fun e => !s.h.edone.getLsbD e

/-- Address of element e of an indexed instruction with elements of n bytes (R189). -/
def State.indexVa (s : State) (a b : Reg) (n e : Nat) : Word := s.h.getX a + BitVec.ofNat 64 (n * s.el b e)

/-- Bits of a mask of elements cleared. -/
def clearBits (m : BitVec 8192) (l : List Nat) : BitVec 8192 :=
  l.foldl (fun (m : BitVec 8192) (e : Nat) => m &&& ~~~((1 : BitVec 8192) <<< e)) m

/-- The acting hart of `u`, after the charge of the issue, once an indexed instruction has completed (R193). -/
def State.indexedDone (s u : State) (k : KReg) : Hart :=
  { u.h with estart := 0, edone := 0, fmask := clearBits s.h.fmask (s.indexed k) }

/-- The acting hart after INDEX_FAULT (R193, R194): `a` is as `u` but for ESTART, the least of the elements `F` on the one refused page, the masks,
and the page with its reason in the translation record. Of the elements `l`, those outside `F` have been performed. -/
def State.IndexFaulted (s : State) (u a : Hart) (l F : List Nat) (page : Word) (reason : Nat) (store : Bool) : Prop :=
  ∃ done mask : BitVec 8192,
    a = Hart.trapTo { u with
        estart := BitVec.ofNat 64 (F.headD 0)
        edone := done
        fmask := mask
        batch := [(page, reason)] } (s.camp (campOf s.cur)).entrypc ⟨7, page + if store then 512 else 0, some (F.headD 0)⟩ s.h.pc ∧
    (∀ e, done.getLsbD e = (decide (F.headD 0 ≤ e) && (s.h.edone.getLsbD e || decide (e ∈ l ∧ e ∉ F)))) ∧
    ∀ e, mask.getLsbD e = (decide (e ∈ F) || (s.h.fmask.getLsbD e && decide (e ∉ l)))

/-- The elements of an indexed access that lie on a page whose translation is refused with a reason of R350; no walk is made for it. -/
structure RefusedPage (s : State) (acc : Access) (va : Nat → Word) (l F : List Nat) (page : Word) (reason : Nat) : Prop where
  length : s.h.vl.toNat ≤ 8192
  base : page.toNat % 4096 = 0
  refused : (s.translate (s.xctx s.cur) page acc).1 = .refused reason
  known : s.walkAcquire (s.xctx s.cur) page acc = s
  elems : F = l.filter fun e => pageVa (va e) = page
  some_ : F ≠ []

/-- The byte that a read-only load sees at `q`: the core's read-only line where it holds one, else the byte at its home (R191). -/
def State.roByte (s : State) (q : Nat) : Byte := match (s.core (coreOf s.cur)).ro.find? (q / 64) with
  | some x => x.getD (q % 64) 0
  | none => s.homeByte q

/-! ### The merge network, atomics and system instructions (R244, R289 to R302) -/

/-- The instruction completes with a change of the network of the acting hart's camp: of the state `u` that its reads left, the hart is then
`a` and the network `m`, and nothing else differs. -/
def NetCompletes (i : Instr) (s u : State) (a : Hart) (m : Merge) : Prop :=
  ∃ t, exec i s = .next t ∧ t.hart s.cur = a ∧ (∀ h, h ≠ s.cur → t.hart h = u.hart h) ∧ (∀ c, t.core c = u.core c) ∧
    (∀ c, t.camp c = if c = campOf s.cur then { u.camp c with merge := m } else u.camp c) ∧
    { t with harts := u.harts, cores := u.cores, camps := u.camps } = u

/-- The hart's context and kernel hold the network of its camp. -/
def HoldsNet (s : State) : Prop :=
  (s.camp (campOf s.cur)).merge.st ≠ .free ∧ (s.camp (campOf s.cur)).merge.owner = some (s.h.ctx, s.h.kernel)

/-- A byte of memory lies in cached memory at a folded address, is sound, and both a load and a store of the acting hart reach it at `pa`. -/
def Plain (s : State) (va : Word) (pa : Nat) : Prop :=
  (∀ acc, acc = .load ∨ acc = .store → Reaches s va acc 1 pa s) ∧ (s.place pa).cached = true

/-- The value that an atomic of n bytes writes: R243's table, on the n-byte patterns. -/
def atomicValue (op n old y : Nat) : Nat :=
  let S (v : Nat) : Int := if v < 2 ^ (8 * n - 1) then v else (v : Int) - 2 ^ (8 * n)
  if op = 0 then (old + y) % 2 ^ (8 * n) else if op = 1 then old &&& y else if op = 2 then old ||| y else if op = 3 then old ^^^ y
  else if op = 4 then (if S y < S old then y else old) else if op = 5 then (if S old < S y then y else old)
  else if op = 6 then Nat.min old y else if op = 7 then Nat.max old y else y

/-! ### Waits (R237 to R262) -/

/-- A hart after a wait that finished OK: the status word in x[d], LAST and CNT of DLSTAT zero, CAPHIT kept, and no wait (R18, R34). -/
def Hart.waited (a : Hart) (d : Reg) (st : Word) : Hart := (Hart.setX { a with dlstat := a.dlstat &&& 0x10000, wait := none } d st).advance

/-- Nothing keeps a waiting instruction from beginning: stores are performed at once, no entry is before it, no wait stands, and the core has no
monitor armed. -/
structure MayWait (s : State) : Prop where
  prompt : Prompt s
  queue : s.h.queue = []
  wait : s.h.wait = none
  begun : s.h.tileSince = none
  monitors : (s.core (coreOf s.cur)).monitors = []

/-- The wait finishes at its first attempt and leaves the acting hart as `a`: every other hart, every plane, every byte that any core sees
and every byte at its home are as before. -/
def WaitEnds (i : Instr) (s : State) (a : Hart) : Prop :=
  ∃ t, exec i s = .next t ∧ t.hart s.cur = a ∧ (∀ h, h ≠ s.cur → t.hart h = s.hart h) ∧
    (∀ c, (t.core c).plane = (s.core c).plane ∧ (t.core c).tiles = (s.core c).tiles ∧ ∀ q, t.seen c q = s.seen c q) ∧
    t.mem = s.mem ∧ t.kernels = s.kernels ∧ t.ops = s.ops ∧ t.arrivals = s.arrivals + 1

/-- The wait finishes and has stored: the acting hart is then `a`, its core sees the bytes `new` gives, and nothing else is lost. -/
def WaitStores (i : Instr) (s : State) (a : Hart) (new : Nat → Option Byte) : Prop :=
  ∃ t, exec i s = .next t ∧ t.hart s.cur = a ∧ (∀ q, t.seen (coreOf s.cur) q = (new q).getD (s.seen (coreOf s.cur) q)) ∧
    (∀ c, (t.core c).plane = (s.core c).plane) ∧ ∀ h, h ≠ s.cur → (t.hart h).x = (s.hart h).x ∧ (t.hart h).pc = (s.hart h).pc

/-- The bytes of an n-byte number at an address. -/
def bytesAt (pa n v : Nat) (q : Nat) : Option Byte := if pa ≤ q ∧ q < pa + n then some (BitVec.ofNat 8 (v / 2 ^ (8 * (q - pa)))) else none

/-- An object lies where every scope from hart to device has it: in device memory or a local store. -/
def State.inside (s : State) (pa : Nat) : Prop := (∃ off, s.place pa = .device off) ∨ ∃ slot off, s.place pa = .local_ slot off

/-- The core of the acting hart holds no line, no permission, and its harts no link. -/
structure CoreBare (s : State) : Prop where
  l2 : (s.core (coreOf s.cur)).l2 = []
  perms : (s.core (coreOf s.cur)).perms = []
  links : ∀ h, coreOf h = coreOf s.cur → (s.hart h).links = []

/-! ### Events of the vector queue (R307 to R335) -/

/-- A hart that runs with one entry in its queue, which has not ended and whose probe has been made, alone on its core and with no stop unit
enabled and no halt arrived. -/
structure Alone (s : State) (h : Nat) (e : QEntry) : Prop where
  runs : (s.hart h).run = .running
  free : (s.hart h).frozen = false
  queue : (s.hart h).queue = [e]
  trap : e.trap = none
  going : e.ended = false ∧ e.settled = true ∧ e.parts = []
  units : ∀ u ∈ (s.hart h).stops.toList, u.w0.getLsbD 0 = false
  skid : (s.hart h).skid = none
  others : ∀ g, coreOf g = coreOf h → g ≠ h → (s.hart g).queue = []

/-- An issued KAND of one group that has performed nothing. -/
structure IssuedKand (e : QEntry) (d a b : KReg) : Prop where
  instr : e.instr = .kand d a b
  issued : e.issued ≠ none
  start : e.startsAt = 0
  len : 1 ≤ e.len ∧ e.len ≤ 2048
  whole : e.whole = false
  begun : e.begun = Vector.replicate 4 0
  flags : e.flags = []
  frames : e.frames = []
  sampled : e.sampled = none

/-- The result of a KAND of n elements on a hart: the bits below n of k[d]; every other mask register is as before. -/
def KandDone (t u : Hart) (d a b : KReg) (n : Nat) : Prop :=
  (∀ j, (t.getK d).getLsbD j = if j < n then (u.getK a).getLsbD j && (u.getK b).getLsbD j else (u.getK d).getLsbD j) ∧
    ∀ c, c ≠ d → t.getK c = u.getK c

/-- Registers of a hart after a trap: what R335 saves. -/
def TrapTaken (t : Hart) (entry : Word) (code : Nat) (tval pc : Word) : Prop :=
  t.hstat.getLsbD 0 = true ∧ t.tcause = BitVec.ofNat 64 (code + if code = 32 then 2 ^ 63 else 0) ∧ t.tval = tval ∧
    t.trappc = canonical pc &&& ~~~3 ∧ t.pc = entry ∧ t.queue = [] ∧ t.wait = none ∧ t.links = []

/-- A wait on a tile's READY (TILEWAIT, class 0) that a hart stands in, and whose core has no monitor armed. -/
structure WaitsOnTile (s : State) (h : Nat) (w : Wait) : Prop where
  runs : (s.hart h).run = .running
  free : (s.hart h).frozen = false
  skid : (s.hart h).skid = none
  queue : (s.hart h).queue = []
  wait : (s.hart h).wait = some w
  instr : ∃ d a b, w.instr = .tilewait d a b 0
  given : w.given = none
  monitors : (s.core (coreOf h)).monitors = []

/-! ### Events of the engines (R155, R187 to R214, R251, R276, R298 to R300) -/

/-- An operation that is the only one in flight, is not parked, has no completion object, and where it stores to SATP or CTX its hart's queue is empty
(R349). -/
structure OnlyOp (s : State) (o : Op) : Prop where
  ops : s.ops = [o]
  parked : o.parked = none
  object : o.objPa = none
  roots : o.roots = true → (s.hart o.h).queue = []

/-- The event ends the operation: of the state `u` that its accesses left, nothing else changes. -/
def OpEnds (i : Instr) (s u : State) : Prop := exec i s = .next { u with ops := [] }

/-- The event ends the operation and leaves one tile of a core as `v`; every other tile of it, and everything else, is as `u`. -/
def TileEnds (i : Instr) (s u : State) (c n : Nat) (v : Tile) : Prop :=
  ∃ t, exec i s = .next t ∧ t.ops = [] ∧ (∀ m, (t.core c).tile m = if m = n then v else (u.core c).tile m) ∧
    (t.core c).plane = (u.core c).plane ∧ (∀ k, k ≠ c → t.core k = u.core k) ∧ (∀ h, t.hart h = u.hart h) ∧ t.mem = u.mem

/-! ### Events of the host and the device's controllers (R178 to R420) -/

/-- n bytes of device memory within one line, at their folded address, that a write at their home changes: no store is refused there, the
line's tag is sound, the frame-key table is unset and its key slot open, and nothing is watched. -/
structure HomeWritable (s : State) (pa n : Nat) : Prop where
  base : s.hdm % 256 = 0
  inHdm : s.hdm ≤ pa ∧ pa + n ≤ s.hdm + Config.hdmLen
  inLine : pa % 256 + n ≤ 256
  taken : s.storeRefused pa n = false
  sound : ∀ i, i < n → s.badAt (pa + i) = none
  keys : s.frameKeys = 0 ∧ (s.keySlot 0).isOpen = true
  unwatched : s.unwatched

/-- No core keeps a vector store that has not been performed. -/
def State.landed (s : State) : Prop := ∀ c, (s.core c).stores = []

/-- No core has link permission for a line. -/
def State.permitsNone (s : State) (line : Nat) : Prop := ∀ e ∈ s.cores, line ∉ e.2.perms

/-- The device with one hart changed. -/
def HartBecomes (i : Instr) (s : State) (h : Nat) (a : Hart) : Prop :=
  ∃ t, exec i s = .next t ∧ t.hart h = a ∧ (∀ g, g ≠ h → t.hart g = s.hart g) ∧ t.SameButHarts s

/-- The device with one camp changed. -/
def CampBecomes (i : Instr) (s : State) (p : Nat) (c : Camp) : Prop :=
  ∃ t, exec i s = .next t ∧ t.camp p = c ∧ (∀ q, q ≠ p → t.camp q = s.camp q) ∧ { t with camps := s.camps } = s

/-- The device with one host queue changed. -/
def QueueBecomes (i : Instr) (s : State) (q : Nat) (v : HostQueue) : Prop :=
  ∃ t, exec i s = .next t ∧ t.queue q = v ∧ (∀ j, j ≠ q → t.queue j = s.queue j) ∧
    { t with queues := s.queues, arrivals := s.arrivals } = s

/-- The record at the head of the translation ring is `r`, and it names no completion object. -/
structure Posted (s : State) (r : List Byte) : Prop where
  record : ∃ pa, s.ringSlot = some pa ∧ s.ringRecord pa = some r
  object : fieldAt r 48 8 = 0

/-! ### Events of the fabric, of debug, of the clock and of power (R366 to R373, R377 to R388, R410 to R414) -/

/-- The device with one port changed, and HEALTH. -/
def PortBecomes (i : Instr) (s : State) (n : Nat) (p : Port) (health : Word) : Prop :=
  ∃ t, exec i s = .next t ∧ (∀ j, (h : j < 16) → t.fabric.ports[j] = if j = n then p else s.fabric.ports[j]) ∧ t.health = health ∧
    { t with fabric := { t.fabric with ports := s.fabric.ports }, health := s.health } = s

/-- A hart `b` is `a` stopped and frozen: FROZ, CAUSE, UNIT, EIDX and CTX of DSTAT, no skid, no level armed, no link. -/
structure Froze (a b : Hart) (cause unit : Nat) : Prop where
  rest : b = { a with
    frozen := true
    stepping := none
    dstat := b.dstat
    dskid := 0
    loops := Vector.replicate 6 none
    links := [] }
  froz : b.dstat.toNat % 2 = 1
  cause : b.dstat.toNat / 2 ^ 20 % 8 = cause % 8
  unit : b.dstat.toNat / 2 ^ 16 % 16 = unit % 16
  undr : b.dstat.getLsbD 24 = false
  eidx : b.dstat.toNat / 2 ^ 26 % 2 ^ 14 = a.estart.toNat % 2 ^ 14
  ctx : b.dstat.toNat / 2 ^ 48 = a.ctx % 65536

/-- A hart runs, no halt has arrived at it, its queue is empty, and its camp's ring records nothing. -/
structure Quiet (s : State) (h : Nat) : Prop where
  runs : (s.hart h).run = .running
  free : (s.hart h).frozen = false
  skid : (s.hart h).skid = none
  queue : (s.hart h).queue = []
  ring : (s.camp (campOf h)).ring.cfg.getLsbD 6 = false

/-- A packet of 64 bytes that its target performs: new, within the window, exported, and its bytes writable. -/
structure Fresh (s : State) (p : Packet) (off : Nat) (data : List Byte) : Prop where
  body : p.body = .bytes off data
  unrecorded : (s.received p.src).has p.seq = false
  window : p.seq < (s.received p.src).below + 4096
  allowed : s.exported p.src p.domain off 64 false true = true
  aligned : off % 64 = 0 ∧ data.length = 64
  writable : HomeWritable s (s.hdm + off) 64

end Sys2Proof.Machine
end

