-- ==== Sys2Proof/Certificates/Slice0/Obligations.lean ====
section
/-! DEFINITION. The statements for the provers. -/
open Sys2Proof Sys2Proof.Machine

/-- R101 to R105: the integer forms. -/
def Obligations.IntegerResults : Prop :=
  ∀ (i : Instr) (s : State) (d : Reg) (r : Int), intResult s.h i = some (d, r) →
    Completes i s (s.h.setX d (BitVec.ofInt 64 r)).advance

/-- R106 to R108 with R24 and R31: the floating-point forms. -/
def Obligations.FloatResults : Prop :=
  ∀ (i : Instr) (s : State) (d : Reg) (r : FRes), floatResult s.h i = some (d, r) →
    Completes i s ({ s.h with fctl := s.h.fctl ||| (r.2 &&& 0xF8).setWidth 64 }.setX d (BitVec.ofNat 64 r.1)).advance

/-- Words that the spec gives with their instructions, from every family of the opcode table. -/
def Obligations.DecodeWords : Prop :=
  decode 0x80128380 = .ok (.mulhu 7 8 9) ∧ decode 0x7090418C = .ok (.fcvtFromFloatBf16 3 4 2 8) ∧
  decode 0x000202A0 = .ok (.crr 5 1) ∧ decode 0x000A0522 = .ok (.loop 10 0 5) ∧ decode 0xFFF4051B = .ok (.bne 10 0 0x7FFA) ∧
  decode 0x000E6251 = .ok (.vdef 4 6 7) ∧ decode 0x120832B0 = .ok (.vaddVv 5 3 4 2 0 1 0) ∧
  decode 0x20000021 = .ok .yieldP ∧ decode 0 = .error .zeroWord ∧ decode 0x7F = .error .unassigned

/-- The decoder reads back every word that the encoder writes for a well-formed instruction. -/
def Obligations.DecodeEncode : Prop := ∀ i : Instr, i.isWord = true → i.wf = true → decode (encode i) = .ok i

/-- A word that decodes has one meaning: no bit of it is ignored. -/
def Obligations.EncodeDecode : Prop := ∀ (w : W32) (i : Instr), decode w = .ok i → i.wf = true ∧ encode i = w

/-- R92: a word that is no instruction raises ILLEGAL with itself as TVAL. -/
def Obligations.IllegalWords : Prop :=
  ∀ (w : W32) (s : State), s.h.queue = [] → Traps (.illegalWord w) s 1 (w.setWidth 64) s.h.pc

/-- A step in which the agenda lets a running hart commit: it fetches the word at the PC and is `exec` of the instruction that the word decodes to, or,
where the decoder refuses the word, of the instruction that raises ILLEGAL with it (R92); then the next hart has its turn, the caches keep to their sizes and a tick of device time passes. Where a write packet the instruction would
send has no place (R367, R373), the step does not take place and only time passes. -/
def Obligations.StepRunsDecoded : Prop :=
  ∀ (s s1 t : State) (h : Nat) (l : List Agenda) (w : W32) (i c : Instr),
    (decode w = .ok i ∧ c = i ∨ (∃ e, decode w = .error e) ∧ i = .illegalWord w ∧ c = .exit) → s.power = true → s.inject = none → s.retests = [] → s.agenda = .run h :: l →
    (s.hart h).run = .running → (s.hart h).frozen = false → (s.hart h).skid = none → (s.hart h).wait = none → (s.hart h).stepping = none →
    (∀ u ∈ (s.hart h).stops.toList, u.w0.getLsbD 0 = false) → (s.hart h).queue = [] →
    State.fetch { s with agenda := l, cur := h, defer := false } h = (s1, .word w) → exec i s1 = .next t →
    (t.fabric.stalled = false → step s = .next ((t.committed h c (s.hart h).pc (s.hart h).sup (s.hart h).loops).settle)) ∧
    (t.fabric.stalled = true → step s = .next s1.passTurn.settle)

/-- A word fetched through neither the hart's nor the core's copy is the four bytes at its address, lowest first, as the core's L2 has them
once the entries of the translation have been read. -/
def Obligations.FetchReadsMemory : Prop :=
  ∀ (s u : State) (h pa : Nat), (s.hart h).ownWord (s.hart h).pc = none →
    (s.translate (s.xctx h) (s.hart h).pc .fetch).1 = .ok pa → pa % 4 = 0 →
    u = (s.walkAcquire (s.xctx h) (s.hart h).pc .fetch).keep h (s.translate (s.xctx h) (s.hart h).pc .fetch).2 →
    s.hdm % 256 = 0 → FMap.find? (u.core (coreOf h)).icache pa = none → u.badHeld (coreOf h) pa = none → (s.place (pa / 256 * 256)).cached = true →
    s.fold (pa / 256 * 256) = pa / 256 * 256 →
    ∃ s1, s.fetch h = (s1, .word (wordOfBytes (u.l2Byte (coreOf h) pa) (u.l2Byte (coreOf h) (pa + 1)) (u.l2Byte (coreOf h) (pa + 2))
      (u.l2Byte (coreOf h) (pa + 3))))

/-- What the spec says a hart and the device hold at reset. -/
def Obligations.ResetValues : Prop :=
  (∀ h, h < 2560 → let a := State.reset.hart h
    a.vtype = 0x4000 ∧ a.vl = 0 ∧ a.estart = 0 ∧ a.fctl = 0 ∧ a.dlmode = 0 ∧ a.dlcap = 0x05F5E100 ∧ a.dlesc = 8 ∧
    a.pwbase = BitVec.ofNat 64 (64 * (h % 4)) ∧ a.pwlen = 64 ∧ a.pwctl = 0 ∧ a.hstat = 1 ∧ a.tcause = 0 ∧ a.tval = 0 ∧ a.trappc = 0 ∧
    a.trapei = 0x8000000000000000) ∧
  (∀ c t, c < 640 → t < 512 → ((State.reset.core c).tile t).st = .empty) ∧ State.reset.dtime = 0 ∧ State.reset.kernels = [] ∧
  Memory.wf State.reset.mem = true

/-- R22 and R99: x0 reads 0 and discards a write; any other register reads what was written, and the rest of the hart is unchanged. -/
def Obligations.RegisterWrites : Prop :=
  ∀ (a : Hart) (r q : Reg) (v : Word), a.getX 0 = 0 ∧ a.setX 0 v = a ∧
    (a.setX r v).getX q = (if q = r ∧ r ≠ 0 then v else a.getX q) ∧ { a.setX r v with x := a.x } = a

/-- R114: the end check. -/
def Obligations.EndCheck : Prop :=
  ∀ a : Hart,
    ((∀ n l, a.endsHere n l → a.getX l.counter = 0) →
      a.advance = { a with pc := a.pc + 4, loops := a.idledLoops fun _ => true }) ∧
    (∀ n l, a.endsHere n l → a.getX l.counter ≠ 0 → (∀ m k, n < m → a.endsHere m k → a.getX k.counter = 0) →
      a.advance = { a.setX l.counter (a.getX l.counter - 1) with
        pc := l.start
        loops := a.idledLoops fun m => decide (n < m) })

/-- R335: what taking a trap writes. -/
def Obligations.TrapEntryRegisters : Prop :=
  ∀ (s : State) (h : Nat) (t : Trap) (pc : Word), let b := s.hart h; let a := (s.takeTrap h t pc).hart h
    a.hstat = (if b.hstat.getLsbD 0 then 3 else 1) ∧
    a.tcause = BitVec.ofNat 64 (t.code + if t.code = 32 then 2 ^ 63 else 0) ∧ a.tval = t.tval ∧
    a.trappc = canonical pc &&& ~~~3 ∧ a.trapei = (match t.elem with
      | none => 0x8000000000000000
      | some e => BitVec.ofNat 64 (e % 16384)) ∧
    (∀ n : Fin 6, a.loops[n] = none) ∧ a.links = [] ∧ a.wait = none ∧ a.tileSince = none ∧ a.pc = (s.camp (campOf h)).entrypc ∧ a.x = b.x ∧ a.k = b.k ∧
    (t.code ≠ 32 → t.code ≠ 20 → (s.takeTrap h t pc).SameButHarts s)

/-- R121 and R92: TRET at supervisor privilege returns to TRAPPC at the privilege before the trap; at kernel privilege it is ILLEGAL. -/
def Obligations.TrapReturn : Prop :=
  ∀ s : State, s.h.queue = [] →
    (s.h.sup = true → s.h.hstat.getLsbD 1 = true → Completes .tret s { s.h with hstat := 3, pc := s.h.trappc, loops := Vector.replicate 6 none }) ∧
    (s.h.sup = true → s.h.hstat.getLsbD 1 = false → s.h.preempt = none → ∃ t, exec .tret s = .next t ∧ (t.hart s.cur).hstat = 0 ∧
      (t.hart s.cur).pc = s.h.trappc ∧ (∀ n : Fin 6, (t.hart s.cur).loops[n] = none) ∧ (t.hart s.cur).x = s.h.x ∧
      (t.hart s.cur).trappc = s.h.trappc) ∧
    (s.h.sup = false → Traps .tret s 1 ((encode .tret).setWidth 64) s.h.pc)

/-- R102: the boundary cases of division. -/
def Obligations.DivisionBoundaries : Prop :=
  ∀ (s : State) (d a b : Reg),
    (s.h.getX b = 0 → Completes (.div d a b) s (s.h.setX d (-1)).advance ∧
      Completes (.divu d a b) s (s.h.setX d 0xFFFFFFFFFFFFFFFF).advance ∧
      Completes (.rem d a b) s (s.h.setX d (s.h.getX a)).advance ∧ Completes (.remu d a b) s (s.h.setX d (s.h.getX a)).advance) ∧
    (s.h.getX a = 0x8000000000000000 → s.h.getX b = -1 → Completes (.div d a b) s (s.h.setX d 0x8000000000000000).advance ∧
      Completes (.rem d a b) s (s.h.setX d 0).advance)

/-- R112: the branches. -/
def Obligations.Branches : Prop :=
  ∀ (s : State) (a b : Reg) (o : BitVec 15), let x := (s.h.getX a).toInt; let y := (s.h.getX b).toInt
    let taken (i : Instr) : Prop := Completes i s (s.h.redirect (BitVec.ofInt 64 (s.h.pc.toNat + 4 * o.toInt)))
    let passed (i : Instr) : Prop := Completes i s s.h.advance
    (if x = y then taken (.beq a b o) ∧ passed (.bne a b o) else passed (.beq a b o) ∧ taken (.bne a b o)) ∧
    (if x < y then taken (.blt a b o) ∧ passed (.bge a b o) else passed (.blt a b o) ∧ taken (.bge a b o))

/-- R112 and R94: the jumps. -/
def Obligations.Jumps : Prop :=
  ∀ (s : State) (d a : Reg) (o : BitVec 20) (im : BitVec 15), let t := s.h.getX a + im.signExtend 64
    Completes (.jal d o) s ((s.h.setX d (s.h.pc + 4)).redirect (BitVec.ofInt 64 (s.h.pc.toNat + 4 * o.toInt))) ∧
    (t.toNat % 4 = 0 → Completes (.jalr d a im) s ((s.h.setX d (s.h.pc + 4)).redirect t)) ∧
    (t.toNat % 4 ≠ 0 → s.h.queue = [] → Traps (.jalr d a im) s 2 t s.h.pc)

/-- R115: a redirect makes idle exactly the levels whose range lacks the target. -/
def Obligations.RedirectIdlesLevels : Prop :=
  ∀ (a : Hart) (t : Word) (n : Fin 6), (a.redirect t).pc = t ∧ { a.redirect t with loops := a.loops, pc := a.pc } = a ∧
    (∀ l, a.loops[n] = some l → l.start.toNat ≤ l.fin.toNat →
      (a.redirect t).loops[n] = if l.start.toNat ≤ t.toNat ∧ t.toNat ≤ l.fin.toNat then some l else none) ∧
    (a.loops[n] = none → (a.redirect t).loops[n] = none)

/-- R113: LOOP. -/
def Obligations.LoopArms : Prop :=
  ∀ (s : State) (a b : Reg) (o : BitVec 15), (h5 : b.toNat ≤ 5) → 1 ≤ o.toNat → o.toNat ≤ 16383 → let fin := s.h.pc + 4 * o.setWidth 64
    (s.h.getX a = 0 → Completes (.loop a b o) s (s.h.redirect (fin + 4))) ∧
    (s.h.getX a ≠ 0 → Completes (.loop a b o) s (Hart.advance { s.h.setX a (s.h.getX a - 1) with
      loops := s.h.loops.set b.toNat (some ⟨s.h.pc + 4, fin, a⟩) (by omega) }))

/-- R22 and R117: CRR, and CRS and CRC with a = 0, read a register. -/
def Obligations.ControlRegisterReads : Prop :=
  ∀ (s : State) (d : Reg) (n : BitVec 12), crMayRead s.h.sup n.toNat = true → (crOfPlane n.toNat = true → s.h.owns = true) →
    s.h.queue = [] → let a := (s.h.setX d (crValue s s.cur n.toNat)).advance
    Completes (.crr d n) s a ∧ Completes (.crs d 0 n) s a ∧ Completes (.crc d 0 n) s a

/-- R117 and R118: a write of every register but DLSTAT returns the old value, gives the register the value of its rule, and leaves every
other register; a write of VTYPE may lower VL. -/
def Obligations.ControlRegisterWrites : Prop :=
  ∀ (s : State) (d a : Reg) (n : BitVec 12) (i : Instr) (v : Word), let old := crValue s s.cur n.toNat
    (i = .crw d a n ∧ v = s.h.getX a ∨ i = .crs d a n ∧ a ≠ 0 ∧ v = old ||| s.h.getX a ∨
      i = .crc d a n ∧ a ≠ 0 ∧ v = old &&& ~~~s.h.getX a) →
    n ≠ 5 → crMayWrite s.h.sup n.toNat = true → (crOfPlane n.toNat = true → s.h.owns = true) → s.h.queue = [] →
    match crAfterWrite s s.cur n.toNat v with
    | none => Traps i s 1 ((encode i).setWidth 64) s.h.pc
    | some w => ∃ b : Hart, Completes i s (b.setX d old).advance ∧ crValue (s.setH b) s.cur n.toNat = w ∧
        (∀ m, crMayRead true m = true → m ≠ n.toNat → ¬(n = 0 ∧ m = 1) → crValue (s.setH b) s.cur m = crValue s s.cur m) ∧
        (n = 0 → b.vl.toNat = Nat.min s.h.vl.toNat (vlmax w)) ∧ b.x = s.h.x ∧ b.k = s.h.k ∧ b.pc = s.h.pc ∧ b.loops = s.h.loops

/-- R34 and R117: a supervisor write of DLSTAT: LAST and CNT are replaced, and CAPHIT falls where its bit is written with 1: by x[a]'s
bits for CRW and CRS, never for CRC. -/
def Obligations.DeadlineStatusWrites : Prop :=
  ∀ (s : State) (d a : Reg), s.h.sup = true → s.h.queue = [] → a ≠ 0 → let old := s.h.dlstat; let x := s.h.getX a
    let is (v : Word) : Hart := (Hart.setX { s.h with dlstat := v } d old).advance
    Completes (.crw d a 5) s (is ((x &&& 0xFFFF) ||| (old &&& 0x10000 &&& ~~~x))) ∧
    Completes (.crs d a 5) s (is (((old ||| x) &&& 0xFFFF) ||| (old &&& 0x10000 &&& ~~~x))) ∧
    Completes (.crc d a 5) s (is (((old &&& ~~~x) &&& 0xFFFF) ||| (old &&& 0x10000)))

/-- R22 and R33: an access that the columns of R22 do not permit, or whose number is not in its table, is ILLEGAL. -/
def Obligations.ControlRegisterIllegal : Prop :=
  ∀ (s : State) (d a : Reg) (n : BitVec 12), s.h.queue = [] →
    (crMayRead s.h.sup n.toNat = false → Traps (.crr d n) s 1 ((encode (.crr d n)).setWidth 64) s.h.pc) ∧
    (crMayWrite s.h.sup n.toNat = false → Traps (.crw d a n) s 1 ((encode (.crw d a n)).setWidth 64) s.h.pc ∧
      (a ≠ 0 → Traps (.crs d a n) s 1 ((encode (.crs d a n)).setWidth 64) s.h.pc ∧
        Traps (.crc d a n) s 1 ((encode (.crc d a n)).setWidth 64) s.h.pc))

/-- R119, R325: EXIT. Of a hart without a task whose kernel has another live hart in the camp, at either privilege: the hart has ended, its kernel
has one live hart less, and nothing else differs. With a current task, the task ends with it. Of the last hart of its kernel in the camp: the
kernel's tasks there are gone and its network is free. Of the last hart on the device, which leaves no operation and no queue open: no live hart
is left. -/
def Obligations.ExitEndsHart : Prop :=
  ∀ (s : State) (k : Nat) (x : Kernel), s.h.queue = [] → s.h.kernel = some k → s.kernels.find? (fun y => y.id == k) = some x → Prompt s →
    let p := s.camp (campOf s.cur); let here : Prop := ∃ g ∈ x.live, g ≠ s.cur ∧ campOf g = campOf s.cur
    let ends (t : State) (sup : Bool) : Prop := (t.hart s.cur).run = .ended ∧ (t.hart s.cur).supEnded = sup ∧
      (∀ n : Fin 6, (t.hart s.cur).loops[n] = none) ∧ (t.hart s.cur).links = [] ∧ (t.hart s.cur).task = none ∧ (t.hart s.cur).x = s.h.x
    let less (t : State) (sup : Bool) : Prop := (∀ h, h ≠ s.cur → t.hart h = s.hart h) ∧
      t.kernels = (s.kernels.map fun y => if y.id = k then { y with
        live := y.live.filter (· != s.cur)
        supervisorEnded := y.supervisorEnded || sup } else y) ∧
      { t with harts := s.harts, kernels := s.kernels } = s
    (s.h.sup = false → s.h.task = none → here → ∃ t, exec .exit s = .next t ∧ ends t false ∧ less t false) ∧
    (s.h.sup = true → s.h.task = none → s.h.parkedTask = none → (∀ o ∈ s.ops, o.h = s.cur → o.parked = none) →
      (∀ q v, s.stream s.cur q = some v → v.parked = false) → here → ∃ t, exec .exit s = .next t ∧ ends t true ∧ less t true) ∧
    (∀ r : Task, s.h.sup = false → p.tasks = [r] → s.h.task = some r.id → r.path ≠ 2 → (s.core (coreOf s.cur)).l2 = [] → here →
      ∃ t y, exec .exit s = .next t ∧ ends t false ∧ (t.camp (campOf s.cur)).tasks = [] ∧
        t.kernels.find? (fun y => y.id == k) = some y ∧ y.live = x.live.filter (· != s.cur)) ∧
    (s.h.sup = false → s.h.task = none → (∀ g ∈ x.live, g ≠ s.cur → campOf g ≠ campOf s.cur) → (∃ g ∈ x.live, g ≠ s.cur) →
      (∀ r ∈ p.tasks, r.kernel = k ∧ r.st ≠ .running) →
      ∃ t y, exec .exit s = .next t ∧ ends t false ∧ (t.camp (campOf s.cur)).tasks = [] ∧
        (p.merge.st ≠ .free → (∃ c, p.merge.owner = some (c, some k)) → p.merge.closeObj = none → p.merge.drainObj = none →
          (t.camp (campOf s.cur)).merge = Merge.reset) ∧
        (∀ h, h ≠ s.cur → (t.hart h).x = (s.hart h).x ∧ (t.hart h).pc = (s.hart h).pc) ∧
        t.kernels.find? (fun y => y.id == k) = some y ∧ y.live = x.live.filter (· != s.cur)) ∧
    (s.h.sup = false → s.h.task = none → (∀ g ∈ x.live, g = s.cur) → p.tasks = [] → p.merge.st = .free → s.ops = [] → x.left = [] →
      (∀ e ∈ s.harts, e.2.kernel = some k → (∀ q, s.stream e.1 q = none) ∧ (s.hart e.1).parkedTask = none) →
      ∃ t y, exec .exit s = .next t ∧ ends t false ∧ (∀ h, h ≠ s.cur → t.hart h = s.hart h) ∧ (∀ c, t.camp c = s.camp c) ∧
        t.kernels.find? (fun y => y.id == k) = some y ∧ y.live = [] ∧
        { t with harts := s.harts, kernels := s.kernels, camps := s.camps } = s)

/-- R120, R122: SCALL and YIELD.P. -/
def Obligations.CallsToSupervisor : Prop :=
  ∀ (s : State) (a : Reg), s.h.queue = [] → (s.core (coreOf s.cur)).stores = [] →
    Traps (.scall a) s 19 (s.h.getX a) (s.h.pc + 4) ∧ (s.h.sup = true → Completes .yieldP s s.h.advance) ∧
    (s.h.sup = false → ∃ t, exec .yieldP s = .next t ∧ (t.hart s.cur).tcause = 20 ∧ (t.hart s.cur).hstat.getLsbD 0 = true ∧
      (t.hart s.cur).trappc = canonical (s.h.pc + 4) &&& ~~~3 ∧ (t.hart s.cur).trapei = 0x8000000000000000 ∧
      (t.hart s.cur).pc = (s.camp (campOf s.cur)).entrypc ∧ (t.hart s.cur).x = s.h.x)

/-- R97, R124: ICINV and XLINV. -/
def Obligations.Invalidations : Prop :=
  ∀ (s : State) (a b : Reg), s.h.queue = [] → (s.core (coreOf s.cur)).stores = [] → let c := s.core (coreOf s.cur)
    let own := Hart.advance { s.h with fetchBuf := [], loopBuf := [] }
    (s.h.getX b = 0 → CompletesOn (.icinv a b) s s own { c with icache := [] }) ∧
    (∃ l, CompletesOn (.icinv a b) s s own { c with icache := l } ∧ (∀ e ∈ l, e ∈ c.icache) ∧
      ∀ (o pa : Nat) (x : Option TlbEntry), o < (s.h.getX b).toNat → (s.h.getX a).toNat + (s.h.getX b).toNat ≤ 2 ^ 64 →
        s.translate (s.xctx s.cur) (BitVec.ofNat 64 (((s.h.getX a).toNat + o) / 4096 * 4096)) .fetch = (.ok pa, x) →
        pa % 4096 = 0 → ∀ e ∈ l, e.1 / 256 ≠ (pa + ((s.h.getX a).toNat + o) % 4096) / 256) ∧
    (s.h.sup = true → CompletesOn (.xlinv a b) s s s.h.advance { c with tlb := c.tlb.filter fun t =>
      !(t.vpn == (s.h.getX a).toNat % 2 ^ 57 / 2 ^ (12 + 9 * t.level) &&
        (t.asid == (s.h.getX b).toNat % 65536 || t.pte.getLsbD 5)) }) ∧
    (s.h.sup = false → Traps (.xlinv a b) s 1 ((encode (.xlinv a b)).setWidth 64) s.h.pc)

/-- R133: SETVL, in the order of its checks. -/
def Obligations.SetLength : Prop :=
  ∀ (s : State) (d a : Reg) (g b : BitVec 2) (f : BitVec 5), (Instr.setvl d a g b f).wf = true →
    let n := grantOf f.toNat g.toNat b.toNat (s.h.getX a).toNat
    (s.h.owns = true → (s.h.sup = true ∨ g.toNat ≤ s.h.grpCeil) → Completes (.setvl d a g b f) s
      (Hart.setX { s.h with
        vtype := BitVec.ofNat 64 (f.toNat * 2048 + g.toNat * 512 + b.toNat * 128)
        vl := BitVec.ofNat 64 n } d (BitVec.ofNat 64 n)).advance) ∧
    (s.h.owns = false → s.h.queue = [] → Traps (.setvl d a g b f) s 9 0 s.h.pc) ∧
    (s.h.owns = true → s.h.sup = false → s.h.grpCeil < g.toNat → s.h.queue = [] →
      Traps (.setvl d a g b f) s 1 ((encode (.setvl d a g b f)).setWidth 64) s.h.pc)

/-- R131, R132: definitions written and read. -/
def Obligations.Definitions : Prop :=
  ∀ (s : State) (d a b : Reg), s.h.queue = [] → s.h.owns = true → let u := s.issues (.vdef d a b)
    Completes (.vdgeta d a) s (s.h.setX d (s.h.getDef a).w0).advance ∧
    Completes (.vdgetb d a) s (s.h.setX d (s.h.getDef a).w1).advance ∧
    (s.defer = false → (∀ h, coreOf h = coreOf s.cur → (s.hart h).queue = []) → (let e : Def := ⟨s.h.getX a, s.h.getX b⟩
      (e.w0 = 0 ∧ e.w1 = 0) ∨ (e.wf = true ∧ (e.shape s.h.base).firstOutside s.h.windowRows = none)) →
      CompletesOn (.vdef d a b) s u (Hart.advance { u.h with defs := s.h.defs.set d.toNat ⟨s.h.getX a, s.h.getX b⟩ (by omega) })
        (u.core (coreOf s.cur))) ∧
    (s.defer = false → (∀ h, coreOf h = coreOf s.cur → (s.hart h).queue = []) → let e : Def := ⟨s.h.getX a, s.h.getX b⟩
      let p := e.shape s.h.base
      (¬(e.w0 = 0 ∧ e.w1 = 0) → e.wf = false → TrapsAt (.vdef d a b) s 10 (3 * 32 + d.toNat) none) ∧
      (∀ j, e.wf = true → p.firstOutside s.h.windowRows = some j → TrapsAt (.vdef d a b) s 10 (boundsOf p 0 d.toNat j) none))

/-- R109, R110: a load that reaches memory writes the bytes its core sees, sign- or zero-extended, and changes no byte that any core
sees. -/
def Obligations.ScalarLoads : Prop :=
  ∀ (s u : State) (d a : Reg) (im : BitVec 15) (i : Instr) (n pa : Nat) (signed : Bool),
    (i, n, signed) ∈ [(Instr.lb d a im, 1, true), (.lh d a im, 2, true), (.lw d a im, 4, true), (.ld d a im, 8, true),
      (.lbu d a im, 1, false), (.lhu d a im, 2, false)] →
    let va := s.h.getX a + im.signExtend 64
    va.toNat % n = 0 → s.h.queue = [] → (s.h.sup = false ∨ va.toNat < 0x1000 ∨ 0x4000 ≤ va.toNat) →
    (s.unwatched → Reaches s va .load n pa u →
    let v := leNat ((List.range n).map fun j => u.seen (coreOf s.cur) (pa + j))
    ∃ k : Core, CompletesOn i s u (s.h.setX d (if signed then BitVec.ofInt 64 (if v < 2 ^ (8 * n - 1) then v else (v : Int) - 2 ^ (8 * n))
      else BitVec.ofNat 64 v)).advance k ∧ k.plane = (s.core (coreOf s.cur)).plane ∧ k.acc = (s.core (coreOf s.cur)).acc ∧
      ∀ q, (u.setCore (coreOf s.cur) k).seen (coreOf s.cur) q = u.seen (coreOf s.cur) q) ∧
    (∀ r, (s.translate (s.xctx s.cur) va .load).1 = .refused r → Faults i s (s.walkAcquire (s.xctx s.cur) va .load) .load va r none)

/-- R109, R110: a store that reaches memory gives exactly its bytes to what its core sees, and no byte at any other home changes. -/
def Obligations.ScalarStores : Prop :=
  ∀ (s u : State) (d a : Reg) (im : BitVec 15) (i : Instr) (n pa : Nat),
    (i, n) ∈ [(Instr.sb d a im, 1), (.sh d a im, 2), (.sw d a im, 4), (.sd d a im, 8)] →
    let va := s.h.getX a + im.signExtend 64
    va.toNat % n = 0 → s.h.queue = [] → (s.h.sup = false ∨ va.toNat < 0x1000 ∨ 0x4000 ≤ va.toNat) →
    (∀ r, (s.translate (s.xctx s.cur) va .store).1 = .refused r → Faults i s (s.walkAcquire (s.xctx s.cur) va .store) .store va r none) ∧
    (s.unwatched → Reaches s va .store n pa u → u.storeRefused pa n = false →
    ∃ t, exec i s = .next t ∧ t.hart s.cur = s.h.advance ∧
      (∀ q, (s.place q).cached = (s.place pa).cached → t.seen (coreOf s.cur) q = if pa ≤ q ∧ q < pa + n
        then BitVec.ofNat 8 ((s.h.getX d).toNat / 2 ^ (8 * (q - pa)))
        else u.seen (coreOf s.cur) q) ∧
      (∀ q, ¬(pa ≤ q ∧ q < pa + n) → t.mem.read q = s.mem.read q) ∧ ((s.place pa).cached = true → t.mem = s.mem) ∧
      ((s.place pa).cached = false → ∀ c, (t.core c).l2 = (u.core c).l2) ∧ (∀ c, (t.core c).plane = (s.core c).plane) ∧
      (∀ h, h ≠ s.cur → (t.hart h).x = (s.hart h).x ∧ (t.hart h).pc = (s.hart h).pc))

/-- R110: a misaligned scalar access raises MISALIGNED_DATA with its address and performs nothing. -/
def Obligations.MisalignedAccesses : Prop :=
  ∀ (s : State) (d a : Reg) (im : BitVec 15) (i : Instr) (n : Nat),
    (i, n) ∈ [(Instr.lh d a im, 2), (.lw d a im, 4), (.ld d a im, 8), (.lhu d a im, 2), (.sh d a im, 2), (.sw d a im, 4),
      (.sd d a im, 8)] → s.h.queue = [] → (s.h.getX a + im.signExtend 64).toNat % n ≠ 0 →
    Traps i s 4 (s.h.getX a + im.signExtend 64) s.h.pc

/-- R135, R140 with R127, R128: the arithmetic vector instructions; and where a name of theirs fails R46, in the order destination, va, vb, or R125, the
trap and nothing else. -/
def Obligations.VectorArithmetic : Prop :=
  ∀ (s : State) (i : Instr) (v : VecForm), Idle s → vecArithmetic s i = some v → let es := some s.h.estart.toNat
    ((∀ x ∈ v.names, Usable s x.1 x.2.1 x.2.2) → VecCompletes i s v) ∧
    (∀ l x l' tval, v.names = l ++ x :: l' → (∀ y ∈ l, s.nameFails y.1 y.2.2 = none) → s.nameFails x.1 x.2.2 = some tval →
      TrapsAt i s 10 tval es) ∧
    (∀ l x l', v.names = l ++ x :: l' → (∀ y ∈ v.names, s.nameFails y.1 y.2.2 = none) → (∀ y ∈ l, (s.h.getDef y.1).width = y.2.1) →
      (s.h.getDef x.1).width ≠ x.2.1 →
      TrapsAt i s 12 ((s.h.getDef x.1).width * 65536 + x.2.1 * 256 + l.length * 32 + x.1.toNat) es)

/-- R134, R137 to R139, R145, R147, R148: vector instructions that move bit patterns. -/
def Obligations.VectorPatterns : Prop :=
  ∀ (s : State) (i : Instr) (v : VecForm), Idle s → vecPatterns s i = some v →
    (∀ x ∈ v.names, Usable s x.1 x.2.1 x.2.2) → VecCompletes i s v

/-- R141, R143: conversions element by element. -/
def Obligations.VectorConversions : Prop :=
  ∀ (s : State) (i : Instr) (v : VecForm), Idle s → vecConversions s i = some v →
    (∀ x ∈ v.names, Usable s x.1 x.2.1 x.2.2) → VecCompletes i s v

/-- R136, R146, R150: vector instructions into a mask register. -/
def Obligations.VectorMasks : Prop :=
  ∀ (s : State) (i : Instr) (v : MaskForm), Idle s → maskForm s i = some v →
    (∀ x ∈ v.names, Usable s x.1 x.2.1 x.2.2) → MaskCompletes i s v

/-- R149, R150: the vector instructions that write or read an x register. ESTART 0 after VGETX and VPUTX is log 31, their elements from 8,192 on log 62. -/
def Obligations.VectorToScalar : Prop :=
  ∀ (s : State) (d a b : Reg) (k : KReg) (w : BitVec 2), Idle s → let n := s.h.vl.toNat; let c (i : Instr) := (s.issues i).core (coreOf s.cur)
    let ones := (List.range n).filter fun e => (s.h.getK k).getLsbD e; let j := (s.h.getX b).toNat
    let is (i : Instr) (v : Nat) : Prop :=
      CompletesOn i s (s.issues i) (Hart.advance { (s.issues i).h.setX d (BitVec.ofNat 64 v) with estart := 0 }) (c i)
    is (.kpop d k) ones.length ∧ is (.kfirst d k) (ones.headD n) ∧
    (Usable s a (8 * 2 ^ w.toNat) 0 → is (.vgetx d a b w) (if j < (s.h.shapeOf a).count then s.el a j else 0)) ∧
    (Usable s d (8 * 2 ^ w.toNat) 0 → let i := Instr.vputx d a b w
      CompletesOn i s (s.issues i) (Hart.advance { (s.issues i).h with estart := 0 })
        (if j < (s.h.shapeOf d).count then (c i).setElem (s.h.shapeOf d) j ((s.h.getX a).toNat % 2 ^ (8 * 2 ^ w.toNat)) else c i))

/-- R41, R44: an element written in a usable name reads back, and no other element of that name and no other cell changes. -/
def Obligations.PlaneElements : Prop :=
  ∀ (s : State) (r : Reg) (w n e j : Nat) (v : Nat), Usable s r w n → e < n → j < n → let p := s.h.shapeOf r
    let c := s.core (coreOf s.cur); let c' := c.setElem p e v
    c'.elem p e = v % 2 ^ w ∧ (j ≠ e → c'.elem p j = c.elem p j) ∧
    (∀ q, q ≠ (p.cellOf e).1 → ¬(w = 64 ∧ q = (p.cellOf e).1 + 1) → c'.cell q = c.cell q) ∧ c'.acc = c.acc ∧ c'.l2 = c.l2

/-- R339, R37: at kernel privilege, without the window, the instructions of R339 raise PLANE_OWNER before any effect. -/
def Obligations.PlaneOwner : Prop :=
  ∀ (s : State) (i : Instr), i.ofPlane = true → s.defer = false → (∀ h, coreOf h = coreOf s.cur → (s.hart h).queue = []) →
    s.h.owns = false → s.h.wait = none → (∀ d a b t n, i = .sqpop d a b t n → ∃ v, s.stream s.cur ((s.h.getX a).toNat % 2) = some v ∧ v.parked = false) →
    ∃ t, exec i s = .next t ∧ (t.hart s.cur).tcause = 9 ∧ (t.hart s.cur).tval = 0 ∧ (t.hart s.cur).trappc = canonical s.h.pc &&& ~~~3 ∧
      (t.hart s.cur).pc = (s.camp (campOf s.cur)).entrypc ∧ (t.hart s.cur).x = s.h.x ∧ (t.hart s.cur).k = s.h.k ∧
      (t.hart s.cur).estart = s.h.estart ∧ (t.hart s.cur).vl = s.h.vl ∧ (t.hart s.cur).vtype = s.h.vtype ∧ (t.hart s.cur).defs = s.h.defs ∧
      (∀ h, h ≠ s.cur → t.hart h = s.hart h) ∧ (∀ c, t.core c = s.core c) ∧ t.mem = s.mem ∧ t.ops = s.ops

/-- R142, R70, R71: the scaled narrowings. That nothing is performed where ESTART is not below VL is log 33. -/
def Obligations.VectorNarrowing : Prop :=
  ∀ (s : State) (d a b : Reg) (f : BitVec 5) (x : BitVec 1) (k : KReg), f.toNat ≤ 8 → Idle s →
    let c := s.h.vtype.toNat / 128 % 4; let B := 8 * 2 ^ c; let src := 8 + f.toNat / 3; let dst := 11 + f.toNat % 3
    let n := s.h.vl.toNat; let blocks := (n + B - 1) / B; c ≠ 0 → Usable s a (fmtWidth src) n →
    let done (l : List (Reg × Piece)) (i : Instr) : Prop := CompletesOn i s (s.issues i)
      (Hart.advance { (s.issues i).h with
        estart := 0
        fctl := s.h.fctl ||| ((l.foldl (fun (g : Flags) p => g ||| p.2.flags) 0) &&& 0xF8).setWidth 64 })
      (l.foldl (fun (k : Core) p => k.setElem (s.h.shapeOf p.1) p.2.idx p.2.val) ((s.issues i).core (coreOf s.cur)))
    (Usable s d (fmtWidth dst) n → Usable s b 8 blocks →
      done (narrowWrites s (some d) b a k src dst B) (.vcvtsn d a b f x k)) ∧
    (Usable s d 8 blocks → done (narrowWrites s none d a k src dst B) (.vscale d a f x k))

/-- R144: the reductions write element 0 of vd with the result of the tree of R75, and nothing where ESTART is not below VL. -/
def Obligations.VectorReductions : Prop :=
  ∀ (s : State) (d a b : Reg) (t : BitVec 3) (y x : BitVec 1) (k : KReg), t.toNat ≤ 6 → Idle s →
    let f := reductionCode t.toNat; let n := s.h.vl.toNat; Usable s d (fmtWidth f) 1 → Usable s a (fmtWidth f) n →
    Usable s b (fmtWidth f) 1 →
    let nodes := (List.range n).map fun e => if k = 0 ∨ (s.h.getK k).getLsbD e then some (s.el a e) else none
    let done (op : Nat) (i : Instr) : Prop :=
      let r : FRes := if n ≤ s.h.estart.toNat then (0, 0) else reduceVal op f (s.el b 0) nodes
      let u := s.issues i
      CompletesOn i s u (Hart.advance { u.h with estart := 0, fctl := s.h.fctl ||| (r.2 &&& 0xF8).setWidth 64 })
        (if n ≤ s.h.estart.toNat then u.core (coreOf s.cur) else (u.core (coreOf s.cur)).setElem (s.h.shapeOf d) 0 r.1)
    done 0 (.vredsum d a b t y x k) ∧ done 1 (.vredmax d a b t y x k) ∧ done 2 (.vredmin d a b t y x k)

/-- R75, R144: on integers the tree's result is the wrapped sum, the greatest, or the least, of the initial value and the elements present,
and no flag is raised. -/
def Obligations.IntegerReductions : Prop :=
  ∀ (f init : Nat) (l : List (Option Nat)), f < 8 → l.length ≤ 8192 → init < 2 ^ fmtWidth f → (∀ u, some u ∈ l → u < 2 ^ fmtWidth f) →
    let vs := init :: l.filterMap id
    reduceVal 0 f init l = (((vs.map (intOf f)).sum % 2 ^ fmtWidth f).toNat, 0) ∧
    (∃ u ∈ vs, reduceVal 1 f init l = (u, 0) ∧ ∀ v ∈ vs, intOf f v ≤ intOf f u) ∧
    (∃ u ∈ vs, reduceVal 2 f init l = (u, 0) ∧ ∀ v ∈ vs, intOf f u ≤ intOf f v)

/-- R195, R208, R210, R211, R214: commands of the engines, without a completion object. -/
def Obligations.EngineCommands : Prop :=
  ∀ (s u : State) (a b c : Reg) (bs : List Byte), CanIssue s →
    let A := s.h.getX a; let B := s.h.getX b; let C := s.h.getX c
    let bank (n fn : Nat) (i : Instr) : Prop := A.toNat % n = 0 → B.toNat % n = 0 → Issues i s (s.issues i) (.bankop fn A B.toNat C [] false 0) 0
    bank 256 0 (.bankopSplit 0 a b c) ∧ bank 256 1 (.bankopJoin 0 a b c) ∧ bank 16 2 (.bankopXp8 0 a b c) ∧
    bank 32 3 (.bankopXp16 0 a b c) ∧ bank 256 4 (.bankopDenc 0 a b c) ∧ bank 256 5 (.bankopDdec 0 a b c) ∧
    (C.toNat % 4 = 0 → bank 1 6 (.bankopZsum 0 a b c)) ∧
    (∀ i n, (i, n) ∈ [(Instr.bankopSplit 0 a b c, 256), (.bankopJoin 0 a b c, 256), (.bankopXp8 0 a b c, 16), (.bankopXp16 0 a b c, 32),
        (.bankopDenc 0 a b c, 256), (.bankopDdec 0 a b c, 256)] →
      (A.toNat % n ≠ 0 → TrapsAt i s 15 1 none) ∧ (A.toNat % n = 0 → B.toNat % n ≠ 0 → TrapsAt i s 15 2 none)) ∧
    (C.toNat % 4 ≠ 0 → TrapsAt (.bankopZsum 0 a b c) s 15 3 none) ∧ (C.toNat % 64 ≠ 0 → TrapsAt (.acopy 0 a b c) s 15 3 none) ∧
    (let v := s.issues (.acopy 0 a b c);
      C.toNat % 64 = 0 → v.loadRun (.engine s.cur s.h.pc) (v.xctx s.cur) C 64 = (u, bs, none) → u.cur = s.cur →
      let inner := fieldAt bs 0 4
      Issues (.acopy 0 a b c) s u (.copy A B bs (if inner = 0 ∨ 16777216 < inner then some 7
        else if fieldAt bs 4 4 = 0 ∨ fieldAt bs 8 4 = 0 ∨ fieldAt bs 12 4 = 0 then some 0 else none)) 0) ∧
    (let i := Instr.fread 0 a b c; let v := s.issues i
      s.ops = [] → A.toNat / 4096 % 2 ^ 20 = 0 → let L := A.toNat / 2 ^ 32; let H := A.toNat % 4096
      (L = 0 → Issues i s v (.fread H [] 0 0 C [] 0) 0) ∧
      (L ≠ 0 → s.objectEntry s.cur H = .error 5 →
        Issues i s { v with nvme := s.nvme.filter fun (q : Nat × NvmeQueue) => q.1 != s.h.ctx * 4096 + H } (.fread H [] B.toNat 0 C [] 5) 0) ∧
      (L ≠ 0 → s.objectEntry s.cur H = .error 2 → Issues i s v (.fread H [] B.toNat 0 C [] 2) 0) ∧
      (∀ e, L ≠ 0 → s.objectEntry s.cur H = .ok e → fieldAt e 0 1 ≠ 2 → let n := Nat.min L (fieldAt e 16 8 - B.toNat)
        Issues i s v (.fread H e B.toNat n C [] (if n < L then 6 else 0)) n))

/-- R368 to R372: commands of the fabric, without a completion object, from a core that holds no line. The cut of a body into packets is log 79, one
sequence to a packet log 41. -/
def Obligations.FabricCommands : Prop :=
  ∀ (s u u' : State) (a b c : Reg) (bs t : List Byte), CanIssue s → (s.core (coreOf s.cur)).l2 = [] →
    let A := s.h.getX a; let B := s.h.getX b; let C := s.h.getX c; let chip := A.toNat / 2 ^ 57
    let ag := Agent.engine s.cur s.h.pc; let send (v : State) (c n : Nat) : State := (List.range n).foldl (fun v _ => v.countPacket c) v
    (A.toNat % 8 = 0 → C.toNat % 2 ^ 32 < 4 → C.toNat / 2 ^ 32 ≤ 65536 →
      Issues (.fgather 0 a b c) s (s.issues (.fgather 0 a b c)) (.fgather A B (C.toNat % 4) (C.toNat / 2 ^ 32)) 0) ∧
    (A.toNat % 8 = 0 → C.toNat < 2 →
      Issues (.fflag 0 a b c) s (send (s.issues (.fflag 0 a b c)) chip 1) (.fflag A B (C == 1) (s.sentTo chip).next) 0) ∧
    (let v := s.issues (.freduce 0 a b c); let vl := C.toNat / 2 ^ 32 % 2 ^ 14; let m := C.getLsbD 7; let blk := C.toNat / 32 % 4
      let f := C.toNat % 32; let ne := (vl * fmtWidth f + 7) / 8
      let ns := if 11 ≤ f then (vl + 8 * 2 ^ blk - 1) / (8 * 2 ^ blk) else 0
      let nm := if m then (vl + 7) / 8 else 0; let o1 := ceil64 ne; let o2 := ceil64 (o1 + ns);
      A.toNat % 4 = 0 → B.toNat % 64 = 0 → C.toNat / 2 ^ 46 = 0 → C.toNat / 256 % 2 ^ 24 = 0 → vl ≤ 8192 → 8 ≤ f → f ≤ 13 →
      (11 ≤ f ↔ blk ≠ 0) →
      v.loadRun ag (v.xctx s.cur) B (if nm = 0 then o1 + ns else o2 + nm) = (u, bs, none) → u.cur = s.cur →
      Issues (.freduce 0 a b c) s (send u chip (Nat.max 1 ((ne + ns + nm + 4095) / 4096))) (.freduce A vl f blk (slice bs 0 ne) (slice bs o1 ns)
        (if m then some (slice bs o2 nm) else none) (u.sentTo chip).next none) 0) ∧
    (let v := s.issues (.fcoll 0 a); let op := fieldAt bs 0 1; let n := fieldAt bs 1 1; let rank := fieldAt bs 2 1; let root := fieldAt bs 3 1
      let len := fieldAt bs 32 8; let to_ := (t.zipIdx.filter fun x => x.2 ≠ rank ∧ (op ≠ 0 ∨ rank = root)).map fun x => x.1.toNat;
      A.toNat % 64 = 0 → v.loadRun ag (v.xctx s.cur) A 64 = (u, bs, none) →
      u.loadRun ag (u.xctx s.cur) (BitVec.ofNat 64 (fieldAt bs 8 8)) n = (u', t, none) → u'.cur = s.cur →
      op ≤ 3 → 2 ≤ n → n ≤ 128 → rank < n → (if op = 0 then root < n else root = 0) → 1 ≤ len → len ≤ 2 ^ 30 →
      (2 ≤ op → len % 4 = 0) → t.Nodup → (∀ x ∈ t, x.toNat < 128) →
      Issues (.fcoll 0 a) s (to_.foldl (fun v c => send v c ((len + 4095) / 4096)) u')
        (.fcoll bs (t.map fun x => x.toNat) none (to_.map fun c => (c, (u'.sentTo c).next))) 0)

/-- R196, R210: a command with a completion object: the object holds the pending value once the command has issued. -/
def Obligations.CompletionObjects : Prop :=
  ∀ (s : State) (d a b c : Reg) (i : Instr) (n fn pa : Nat),
    (i, n, fn) ∈ [(Instr.bankopSplit d a b c, 256, 0), (.bankopJoin d a b c, 256, 1), (.bankopXp8 d a b c, 16, 2),
      (.bankopXp16 d a b c, 32, 3), (.bankopDenc d a b c, 256, 4), (.bankopDdec d a b c, 256, 5)] →
    CanIssue s → d ≠ 0 → (s.h.getX a).toNat % n = 0 → (s.h.getX b).toNat % n = 0 → s.unwatched →
    Reaches s (s.h.getX d) .store 8 pa s → s.storeRefused pa 8 = false →
    let o := s.opOf s.cur (.bankop fn (s.h.getX a) (s.h.getX b).toNat (s.h.getX c) [] false 0) 0
    ∃ t, exec i s = .next t ∧ t.hart s.cur = (s.issues i).h.advance ∧
      t.ops = s.ops ++ [{ o with objVa := s.h.getX d, objPa := some pa }] ∧
      (∀ q, t.seen (coreOf s.cur) q = if pa ≤ q ∧ q < pa + 8 then 0xFF else s.seen (coreOf s.cur) q) ∧
      (∀ c, (t.core c).plane = (s.core c).plane) ∧ ∀ h, h ≠ s.cur → (t.hart h).x = (s.hart h).x ∧ (t.hart h).pc = (s.hart h).pc

/-- R155, R159, R198, R201, R206, R212: commands on tiles, stream queues and the read-only buffer, without a completion object. -/
def Obligations.TilesAndStreams : Prop :=
  ∀ (s : State) (a b c : Reg), CanIssue s → let A := s.h.getX a; let B := s.h.getX b; let C := s.h.getX c
    let t := (s.core (coreOf s.cur)).tile A.toNat; let k (i : Instr) : Core := (s.issues i).core (coreOf s.cur)
    let done (i : Instr) (f : Hart → Hart) (c : Core) : Prop := CompletesOn i s (s.issues i) (f (s.issues i).h).advance c
    (MayUseTile s A → t.st = .empty → s.inStreamArea (coreOf s.cur) (4096 * A.toNat) 4096 = false → RowsOkay B C →
      let i := Instr.tfetch 0 a b c
      IssuesOn i s (s.issues i) (.fill A.toNat B (C.toNat % 65536) (BitVec.ofInt 64 (C.toInt / 65536))) 0
        ((k i).setTile A.toNat { t with st := .filling, owner := some s.h.ctx, flt := false })) ∧
    (MayUseTile s A → t.st = .ready → t.uses = 0 → RowsOkay B C →
      let i := Instr.tdrain 0 a b c
      IssuesOn i s (s.issues i) (.drain A.toNat B (C.toNat % 65536) (BitVec.ofInt 64 (C.toInt / 65536))) 0
        ((k i).setTile A.toNat { t with st := .draining, flt := false })) ∧
    (MayUseTile s A → s.h.owns = true → t.uses = 0 → (t.st = .ready ∨ t.st = .empty ∧ t.owner ≠ none ∧ t.flt = true) →
      done (.tilerel a) id ((k (.tilerel a)).setTile A.toNat ⟨.empty, if s.h.sup then t.owner else none, t.st == .ready && t.flt, 0⟩)) ∧
    done .roinv id { k .roinv with ro := [] } ∧
    (let q := C.toNat / 2 ^ 22 % 2; let area := C.toNat / 2 ^ 24 % 2 ^ 11 * 1024; let slots := 2 * 2 ^ (C.toNat / 2 ^ 20 % 4)
      s.h.owns = true → A.toNat % 64 = 0 → B.toNat % 64 = 0 → C.toNat / 2 ^ 35 = 0 → C.getLsbD 23 = false →
      area + slots * 1024 ≤ 2048 * 1024 → s.stream s.cur q = none → s.tileBusy (coreOf s.cur) area (slots * 1024) = false →
      s.inStreamArea (coreOf s.cur) area (slots * 1024) = false →
      done (.sqopen 0 a b c) (Hart.setStream q (some ⟨A, B, C, 0, 0, 0, false, C.toNat % 65536 == 0, 0, none, s.xctx s.cur, s.h.pc, false, 0⟩))
        (k (.sqopen 0 a b c))) ∧
    (∀ v, s.h.owns = true → s.stream s.cur (A.toNat % 2) = some v → v.parked = false → (v.done = true ∨ v.objPa = none) →
      done (.sqclose 0 a) (Hart.setStream (A.toNat % 2) none) (k (.sqclose 0 a))) ∧
    (s.h.owns = true → s.stream s.cur (A.toNat % 2) = none → TrapsAt (.sqclose 0 a) s 15 (2 * 256 + 1) none) ∧
    (∀ i rows, (i, rows) ∈ [(Instr.tfetch 0 a b c, [TileState.empty]), (.tdrain 0 a b c, [.ready]), (.tilerel a, [.ready, .empty])] →
      (i = .tilerel a → s.h.owns = true) →
      (512 ≤ A.toNat → TrapsAt i s 13 (A.toNat % 512) none) ∧
      (A.toNat < 512 → s.h.sup = false → (∃ o, t.owner = some o ∧ o ≠ s.h.ctx) → TrapsAt i s 13 (2 ^ 13 + tileCode t * 2 ^ 11 + A.toNat) none) ∧
      (MayUseTile s A → (t.st ∉ rows ∨ i = .tilerel a ∧ t.st = .empty ∧ (t.owner = none ∨ t.flt = false)) →
        TrapsAt i s 13 (2 * 2 ^ 13 + tileCode t * 2 ^ 11 + A.toNat) none)) ∧
    (∀ i, i ∈ [Instr.tfetch 0 a b c, .tdrain 0 a b c] → MayUseTile s A → (i = .tfetch 0 a b c → t.st = .empty ∧
        s.inStreamArea (coreOf s.cur) (4096 * A.toNat) 4096 = false) → (i = .tdrain 0 a b c → t.st = .ready) →
      let rb := C.toNat % 65536; let good := rb ∈ [32, 64, 128, 256, 512, 1024, 2048, 4096]
      (¬good → TrapsAt i s 15 (256 + 3) none) ∧ (good → B.toNat % 32 ≠ 0 → TrapsAt i s 15 2 none) ∧
      (good → B.toNat % 32 = 0 → C.toNat / 65536 % 32 ≠ 0 → TrapsAt i s 15 3 none))

/-- R161 to R164, R49, R66, R76, R77: MMA in its three variants. -/
def Obligations.MatrixMultiply : Prop :=
  ∀ (s : State) (i : Instr) (v : MmaKind) (va o t : Reg) (adv : BitVec 1) (f : BitVec 5),
    (i, v) ∈ [(Instr.mma va adv f o t, MmaKind.dense), (.mmas va adv f o t, .scaled), (.mmag va adv f o t, .sparse)] → i.wf = true →
    MatrixIdle s → let c := s.core (coreOf s.cur); let p := s.h.shapeOf va; let kd := (s.h.getDef va).kind; let P := planesFor f.toNat
    let K := depthOf f.toNat; let blk := s.h.vtype.toNat / 128 % 4; let B := 8 * 2 ^ blk
    let M := if P = 0 then p.rows else if kd = 1 then 128 else p.cols / 64
    let names := if v = .dense then [va] else if v = .sparse then [va, va + 1] else [va, va + 1, va + 2]
    let tile := leNat (s.homeBytes (localPa (coreOf s.cur) (4096 * (s.h.getX t).toNat)) 4096)
    let tile_ := c.tile (s.h.getX t).toNat; let fits := if P = 0 then (kd = 5 ∨ kd = 6) else (kd = 1 ∨ kd = 5)
    let badCols := if P = 0 then v ≠ .sparse ∧ p.cols ≠ K else kd = 5 ∧ p.cols % 64 ≠ 0
    let shape (reason value : Nat) : Prop := TrapsAt i s 14 (value * 2 ^ 24 + reason * 256 + va.toNat) (some s.h.estart.toNat)
    let block (value : Nat) : Prop := TrapsAt i s 14 (value * 2 ^ 24 + 4 * 256) (some s.h.estart.toNat)
    let row := (s.h.getX o).toNat % 256; let col := (s.h.getX o).toNat / 256 % 256
    (Usable s va (fmtWidth f.toNat) 0 → (v ≠ .dense → Usable s (va + 1) 8 0) → (v = .scaled → Usable s (va + 2) 8 0) → MayUseTile s (s.h.getX t) →
      (tile_.st ≠ .ready → TrapsAt i s 13 (2 * 2 ^ 13 + tileCode tile_ * 2 ^ 11 + (s.h.getX t).toNat) (some s.h.estart.toNat)) ∧
      (tile_.st = .ready → (¬fits → shape 0 kd) ∧ (fits → badCols → shape 1 p.cols) ∧ (fits → ¬badCols → (M = 0 ∨ 128 < M) → shape 2 M) ∧
        (fits → ¬badCols → 1 ≤ M → M ≤ 128 → P ≠ 0 → p.rows ≠ P → shape 5 p.rows) ∧
        (fits → ¬badCols → 1 ≤ M → M ≤ 128 → (P ≠ 0 → p.rows = P) → v = .dense →
          (s.h.windowRows / 2 < row + M → block (row + M)) ∧ (row + M ≤ s.h.windowRows / 2 → 128 < col + 64 → block (col + 64))))) ∧
    (Usable s va (fmtWidth f.toNat) 0 → (v = .sparse → Usable s (va + 1) 8 (M * p.cols)) →
    (v = .scaled → blk ≠ 0 ∧ Usable s (va + 1) 8 (M * (K / B)) ∧ Usable s (va + 2) 8 (K / B * 64)) →
    MayUseTile s (s.h.getX t) → (c.tile (s.h.getX t).toNat).st = .ready →
    (∀ q, q < 4096 → s.badAt (localPa (coreOf s.cur) (4096 * (s.h.getX t).toNat) + q) = none) →
    (if P = 0 then (kd = 5 ∨ kd = 6) ∧ (v ≠ .sparse → p.cols = K) else p.rows = P ∧ (kd = 1 ∨ kd = 5 ∧ p.cols % 64 = 0)) →
    1 ≤ M → M ≤ 128 → s.blockFits (s.h.getX o) M 64 →
    let u (m n : Nat) : FRes := s.matrixUpdate v va f.toNat B tile (c.accCell (s.blockCell (s.h.getX o) m n)) m n
    ∃ (k : Core) (ds : Vector Def 32),
      CompletesOn i s (s.issues i) (Hart.advance { (s.issues i).h with
        estart := 0
        fctl := s.h.fctl ||| ((s.blockFlags M 64 fun m n => (u m n).2) &&& 0xF8).setWidth 64
        defs := ds }) k ∧
      s.blockHolds k (s.h.getX o) M 64 (fun m n => (u m n).1) ∧ k.plane = c.plane ∧ k.l2 = c.l2 ∧ (∀ x, k.tile x = c.tile x) ∧
      ∀ r : Reg, ds[r.toNat] = if adv = 1 ∧ r ∈ names then (s.h.getDef r).advance else s.h.getDef r)

/-- R152, R153, R167: ACZERO, ACRD and ACWR. -/
def Obligations.AccumulatorMoves : Prop :=
  ∀ (s : State) (d o e : Reg) (f : BitVec 5), MatrixIdle s →
    let c := s.core (coreOf s.cur); let O := s.h.getX o; let p := s.h.shapeOf d; let kd := (s.h.getDef d).kind
    let R := (s.h.getX e).toNat % 256; let C := (s.h.getX e).toNat / 256 % 256
    let done (i : Instr) (fl : Flags) (k : Core) : Prop :=
      CompletesOn i s (s.issues i) (Hart.advance { (s.issues i).h with estart := 0, fctl := s.h.fctl ||| (fl &&& 0xF8).setWidth 64 }) k
    (R ≤ 128 → C ≤ 128 → (R = 0 ∨ C = 0 ∨ s.blockFits O R C) → ∃ k, done (.aczero o e) 0 k ∧
      s.blockHolds k O R C (fun _ _ => 0) ∧ k.plane = c.plane ∧ k.tiles = c.tiles ∧ k.l2 = c.l2) ∧
    (f.toNat ∈ [2, 8, 9, 10] → Usable s d (fmtWidth f.toNat) 0 → (kd = 5 ∨ kd = 6) → s.blockFits O p.rows p.cols →
      (let r (i j : Nat) : FRes := if f.toNat < 9 then (c.accCell (s.blockCell O i j), 0)
          else fconvert .rne (ffmtOf f.toNat) (fdecode fmtF32 (c.accCell (s.blockCell O i j)));
        done (.acrd d f o) (s.blockFlags p.rows p.cols fun i j => matrixFlags (r i j).2)
          ((((List.range p.rows).filter fun i => s.h.estart.toNat ≤ i).flatMap fun i => (List.range p.cols).map fun j =>
            (i * p.cols + j, (r i j).1)).foldl (fun (k : Core) (x : Nat × Nat) => k.setElem p x.1 x.2)
              ((s.issues (.acrd d f o)).core (coreOf s.cur)))) ∧
      (let r (i j : Nat) : FRes := if f.toNat < 9 then (s.el d (i * p.cols + j), 0)
          else fconvert .rne fmtF32 (fdecode (ffmtOf f.toNat) (s.el d (i * p.cols + j)));
        ∃ k, done (.acwr d f o) (s.blockFlags p.rows p.cols fun i j => matrixFlags (r i j).2) k ∧
          s.blockHolds k O p.rows p.cols (fun i j => (r i j).1) ∧ k.plane = c.plane ∧ k.tiles = c.tiles ∧ k.l2 = c.l2))

/-- R189 to R192, R181: unit, masked-unit, strided and read-only loads. -/
def Obligations.VectorLoads : Prop :=
  ∀ (s : State) (i : Instr) (d a b : Reg) (im : BitVec 15) (w : BitVec 2) (k : KReg) (va : Nat → Word) (pa : Nat → Nat),
    Idle s → let n := 2 ^ w.toNat; let l := s.performs k; Usable s d (8 * n) s.h.vl.toNat →
    let unit (x : Word) (e : Nat) : Word := s.h.getX a + x + BitVec.ofNat 64 (e * n)
    let form := i = .vld d a im w ∧ k = 0 ∧ va = unit (im.signExtend 64) ∨ i = .vldm d a w k ∧ va = unit 0 ∨
      i = .vlds d a b w k ∧ va = fun e => s.h.getX a + BitVec.ofNat 64 e * s.h.getX b
    ((form ∨ i = .vldro d a w k ∧ va = unit 0) → ∀ e r, FirstRefused s l va .load n e r → Faults i s s .load (va e) r (some s.h.estart.toNat)) ∧
    (s.unobserved → (∀ e ∈ l, Lands s (va e) .load n (pa e)) →
    (form → ∃ K, CompletesOn i s (s.issues i) (Hart.advance { (s.issues i).h with estart := 0 }) K ∧ Loaded s K d l fun e => s.seenNat (pa e) n) ∧
    (i = .vldro d a w k → (va = fun e => s.h.getX a + BitVec.ofNat 64 (e * n)) →
      (∀ e ∈ l, s.peerRefuses s.h.ctx (pa e) n = false ∧ ∀ j, j < n → s.badAt (pa e + j) = none) →
      ∃ K, CompletesOn i s (s.issues i) (Hart.advance { (s.issues i).h with estart := 0 }) K ∧
        Loaded s K d l (fun e => leNat ((List.range n).map fun j => s.roByte (pa e + j))) ∧ K.l2 = (s.core (coreOf s.cur)).l2))

/-- R189 to R192: unit, masked-unit and strided stores. -/
def Obligations.VectorStores : Prop :=
  ∀ (s : State) (i : Instr) (d a b : Reg) (im : BitVec 15) (w : BitVec 2) (k : KReg) (va : Nat → Word) (pa : Nat → Nat),
    Idle s → let n := 2 ^ w.toNat; let l := s.performs k; Usable s d (8 * n) s.h.vl.toNat →
    let unit (x : Word) (e : Nat) : Word := s.h.getX a + x + BitVec.ofNat 64 (e * n)
    (i = .vst d a im w ∧ k = 0 ∧ va = unit (im.signExtend 64) ∨ i = .vstm d a w k ∧ va = unit 0 ∨
      i = .vsts d a b w k ∧ va = fun e => s.h.getX a + BitVec.ofNat 64 e * s.h.getX b) →
    (∀ e r, FirstRefused s l va .store n e r → Faults i s s .store (va e) r (some s.h.estart.toNat)) ∧
    (s.unobserved → (∀ e ∈ l, Lands s (va e) .store n (pa e) ∧ s.takesStore (pa e) n) → ∃ t, exec i s = .next t ∧ t.hart s.cur = Hart.advance { (s.issues i).h with estart := 0 } ∧ Stored s t l pa n (s.el d))

/-- R189, R190, R193: indexed loads and stores. -/
def Obligations.IndexedAccesses : Prop :=
  ∀ (s : State) (d a b : Reg) (w : BitVec 2) (y : BitVec 1) (k : KReg) (pa : Nat → Nat) (wi : Nat),
    Idle s → s.unobserved → let n := 2 ^ w.toNat; let l := s.indexed k; Usable s d (8 * n) s.h.vl.toNat → Usable s b wi s.h.vl.toNat →
    (s.h.getX a).toNat % n = 0 →
    (∀ i, (i, wi) ∈ [(Instr.vldi d a b w y k, 32), (.vldiw d a b w y k, 64)] →
      ((∀ e ∈ l, Lands s (s.indexVa a b n e) .load n (pa e)) →
        ∃ K, CompletesOn i s (s.issues i) (s.indexedDone (s.issues i) k).advance K ∧ Loaded s K d l fun e => s.seenNat (pa e) n) ∧
      (∀ (F : List Nat) (page : Word) (r : Nat), RefusedPage s .load (s.indexVa a b n) l F page r →
        (∀ e ∈ l, e ∉ F → Lands s (s.indexVa a b n e) .load n (pa e)) →
        Use.meets ⟨s.h.shapeOf d, s.h.estart.toNat, s.h.vl.toNat⟩ ⟨s.h.shapeOf b, s.h.estart.toNat, s.h.vl.toNat⟩ = false →
        ∃ (h : Hart) (K : Core), CompletesOn i s (s.issues i) h K ∧ s.IndexFaulted (s.issues i).h h l F page r false ∧
          Loaded s K d (l.filter fun e => e ∉ F) fun e => s.seenNat (pa e) n)) ∧
    (∀ i, (i, wi) ∈ [(Instr.vsti d a b w y k, 32), (.vstiw d a b w y k, 64)] →
      ((∀ e ∈ l, Lands s (s.indexVa a b n e) .store n (pa e) ∧ s.takesStore (pa e) n) →
        ∃ t, exec i s = .next t ∧ t.hart s.cur = (s.indexedDone (s.issues i) k).advance ∧ Stored s t l pa n (s.el d)) ∧
      (∀ (F : List Nat) (page : Word) (r : Nat), RefusedPage s .store (s.indexVa a b n) l F page r →
        (∀ e ∈ l, e ∉ F → Lands s (s.indexVa a b n e) .store n (pa e) ∧ s.takesStore (pa e) n) →
        ∃ t, exec i s = .next t ∧ s.IndexFaulted (s.issues i).h (t.hart s.cur) l F page r true ∧
          Stored s t (l.filter fun e => e ∉ F) pa n (s.el d)))

/-- R247 to R252: gather-linked, where the core holds permission for each line, scatter-conditional, and VSCADD, which hands each addition to
a unit of the core and counts it in its lane's counter. -/
def Obligations.LinkedAccesses : Prop :=
  (∀ (s : State) (d a b : Reg) (w y : BitVec 1) (k : KReg) (pa : Nat → Nat) (wi : Nat),
      Idle s → s.unobserved → let n := if w = 1 then 8 else 4; let l := s.indexed k; let c := s.core (coreOf s.cur)
      Usable s d (8 * n) s.h.vl.toNat → Usable s b wi s.h.vl.toNat → (s.h.getX a).toNat % n = 0 → (∀ e ∈ l, s.scopeMiss (pa e) = false) →
      (∀ i, (i, wi) ∈ [(Instr.vgl d a b w y k, 32), (.vglw d a b w y k, 64)] →
        (∀ e ∈ l, Lands s (s.indexVa a b n e) .load n (pa e) ∧ ((s.place (pa e)).cached = true → pa e / 256 ∈ c.perms)) →
        ∃ (K : Core) (ls : List Nat), CompletesOn i s (s.issues i) (Hart.advance { s.indexedDone (s.issues i) k with
            links := ls
            smiss := clearBits s.h.smiss l }) K ∧
          Loaded s K d l (fun e => s.seenNat (pa e) n) ∧
          (s.h.links.length + l.length ≤ 256 → ∀ x, x ∈ ls ↔ x ∈ s.h.links ∨ ∃ e ∈ l, x = pa e / 256)) ∧
      (∀ i, (i, wi) ∈ [(Instr.vsc d a b w y k, 32), (.vscw d a b w y k, 64)] → k ≠ 0 →
        (∀ e ∈ l, Lands s (s.indexVa a b n e) .store n (pa e) ∧ s.takesStore (pa e) n) →
        ∃ (t : State) (m : BitVec 8192), exec i s = .next t ∧
          t.hart s.cur = Hart.advance { (s.indexedDone (s.issues i) k).setK k m with
            links := []
            smiss := clearBits s.h.smiss l } ∧
          (∀ e, m.getLsbD e = if e ∈ l then s.h.links.contains (pa e / 256) else (s.h.getK k).getLsbD e) ∧
          Stored s t (l.filter fun e => s.h.links.contains (pa e / 256)) pa n (s.el d))) ∧
  (∀ (s : State) (d a b : Reg) (f : BitVec 5) (y : BitVec 1) (k : KReg) (pa : Nat → Nat) (wi : Nat),
      f.toNat ∈ [2, 6, 8, 3, 7] → Idle s → s.unobserved → let n := fmtWidth f.toNat / 8; let l := s.indexed k; let c := s.core (coreOf s.cur)
      Usable s d (8 * n) s.h.vl.toNat → (wi = 32 ∨ wi = 64) → Usable s b wi s.h.vl.toNat → (s.h.getX a).toNat % n = 0 →
      (∀ e ∈ l, Lands s (s.indexVa a b n e) .store n (pa e) ∧ s.takesStore (pa e) n ∧ s.scopeMiss (pa e) = false) →
      c.adds = [] → l.length ≤ 64 →
      let u := s.issues (.vscadd d a b f y k)
      ∃ (t : State) (v : Vector Nat 64), exec (.vscadd d a b f y k) s = .next t ∧
        t.hart s.cur = Hart.advance { s.indexedDone u k with
          lanes := v
          smiss := clearBits s.h.smiss l } ∧
        (∀ j, (h : j < 64) → v[j] = s.h.lanes[j] + (l.filter fun e => e % 64 = j).length) ∧
        t.core (coreOf s.cur) = { u.core (coreOf s.cur) with adds := l.map fun e =>
          ⟨s.cur, s.h.kernel, s.h.pc, e % 64, s.indexVa a b n e, pa e, f.toNat, BitVec.ofNat 64 (s.el d e), 0⟩ } ∧
        t.mem = s.mem ∧ (∀ h, h ≠ s.cur → t.hart h = u.hart h) ∧ ∀ g, g ≠ coreOf s.cur → t.core g = s.core g)

/-- R292 to R296, R302: the merge instructions without a completion object; MGOPEN without a spill region, MGPUSH with room. -/
def Obligations.MergeCommands : Prop :=
  ∀ (s : State), let m := (s.camp (campOf s.cur)).merge
    (∀ (u : State) (a : Reg) (bs : List Byte), CanIssue s → m.st = .free → (s.camp (campOf s.cur)).mergeV = true →
      (s.camp (campOf s.cur)).mergeCtx = s.h.ctx → (s.h.getX a).toNat % 64 = 0 →
      let v := s.issues (.mgopen 0 a)
      v.loadRun (.hart s.cur) (v.xctx s.cur) (s.h.getX a) 64 = (u, bs, none) → u.cur = s.cur →
      fieldAt bs 0 1 ≤ 1 → fieldAt bs 1 3 = 0 → fieldAt bs 32 32 = 0 → fieldAt bs 24 8 = 0 → 1 ≤ fieldAt bs 16 8 → fieldAt bs 16 8 ≤ 2 ^ 28 →
      fieldAt bs 8 8 % 64 = 0 → (if fieldAt bs 0 1 = 1 then 1 ≤ fieldAt bs 4 4 ∧ fieldAt bs 4 4 ≤ fieldAt bs 16 8 else fieldAt bs 4 4 = 0) →
      ∃ n : Merge, NetCompletes (.mgopen 0 a) s u (u.hart s.cur).advance n ∧ n.st = .opened ∧ n.owner = some (s.h.ctx, s.h.kernel) ∧
        n.mode = fieldAt bs 0 1 ∧ n.kk = fieldAt bs 4 4 ∧ n.out = BitVec.ofNat 64 (fieldAt bs 8 8) ∧ n.outcap = fieldAt bs 16 8 ∧
        n.half = 0 ∧ n.store = [] ∧ n.runs = [] ∧ n.accepted = 0 ∧ n.refused = 0 ∧ n.failed = 0) ∧
    (CanIssue s → HoldsNet s → m.st = .opened →
      NetCompletes (.mgclose 0) s (s.issues (.mgclose 0)) (s.issues (.mgclose 0)).h.advance { m with st := .closing, closeObj := none }) ∧
    (CanIssue s → HoldsNet s → m.st = .closed →
      NetCompletes (.mgdrain 0) s (s.issues (.mgdrain 0)) (s.issues (.mgdrain 0)).h.advance { m with st := .draining, drainObj := none }) ∧
    (CanIssue s → HoldsNet s → m.st = .closing → m.drainRecorded = false →
      NetCompletes (.mgdrain 0) s (s.issues (.mgdrain 0)) (s.issues (.mgdrain 0)).h.advance { m with drainRecorded := true, drainObj := none }) ∧
    (∀ (d a b : Reg) (y x : BitVec 1) (k : KReg), Idle s → HoldsNet s → m.st = .opened → Usable s d 32 s.h.vl.toNat →
      Usable s a 32 s.h.vl.toNat → Usable s b 32 s.h.vl.toNat → let l := s.performs k; let port := coreOf s.cur % 16
      let seq := m.seqs.toList.getD port 0
      k ≠ 0 → m.fullFlag = false → m.store.length + l.length ≤ 65536 → seq + l.length ≤ 2 ^ 28 →
      let u := s.issues (.mgpush d a b y x k)
      ∃ q : BitVec 8192, NetCompletes (.mgpush d a b y x k) s u (Hart.advance { u.h.setK k q with estart := 0 })
          { m with
            store := m.store ++ l.zipIdx.map fun e => ⟨s.el d e.1, s.el a e.1, BitVec.ofNat 32 (s.el b e.1), port, seq + e.2⟩
            seqs := m.seqs.set! port (seq + l.length)
            accepted := m.accepted + l.length } ∧
        ∀ e, q.getLsbD e = (decide (e ∈ l) || (s.h.getK k).getLsbD e))

/-- R202 to R205: VLDZ on a stream that has ended, with nothing held: no element is written, VL becomes 0, and the record is stored back with LIMIT
beyond the input that x[b] adds. VL = 0 is log 24, the zero bytes of PEND log 95. -/
def Obligations.StreamEnd : Prop :=
  ∀ (s : State) (d a b : Reg) (f : BitVec 5) (pa : Nat) (r : List Byte), f.toNat ≤ 14 → Idle s → s.unobserved → s.h.estart = 0 →
    Usable s d (fmtWidth f.toNat) s.h.vl.toNat → 8 ≤ fmtWidth f.toNat → let A := s.h.getX a
    A.toNat % 64 = 0 → pa % 256 = A.toNat % 256 → A.toNat % 4096 ≤ 3072 → A.toNat + 4096 < 2 ^ 64 →
    (∀ o, o < 384 → Plain s (A + BitVec.ofNat 64 o) (pa + o)) → s.takesStore pa 1024 →
    r = (List.range 384).map (fun o => s.seen (coreOf s.cur) (pa + o)) → recordOkay r = true → 4 ≤ fieldAt r 17 1 → fieldAt r 20 1 = 0 →
    let limit := Nat.min (fieldAt r 0 8 + (s.h.getX b).toNat) (2 ^ 64 - 1)
    ∃ t, exec (.vldz d a b f) s = .next t ∧ t.hart s.cur = Hart.advance { (s.issues (.vldz d a b f)).h with vl := 0 } ∧
      (∀ q, t.seen (coreOf s.cur) q = if pa + 8 ≤ q ∧ q < pa + 16 then BitVec.ofNat 8 (limit / 2 ^ (8 * (q - (pa + 8))))
        else if pa + 24 ≤ q ∧ q < pa + 32 then 0 else s.seen (coreOf s.cur) q) ∧
      t.mem = s.mem ∧ (∀ c, (t.core c).plane = (s.core c).plane) ∧ ∀ h, h ≠ s.cur → (t.hart h).x = (s.hart h).x ∧ (t.hart h).pc = (s.hart h).pc

/-- R243 to R245: the scalar atomics: at hart and core scope on what the core sees; from camp scope on, where the core holds no line, on the bytes of
device memory at their home, which also marks the line (R233). -/
def Obligations.ScalarAtomics : Prop :=
  ∀ (s : State) (d a b c : Reg) (w : BitVec 1) (sc : BitVec 3) (o : BitVec 2) (i : Instr) (op pa : Nat), s.h.queue = [] →
    s.unwatched → let n := if i = .acas d a b c sc o then 8 else if w = 1 then 4 else 8
    (s.h.getX a).toNat % n = 0 → Reaches s (s.h.getX a) .store n pa s → s.storeRefused pa n = false →
    (2 ≤ sc.toNat → CoreBare s ∧ HomeWritable s pa n ∧ s.permitsNone (pa / 256)) →
    let old := if sc.toNat < 2 then s.seenNat pa n else leNat (s.homeBytes pa n); let y := (s.h.getX b).toNat % 2 ^ (8 * n)
    ∀ v : Nat, ((i, op) ∈ [(Instr.aadd d a b w sc o, 0), (.aand d a b w sc o, 1), (.aor d a b w sc o, 2), (.axor d a b w sc o, 3),
        (.amin d a b w sc o, 4), (.amax d a b w sc o, 5), (.aminu d a b w sc o, 6), (.amaxu d a b w sc o, 7), (.aswap d a b w sc o, 8)] ∧
        v = atomicValue op n old y ∨
      i = .acas d a b c sc o ∧ v = if old = (s.h.getX b).toNat then (s.h.getX c).toNat else old) →
    ∃ t, exec i s = .next t ∧
      t.hart s.cur = (s.h.setX d (BitVec.ofInt 64 (if old < 2 ^ (8 * n - 1) then old else (old : Int) - 2 ^ (8 * n)))).advance ∧
      (sc.toNat < 2 → (∀ q, t.seen (coreOf s.cur) q = if pa ≤ q ∧ q < pa + n then BitVec.ofNat 8 (v / 2 ^ (8 * (q - pa)))
          else s.seen (coreOf s.cur) q) ∧ ∀ q, ¬(pa ≤ q ∧ q < pa + n) → t.mem.read q = s.mem.read q) ∧
      (2 ≤ sc.toNat → t.marked (pa / 256) = true ∧ ∀ q, s.fold q = q →
        t.homeByte q = if pa ≤ q ∧ q < pa + n then BitVec.ofNat 8 (v / 2 ^ (8 * (q - pa))) else s.homeByte q) ∧
      (∀ k, (t.core k).plane = (s.core k).plane) ∧ ∀ h, h ≠ s.cur → (t.hart h).x = (s.hart h).x ∧ (t.hart h).pc = (s.hart h).pc

/-- R213, R221, R270 to R283, R398 to R400: LSYNC, CMREAD, DGET, TREC, BRK, TCHK, TDONE and TSUB. CMREAD of peer memory and of the management block
is log 27. -/
def Obligations.SystemAndTasks : Prop :=
  ∀ (s : State) (d a b c : Reg), s.h.queue = [] → let p := s.camp (campOf s.cur)
    ((s.core (coreOf s.cur)).stores = [] → Completes .lsync s s.h.advance) ∧
    (∀ pa, s.translate (s.xctx s.cur) (s.h.getX a) .load = (.ok pa, none) →
      let v : Nat := match s.place pa with
        | .device off => let t := s.tag ((s.hdm + off) / 256)
            t.toNat + if ((List.range 8).filter fun i => t.getLsbD i).length % 2 = 1 then 512 else 0
        | _ => 0x100
      Completes (.cmread d a) s (s.h.setX d (BitVec.ofNat 64 v)).advance) ∧
    Completes (.dget d a) s (s.h.setX d (if (s.context s.h.ctx).bdg then
      BitVec.ofNat 64 (fieldAt (s.context s.h.ctx).digest (8 * ((s.h.getX a).toNat % 4)) 8) else 0)).advance ∧
    (let f := p.ring.cfg.toNat / 2 ^ 24 % 2 ^ 16
      let q : List SpoorEvent := if p.ring.cfg.getLsbD 6 = true ∧ (f = 0 ∨ f = s.h.ctx) then
        [⟨campOf s.cur, 1, s.h.ctx, hartId s.cur, s.h.pc, s.dtime, [s.h.getX a, s.h.getX b], none⟩] else []
      ∃ t, exec (.trec a b) s = .next t ∧ t.hart s.cur = s.h.advance ∧ (∀ h, h ≠ s.cur → t.hart h = s.hart h) ∧
        t.SameButHarts { s with spoorQueue := s.spoorQueue ++ q }) ∧
    (∀ n : BitVec 10, let u := { s with trigEvents := s.trigEvents ++ [BitVec.ofNat 16 (16384 + n.toNat)] }
      let is (h : Hart) : Prop := ∃ t, exec (.brk n) s = .next t ∧ t.hart s.cur = h ∧ (∀ g, g ≠ s.cur → t.hart g = s.hart g) ∧
        t.SameButHarts u
      (s.h.dctl.getLsbD 0 = false → s.h.sup = true → is s.h.advance) ∧
      (s.h.dctl.getLsbD 0 = false → s.h.sup = false → is (s.h.trapTo p.entrypc ⟨23, n.setWidth 64, none⟩ s.h.pc)) ∧
      (s.h.dctl.getLsbD 0 = true → s.h.frozen = false → ∃ t, exec (.brk n) s = .next t ∧ (t.hart s.cur).frozen = true ∧
        (t.hart s.cur).pc = s.h.advance.pc ∧ (t.hart s.cur).x = s.h.advance.x ∧ (t.hart s.cur).dstat.toNat / 2 ^ 20 % 8 = 6 ∧
        (t.hart s.cur).links = [] ∧ ∀ g, g ≠ s.cur → t.hart g = s.hart g)) ∧
    (s.currentTask s.cur = none → Traps (.tdone d) s 17 0 s.h.pc) ∧
    (let late := match s.h.kernel with
        | some k => FMap.get (fun _ => 0) p.tlate k
        | none => 0
      (s.currentTask s.cur = none → Completes (.tchk d) s (s.h.setX d (BitVec.ofNat 64 (late % 2 ^ 32 * 2 ^ 32))).advance) ∧
      ∀ t, s.currentTask s.cur = some t → let v := BitVec.ofNat 64 (late % 2 ^ 32 * 2 ^ 32 + t.path % 4 * 4 + 2 + if t.w then 1 else 0)
        ((t.w = false ∨ t.wdraw = 0 ∨ t.path = 2) → Completes (.tchk d) s (s.h.setX d v).advance) ∧
        (t.w = true → t.wdraw ≠ 0 → t.path ≠ 2 → ∃ u, exec (.tchk d) s = .next u ∧
          u.hart s.cur = ((s.h.setX d v).setX 13 2).redirect t.wdraw ∧ (∀ g, g ≠ s.cur → u.hart g = s.hart g) ∧
          (u.camp (campOf s.cur)).tasks = p.tasks.map fun x => if x.id = t.id then { t with path := 2 } else x)) ∧
    (∀ t : Task, p.tasks = [t] → s.h.task = some t.id → t.path ≠ 2 → Prompt s → (s.core (coreOf s.cur)).l2 = [] →
      let n := Hart.advance (Hart.setX { s.h with task := none } d (BitVec.ofNat 64 (t.path * 256 + t.late % 2 ^ 32 * 2 ^ 24)))
      ∃ u, exec (.tdone d) s = .next u ∧ (u.hart s.cur).x = n.x ∧ (u.hart s.cur).pc = n.pc ∧ (u.hart s.cur).task = none ∧
        (u.camp (campOf s.cur)).tasks = []) ∧
    (∀ (v : State) (k pa : Nat) (bs : List Byte), d ≠ 0 → s.h.kernel = some k → (s.h.getX a).toNat % 256 = 0 →
      (s.h.getX d).toNat % 8 = 0 → s.translate (s.xctx s.cur) (s.h.getX d) .store = (.ok pa, none) → s.storeRefused pa 8 = false →
      s.loadRun (.hart s.cur) (s.xctx s.cur) (s.h.getX a) 256 = (v, bs, none) →
      v.translate (v.xctx s.cur) (s.h.getX d) .store = (.ok pa, none) → fieldAt bs 0 8 ≠ 0 → fieldAt bs 0 8 % 4 = 0 →
      fieldAt bs 8 8 = 0 → fieldAt bs 16 8 % 4 = 0 → fieldAt bs 24 232 = 0 → Prompt s → CoreBare s → 1 ≤ s.freeEntries s.cur → p.tasks = [] →
      (∀ h, (s.hart h).wait = none) →
      ∃ (u : State) (t : Task), exec (.tsub d a b c) s = .next u ∧ (u.camp (campOf s.cur)).tasks = [t] ∧ t.id = s.nextTask ∧
        t.kernel = k ∧ t.ctx = s.h.ctx ∧ t.entry = BitVec.ofNat 64 (fieldAt bs 0 8) ∧ t.wdraw = BitVec.ofNat 64 (fieldAt bs 16 8) ∧
        t.g0 = s.h.getX b ∧ t.g1 = s.h.getX c ∧ t.obj = s.h.getX d ∧ t.objPa = pa ∧ t.st = .ready ∧ t.path = 0 ∧ t.reads = [] ∧
        t.writes = [] ∧ (u.hart s.cur).x = s.h.advance.x ∧ (u.hart s.cur).pc = s.h.advance.pc)

/-- R151, R158, R200, R253 to R261, R280, R281, R303: waits that finish OK at their first attempt and store nothing; then the last arrival at
a barrier, a send, a receive, the take of a task and a pop. -/
def Obligations.Waits : Prop :=
  (∀ (s : State) (d a b : Reg) (sc : BitVec 5), MayWait s → let k := s.core (coreOf s.cur); let A := s.h.getX a; let n := s.h.vl.toNat
      let ok (i : Instr) (v : Nat) : Prop := WaitEnds i s (s.h.waited d (BitVec.ofNat 64 v))
      (s.h.owns = true → Usable s a (s.h.getDef a).width n → k.pend = [] → ok (.nawait d a b) 0) ∧
      (s.h.owns = true → MayUseTile s A → (k.tile A.toNat).st = .ready → ok (.tilewait d a b 0) (2 * 256)) ∧
      (s.h.owns = true → MayUseTile s A → (k.tile A.toNat).st = .empty → (k.tile A.toNat).flt = false → ok (.tilewait d a b 1) 0) ∧
      (sc.toNat < 2 ∨ k.l2 = [] → ok (.fence d a b sc) ((if A.toNat % 16 = 0 then 15 else A.toNat % 16) * 256)) ∧
      (sc.toNat < 2 → s.h.lanes = Vector.replicate 64 0 → s.h.dropped = 0 → ok (.phend d b sc) 0) ∧
      (∀ pa, CoreBare s → s.unwatched → A.toNat % 8 = 0 → Reaches s A .load 8 pa s → s.peerRefuses s.h.ctx pa 8 = false →
        s.seenNat pa 8 % 256 = 0 →
        ok (.twait d a b) (s.seenNat pa 8) ∧ ok (.mgwait d a b) (s.seenNat pa 8)) ∧
      (∀ pa, sc.toNat < 2 → s.unwatched → A.toNat % 8 = 0 → Reaches s A .load 8 pa s → s.inside pa → s.seenNat pa 8 ≠ (s.h.getX d).toNat →
        ok (.waita d a b sc) 0) ∧
      (n = 0 → ok (.vwaita d a b sc) 0) ∧
      (∀ (pa : Nat → Nat) (e : Nat), sc.toNat < 2 → s.unwatched → A.toNat % 8 = 0 → e < n →
        (∀ j, j < n → Reaches s (A + BitVec.ofNat 64 (8 * j)) .load 8 (pa j) s ∧ s.inside (pa j)) →
        (∀ j, j < e → s.seenNat (pa j) 8 = (s.h.getX d).toNat) → s.seenNat (pa e) 8 ≠ (s.h.getX d).toNat →
        ok (.vwaita d a b sc) (e * 2 ^ 8 + n * 2 ^ 22))) ∧
  (∀ (s : State) (d a b : Reg) (sc : BitVec 5) (pa : Nat), MayWait s → let A := s.h.getX a; let g := s.seenNat (pa + 4) 4
      (sc.toNat < 2 → s.unwatched → A.toNat % 8 = 0 → Reaches s A .store 8 pa s → s.inside pa → s.takesStore pa 8 →
        s.seenNat (pa + 2) 2 + 1 = s.seenNat pa 2 → WaitStores (.bar d a b sc) s (s.h.waited d (BitVec.ofNat 64 (g * 256)))
          (bytesAt pa 8 (s.seenNat pa 2 + (g + 1) % 2 ^ 32 * 2 ^ 32))) ∧
      (sc.toNat < 2 → s.unwatched → A.toNat % 256 = 0 → Reaches s A .store 256 pa s → s.inside pa →
        (∀ o m, o + m ≤ 256 → s.takesStore (pa + o) m) → s.h.frozen = false → (∀ h, h ≠ s.cur → (s.hart h).wait = none) →
        let head := s.seenNat pa 4; let tail := g; let cap := 2 ^ s.seenNat (pa + 8) 1; let used := (tail + 2 ^ 32 - head) % 2 ^ 32
        s.seenNat (pa + 8) 1 ≤ 4 → s.seenNat (pa + 9) 7 = 0 → used ≤ cap →
        (used < cap → WaitStores (.qsend d a b sc) s (s.h.waited d (BitVec.ofNat 64 (tail * 256)))
          (fun q => (bytesAt (pa + 4) 4 ((tail + 1) % 2 ^ 32) q).or (bytesAt (pa + 16 + 8 * (tail % cap)) 8 (s.h.getX (d + 1)).toNat q))) ∧
        (used ≠ 0 → WaitStores (.qrecv d a b sc) s
          ((s.h.setX (d + 1) (BitVec.ofNat 64 (s.seenNat (pa + 16 + 8 * (head % cap)) 8))).waited d (BitVec.ofNat 64 (head * 256)))
          (bytesAt pa 4 ((head + 1) % 2 ^ 32)))) ∧
      (∀ (t : Task) (k : Nat), s.h.task = none → s.h.kernel = some k → s.h.frozen = false → (s.camp (campOf s.cur)).tasks = [t] → t.st = .ready →
        t.kernel = k → (s.core (coreOf s.cur)).l2 = [] → (∀ h, h ≠ s.cur → (s.hart h).wait = none) →
        let x := (((s.h.setX 10 t.g0).setX 11 t.g1).setX 12 t.obj).setX 13 (BitVec.ofNat 64 t.path)
        ∃ u, exec (.twaitTake d b) s = .next u ∧ u.hart s.cur = (Hart.setX { x with
            task := some t.id
            dlstat := s.h.dlstat &&& 0x10000
            wait := none } d (BitVec.ofNat 64 (t.path * 256))).redirect (if t.path = 1 then t.abse else t.entry) ∧
          (∀ h, h ≠ s.cur → u.hart h = s.hart h) ∧ (u.camp (campOf s.cur)).tasks = [{ t with st := .running }] ∧ u.mem = s.mem) ∧
      (∀ (v : Stream) (m : Reg) (t : BitVec 1), s.h.owns = true → s.stream s.cur (A.toNat % 2) = some v → v.parked = false →
        v.popped < v.count → v.full.getLsbD (v.popped % v.slots) = true →
        Usable s m (s.h.getDef m).width (v.len * 8 / (s.h.getDef m).width) →
        ∃ (u : State) (e : QEntry), exec (.sqpop d a b t m) s = .next u ∧ u.hart s.cur = { (Hart.setStream (A.toNat % 2)
              (some { v with popped := v.popped + 1 }) s.h).waited d (BitVec.ofNat 64 (v.popped * 2 ^ 16)) with
            queue := [e] } ∧
          e.instr = .sqpop d a b t m ∧ e.va.toNat = A.toNat % 2 ∧ e.vb = BitVec.ofNat 64 v.popped ∧ e.pc = s.h.pc ∧ e.issued = none ∧
          (∀ h, h ≠ s.cur → u.hart h = s.hart h) ∧ (∀ c, (u.core c).plane = (s.core c).plane) ∧ u.mem = s.mem))

/-- R237, R307 to R313, R330 to R337: what the events of the queue and of waits do to a hart, on entries of one group; an entry that has performed its
last group has ended and is listed no longer (log 28). The charge is stated where it leaves the count within the window (log 29). -/
def Obligations.QueueEvents : Prop :=
  ∀ (s : State) (h : Nat), let core := coreOf h; let u := s.hart h; let entry := (s.camp (campOf h)).entrypc
    (∀ (e : QEntry) (d a b : KReg), Alone s h e → e.instr = .kand d a b → e.issued = none → u.owns = true →
      ∃ t f, exec (.entryIssue core) s = .next t ∧ (t.hart h).queue = [f] ∧ f.issued = some (s.core core).issues ∧ f.instr = e.instr ∧
        f.pc = e.pc ∧ f.startsAt = u.estart.toNat ∧ f.len = e.vl ∧ (t.hart h).estart = 0 ∧
        (t.core core).issues = (s.core core).issues + 1 ∧ (t.hart h).x = u.x ∧ (t.hart h).k = u.k ∧
        let g := 2 ^ (e.vtype.toNat / 512 % 4)
        let v := (if u.issuable = true then u.vcount else Nat.max u.vcount (s.core core).arbM) +
          g * ((e.vl + 8192 * g - 1) / (8192 * g)) * (8 / Nat.max u.share 1)
        (v ≤ (s.core core).arbM + 56 → (t.hart h).vcount = v)) ∧
    (∀ (e : QEntry) (g : Nat) (d a : Reg) (w : BitVec 2) (k : KReg) (p : PendingWrite), u.run = .running → u.frozen = false → u.skid = none →
      (∀ v ∈ u.stops.toList, v.w0.getLsbD 0 = false) → u.queue = [e] → e.instr = .vmv d a w 1 k → e.issued = none → e.trap = none → coreOf g = core →
      g ≠ h → (∀ q ∈ (s.hart g).queue, q.issued ≠ none) → (∀ f, coreOf f = core → f ≠ h → f ≠ g → (s.hart f).queue = []) → u.owns = true →
      (∀ r ∈ [d, a], (u.getDef r).wf = true ∧ (u.getDef r).width = 8 * 2 ^ w.toNat ∧
        ((u.getDef r).shape u.base).firstOutside u.windowRows = none ∧ e.vl ≤ ((u.getDef r).shape u.base).count) →
      (s.core core).pend = [p] → p.h = g → (∃ x ∈ p.dsts, x.meets ⟨(u.getDef a).shape u.base, u.estart.toNat, e.vl⟩ = true) →
      ∃ t f, exec (.entryIssue core) s = .next t ∧ (t.hart h).queue = [f] ∧ f.instr = e.instr ∧ f.pc = e.pc ∧ f.issued = none ∧
        f.trap = some ⟨11, BitVec.ofNat 64 a.toNat, some u.estart.toNat⟩ ∧ (t.hart h).x = u.x ∧ (t.hart h).k = u.k ∧ (t.hart h).estart = u.estart ∧
        (t.core core).pend = [p] ∧ (t.core core).plane = (s.core core).plane ∧ t.mem = s.mem) ∧
    (∀ (e : QEntry) (d a b : KReg), Alone s h e → IssuedKand e d a b →
      (∃ t f, exec (.laneGroupStart core 0) s = .next t ∧ KandDone (t.hart h) u d a b e.len ∧ (t.hart h).queue = [f] ∧
        f.issued = e.issued ∧ f.begun[0] = 1 ∧ f.ended = true ∧ (t.hart h).x = u.x ∧ t.mem = s.mem ∧
        (t.core core).plane = (s.core core).plane ∧ ∀ p ∈ (t.core core).pend, ¬(p.h = h ∧ e.issued = some p.seq)) ∧
      ∃ t, exec (.entryComplete h) s = .next t ∧ KandDone (t.hart h) u d a b e.len ∧ (t.hart h).queue = [] ∧
        (t.hart h).fctl = u.fctl ∧ (t.hart h).x = u.x ∧ (t.hart h).pc = u.pc ∧ t.mem = s.mem ∧ (t.core core).plane = (s.core core).plane ∧
        ∀ p ∈ (t.core core).pend, ¬(p.h = h ∧ e.issued = some p.seq)) ∧
    (∀ (e : QEntry) (d a : Reg) (w : BitVec 2) (f : Frame), Alone s h e → e.instr = .vld d a 0 w → e.issued ≠ none → e.startsAt = 0 →
      e.len = 1 → e.whole = true → e.begun = Vector.replicate 4 0 → e.chain = [] → e.frames = [f] → f.page = e.va.toNat / 4096 →
      f.reason = 0 → u.sup = false → s.unwatched → (s.core core).stores = [] → let n := 2 ^ w.toNat; let pa := f.pa + e.va.toNat % 4096
      pa % n = 0 → s.inside pa → (∀ i, i < n → s.fold (pa + i) = pa + i ∧ s.badHeld core (pa + i) = none) →
      ∃ t g, exec (.loadDataArrival h) s = .next t ∧ (t.hart h).queue = [g] ∧ g.issued = e.issued ∧ g.ended = true ∧ (t.hart h).x = u.x ∧
        (t.core core).plane = ((s.core core).setElem (Hart.shapeOf { u with defs := e.defs } d) 0
          (leNat ((List.range n).map fun j => s.seen core (pa + j)))).plane ∧ t.mem = s.mem) ∧
    (∀ (e : QEntry) (l : List QEntry) (x : Trap) (op : QOp), u.run = .running → u.frozen = false → u.skid = none → u.queue = e :: l → e.trap = some x →
      e.issued = none → entryOp e.instr = some op → x.code ≠ 8 → x.code ≠ 20 → x.code ≠ 32 →
      ∃ t, exec (.trapEntry h) s = .next t ∧ TrapTaken (t.hart h) entry x.code x.tval e.pc ∧ (t.hart h).x = e.xs ∧ (t.hart h).k = u.k ∧
        (t.hart h).vtype = e.vtype ∧ (t.hart h).vl = BitVec.ofNat 64 e.vl ∧ t.mem = s.mem ∧
        ∀ c, (t.core c).plane = (s.core c).plane) ∧
    (∀ w, u.run = .running → u.frozen = false → u.skid = none → u.queue = [] → u.wait = none → u.sup = false → u.stepping = none → u.preempt = some w →
      ∃ t, exec (.asyncStop h) s = .next t ∧ TrapTaken (t.hart h) entry 32 w u.pc ∧ (t.hart h).trapei = 0x8000000000000000 ∧
        (t.hart h).preempt = none ∧ (t.hart h).x = u.x ∧ (t.hart h).k = u.k) ∧
    (∀ w, WaitsOnTile s h w → ((s.core core).tile w.obj.toNat).st = .ready →
      ∃ t, exec (.waitWake h) s = .next t ∧ t.hart h = u.waited w.dreg (2 * 256) ∧ (∀ g, g ≠ h → t.hart g = s.hart g) ∧ t.mem = s.mem) ∧
    (∀ w, WaitsOnTile s h w → let k := ((s.core core).tile w.obj.toNat); k.st = .filling → s.expired h w = true → u.dlcap = 0 →
      u.dlesc.toNat % 256 = 0 → ∃ t, exec (.waitDeadlineExpiry h) s = .next t ∧
        t.hart h = (Hart.setX { u with
          dlstat := (u.dlstat &&& 0x10000) ||| BitVec.ofNat 64 (256 + Nat.min (u.dlstat.toNat % 256 + 1) 255)
          wait := none } w.dreg (BitVec.ofNat 64 (1 + 256))).advance ∧ (∀ g, g ≠ h → t.hart g = s.hart g) ∧ t.mem = s.mem)

/-- R155, R187, R188, R199, R207 to R214, R251, R276, R298 to R300: what the events of the engines, the scatter-add units, the merge networks and the
task units do, where their accesses succeed and no completion object is named. The owner after a drain of the supervisor is log 67. -/
def Obligations.EngineEvents : Prop :=
  ∀ (s u v : State) (o : Op) (bs : List Byte),
    (∀ (h q : Nat) (x : Stream), s.stream h q = some x → s.streamReady h x = true → x.fetched + 1 < x.count → s.unwatched →
      s.loadRun (.engine h x.pc) x.x (x.base + BitVec.ofNat 64 x.fetched * x.stride) x.len = (u, bs, none) →
      ∃ t, exec (.streamEntryFetched h q) s = .next t ∧
        t.stream h q = some ⟨x.base, x.stride, x.desc, x.fetched + 1, x.popped, x.full ||| BitVec.ofNat 16 (2 ^ (x.fetched % x.slots)),
          x.faulted, false, x.objVa, x.objPa, x.x, x.pc, x.parked, x.pctx⟩ ∧
        ∀ p, t.mem.read p = if x.slotPa (coreOf h) x.fetched ≤ p ∧ p < x.slotPa (coreOf h) x.fetched + x.len
          then bs.getD (p - x.slotPa (coreOf h) x.fetched) 0 else u.mem.read p) ∧
    (∀ (n rb : Nat) (va pitch : Word), OnlyOp s o → o.done = [] → o.kind = .fill n va rb pitch → let k := (u.core (coreOf o.h)).tile n
      (fillN o n (tilePieces true va rb pitch) s = (u, none) →
        TileEnds (.tileFillComplete o.id) s u (coreOf o.h) n { k with st := .ready } ∧ exec (.tileFillFault o.id) s = .next s) ∧
      (∀ x, fillN o n (tilePieces true va rb pitch) s = (u, some x) →
        TileEnds (.tileFillFault o.id) s u (coreOf o.h) n { k with st := .empty, flt := true } ∧
          exec (.tileFillComplete o.id) s = .next s)) ∧
    (∀ (n rb : Nat) (va pitch : Word), OnlyOp s o → o.done = [] → o.kind = .drain n va rb pitch → let k := (u.core (coreOf o.h)).tile n
      (drainN o n (tilePieces false va rb pitch) s = (u, none) →
        TileEnds (.tileDrainComplete o.id) s u (coreOf o.h) n { k with st := .empty, owner := if o.x.sup then k.owner else none } ∧
          exec (.tileDrainFault o.id) s = .next s) ∧
      (∀ x, drainN o n (tilePieces false va rb pitch) s = (u, some x) →
        TileEnds (.tileDrainFault o.id) s u (coreOf o.h) n { k with st := .ready, flt := true } ∧
          exec (.tileDrainComplete o.id) s = .next s)) ∧
    (∀ (src dst : Word) (desc : List Byte) (r : Nat), OnlyOp s o → o.kind = .copy src dst desc (some r) → OpEnds (.acopyComplete o.id) s s) ∧
    (∀ (src dst : Word) (desc : List Byte), OnlyOp s o → o.done = [] → o.kind = .copy src dst desc none → o.prog = 0 → let n := fieldAt desc 0 4
      1 ≤ n → fieldAt desc 4 4 = 1 → fieldAt desc 8 4 = 1 → fieldAt desc 12 4 = 1 → src.toNat % 64 + n ≤ 64 → dst.toNat % 64 + n ≤ 64 →
      s.memLoad o.agent o.x src n = (u, .ok bs) → u.memStore o.agent o.x o.kernel dst bs = (v, .ok ()) → v.ops = u.ops →
      u.ops = s.ops → OpEnds (.acopyComplete o.id) s v) ∧
    (∀ (fn : Nat) (start arg : Word) (nz : Bool) (f : Nat), OnlyOp s o → o.kind = .bankop fn start 256 arg [] nz f → fn < 6 →
      start.toNat % 256 = 0 → s.memLoad o.agent o.x start 256 = (u, .ok bs) →
      u.memStore o.agent o.x o.kernel start (bankTransform fn arg bs) = (v, .ok ()) → v.ops = [o] →
      exec (.bankopLineOperation o.id 0) s = .next { v with ops := [{ o with kind := .bankop fn start 256 arg [0] nz f }] }) ∧
    (∀ (fn len : Nat) (start arg : Word) (done : List Nat) (nz : Bool), OnlyOp s o → o.kind = .bankop fn start len arg done nz 0 →
      (len = 0 ∨ (start.toNat % 256 + len + 255) / 256 ≤ done.length) → (fn ≠ 6 → OpEnds (.bankopComplete o.id) s s) ∧
      (fn = 6 → s.memStore o.agent o.x o.kernel arg (leBytes 4 (if nz then 1 else 0)) = (v, .ok ()) → v.ops = s.ops →
        OpEnds (.bankopComplete o.id) s v)) ∧
    (∀ (handle off len f : Nat) (e : List Byte) (dst : Word) (peer : List Byte), OnlyOp s o → o.done = [] →
      o.kind = .fread handle e off len dst [] f → (len = 0 → OpEnds (.freadComplete o.id peer 0) s s) ∧
      (len ≠ 0 → fieldAt e 0 1 = 1 ∨ fieldAt e 0 1 = 3 ∧ len ≤ peer.length →
        farParts o e off dst peer 0 (partsOf dst len) s = (v, none) → v.ops = s.ops → OpEnds (.freadComplete o.id peer 0) s v)) ∧
    (∀ (slot : StagedSlot) (handle off len f : Nat) (e : List Byte) (dst : Word) (g : Staging) (status : Nat), s.ops = [o] →
      o.kind = .fread handle e off len dst [] f → FMap.find? s.staging slot.index = some g → g.op = o.id → g.cq = slot.cq →
      let q := s.nvmeQueue (o.x.ctx * 4096 + handle) e
      q.cq = slot.cq → ∃ t n, exec (.nvmeCompletion slot status) s = .next t ∧ FMap.find? t.staging slot.index = none ∧
        (∀ j, j ≠ slot.index → FMap.find? t.staging j = FMap.find? s.staging j) ∧
        FMap.find? t.nvme (o.x.ctx * 4096 + handle) = some n ∧ n.head = (q.head + 1) % fieldAt e 30 2 ∧ n.tail = q.tail ∧
        n.phase = (if n.head = 0 then !q.phase else q.phase)) ∧
    (∀ (core : Nat) (p : PendingAdd) (l : List PendingAdd), (s.core core).adds = p :: l → p.fmt ∈ [2, 6, 3, 7] → s.unwatched → s.addReady p = true →
      s.recordOff p.h p.pa = none → (s.core (coreOf p.h)).stores = [] →
      let n := fmtWidth p.fmt / 8; p.pa % n = 0 → s.inside p.pa → s.scopeMiss p.pa = false → p.lane < 64 →
      s.takesStore p.pa n → (s.hart p.h).kernel = p.kernel →
      ((s.place p.pa).cached = true → p.pa / 256 ∈ (s.core core).perms) →
      (∀ i, i < n → s.fold (p.pa + i) = p.pa + i ∧ s.badHeld core (p.pa + i) = none) →
      ∃ t, exec (.scatterAddPerform core) s = .next t ∧ (t.core core).adds = l ∧
        (∀ j, (h : j < 64) → (t.hart p.h).lanes[j] = if j = p.lane then (s.hart p.h).lanes[j] - 1 else (s.hart p.h).lanes[j]) ∧
        (∀ q, t.seen core q = if p.pa ≤ q ∧ q < p.pa + n
          then BitVec.ofNat 8 ((leNat ((List.range n).map fun j => s.seen core (p.pa + j)) + p.value.toNat) % 2 ^ (8 * n) /
            2 ^ (8 * (q - p.pa))) else s.seen core q) ∧
        (t.core core).plane = (s.core core).plane ∧ (t.hart p.h).x = (s.hart p.h).x) ∧
    (∀ camp, let m := (s.camp camp).merge
      (m.st = .closing → m.runs = [] → m.closeObj = none → ∃ t, exec (.mergePassEnd camp) s = .next t ∧
        (t.camp camp).merge = { m with st := if m.drainRecorded then .draining else .closed } ∧ t.mem = s.mem ∧ t.harts = s.harts) ∧
      (m.st = .draining → m.drainObj = none → m.failed ≠ 0 → ∃ t, exec (.mergeDrainComplete camp) s = .next t ∧
        (t.camp camp).merge = Merge.reset ∧ t.mem = s.mem ∧ t.harts = s.harts) ∧
      (m.st = .draining → m.drainObj = none → m.failed = 0 → m.runs = [] → m.done = [] →
        writePieces m s (m.output (deliver (sortEntries m.store))).1 = (u, none) → ∃ t, exec (.mergeDrainComplete camp) s = .next t ∧
          (t.camp camp).merge = Merge.reset ∧ t.mem = u.mem ∧ t.harts = u.harts)) ∧
    (∀ (camp : Nat) (x : Task), (s.camp camp).tasks = [x] → x.st = .waiting → (∀ h, (s.hart h).wait = none) →
      ∃ t y, exec (.taskSummaryRetest camp) s = .next t ∧ (t.camp camp).tasks = [y] ∧ y.id = x.id ∧ y.st = .ready ∧ y.path = 0 ∧
        camp ∉ t.retests ∧ t.mem = s.mem ∧ ∀ h, t.hart h = s.hart h)

/-- R178, R179, R233, R316 to R325, R337, R344 to R357, R359, R393, R416 to R425: the events of the host, of launches, of the memory side and of the
management block. The layout of an attestation report is log 48. -/
def Obligations.HostEvents : Prop :=
  ∀ s : State,
    (∀ (q : Nat) (tail : W32), q < 64 → let v := s.queue q
      (v.en = true → v.ctx ≠ 0 → (tail - v.head).toNat ≤ 2 ^ v.lcap.toNat → (v.tail - v.head).toNat ≤ (tail - v.head).toNat →
        QueueBecomes (.doorbellWrite q tail) s q { v with
          tail := tail
          posted := v.posted ++ List.replicate (tail - v.tail).toNat (s.arrivals, s.dtime.toNat) }) ∧
      ((v.en = false ∨ v.ctx = 0 ∨ 2 ^ v.lcap.toNat < (tail - v.head).toNat) →
        QueueBecomes (.doorbellWrite q tail) s q { v with err := true })) ∧
    (∀ q, let v := s.queue q; let pa := v.base.toNat + 128 * (v.head.toNat % 2 ^ v.lcap.toNat); let r := s.homeBytes pa 128
      q < 64 → v.en = true → v.ctx ≠ 0 → v.record = none → v.head ≠ v.tail → s.health.getLsbD 0 = true → s.slotReadable pa = true → (∀ j, s.badAt j = none) →
      fieldAt r 48 8 = 0 → s.launchReason v.ctx (s.readLaunch v.ctx r) = 0 →
      ∃ w, QueueBecomes (.startRecordTake q) s q { v with record := some w, posted := v.posted.drop 1 } ∧ w.ctx = v.ctx ∧
        w.kimg = BitVec.ofNat 64 (fieldAt r 0 8) ∧ w.share = 2 ^ (fieldAt r 10 1 % 4) ∧ w.vlceil = fieldAt r 11 1 % 4 ∧
        w.args.length = fieldAt r 12 1 ∧ w.aged = false) ∧
    (∀ (q : Nat) (r : WaitingRecord) (place : List Nat), (s.queue q).record = some r → r.stale = false → s.considered (s.queue q) r = true →
      s.goesBefore q r = false → s.placeOkay r place = true →
      ∃ t k, exec (.launchGrant q place) s = .next t ∧ (t.queue q).record = none ∧ (t.queue q).head = (s.queue q).head + 1 ∧
        t.kernels.map (·.id) = s.kernels.map (·.id) ++ [k.id] ∧ k ∈ t.kernels ∧ k.id = s.nextKernel ∧ k.ctx = r.ctx ∧ k.live = place ∧
          k.tent = r.tent ∧ t.nextKernel = s.nextKernel + 1 ∧
        (∀ h, h ∉ place → t.hart h = s.hart h) ∧
        ∀ h ∈ place, let a := t.hart h; a.run = .running ∧ a.kernel = some s.nextKernel ∧ a.pc = canonical r.entry ∧ a.hstat = 0 ∧
          a.ctx = r.ctx ∧ a.satp = r.x.root ∧ a.share = r.share ∧ a.vtype = 0x4000 ∧ a.vl = 0 ∧ a.estart = 0 ∧ a.fctl = 0 ∧ a.queue = [] ∧
          a.wait = none ∧ a.task = none ∧ (r.levels = [] → ∀ i : Fin 32, 10 ≤ i.val → a.x[i] = r.args.getD (i.val - 10) 0)) ∧
    (∀ (q : Nat) (r : WaitingRecord), (s.queue q).record = some r → r.since + 1000000 ≤ s.dtime.toNat →
      QueueBecomes (.recordAged q) s q { s.queue q with record := some { r with aged := true } }) ∧
    (∀ (k : Nat) (x : Kernel), s.kernels.find? (fun y => y.id == k) = some x → s.kernelDone x = true → x.cpl = 0 → s.landed → (∀ c, (s.core c).l2 = []) →
      ∃ t, exec (.kernelEnd k) s = .next t ∧ t.kernels = s.kernels.filter (fun y => y.id != k) ∧
        (∀ h, t.hart h = if (s.hart h).kernel = some k then { s.hart h with kernel := none } else s.hart h) ∧
        ∀ line, ∀ m ∈ FMap.get (fun _ => []) t.marks line, m ≠ .kernel k) ∧
    (∀ pa, s.hostReach (pa / 64 * 64) 64 = true → s.badAt (pa / 64 * 64) = none → s.unwatched →
      exec (.cxlMemRead pa) s = .next { s with hostReply := some (s.homeBytes (pa / 64 * 64) 64) }) ∧
    (∀ (pa : Nat) (data : List Byte), pa % 64 = 0 → data.length = 64 → s.hostReach pa 64 = true → HomeWritable s pa 64 →
      ∃ t, exec (.cxlMemWrite pa data) s = .next t ∧ t.hostReply = some [] ∧ t.homeBytes pa 64 = data ∧
        ∀ h, (t.hart h).x = (s.hart h).x ∧ (t.hart h).pc = (s.hart h).pc) ∧
    (∀ (pa n k : Nat) (op : AtomicOp) (y : Word), (n = 4 ∨ n = 8) → pa % n = 0 → s.hostReach pa n = true → HomeWritable s pa n → s.permitsNone (pa / 256) →
      (op, k) ∈ [(AtomicOp.add, 0), (.and, 1), (.or, 2), (.xor, 3), (.min, 4), (.max, 5), (.minu, 6), (.maxu, 7), (.swap, 8)] →
      ∃ t, exec (.hostAtomic pa op n y) s = .next t ∧ t.hostReply = some (s.homeBytes pa n) ∧
        leNat (t.homeBytes pa n) = atomicValue k n (leNat (s.homeBytes pa n)) (y.toNat % 2 ^ (8 * n)) ∧ t.marked (pa / 256) = true) ∧
    (∀ core line, HomeWritable s (256 * line) 256 → (s.core core).badL2 = [] →
      ∃ t, exec (.l2WriteBack core line false) s = .next t ∧ (∀ q, q / 256 = line → t.homeByte q =
          match FMap.find? (s.core core).l2 (q / 64) with
          | some v => if h : q % 64 < 64 then (if v[q % 64].2 then v[q % 64].1 else s.homeByte q) else 0
          | none => s.homeByte q) ∧
        (∀ q, t.seen core q = s.seen core q) ∧ (t.core core).plane = (s.core core).plane) ∧
    (∀ line, exec (.mscEviction line) s = .next { s with mscDirty := s.mscDirty.filter (· != line) }) ∧
    (∀ line, ∃ t, exec (.wideMarkExpire line) s = .next t ∧ { t with marks := s.marks } = s ∧
      ∀ j x, x ∈ FMap.get (fun _ => []) t.marks j ↔ x ∈ FMap.get (fun _ => []) s.marks j ∧
        (j = line → ∀ n, x = .external n → s.dtime.toNat < n + 1000000)) ∧
    (∀ r, Posted s r → let pte := fieldAt r 24 8; let e := s.homeBytes pte 8; let old := BitVec.ofNat 64 (leNat e)
      fieldAt r 0 1 = 1 → migrateOkay r = true → HomeWritable s pte 8 → s.landed → s.permitsNone (pte / 256) → sourceState (fieldAt r 40 1 == 1) old = true →
      ∃ t q, exec .migrate s = .next t ∧ t.xreqs = s.xreqs ++ [q] ∧ q.isShoot = false ∧ q.va = BitVec.ofNat 64 (fieldAt r 8 8) ∧ q.pte = pte ∧
        q.frame = fieldAt r 32 8 ∧ q.original = old ∧ BitVec.ofNat 64 (leNat (t.homeBytes pte 8)) = (old &&& ~~~0x301) ||| 0x200 ∧
        (∀ c, ∀ x ∈ (t.core c).tlb, q.removes x = false) ∧ t.ringHead = BitVec.ofNat 64 ((s.ringHead.toNat + 1) % 2 ^ 32)) ∧
    (∀ r, Posted s r → fieldAt r 0 1 = 2 → shootOkay r = true → s.landed →
      ∃ t q, exec .shoot s = .next t ∧ t.xreqs = s.xreqs ++ [q] ∧ q.isShoot = true ∧ q.va = BitVec.ofNat 64 (fieldAt r 8 8) ∧
        q.span = fieldAt r 56 8 ∧ (∀ c, t.core c = { s.core c with
          tlb := (s.core c).tlb.filter fun x => !q.removes x
          pinned := (s.core c).pinned.filter fun x => !q.removes x }) ∧ t.mem = s.mem ∧
        t.harts = s.harts ∧ t.ringHead = BitVec.ofNat 64 ((s.ringHead.toNat + 1) % 2 ^ 32)) ∧
    (∀ q, s.xreqs = [q] → s.drained q = true → q.cpl = 0 → s.landed → (∀ c, (s.core c).l2 = []) →
      (q.isShoot = true → exec .shootDrained s = .next { s with xreqs := [] }) ∧
      ∀ u, q.isShoot = false → let old := s.fold ((pteOf q.original).ppn * 4096)
        s.framesOkay q old = true → copyLines 16 { s with xreqs := [] } old q.frame = (u, 0) →
        HomeWritable u q.pte 8 → u.permitsNone (q.pte / 256) → q.pte % 8 = 0 →
          BitVec.ofNat 64 (leNat (u.homeBytes q.pte 8)) = (q.original &&& ~~~0x301) ||| 0x200 →
        ∃ t, exec .migrateCopyDone s = .next t ∧ t.xreqs = [] ∧ BitVec.ofNat 64 (leNat (t.homeBytes q.pte 8)) =
          (((q.original &&& ~~~0x301) ||| (if q.toDevice then 0x300 else 0x101)) &&& 0xFFC00000000003FF) |||
            BitVec.ofNat 64 (q.frame / 4096 % 2 ^ 44 * 1024)) ∧
    (∀ v : Word, exec (.registerWrite 0 8 v) s = .next { s with health := s.health &&& ~~~(v &&& 0xC) }) ∧
    (∀ (p : Nat) (v : Word), p < 40 → CampBecomes (.registerWrite (0x10000 + 64 * p) 8 v) s p { s.camp p with entrypc := canonical v &&& ~~~3 } ∧
      CampBecomes (.registerWrite (0x10010 + 64 * p) 8 v) s p { s.camp p with
        floor := BitVec.ofNat 8 (v.toNat % 32)
        ceil := BitVec.ofNat 8 (v.toNat / 2 ^ 8 % 32)
        weight := BitVec.ofNat 8 (v.toNat / 2 ^ 16 % 256) }) ∧
    (∀ (q : Nat) (v : Word), q < 64 → (s.queue q).en = false → (s.queue q).base.toNat % 128 = 0 → 1 ≤ v.toNat / 2 ^ 16 % 16 →
      v.toNat / 2 ^ 16 % 16 ≤ 12 → v.toNat / 2 ^ 24 % 4 = 1 → QueueBecomes (.hostQueueCtlWrite q 8 8 v) s q { s.queue q with
        ctx := v.toNat % 65536
        lcap := BitVec.ofNat 8 (v.toNat / 2 ^ 16 % 16)
        en := true
        head := 0
        tail := 0
        posted := []
        record := (s.queue q).record.map fun r => { r with stale := true } }) ∧
    (∀ (p : Nat) (w : Word), p < 40 → CampBecomes (.mergeAssignWrite p w) s p (if (s.camp p).merge.st = .free then { s.camp p with
        mergeCtx := w.toNat % 65536
        mergeV := w.getLsbD 16
        mergeBusy := false } else { s.camp p with mergeBusy := true })) ∧
    (∀ n, 1 ≤ n → n < 4096 → (∃ t, exec (.keyctlOpen n) s = .next t ∧ t.keySlot n = ⟨true, (s.keySlot n).gen + 1⟩ ∧
        (∀ j, j ≠ n → t.keySlot j = s.keySlot j) ∧ { t with keys := s.keys } = s) ∧
      ∃ t, exec (.keyctlClose n) s = .next t ∧ t.keySlot n = ⟨false, (s.keySlot n).gen⟩ ∧ (∀ j, j ≠ n → t.keySlot j = s.keySlot j) ∧
        { t with keys := s.keys } = s) ∧
    (∀ (h : Nat) (w : Word), h < 2560 → HartBecomes (.preemptRequestPost h w) s h { s.hart h with preempt := some w }) ∧
    (∀ (h : Nat) (v : Word), (s.hart h).sup = true → (s.hart h).queue = [] → (s.core (coreOf h)).stores = [] →
      HartBecomes (.satpWrite h 0 v) s h { s.hart h with satp := v, fetchBuf := [], loopBuf := [] } ∧
      HartBecomes (.satpWrite h 1 v) s h { s.hart h with ctx := v.toNat % 65536, fetchBuf := [], loopBuf := [] }) ∧
    (∀ (h i : Nat) (o : Op), (s.hart h).sup = true → i < 16 → s.ops = [o] → o.h = h → o.parked = some i → o.objPa = none →
      ∃ t, exec (.engineRecordDiscard h i) s = .next t ∧ t.ops = [] ∧ (∀ g, (t.hart g).x = (s.hart g).x)) ∧
    (∀ (ctx : Nat) (v : Word), 1 ≤ ctx → ctx ≤ 65535 → let c := s.context ctx
      ((∀ k ∈ s.kernels, k.ctx ≠ ctx) → v.getLsbD 0 = true → c.bdg = false → ∃ t, exec (.badgerEnable ctx v) s = .next t ∧
        t.context ctx = { c with bdg := true, bdgPending := none, digest := List.replicate 32 0, folds := 0, refusedPages := 0 } ∧
        { t with contexts := s.contexts } = s) ∧
      ((∃ k ∈ s.kernels, k.ctx = ctx) → ∃ t, exec (.badgerEnable ctx v) s = .next t ∧
        t.context ctx = { c with bdgPending := some (v.getLsbD 0) } ∧ { t with contexts := s.contexts } = s)) ∧
    (∀ nonce : List Byte, nonce.length = 32 → ∃ sig : List Byte, sig.length = 5396 ∧
      exec (.attestationReportRequest nonce) s = .next { s with attest := ⟨s.attest.index + 1, s.attest.tree, s.attest.measurements,
        s.attest.measurements.flatten ++ s.startRecord.outcomes.toList.map (BitVec.ofNat 8) ++
          (List.range 8).map (fun i => BitVec.ofNat 8 (s.health.toNat / 2 ^ (8 * i))) ++ nonce ++ sig⟩ })

/-- R366, R367, R369 to R373, R377 to R384, R388, R410 to R414: the events of the fabric, of the debugger, of the triggers, of the clock grants and of
power. Sequences are log 41, freezes and step reports logs 44 and 55, ticks log 45, grants log 46, power loss log 47, images log 78. -/
def Obligations.DeviceEvents : Prop :=
  ∀ s : State,
    (∀ n, (h : n < 16) → let p := s.fabric.ports[n]
      PortBecomes (.fabricLinkDown n) s n { p with up := false, replays := 0 } (s.health ||| 0x10) ∧
      (p.up = true → PortBecomes (.fabricFlitReplay n true) s n { p with replays := 0, linkSeq := p.linkSeq + 1 } s.health ∧
        (p.replays < 7 → PortBecomes (.fabricFlitReplay n false) s n { p with replays := p.replays + 1 } s.health) ∧
        (7 ≤ p.replays → PortBecomes (.fabricFlitReplay n false) s n { p with up := false, replays := 0 } (s.health ||| 0x10)))) ∧
    (∀ (p : Packet) (off : Nat) (data : List Byte), Fresh s p off data →
      ∃ t, exec (.fabricWritePacket p) s = .next t ∧ t.homeBytes (s.hdm + off) 64 = data ∧ t.fabric.reply = [some 0] ∧
        (t.received p.src).has p.seq = true ∧ ∀ h, (t.hart h).x = (s.hart h).x ∧ (t.hart h).pc = (s.hart h).pc) ∧
    (∀ p : Packet, packetBytes p.body ≤ 4096 → (s.received p.src).has p.seq = true →
      exec (.fabricWritePacket p) s = .next { s with fabric := { s.fabric with reply := [some 0] } }) ∧
    (∀ p : Packet, (s.received p.src).has p.seq = false → (s.received p.src).below + 4096 ≤ p.seq →
      exec (.fabricWritePacket p) s = .next { s with fabric := { s.fabric with reply := [] } }) ∧
    (∀ (src domain width : Nat) (a : Word), let n := 2 ^ (width % 4)
      a.toNat % n = 0 → s.exported src domain a.toNat n true false = true → (∀ q, s.badAt q = none) → s.unwatched →
      exec (.fabricReadRequest src domain width true [a]) s =
        .next { s with fabric := { s.fabric with reply := [some (BitVec.ofNat 64 (leNat (s.homeBytes (s.hdm + a.toNat) n)))] } }) ∧
    (∀ (src seq domain pa : Nat) (va v : Word) (isAdd : Bool), (s.received src).below = seq → (s.received src).has seq = false →
      va.toNat % 8 = 0 → s.remoteXlat domain va .store = (s, .ok pa) → HomeWritable s pa 8 → s.permitsNone (pa / 256) →
      ∃ t, exec (.fabricFlagApply src seq domain va v isAdd) s = .next t ∧ t.fabric.reply = [some 0] ∧ (t.received src).has seq = true ∧
        t.marked (pa / 256) = true ∧
        leNat (t.homeBytes pa 8) = if isAdd then (leNat (s.homeBytes pa 8) + v.toNat) % 2 ^ 64 else v.toNat) ∧
    (∀ (src seq domain : Nat) (va v : Word) (isAdd : Bool), (s.received src).has seq = false → (s.received src).below < seq →
      seq < (s.received src).below + 4096 → exec (.fabricFlagApply src seq domain va v isAdd) s = .next s) ∧
    (∀ (u v : State) (o : Op) (lst dst w : Word) (width m d : Nat) (bs : List Byte), OnlyOp s o → o.done = [] → o.kind = .fgather lst dst width 1 →
      s.loadRun o.agent o.x lst 8 = (u, bs, none) → u.opDomain o = some d → fieldAt bs 0 8 % 2 ^ width = 0 →
      let chip := remoteChip (BitVec.ofNat 64 (fieldAt bs 0 8))
      chip ≠ u.fabric.chip → u.route chip ≠ none →
      u.storeRun o.agent o.x o.kernel dst (leBytes (2 ^ width) w.toNat) = (v, m, none) → v.ops = [o] →
      OpEnds (.fgatherComplete o.id [some w] 0) s v) ∧
    (∀ (v : State) (o : Op) (dst : Word) (vl fmt blk seq d : Nat) (elems scales : List Byte) (mask : Option (List Byte)), OnlyOp s o →
      o.done = [] → o.kind = .freduce dst vl fmt blk elems scales mask seq none → s.fabric.held = false → s.opDomain o = some d →
      let n := packetsFor (reduceBytes vl fmt blk mask.isSome)
      (remoteChip dst ≠ s.fabric.chip → s.route (remoteChip dst) ≠ none → s.isSent (remoteChip dst) (seq + n - 1) = true →
        OpEnds (.freduceComplete o.id 0) s s) ∧
      (remoteChip dst = s.fabric.chip → s.applyReduce s.fabric.chip d dst vl fmt blk elems scales mask = (v, 0) → v.ops = [o] →
        ∃ t, exec (.freduceComplete o.id 0) s = .next t ∧ t.ops = [] ∧ t.mem = v.mem ∧ t.harts = v.harts ∧
          ∀ i, i < n → (t.received s.fabric.chip).has (seq + i) = true ∧ t.isSent s.fabric.chip (seq + i) = false)) ∧
    (∀ (u v : State) (o : Op) (bs own : List Byte) (table : List Nat) (seqs : List (Nat × Nat)) (d : Nat), OnlyOp s o → o.done = [] →
      o.kind = .fcoll bs table none seqs → (∀ x ∈ seqs, s.route x.1 ≠ none) → s.opDomain o = some d → s.fabric.colls = [] →
        fieldAt bs 0 1 = 0 → fieldAt bs 2 1 = fieldAt bs 3 1 → fieldAt bs 2 1 < fieldAt bs 1 1 →
      s.loadRun o.agent o.x (BitVec.ofNat 64 (fieldAt bs 16 8)) (fieldAt bs 32 8) = (u, own, none) → let dst := BitVec.ofNat 64 (fieldAt bs 24 8)
      collStore o dst own (partsOf dst own.length) u = (v, none) → v.ops = [o] → v.fabric.colls = [] →
      OpEnds (.fcollComplete o.id) s v) ∧
    (∀ chip seq reason, s.flagOp chip seq = none → s.isSent chip seq = true →
      (reason = 0 ∨ ∀ o ∈ s.ops, ∀ bs table l, o.kind ≠ .fcoll bs table none l) → (reason = 9 → s.route chip = none) →
      ∃ t, exec (.fabricAcknowledgement chip seq reason) s = .next t ∧ (t.sentTo chip).next = (s.sentTo chip).next ∧
        (∀ q, q ∈ (t.sentTo chip).unacked ↔ q ∈ (s.sentTo chip).unacked ∧ q ≠ seq) ∧ (∀ c, c ≠ chip → t.sentTo c = s.sentTo c) ∧
        { t with fabric := { t.fabric with sent := s.fabric.sent } } = s) ∧
    (∀ (o : Op) (dst value : Word) (isAdd : Bool) (seq d : Nat), OnlyOp s o → o.kind = .fflag dst value isAdd seq → s.opDomain o = some d →
      remoteChip dst ≠ s.fabric.chip → s.route (remoteChip dst) ≠ none → s.isSent (remoteChip dst) seq = true →
      ∃ t, exec (.fabricAcknowledgement (remoteChip dst) seq 0) s = .next t ∧ t.ops = [] ∧
        (∀ q, q ∈ (t.sentTo (remoteChip dst)).unacked ↔ q ∈ (s.sentTo (remoteChip dst)).unacked ∧ q ≠ seq) ∧
        { t with ops := s.ops, fabric := { t.fabric with sent := s.fabric.sent } } = s) ∧
    (∀ chip, ∃ t, exec (.haltNotice chip false) s = .next t ∧ (chip, false) ∈ t.fabric.halted ∧
      { t with fabric := { t.fabric with halted := s.fabric.halted } } = s) ∧
    (∀ chip, ∃ t, exec (.haltNotice chip true) s = .next t ∧ (chip, true) ∈ t.fabric.halted ∧
      t.halts = s.halts ++ [⟨List.range 2560, 1, 0, s.dtime⟩] ∧ t.fabric.held = true ∧ t.fabric.notice = s.fabric.notice ∧ t.harts = s.harts) ∧
    (∀ chip, (chip, true) ∉ s.fabric.halted → ∃ t, exec (.releaseNotice chip) s = .next t ∧
      (∀ p, p ∈ t.fabric.halted ↔ p ∈ s.fabric.halted ∧ p.1 ≠ chip) ∧ { t with fabric := { t.fabric with halted := s.fabric.halted } } = s) ∧
    (∀ h, h < 2560 → let W (op : Nat) : Word := BitVec.ofNat 64 (op * 2 ^ 28 + h / 320 * 2 ^ 13 + h / 64 % 5 * 2 ^ 10 + h / 4 % 16 * 2 ^ 6 + h % 4)
      exec (.debugHaltRequest (W 1)) s = .next { s with dreq := W 1, halts := s.halts ++ [⟨[h], 1, 0, s.dtime⟩] } ∧
      ((s.hart h).frozen = true → s.halts = [] →
        (∃ t, exec (.debugReleaseRequest (W 2)) s = .next t ∧
          t.hart h = { s.hart h with frozen := false, dstat := (s.hart h).dstat &&& ~~~1 } ∧ (∀ g, g ≠ h → t.hart g = s.hart g) ∧
          t.dreq = W 2 ∧ { t with harts := s.harts, dreq := s.dreq } = s) ∧
        ∃ t, exec (.debugStepRequest (W 3)) s = .next t ∧
          t.hart h = { s.hart h with frozen := false, stepping := some ⟨s.nextOp, none⟩, dstat := (s.hart h).dstat &&& ~~~1 } ∧
          (∀ g, g ≠ h → t.hart g = s.hart g) ∧ t.dreq = W 3 ∧ { t with harts := s.harts, dreq := s.dreq } = s) ∧
      ∀ w : W32, ∃ t, exec (.debugInject h w) s = .next t ∧ t.inject = some (h, w) ∧ t.hart h = { s.hart h with dinj := w.setWidth 64 } ∧
        (∀ g, g ≠ h → t.hart g = s.hart g) ∧ { t with harts := s.harts, inject := s.inject } = s) ∧
    (∀ h c n m, Quiet s h → s.halts = [⟨[h], c, n, m⟩] → (s.hart h).stepping = none →
      ∃ t, exec (.haltArrival h) s = .next t ∧ Froze (s.hart h) (t.hart h) c n ∧ (∀ g, g ≠ h → t.hart g = s.hart g) ∧ t.halts = [] ∧
        { t with harts := s.harts, halts := s.halts } = s) ∧
    (∀ h first i, Quiet s h → (s.hart h).wait = none → (s.hart h).stepping = some ⟨first, some i⟩ → (∀ o ∈ s.ops, o.h ≠ h) →
      s.stepDrained h i = true → ∃ t, exec (.stepReport h) s = .next t ∧ Froze (s.hart h) (t.hart h) 5 0 ∧
        (∀ g, g ≠ h → t.hart g = s.hart g) ∧ t.SameButHarts s) ∧
    (∀ h n w i, Quiet s h → (s.hart h).wait = none → (hn : n < 4) → let v := (s.hart h).stops[n]
      v.fired = false → v.w0 = (s.hart h).pc ||| 1 → (s.hart h).pc.toNat % 4 = 0 → v.w1 = 0 →
      State.fetch { s with cur := h } h = ({ s with cur := h }, .word w) → decode w = .ok i → entryOp i = none →
      ∃ t, exec (.stopUnitFire h n) s = .next t ∧ Froze { s.hart h with stops := (s.hart h).stops.set n { v with fired := true } } (t.hart h) 2 n ∧
        (t.hart h).dstat.getLsbD 25 = true ∧ (∀ g, g ≠ h → t.hart g = s.hart g) ∧ t.SameButHarts s) ∧
    (∀ n, (hn : n < 8) → let g := s.triggers[n]
      (∀ j, (hj : j < 8) → j ≠ n → s.triggers[j].cfg.getLsbD 0 = false) → (∀ p, (s.camp p).ring.cfg.getLsbD 6 = false) →
      s.ticked = none → (∀ e ∈ s.cores, e.2.gated = 0) → g.cfg.getLsbD 0 = true → g.isOpen = false → g.cfg.toNat / 2 ^ 20 % 8 ≠ 2 → g.cfg.toNat / 2 ^ 48 < 32768 →
      BitVec.ofNat 16 (g.cfg.toNat / 2 ^ 48) ∈ s.trigEvents → g.cfg.toNat / 2 ^ 32 % 65536 < 32768 →
      BitVec.ofNat 16 (g.cfg.toNat / 2 ^ 32 % 65536) ∉ s.trigEvents →
      ∃ t, exec .triggerTick s = .next t ∧ t.triggers = s.triggers.set n { g with wins := (g.wins + 1) % 2 ^ 32, isOpen := true } ∧
        t.trigEvents = [] ∧ t.ticked ≠ none ∧ (∀ b, b < 8 → g.cfg.getLsbD (24 + b) = true → (t.ticked.getD 0).getLsbD b = true) ∧
        { t with triggers := s.triggers, trigEvents := s.trigEvents, ticked := none } = s) ∧
    (∀ (e : PowerEstimate) (limit : Bool), let i := Instr.ridgepoleGrantTick e limit
      (s.grantDue = false → exec i s = .next s) ∧
      (s.grantDue = true → ∃ t, exec i s = .next t ∧ t.tick = s.dtime.toNat / 2000 ∧
        t.health = (if limit then s.health ||| 8 else s.health) ∧ t.harts = s.harts ∧ t.mem = s.mem ∧
        (∃ p, p < 40 ∧ (t.camp p).code ≠ 24) ∧ (∀ p, p < 40 → { t.camp p with code := (s.camp p).code } = s.camp p) ∧
        let top (p : Nat) : Nat := Nat.min (s.camp p).ceil.toNat 24; let bot (p : Nat) : Nat := Nat.min (Nat.min (s.camp p).floor.toNat 24) (top p)
        let draw (c : Nat → Nat) : Nat := ((List.range 40).map fun p => (e.powers.getD p []).getD (c p) 0).sum
        let code (p : Nat) : Nat := (t.camp p).code.toNat
        ((limit = true ∨ s.startRecord.outcomes[1] = 3) → ∀ p, p < 40 → code p = 0) ∧
        (limit = false → s.startRecord.outcomes[1] ≠ 3 →
          (draw bot ≤ e.budget → (∃ p, p < 40 ∧ top p < 24) → draw code ≤ e.budget ∧
            ∀ p, p < 40 → bot p ≤ code p ∧ code p ≤ top p ∧ (p ∉ s.heldBefore → code p = bot p)) ∧
          (e.budget < draw bot → (∀ p, p < 40 → code p ≤ bot p) ∧ (draw (fun _ => 0) ≤ e.budget → (∃ p, p < 40 ∧ top p < 24) → draw code ≤ e.budget))))) ∧
    (∀ (trials : List StepTrial) (f : Firmware), let old := s.flashRecord
      s.power = false → trials.length = 11 → (∀ x ∈ trials, x.main = true) → s.fuses.accept f = true →
      (∀ i : Fin 16, old.outcomes[i] ≠ 2 ∧ old.outcomes[i] ≠ 3) →
      ∃ t, exec (.powerOnStart trials [] ⟨[], []⟩ [f]) s = .next t ∧ t.power = true ∧ t.health = 1 ∧ t.mem = s.mem ∧ t.harts = s.harts ∧
        t.startRecord.seq = (old.seq + 1) % 2 ^ 64 ∧ t.startRecord.rows = [] ∧ t.startRecord.cores = [] ∧
        t.startRecord.hash = sha256 t.startRecord.bytes ∧ (if s.readsB then t.startB = s.startB else t.startA = s.startA) ∧
        t.attest.measurements = [sha256 f.bytes] ∧ t.attest.tree = s.attest.tree + 1 ∧
        t.fuses = (if f.raises then { s.fuses with rollback := Nat.max s.fuses.rollback f.version } else s.fuses) ∧
        (∀ i : Fin 16, t.startRecord.outcomes[i] = (if i.val < 11 then 1 else 0) ∧ (i.val < 11 → t.startRecord.counts[i] = 0)) ∧
        ∀ j, (h : j < 16) → t.fabric.ports[j] = ⟨true, 0, 0⟩) ∧
    (∀ (trials : List StepTrial) (x : StepTrial) (images : List Firmware), s.power = false → (∀ f ∈ images, s.fuses.accept f = false) →
      ∃ t, exec (.powerOnStart (x :: trials) [] ⟨[], []⟩ images) s = .next t ∧ t.power = true ∧ t.health.getLsbD 0 = false ∧
        t.health.getLsbD 6 = true ∧ t.attest.measurements = [] ∧ t.fuses = s.fuses ∧ t.startRecord.outcomes[0] = 5) ∧
    ∃ t, exec .powerLoss s = .next t ∧ t.power = false ∧ t.health = 0 ∧ t.harts = [] ∧ t.cores = [] ∧ t.kernels = [] ∧ t.ops = [] ∧
      t.startA = s.startA ∧ t.startB = s.startB ∧ t.recordB = s.recordB ∧ t.fuses = s.fuses ∧
        (∀ pa, s.onModule pa = true → t.mem.read pa = 0) ∧ ∀ pa, ¬s.onModule pa = true → t.mem.read pa = s.mem.read pa

/-- The memory keeps its canonical form in every step, from every state that has it: addresses strictly rising and no byte listed that an
unlisted address reads as. -/
def Obligations.StepKeepsMemory : Prop :=
  ∀ s t : State, Memory.wf s.mem = true → step s = .next t → Memory.wf t.mem = true
end

