-- ==== Sys2Proof/Laws/Events.lean ====
section
/-! SUPPORT. An event of a schedule is its row of the table. -/
namespace Sys2Proof.Machine

theorem perform_entryIssue (core : Nat) (s : State) : (Event.entryIssue core).perform s = exec (.entryIssue core) s := rfl
theorem perform_laneGroupStart (core lane : Nat) (s : State) : (Event.laneGroupStart core lane).perform s = exec (.laneGroupStart core lane) s := rfl
theorem perform_entryComplete (h : Nat) (s : State) : (Event.entryComplete h).perform s = exec (.entryComplete h) s := rfl
theorem perform_trapEntry (h : Nat) (s : State) : (Event.trapEntry h).perform s = exec (.trapEntry h) s := rfl
theorem perform_asyncStop (h : Nat) (s : State) : (Event.asyncStop h).perform s = exec (.asyncStop h) s := rfl
theorem perform_waitWake (h : Nat) (s : State) : (Event.waitWake h).perform s = exec (.waitWake h) s := rfl
theorem perform_waitDeadlineExpiry (h : Nat) (s : State) : (Event.waitDeadlineExpiry h).perform s = exec (.waitDeadlineExpiry h) s := rfl
theorem perform_streamEntryFetched (h q : Nat) (s : State) : (Event.streamEntryFetched h q).perform s = exec (.streamEntryFetched h q) s := rfl
theorem perform_tileFillComplete (id : Nat) (s : State) : (Event.tileFillComplete id).perform s = exec (.tileFillComplete id) s := rfl
theorem perform_tileFillFault (id : Nat) (s : State) : (Event.tileFillFault id).perform s = exec (.tileFillFault id) s := rfl
theorem perform_tileDrainComplete (id : Nat) (s : State) : (Event.tileDrainComplete id).perform s = exec (.tileDrainComplete id) s := rfl
theorem perform_tileDrainFault (id : Nat) (s : State) : (Event.tileDrainFault id).perform s = exec (.tileDrainFault id) s := rfl
theorem perform_acopyComplete (id : Nat) (s : State) : (Event.acopyComplete id).perform s = exec (.acopyComplete id) s := rfl
theorem perform_bankopLineOperation (id n : Nat) (s : State) : (Event.bankopLineOperation id n).perform s = exec (.bankopLineOperation id n) s := rfl
theorem perform_bankopComplete (id : Nat) (s : State) : (Event.bankopComplete id).perform s = exec (.bankopComplete id) s := rfl
theorem perform_freadComplete (id : Nat) (peer : List Byte) (reason : Nat) (s : State) : (Event.freadComplete id peer reason).perform s = exec (.freadComplete id peer reason) s := rfl
theorem perform_nvmeCompletion (slot : StagedSlot) (status : Nat) (s : State) : (Event.nvmeCompletion slot status).perform s = exec (.nvmeCompletion slot status) s := rfl
theorem perform_scatterAddPerform (core : Nat) (s : State) : (Event.scatterAddPerform core).perform s = exec (.scatterAddPerform core) s := rfl
theorem perform_mergePassEnd (camp : Nat) (s : State) : (Event.mergePassEnd camp).perform s = exec (.mergePassEnd camp) s := rfl
theorem perform_mergeDrainComplete (camp : Nat) (s : State) : (Event.mergeDrainComplete camp).perform s = exec (.mergeDrainComplete camp) s := rfl
theorem perform_l2WriteBack (core line : Nat) (evict : Bool) (s : State) : (Event.l2WriteBack core line evict).perform s = exec (.l2WriteBack core line evict) s := rfl
theorem perform_mscEviction (line : Nat) (s : State) : (Event.mscEviction line).perform s = exec (.mscEviction line) s := rfl
theorem perform_wideMarkExpire (line : Nat) (s : State) : (Event.wideMarkExpire line).perform s = exec (.wideMarkExpire line) s := rfl
theorem perform_taskSummaryRetest (camp : Nat) (s : State) : (Event.taskSummaryRetest camp).perform s = exec (.taskSummaryRetest camp) s := rfl
theorem perform_doorbellWrite (q : Nat) (tail : W32) (s : State) : (Event.doorbellWrite q tail).perform s = exec (.doorbellWrite q tail) s := rfl
theorem perform_startRecordTake (q : Nat) (s : State) : (Event.startRecordTake q).perform s = exec (.startRecordTake q) s := rfl
theorem perform_launchGrant (q : Nat) (place : List Nat) (s : State) : (Event.launchGrant q place).perform s = exec (.launchGrant q place) s := rfl
theorem perform_recordAged (q : Nat) (s : State) : (Event.recordAged q).perform s = exec (.recordAged q) s := rfl
theorem perform_kernelEnd (k : Nat) (s : State) : (Event.kernelEnd k).perform s = exec (.kernelEnd k) s := rfl
theorem perform_cxlMemRead (pa : Nat) (s : State) : (Event.cxlMemRead pa).perform s = exec (.cxlMemRead pa) s := rfl
theorem perform_cxlMemWrite (pa : Nat) (data : List Byte) (s : State) : (Event.cxlMemWrite pa data).perform s = exec (.cxlMemWrite pa data) s := rfl
theorem perform_migrate (s : State) : (Event.migrate).perform s = exec (.migrate) s := rfl
theorem perform_migrateCopyDone (s : State) : (Event.migrateCopyDone).perform s = exec (.migrateCopyDone) s := rfl
theorem perform_shoot (s : State) : (Event.shoot).perform s = exec (.shoot) s := rfl
theorem perform_shootDrained (s : State) : (Event.shootDrained).perform s = exec (.shootDrained) s := rfl
theorem perform_fabricFlitReplay (port : Nat) (ok : Bool) (s : State) : (Event.fabricFlitReplay port ok).perform s = exec (.fabricFlitReplay port ok) s := rfl
theorem perform_fabricLinkDown (port : Nat) (s : State) : (Event.fabricLinkDown port).perform s = exec (.fabricLinkDown port) s := rfl
theorem perform_fabricWritePacket (p : Packet) (s : State) : (Event.fabricWritePacket p).perform s = exec (.fabricWritePacket p) s := rfl
theorem perform_fabricReadRequest (src domain width : Nat) (window : Bool) (addrs : List Word) (s : State) : (Event.fabricReadRequest src domain width window addrs).perform s = exec (.fabricReadRequest src domain width window addrs) s := rfl
theorem perform_fabricFlagApply (src seq domain : Nat) (va value : Word) (isAdd : Bool) (s : State) : (Event.fabricFlagApply src seq domain va value isAdd).perform s = exec (.fabricFlagApply src seq domain va value isAdd) s := rfl
theorem perform_fgatherComplete (id : Nat) (elems : List (Option Word)) (reason : Nat) (s : State) : (Event.fgatherComplete id elems reason).perform s = exec (.fgatherComplete id elems reason) s := rfl
theorem perform_freduceComplete (id reason : Nat) (s : State) : (Event.freduceComplete id reason).perform s = exec (.freduceComplete id reason) s := rfl
theorem perform_fcollComplete (id : Nat) (s : State) : (Event.fcollComplete id).perform s = exec (.fcollComplete id) s := rfl
theorem perform_haltNotice (chip : Nat) (freeze : Bool) (s : State) : (Event.haltNotice chip freeze).perform s = exec (.haltNotice chip freeze) s := rfl
theorem perform_releaseNotice (chip : Nat) (s : State) : (Event.releaseNotice chip).perform s = exec (.releaseNotice chip) s := rfl
theorem perform_debugHaltRequest (w : Word) (s : State) : (Event.debugHaltRequest w).perform s = exec (.debugHaltRequest w) s := rfl
theorem perform_debugReleaseRequest (w : Word) (s : State) : (Event.debugReleaseRequest w).perform s = exec (.debugReleaseRequest w) s := rfl
theorem perform_debugStepRequest (w : Word) (s : State) : (Event.debugStepRequest w).perform s = exec (.debugStepRequest w) s := rfl
theorem perform_haltArrival (h : Nat) (s : State) : (Event.haltArrival h).perform s = exec (.haltArrival h) s := rfl
theorem perform_stepReport (h : Nat) (s : State) : (Event.stepReport h).perform s = exec (.stepReport h) s := rfl
theorem perform_debugInject (h : Nat) (w : W32) (s : State) : (Event.debugInject h w).perform s = exec (.debugInject h w) s := rfl
theorem perform_stopUnitFire (h u : Nat) (s : State) : (Event.stopUnitFire h u).perform s = exec (.stopUnitFire h u) s := rfl
theorem perform_triggerTick (s : State) : (Event.triggerTick).perform s = exec (.triggerTick) s := rfl
theorem perform_ridgepoleGrantTick (power : PowerEstimate) (limit : Bool) (s : State) : (Event.ridgepoleGrantTick power limit).perform s = exec (.ridgepoleGrantTick power limit) s := rfl
theorem perform_powerOnStart (trials : List StepTrial) (ports : List Nat) (failed : Failing) (images : List Firmware) (s : State) : (Event.powerOnStart trials ports failed images).perform s = exec (.powerOnStart trials ports failed images) s := rfl
theorem perform_keyctlOpen (slot : Nat) (s : State) : (Event.keyctlOpen slot).perform s = exec (.keyctlOpen slot) s := rfl
theorem perform_keyctlClose (slot : Nat) (s : State) : (Event.keyctlClose slot).perform s = exec (.keyctlClose slot) s := rfl
theorem perform_mergeAssignWrite (camp : Nat) (w : Word) (s : State) : (Event.mergeAssignWrite camp w).perform s = exec (.mergeAssignWrite camp w) s := rfl
theorem perform_hostQueueCtlWrite (q off n : Nat) (v : Word) (s : State) : (Event.hostQueueCtlWrite q off n v).perform s = exec (.hostQueueCtlWrite q off n v) s := rfl
theorem perform_preemptRequestPost (h : Nat) (w : Word) (s : State) : (Event.preemptRequestPost h w).perform s = exec (.preemptRequestPost h w) s := rfl
theorem perform_engineRecordDiscard (h i : Nat) (s : State) : (Event.engineRecordDiscard h i).perform s = exec (.engineRecordDiscard h i) s := rfl
theorem perform_satpWrite (h field : Nat) (v : Word) (s : State) : (Event.satpWrite h field v).perform s = exec (.satpWrite h field v) s := rfl
theorem perform_badgerEnable (ctx : Nat) (v : Word) (s : State) : (Event.badgerEnable ctx v).perform s = exec (.badgerEnable ctx v) s := rfl
theorem perform_registerWrite (off n : Nat) (v : Word) (s : State) : (Event.registerWrite off n v).perform s = exec (.registerWrite off n v) s := rfl
theorem perform_hostAtomic (pa : Nat) (op : AtomicOp) (n : Nat) (operand : Word) (s : State) : (Event.hostAtomic pa op n operand).perform s = exec (.hostAtomic pa op n operand) s := rfl
theorem perform_fabricAcknowledgement (chip seq reason : Nat) (s : State) : (Event.fabricAcknowledgement chip seq reason).perform s = exec (.fabricAcknowledgement chip seq reason) s := rfl
theorem perform_attestationReportRequest (nonce : List Byte) (s : State) : (Event.attestationReportRequest nonce).perform s = exec (.attestationReportRequest nonce) s := rfl
theorem perform_powerLoss (s : State) : (Event.powerLoss).perform s = exec (.powerLoss) s := rfl
theorem perform_loadDataArrival (h : Nat) (s : State) : (Event.loadDataArrival h).perform s = exec (.loadDataArrival h) s := rfl

end Sys2Proof.Machine
end

