-- ==== Sys2Proof/Laws/FMap.lean ====
section
/-! SUPPORT. Finite maps and memory: a read after a write, what a write leaves alone, and the canonical form. -/
namespace Sys2Proof.Machine

variable {β : Type}

/-! ### Read after write -/

theorem FMap.find?_put_same (m : FMap β) (k : Nat) (v : β) : FMap.find? (FMap.put m k v) k = some v := by
  induction m with
  | nil => simp [FMap.put, FMap.find?]
  | cons e m ih =>
    obtain ⟨k', v'⟩ := e
    simp only [FMap.put]
    split
    · simp [FMap.find?]
    · split
      · simp [FMap.find?]
      · simp [FMap.find?, *]

theorem FMap.find?_put_ne (m : FMap β) {k j : Nat} (v : β) (h : j ≠ k) : FMap.find? (FMap.put m k v) j = FMap.find? m j := by
  induction m with
  | nil => simp [FMap.put, FMap.find?, Ne.symm h]
  | cons e m ih =>
    obtain ⟨k', v'⟩ := e
    simp only [FMap.put]
    split
    · simp [FMap.find?, Ne.symm h]
    · split
      · subst_vars; simp [FMap.find?, Ne.symm h]
      · simp [FMap.find?, ih]

theorem FMap.get_put (d : Nat → β) (m : FMap β) (k j : Nat) (v : β) :
    FMap.get d (FMap.put m k v) j = if j = k then v else FMap.get d m j := by
  unfold FMap.get
  split
  · subst_vars; simp [FMap.find?_put_same]
  · simp [FMap.find?_put_ne m v ‹_›]

@[simp] theorem FMap.get_put_same (d : Nat → β) (m : FMap β) (k : Nat) (v : β) : FMap.get d (FMap.put m k v) k = v := by
  simp [FMap.get_put]

theorem FMap.find?_erase (m : FMap β) (k j : Nat) : FMap.find? (FMap.erase m k) j = if j = k then none else FMap.find? m j := by
  induction m with
  | nil => simp [FMap.erase, FMap.find?]
  | cons e m ih =>
    obtain ⟨k', v'⟩ := e
    simp only [FMap.erase]
    split
    · rw [ih]; subst_vars; split
      · rfl
      · simp [FMap.find?, Ne.symm ‹_›]
    · simp only [FMap.find?]
      split
      · subst_vars; simp [*]
      · exact ih

theorem FMap.get_erase (d : Nat → β) (m : FMap β) (k j : Nat) :
    FMap.get d (FMap.erase m k) j = if j = k then d j else FMap.get d m j := by
  unfold FMap.get
  rw [FMap.find?_erase]
  split <;> simp

theorem FMap.get_set [DecidableEq β] (d : Nat → β) (m : FMap β) (k j : Nat) (v : β) :
    FMap.get d (FMap.set d m k v) j = if j = k then v else FMap.get d m j := by
  unfold FMap.set
  split
  · subst_vars; rw [FMap.get_erase]; split
    · subst_vars; rfl
    · rfl
  · rw [FMap.get_put]

theorem Memory.read_write (m : Memory) (a b : Nat) (v : Byte) : (m.write a v).read b = if b = a then v else m.read b :=
  FMap.get_set _ _ _ _ _

@[simp] theorem Memory.read_write_same (m : Memory) (a : Nat) (v : Byte) : (m.write a v).read a = v := by
  simp [Memory.read_write]

/-! ### The canonical form -/

/-- Every key of a map lies above a bound. -/
def FMap.above (m : FMap β) (k : Nat) : Prop := ∀ e ∈ m, k < e.1

theorem FMap.sorted_cons (k : Nat) (v : β) (m : FMap β) : FMap.sorted ((k, v) :: m) = true ↔ FMap.above m k ∧ FMap.sorted m = true := by
  induction m generalizing k v with
  | nil => simp [FMap.sorted, FMap.above]
  | cons e m ih =>
    obtain ⟨k', v'⟩ := e
    simp only [FMap.sorted, Bool.and_eq_true, decide_eq_true_eq]
    constructor
    · rintro ⟨hk, hs⟩
      refine ⟨?_, hs⟩
      intro e he
      rcases List.mem_cons.mp he with rfl | he
      · exact hk
      · exact Nat.lt_trans hk (((ih k' v').mp hs).1 e he)
    · rintro ⟨ha, hs⟩
      exact ⟨ha (k', v') (by simp), hs⟩

theorem FMap.mem_put {m : FMap β} {k : Nat} {v : β} {e : Nat × β} (h : e ∈ FMap.put m k v) : e = (k, v) ∨ e ∈ m := by
  induction m with
  | nil => simpa [FMap.put] using h
  | cons x m ih =>
    obtain ⟨k', v'⟩ := x
    simp only [FMap.put] at h
    split at h
    · simpa using h
    · split at h
      · rcases List.mem_cons.mp h with h | h
        · exact .inl h
        · exact .inr (by simp [h])
      · rcases List.mem_cons.mp h with h | h
        · exact .inr (by simp [h])
        · rcases ih h with h | h
          · exact .inl h
          · exact .inr (by simp [h])

theorem FMap.mem_erase {m : FMap β} {k : Nat} {e : Nat × β} (h : e ∈ FMap.erase m k) : e ∈ m := by
  induction m with
  | nil => simp [FMap.erase] at h
  | cons x m ih =>
    obtain ⟨k', v'⟩ := x
    simp only [FMap.erase] at h
    split at h
    · exact .tail _ (ih h)
    · rcases List.mem_cons.mp h with h | h
      · simp [h]
      · exact .tail _ (ih h)

theorem FMap.sorted_put (m : FMap β) (k : Nat) (v : β) (h : FMap.sorted m = true) : FMap.sorted (FMap.put m k v) = true := by
  induction m with
  | nil => rfl
  | cons x m ih =>
    obtain ⟨k', v'⟩ := x
    obtain ⟨ha, hs⟩ := (FMap.sorted_cons _ _ _).mp h
    simp only [FMap.put]
    split
    · refine (FMap.sorted_cons _ _ _).mpr ⟨?_, h⟩
      intro e he
      rcases List.mem_cons.mp he with rfl | he
      · assumption
      · exact Nat.lt_trans ‹_› (ha e he)
    · split
      · subst_vars; exact (FMap.sorted_cons _ _ _).mpr ⟨ha, hs⟩
      · refine (FMap.sorted_cons _ _ _).mpr ⟨?_, ih hs⟩
        intro e he
        rcases FMap.mem_put he with rfl | he
        · show k' < k; omega
        · exact ha e he

theorem FMap.sorted_erase (m : FMap β) (k : Nat) (h : FMap.sorted m = true) : FMap.sorted (FMap.erase m k) = true := by
  induction m with
  | nil => rfl
  | cons x m ih =>
    obtain ⟨k', v'⟩ := x
    obtain ⟨ha, hs⟩ := (FMap.sorted_cons _ _ _).mp h
    simp only [FMap.erase]
    split
    · exact ih hs
    · exact (FMap.sorted_cons _ _ _).mpr ⟨fun e he => ha e (FMap.mem_erase he), ih hs⟩

theorem FMap.sorted_filter (m : FMap β) (p : Nat × β → Bool) (h : FMap.sorted m = true) : FMap.sorted (m.filter p) = true := by
  induction m with
  | nil => rfl
  | cons x m ih =>
    obtain ⟨k', v'⟩ := x
    obtain ⟨ha, hs⟩ := (FMap.sorted_cons _ _ _).mp h
    simp only [List.filter]
    split
    · exact (FMap.sorted_cons _ _ _).mpr ⟨fun e he => ha e (List.mem_filter.mp he).1, ih hs⟩
    · exact ih hs

theorem FMap.wf_set [DecidableEq β] (d : Nat → β) (m : FMap β) (k : Nat) (v : β) (h : FMap.wf d m = true) :
    FMap.wf d (FMap.set d m k v) = true := by
  simp only [FMap.wf, Bool.and_eq_true, List.all_eq_true] at h ⊢
  unfold FMap.set
  split
  · exact ⟨FMap.sorted_erase _ _ h.1, fun e he => h.2 e (FMap.mem_erase he)⟩
  · refine ⟨FMap.sorted_put _ _ _ h.1, fun e he => ?_⟩
    rcases FMap.mem_put he with rfl | he
    · simpa using ‹_›
    · exact h.2 e he

theorem FMap.wf_filter [DecidableEq β] (d : Nat → β) (m : FMap β) (p : Nat × β → Bool) (h : FMap.wf d m = true) :
    FMap.wf d (m.filter p) = true := by
  simp only [FMap.wf, Bool.and_eq_true, List.all_eq_true] at h ⊢
  exact ⟨FMap.sorted_filter _ _ h.1, fun e he => h.2 e (List.mem_filter.mp he).1⟩

/-- A write keeps the canonical form. -/
theorem Memory.wf_write (m : Memory) (a : Nat) (v : Byte) (h : m.wf = true) : (m.write a v).wf = true := FMap.wf_set _ _ _ _ h

/-- Dropping bytes keeps the canonical form. -/
theorem Memory.wf_filter (m : Memory) (p : Host.Cell → Bool) (h : Memory.wf m = true) : Memory.wf (List.filter p m) = true :=
  FMap.wf_filter _ _ _ h

end Sys2Proof.Machine
end

