-- ==== Sys2Proof/Laws/PerInstr.lean ====
section
/-! SUPPORT. One law of the encoder per instruction: bits 6:0 of its word are the major opcode that its row of the table gives it. -/
namespace Sys2Proof
namespace Laws
namespace MajorOpcode

/-- The major opcode of a row (R83); an event has no word, and its encoding is 0. -/
def opcode : Instr → Nat

  | .add _ _ _ => 0x00
  | .sub _ _ _ => 0x00
  | .and _ _ _ => 0x00
  | .or _ _ _ => 0x00
  | .xor _ _ _ => 0x00
  | .sll _ _ _ => 0x00
  | .srl _ _ _ => 0x00
  | .sra _ _ _ => 0x00
  | .slt _ _ _ => 0x00
  | .sltu _ _ _ => 0x00
  | .min _ _ _ => 0x00
  | .max _ _ _ => 0x00
  | .minu _ _ _ => 0x00
  | .maxu _ _ _ => 0x00
  | .mul _ _ _ => 0x00
  | .mulh _ _ _ => 0x00
  | .mulhu _ _ _ => 0x00
  | .div _ _ _ => 0x00
  | .divu _ _ _ => 0x00
  | .rem _ _ _ => 0x00
  | .remu _ _ _ => 0x00
  | .clz _ _ => 0x00
  | .ctz _ _ => 0x00
  | .cpop _ _ => 0x00
  | .sel _ _ _ _ => 0x00
  | .addi _ _ _ => 0x01
  | .andi _ _ _ => 0x02
  | .ori _ _ _ => 0x03
  | .xori _ _ _ => 0x04
  | .slti _ _ _ => 0x05
  | .sltiu _ _ _ => 0x06
  | .slli _ _ _ => 0x07
  | .srli _ _ _ => 0x07
  | .srai _ _ _ => 0x07
  | .lui _ _ => 0x08
  | .auipc _ _ => 0x09
  | .faddF32 _ _ _ _ => 0x0A
  | .fsubF32 _ _ _ _ => 0x0A
  | .fmulF32 _ _ _ _ => 0x0A
  | .fdivF32 _ _ _ _ => 0x0A
  | .fsqrtF32 _ _ _ => 0x0A
  | .fminF32 _ _ _ => 0x0A
  | .fmaxF32 _ _ _ => 0x0A
  | .feqF32 _ _ _ => 0x0A
  | .fltF32 _ _ _ => 0x0A
  | .fleF32 _ _ _ => 0x0A
  | .fcvtToI64F32 _ _ _ => 0x0A
  | .fcvtToN64F32 _ _ _ => 0x0A
  | .fcvtFromI64F32 _ _ _ => 0x0A
  | .fcvtFromN64F32 _ _ _ => 0x0A
  | .fcvtFromFloatF32 _ _ _ _ => 0x0A
  | .faddF16 _ _ _ _ => 0x0B
  | .fsubF16 _ _ _ _ => 0x0B
  | .fmulF16 _ _ _ _ => 0x0B
  | .fdivF16 _ _ _ _ => 0x0B
  | .fsqrtF16 _ _ _ => 0x0B
  | .fminF16 _ _ _ => 0x0B
  | .fmaxF16 _ _ _ => 0x0B
  | .feqF16 _ _ _ => 0x0B
  | .fltF16 _ _ _ => 0x0B
  | .fleF16 _ _ _ => 0x0B
  | .fcvtToI64F16 _ _ _ => 0x0B
  | .fcvtToN64F16 _ _ _ => 0x0B
  | .fcvtFromI64F16 _ _ _ => 0x0B
  | .fcvtFromN64F16 _ _ _ => 0x0B
  | .fcvtFromFloatF16 _ _ _ _ => 0x0B
  | .faddBf16 _ _ _ _ => 0x0C
  | .fsubBf16 _ _ _ _ => 0x0C
  | .fmulBf16 _ _ _ _ => 0x0C
  | .fdivBf16 _ _ _ _ => 0x0C
  | .fsqrtBf16 _ _ _ => 0x0C
  | .fminBf16 _ _ _ => 0x0C
  | .fmaxBf16 _ _ _ => 0x0C
  | .feqBf16 _ _ _ => 0x0C
  | .fltBf16 _ _ _ => 0x0C
  | .fleBf16 _ _ _ => 0x0C
  | .fcvtToI64Bf16 _ _ _ => 0x0C
  | .fcvtToN64Bf16 _ _ _ => 0x0C
  | .fcvtFromI64Bf16 _ _ _ => 0x0C
  | .fcvtFromN64Bf16 _ _ _ => 0x0C
  | .fcvtFromFloatBf16 _ _ _ _ => 0x0C
  | .fmadd _ _ _ _ _ _ => 0x0D
  | .lb _ _ _ => 0x10
  | .lh _ _ _ => 0x11
  | .lw _ _ _ => 0x12
  | .ld _ _ _ => 0x13
  | .lbu _ _ _ => 0x14
  | .lhu _ _ _ => 0x15
  | .sb _ _ _ => 0x16
  | .sh _ _ _ => 0x17
  | .sw _ _ _ => 0x18
  | .sd _ _ _ => 0x19
  | .beq _ _ _ => 0x1A
  | .bne _ _ _ => 0x1B
  | .blt _ _ _ => 0x1C
  | .bge _ _ _ => 0x1D
  | .jal _ _ => 0x1E
  | .jalr _ _ _ => 0x1F
  | .crr _ _ => 0x20
  | .crw _ _ _ => 0x20
  | .crs _ _ _ => 0x20
  | .crc _ _ _ => 0x20
  | .exit => 0x21
  | .scall _ => 0x21
  | .tret => 0x21
  | .icinv _ _ => 0x21
  | .yieldP => 0x21
  | .xlinv _ _ => 0x21
  | .loop _ _ _ => 0x22
  | .vaddVv _ _ _ _ _ _ _ => 0x30
  | .vaddVx _ _ _ _ _ _ => 0x31
  | .vsubVv _ _ _ _ _ _ _ => 0x32
  | .vsubVx _ _ _ _ _ _ => 0x33
  | .vmulVv _ _ _ _ _ _ _ => 0x34
  | .vmulVx _ _ _ _ _ _ => 0x35
  | .vfmaVv _ _ _ _ _ _ _ => 0x36
  | .vfmaVx _ _ _ _ _ _ => 0x37
  | .vmin _ _ _ _ _ _ _ => 0x38
  | .vmax _ _ _ _ _ _ _ => 0x39
  | .vdiv _ _ _ _ _ _ _ => 0x3A
  | .vsqrt _ _ _ _ _ => 0x3B
  | .vcmpeqVv _ _ _ _ _ _ _ => 0x3C
  | .vcmpneVv _ _ _ _ _ _ _ => 0x3C
  | .vcmpltVv _ _ _ _ _ _ _ => 0x3C
  | .vcmpleVv _ _ _ _ _ _ _ => 0x3C
  | .vcmpeqVx _ _ _ _ _ _ => 0x3D
  | .vcmpneVx _ _ _ _ _ _ => 0x3D
  | .vcmpltVx _ _ _ _ _ _ => 0x3D
  | .vcmpleVx _ _ _ _ _ _ => 0x3D
  | .vand _ _ _ _ _ _ _ => 0x3E
  | .vor _ _ _ _ _ _ _ => 0x3E
  | .vxor _ _ _ _ _ _ _ => 0x3E
  | .vandn _ _ _ _ _ _ _ => 0x3E
  | .vorn _ _ _ _ _ _ _ => 0x3E
  | .vsll _ _ _ _ _ _ _ => 0x3F
  | .vsrl _ _ _ _ _ _ _ => 0x3F
  | .vsra _ _ _ _ _ _ _ => 0x3F
  | .vsel _ _ _ _ _ _ _ => 0x40
  | .vclamp _ _ _ _ _ _ _ => 0x41
  | .vcvt _ _ _ _ _ _ => 0x42
  | .vcvtsn _ _ _ _ _ _ => 0x43
  | .vcvtsw _ _ _ _ _ _ _ => 0x44
  | .vscale _ _ _ _ _ => 0x45
  | .vredsum _ _ _ _ _ _ _ => 0x46
  | .vredmax _ _ _ _ _ _ _ => 0x46
  | .vredmin _ _ _ _ _ _ _ => 0x46
  | .vcompress _ _ _ _ _ => 0x47
  | .vexpand _ _ _ _ _ => 0x47
  | .vconfl _ _ _ _ _ => 0x48
  | .vslideup _ _ _ _ _ _ _ => 0x49
  | .vslidedn _ _ _ _ _ _ _ => 0x49
  | .vmv _ _ _ _ _ => 0x4A
  | .vbcast _ _ _ => 0x4A
  | .vgetx _ _ _ _ => 0x4A
  | .vputx _ _ _ _ => 0x4A
  | .kand _ _ _ => 0x4B
  | .kor _ _ _ => 0x4B
  | .kxor _ _ _ => 0x4B
  | .kandn _ _ _ => 0x4B
  | .knot _ _ => 0x4B
  | .kpop _ _ => 0x4B
  | .kfirst _ _ => 0x4B
  | .nawait _ _ _ => 0x4C
  | .vidx _ _ _ _ => 0x4D
  | .setvl _ _ _ _ _ => 0x50
  | .vdef _ _ _ => 0x51
  | .vdgeta _ _ => 0x51
  | .vdgetb _ _ => 0x51
  | .mma _ _ _ _ _ => 0x58
  | .mmas _ _ _ _ _ => 0x58
  | .mmag _ _ _ _ _ => 0x58
  | .aczero _ _ => 0x59
  | .acrd _ _ _ => 0x59
  | .acwr _ _ _ => 0x59
  | .tilerel _ => 0x5A
  | .tilewait _ _ _ _ => 0x5B
  | .vld _ _ _ w => 0x60 + w.toNat
  | .vst _ _ _ w => 0x64 + w.toNat
  | .vldm _ _ _ _ => 0x68
  | .vlds _ _ _ _ _ => 0x68
  | .vldi _ _ _ _ _ _ => 0x68
  | .vldiw _ _ _ _ _ _ => 0x68
  | .vldro _ _ _ _ => 0x68
  | .vstm _ _ _ _ => 0x69
  | .vsts _ _ _ _ _ => 0x69
  | .vsti _ _ _ _ _ _ => 0x69
  | .vstiw _ _ _ _ _ _ => 0x69
  | .sqopen _ _ _ _ => 0x6A
  | .sqclose _ _ => 0x6A
  | .sqpop _ _ _ _ _ => 0x6B
  | .vldz _ _ _ _ => 0x6C
  | .tfetch _ _ _ _ => 0x6D
  | .acopy _ _ _ _ => 0x6D
  | .tdrain _ _ _ _ => 0x6D
  | .bankopSplit _ _ _ _ => 0x6E
  | .bankopJoin _ _ _ _ => 0x6E
  | .bankopXp8 _ _ _ _ => 0x6E
  | .bankopXp16 _ _ _ _ => 0x6E
  | .bankopDenc _ _ _ _ => 0x6E
  | .bankopDdec _ _ _ _ => 0x6E
  | .bankopZsum _ _ _ _ => 0x6E
  | .fread _ _ _ _ => 0x6F
  | .aadd _ _ _ _ _ _ => 0x70
  | .aand _ _ _ _ _ _ => 0x70
  | .aor _ _ _ _ _ _ => 0x70
  | .axor _ _ _ _ _ _ => 0x70
  | .amin _ _ _ _ _ _ => 0x70
  | .amax _ _ _ _ _ _ => 0x70
  | .aminu _ _ _ _ _ _ => 0x70
  | .amaxu _ _ _ _ _ _ => 0x70
  | .aswap _ _ _ _ _ _ => 0x70
  | .acas _ _ _ _ _ _ => 0x71
  | .vgl _ _ _ _ _ _ => 0x72
  | .vglw _ _ _ _ _ _ => 0x72
  | .vsc _ _ _ _ _ _ => 0x72
  | .vscw _ _ _ _ _ _ => 0x72
  | .vscadd _ _ _ _ _ _ => 0x73
  | .fence _ _ _ _ => 0x74
  | .bar _ _ _ _ => 0x74
  | .waita _ _ _ _ => 0x74
  | .vwaita _ _ _ _ => 0x74
  | .phend _ _ _ => 0x74
  | .twaitTake _ _ => 0x74
  | .twait _ _ _ => 0x74
  | .mgwait _ _ _ => 0x74
  | .qsend _ _ _ _ => 0x75
  | .qrecv _ _ _ _ => 0x75
  | .lsync => 0x76
  | .roinv => 0x76
  | .cmread _ _ => 0x76
  | .tsub _ _ _ _ => 0x78
  | .tchk _ => 0x79
  | .tdone _ => 0x79
  | .mgopen _ _ => 0x7A
  | .mgclose _ => 0x7A
  | .mgdrain _ => 0x7A
  | .mgpush _ _ _ _ _ _ => 0x7B
  | .fgather _ _ _ _ => 0x7C
  | .freduce _ _ _ _ => 0x7C
  | .fflag _ _ _ _ => 0x7C
  | .fcoll _ _ => 0x7C
  | .brk _ => 0x7D
  | .trec _ _ => 0x7D
  | .dget _ _ => 0x7D
  | .illegalWord _ => 0
  | .entryIssue _ => 0
  | .laneGroupStart _ _ => 0
  | .entryComplete _ => 0
  | .trapEntry _ => 0
  | .asyncStop _ => 0
  | .waitWake _ => 0
  | .waitDeadlineExpiry _ => 0
  | .streamEntryFetched _ _ => 0
  | .tileFillComplete _ => 0
  | .tileFillFault _ => 0
  | .tileDrainComplete _ => 0
  | .tileDrainFault _ => 0
  | .acopyComplete _ => 0
  | .bankopLineOperation _ _ => 0
  | .bankopComplete _ => 0
  | .freadComplete _ _ _ => 0
  | .nvmeCompletion _ _ => 0
  | .scatterAddPerform _ => 0
  | .mergePassEnd _ => 0
  | .mergeDrainComplete _ => 0
  | .l2WriteBack _ _ _ => 0
  | .mscEviction _ => 0
  | .wideMarkExpire _ => 0
  | .taskSummaryRetest _ => 0
  | .doorbellWrite _ _ => 0
  | .startRecordTake _ => 0
  | .launchGrant _ _ => 0
  | .recordAged _ => 0
  | .kernelEnd _ => 0
  | .cxlMemRead _ => 0
  | .cxlMemWrite _ _ => 0
  | .migrate => 0
  | .migrateCopyDone => 0
  | .shoot => 0
  | .shootDrained => 0
  | .fabricFlitReplay _ _ => 0
  | .fabricLinkDown _ => 0
  | .fabricWritePacket _ => 0
  | .fabricReadRequest _ _ _ _ _ => 0
  | .fabricFlagApply _ _ _ _ _ _ => 0
  | .fgatherComplete _ _ _ => 0
  | .freduceComplete _ _ => 0
  | .fcollComplete _ => 0
  | .haltNotice _ _ => 0
  | .releaseNotice _ => 0
  | .debugHaltRequest _ => 0
  | .debugReleaseRequest _ => 0
  | .debugStepRequest _ => 0
  | .haltArrival _ => 0
  | .stepReport _ => 0
  | .debugInject _ _ => 0
  | .stopUnitFire _ _ => 0
  | .triggerTick => 0
  | .ridgepoleGrantTick _ _ => 0
  | .powerOnStart _ _ _ _ => 0
  | .keyctlOpen _ => 0
  | .keyctlClose _ => 0
  | .mergeAssignWrite _ _ => 0
  | .hostQueueCtlWrite _ _ _ _ => 0
  | .preemptRequestPost _ _ => 0
  | .engineRecordDiscard _ _ => 0
  | .satpWrite _ _ _ => 0
  | .badgerEnable _ _ => 0
  | .registerWrite _ _ _ => 0
  | .hostAtomic _ _ _ _ => 0
  | .fabricAcknowledgement _ _ _ => 0
  | .attestationReportRequest _ => 0
  | .powerLoss => 0
  | .loadDataArrival _ => 0

/-- The law of one instruction. -/
def Statement (i : Instr) : Prop := (encode i).toNat % 128 = opcode i

/-- Bits 6:0 of a word with given columns. -/
theorem pack_opcode (fn c b a d op : Nat) : (pack fn c b a d op).toNat % 128 = op % 128 := by
  simp only [pack, BitVec.toNat_ofNat]; omega

/-- The law for a word with given columns. -/
theorem word (fn c b a d op : Nat) (h : op % 128 = op) : (pack fn c b a d op).toNat % 128 = op := by rw [pack_opcode, h]

theorem add : ∀ v0 v1 v2, Statement (.add v0 v1 v2) := fun _ _ _ => word _ _ _ _ _ _ (by decide)
theorem sub : ∀ v0 v1 v2, Statement (.sub v0 v1 v2) := fun _ _ _ => word _ _ _ _ _ _ (by decide)
theorem and : ∀ v0 v1 v2, Statement (.and v0 v1 v2) := fun _ _ _ => word _ _ _ _ _ _ (by decide)
theorem or : ∀ v0 v1 v2, Statement (.or v0 v1 v2) := fun _ _ _ => word _ _ _ _ _ _ (by decide)
theorem xor : ∀ v0 v1 v2, Statement (.xor v0 v1 v2) := fun _ _ _ => word _ _ _ _ _ _ (by decide)
theorem sll : ∀ v0 v1 v2, Statement (.sll v0 v1 v2) := fun _ _ _ => word _ _ _ _ _ _ (by decide)
theorem srl : ∀ v0 v1 v2, Statement (.srl v0 v1 v2) := fun _ _ _ => word _ _ _ _ _ _ (by decide)
theorem sra : ∀ v0 v1 v2, Statement (.sra v0 v1 v2) := fun _ _ _ => word _ _ _ _ _ _ (by decide)
theorem slt : ∀ v0 v1 v2, Statement (.slt v0 v1 v2) := fun _ _ _ => word _ _ _ _ _ _ (by decide)
theorem sltu : ∀ v0 v1 v2, Statement (.sltu v0 v1 v2) := fun _ _ _ => word _ _ _ _ _ _ (by decide)
theorem min : ∀ v0 v1 v2, Statement (.min v0 v1 v2) := fun _ _ _ => word _ _ _ _ _ _ (by decide)
theorem max : ∀ v0 v1 v2, Statement (.max v0 v1 v2) := fun _ _ _ => word _ _ _ _ _ _ (by decide)
theorem minu : ∀ v0 v1 v2, Statement (.minu v0 v1 v2) := fun _ _ _ => word _ _ _ _ _ _ (by decide)
theorem maxu : ∀ v0 v1 v2, Statement (.maxu v0 v1 v2) := fun _ _ _ => word _ _ _ _ _ _ (by decide)
theorem mul : ∀ v0 v1 v2, Statement (.mul v0 v1 v2) := fun _ _ _ => word _ _ _ _ _ _ (by decide)
theorem mulh : ∀ v0 v1 v2, Statement (.mulh v0 v1 v2) := fun _ _ _ => word _ _ _ _ _ _ (by decide)
theorem mulhu : ∀ v0 v1 v2, Statement (.mulhu v0 v1 v2) := fun _ _ _ => word _ _ _ _ _ _ (by decide)
theorem div : ∀ v0 v1 v2, Statement (.div v0 v1 v2) := fun _ _ _ => word _ _ _ _ _ _ (by decide)
theorem divu : ∀ v0 v1 v2, Statement (.divu v0 v1 v2) := fun _ _ _ => word _ _ _ _ _ _ (by decide)
theorem rem : ∀ v0 v1 v2, Statement (.rem v0 v1 v2) := fun _ _ _ => word _ _ _ _ _ _ (by decide)
theorem remu : ∀ v0 v1 v2, Statement (.remu v0 v1 v2) := fun _ _ _ => word _ _ _ _ _ _ (by decide)
theorem clz : ∀ v0 v1, Statement (.clz v0 v1) := fun _ _ => word _ _ _ _ _ _ (by decide)
theorem ctz : ∀ v0 v1, Statement (.ctz v0 v1) := fun _ _ => word _ _ _ _ _ _ (by decide)
theorem cpop : ∀ v0 v1, Statement (.cpop v0 v1) := fun _ _ => word _ _ _ _ _ _ (by decide)
theorem sel : ∀ v0 v1 v2 v3, Statement (.sel v0 v1 v2 v3) := fun _ _ _ _ => word _ _ _ _ _ _ (by decide)
theorem addi : ∀ v0 v1 v2, Statement (.addi v0 v1 v2) := fun _ _ _ => word _ _ _ _ _ _ (by decide)
theorem andi : ∀ v0 v1 v2, Statement (.andi v0 v1 v2) := fun _ _ _ => word _ _ _ _ _ _ (by decide)
theorem ori : ∀ v0 v1 v2, Statement (.ori v0 v1 v2) := fun _ _ _ => word _ _ _ _ _ _ (by decide)
theorem xori : ∀ v0 v1 v2, Statement (.xori v0 v1 v2) := fun _ _ _ => word _ _ _ _ _ _ (by decide)
theorem slti : ∀ v0 v1 v2, Statement (.slti v0 v1 v2) := fun _ _ _ => word _ _ _ _ _ _ (by decide)
theorem sltiu : ∀ v0 v1 v2, Statement (.sltiu v0 v1 v2) := fun _ _ _ => word _ _ _ _ _ _ (by decide)
theorem slli : ∀ v0 v1 v2, Statement (.slli v0 v1 v2) := fun _ _ _ => word _ _ _ _ _ _ (by decide)
theorem srli : ∀ v0 v1 v2, Statement (.srli v0 v1 v2) := fun _ _ _ => word _ _ _ _ _ _ (by decide)
theorem srai : ∀ v0 v1 v2, Statement (.srai v0 v1 v2) := fun _ _ _ => word _ _ _ _ _ _ (by decide)
theorem lui : ∀ v0 v1, Statement (.lui v0 v1) := fun _ _ => word _ _ _ _ _ _ (by decide)
theorem auipc : ∀ v0 v1, Statement (.auipc v0 v1) := fun _ _ => word _ _ _ _ _ _ (by decide)
theorem faddF32 : ∀ v0 v1 v2 v3, Statement (.faddF32 v0 v1 v2 v3) := fun _ _ _ _ => word _ _ _ _ _ _ (by decide)
theorem fsubF32 : ∀ v0 v1 v2 v3, Statement (.fsubF32 v0 v1 v2 v3) := fun _ _ _ _ => word _ _ _ _ _ _ (by decide)
theorem fmulF32 : ∀ v0 v1 v2 v3, Statement (.fmulF32 v0 v1 v2 v3) := fun _ _ _ _ => word _ _ _ _ _ _ (by decide)
theorem fdivF32 : ∀ v0 v1 v2 v3, Statement (.fdivF32 v0 v1 v2 v3) := fun _ _ _ _ => word _ _ _ _ _ _ (by decide)
theorem fsqrtF32 : ∀ v0 v1 v2, Statement (.fsqrtF32 v0 v1 v2) := fun _ _ _ => word _ _ _ _ _ _ (by decide)
theorem fminF32 : ∀ v0 v1 v2, Statement (.fminF32 v0 v1 v2) := fun _ _ _ => word _ _ _ _ _ _ (by decide)
theorem fmaxF32 : ∀ v0 v1 v2, Statement (.fmaxF32 v0 v1 v2) := fun _ _ _ => word _ _ _ _ _ _ (by decide)
theorem feqF32 : ∀ v0 v1 v2, Statement (.feqF32 v0 v1 v2) := fun _ _ _ => word _ _ _ _ _ _ (by decide)
theorem fltF32 : ∀ v0 v1 v2, Statement (.fltF32 v0 v1 v2) := fun _ _ _ => word _ _ _ _ _ _ (by decide)
theorem fleF32 : ∀ v0 v1 v2, Statement (.fleF32 v0 v1 v2) := fun _ _ _ => word _ _ _ _ _ _ (by decide)
theorem fcvtToI64F32 : ∀ v0 v1 v2, Statement (.fcvtToI64F32 v0 v1 v2) := fun _ _ _ => word _ _ _ _ _ _ (by decide)
theorem fcvtToN64F32 : ∀ v0 v1 v2, Statement (.fcvtToN64F32 v0 v1 v2) := fun _ _ _ => word _ _ _ _ _ _ (by decide)
theorem fcvtFromI64F32 : ∀ v0 v1 v2, Statement (.fcvtFromI64F32 v0 v1 v2) := fun _ _ _ => word _ _ _ _ _ _ (by decide)
theorem fcvtFromN64F32 : ∀ v0 v1 v2, Statement (.fcvtFromN64F32 v0 v1 v2) := fun _ _ _ => word _ _ _ _ _ _ (by decide)
theorem fcvtFromFloatF32 : ∀ v0 v1 v2 v3, Statement (.fcvtFromFloatF32 v0 v1 v2 v3) := fun _ _ _ _ => word _ _ _ _ _ _ (by decide)
theorem faddF16 : ∀ v0 v1 v2 v3, Statement (.faddF16 v0 v1 v2 v3) := fun _ _ _ _ => word _ _ _ _ _ _ (by decide)
theorem fsubF16 : ∀ v0 v1 v2 v3, Statement (.fsubF16 v0 v1 v2 v3) := fun _ _ _ _ => word _ _ _ _ _ _ (by decide)
theorem fmulF16 : ∀ v0 v1 v2 v3, Statement (.fmulF16 v0 v1 v2 v3) := fun _ _ _ _ => word _ _ _ _ _ _ (by decide)
theorem fdivF16 : ∀ v0 v1 v2 v3, Statement (.fdivF16 v0 v1 v2 v3) := fun _ _ _ _ => word _ _ _ _ _ _ (by decide)
theorem fsqrtF16 : ∀ v0 v1 v2, Statement (.fsqrtF16 v0 v1 v2) := fun _ _ _ => word _ _ _ _ _ _ (by decide)
theorem fminF16 : ∀ v0 v1 v2, Statement (.fminF16 v0 v1 v2) := fun _ _ _ => word _ _ _ _ _ _ (by decide)
theorem fmaxF16 : ∀ v0 v1 v2, Statement (.fmaxF16 v0 v1 v2) := fun _ _ _ => word _ _ _ _ _ _ (by decide)
theorem feqF16 : ∀ v0 v1 v2, Statement (.feqF16 v0 v1 v2) := fun _ _ _ => word _ _ _ _ _ _ (by decide)
theorem fltF16 : ∀ v0 v1 v2, Statement (.fltF16 v0 v1 v2) := fun _ _ _ => word _ _ _ _ _ _ (by decide)
theorem fleF16 : ∀ v0 v1 v2, Statement (.fleF16 v0 v1 v2) := fun _ _ _ => word _ _ _ _ _ _ (by decide)
theorem fcvtToI64F16 : ∀ v0 v1 v2, Statement (.fcvtToI64F16 v0 v1 v2) := fun _ _ _ => word _ _ _ _ _ _ (by decide)
theorem fcvtToN64F16 : ∀ v0 v1 v2, Statement (.fcvtToN64F16 v0 v1 v2) := fun _ _ _ => word _ _ _ _ _ _ (by decide)
theorem fcvtFromI64F16 : ∀ v0 v1 v2, Statement (.fcvtFromI64F16 v0 v1 v2) := fun _ _ _ => word _ _ _ _ _ _ (by decide)
theorem fcvtFromN64F16 : ∀ v0 v1 v2, Statement (.fcvtFromN64F16 v0 v1 v2) := fun _ _ _ => word _ _ _ _ _ _ (by decide)
theorem fcvtFromFloatF16 : ∀ v0 v1 v2 v3, Statement (.fcvtFromFloatF16 v0 v1 v2 v3) := fun _ _ _ _ => word _ _ _ _ _ _ (by decide)
theorem faddBf16 : ∀ v0 v1 v2 v3, Statement (.faddBf16 v0 v1 v2 v3) := fun _ _ _ _ => word _ _ _ _ _ _ (by decide)
theorem fsubBf16 : ∀ v0 v1 v2 v3, Statement (.fsubBf16 v0 v1 v2 v3) := fun _ _ _ _ => word _ _ _ _ _ _ (by decide)
theorem fmulBf16 : ∀ v0 v1 v2 v3, Statement (.fmulBf16 v0 v1 v2 v3) := fun _ _ _ _ => word _ _ _ _ _ _ (by decide)
theorem fdivBf16 : ∀ v0 v1 v2 v3, Statement (.fdivBf16 v0 v1 v2 v3) := fun _ _ _ _ => word _ _ _ _ _ _ (by decide)
theorem fsqrtBf16 : ∀ v0 v1 v2, Statement (.fsqrtBf16 v0 v1 v2) := fun _ _ _ => word _ _ _ _ _ _ (by decide)
theorem fminBf16 : ∀ v0 v1 v2, Statement (.fminBf16 v0 v1 v2) := fun _ _ _ => word _ _ _ _ _ _ (by decide)
theorem fmaxBf16 : ∀ v0 v1 v2, Statement (.fmaxBf16 v0 v1 v2) := fun _ _ _ => word _ _ _ _ _ _ (by decide)
theorem feqBf16 : ∀ v0 v1 v2, Statement (.feqBf16 v0 v1 v2) := fun _ _ _ => word _ _ _ _ _ _ (by decide)
theorem fltBf16 : ∀ v0 v1 v2, Statement (.fltBf16 v0 v1 v2) := fun _ _ _ => word _ _ _ _ _ _ (by decide)
theorem fleBf16 : ∀ v0 v1 v2, Statement (.fleBf16 v0 v1 v2) := fun _ _ _ => word _ _ _ _ _ _ (by decide)
theorem fcvtToI64Bf16 : ∀ v0 v1 v2, Statement (.fcvtToI64Bf16 v0 v1 v2) := fun _ _ _ => word _ _ _ _ _ _ (by decide)
theorem fcvtToN64Bf16 : ∀ v0 v1 v2, Statement (.fcvtToN64Bf16 v0 v1 v2) := fun _ _ _ => word _ _ _ _ _ _ (by decide)
theorem fcvtFromI64Bf16 : ∀ v0 v1 v2, Statement (.fcvtFromI64Bf16 v0 v1 v2) := fun _ _ _ => word _ _ _ _ _ _ (by decide)
theorem fcvtFromN64Bf16 : ∀ v0 v1 v2, Statement (.fcvtFromN64Bf16 v0 v1 v2) := fun _ _ _ => word _ _ _ _ _ _ (by decide)
theorem fcvtFromFloatBf16 : ∀ v0 v1 v2 v3, Statement (.fcvtFromFloatBf16 v0 v1 v2 v3) := fun _ _ _ _ => word _ _ _ _ _ _ (by decide)
theorem fmadd : ∀ v0 v1 v2 v3 v4 v5, Statement (.fmadd v0 v1 v2 v3 v4 v5) := fun _ _ _ _ _ _ => word _ _ _ _ _ _ (by decide)
theorem lb : ∀ v0 v1 v2, Statement (.lb v0 v1 v2) := fun _ _ _ => word _ _ _ _ _ _ (by decide)
theorem lh : ∀ v0 v1 v2, Statement (.lh v0 v1 v2) := fun _ _ _ => word _ _ _ _ _ _ (by decide)
theorem lw : ∀ v0 v1 v2, Statement (.lw v0 v1 v2) := fun _ _ _ => word _ _ _ _ _ _ (by decide)
theorem ld : ∀ v0 v1 v2, Statement (.ld v0 v1 v2) := fun _ _ _ => word _ _ _ _ _ _ (by decide)
theorem lbu : ∀ v0 v1 v2, Statement (.lbu v0 v1 v2) := fun _ _ _ => word _ _ _ _ _ _ (by decide)
theorem lhu : ∀ v0 v1 v2, Statement (.lhu v0 v1 v2) := fun _ _ _ => word _ _ _ _ _ _ (by decide)
theorem sb : ∀ v0 v1 v2, Statement (.sb v0 v1 v2) := fun _ _ _ => word _ _ _ _ _ _ (by decide)
theorem sh : ∀ v0 v1 v2, Statement (.sh v0 v1 v2) := fun _ _ _ => word _ _ _ _ _ _ (by decide)
theorem sw : ∀ v0 v1 v2, Statement (.sw v0 v1 v2) := fun _ _ _ => word _ _ _ _ _ _ (by decide)
theorem sd : ∀ v0 v1 v2, Statement (.sd v0 v1 v2) := fun _ _ _ => word _ _ _ _ _ _ (by decide)
theorem beq : ∀ v0 v1 v2, Statement (.beq v0 v1 v2) := fun _ _ _ => word _ _ _ _ _ _ (by decide)
theorem bne : ∀ v0 v1 v2, Statement (.bne v0 v1 v2) := fun _ _ _ => word _ _ _ _ _ _ (by decide)
theorem blt : ∀ v0 v1 v2, Statement (.blt v0 v1 v2) := fun _ _ _ => word _ _ _ _ _ _ (by decide)
theorem bge : ∀ v0 v1 v2, Statement (.bge v0 v1 v2) := fun _ _ _ => word _ _ _ _ _ _ (by decide)
theorem jal : ∀ v0 v1, Statement (.jal v0 v1) := fun _ _ => word _ _ _ _ _ _ (by decide)
theorem jalr : ∀ v0 v1 v2, Statement (.jalr v0 v1 v2) := fun _ _ _ => word _ _ _ _ _ _ (by decide)
theorem crr : ∀ v0 v1, Statement (.crr v0 v1) := fun _ _ => word _ _ _ _ _ _ (by decide)
theorem crw : ∀ v0 v1 v2, Statement (.crw v0 v1 v2) := fun _ _ _ => word _ _ _ _ _ _ (by decide)
theorem crs : ∀ v0 v1 v2, Statement (.crs v0 v1 v2) := fun _ _ _ => word _ _ _ _ _ _ (by decide)
theorem crc : ∀ v0 v1 v2, Statement (.crc v0 v1 v2) := fun _ _ _ => word _ _ _ _ _ _ (by decide)
theorem exit : Statement .exit := word _ _ _ _ _ _ (by decide)
theorem scall : ∀ v0, Statement (.scall v0) := fun _ => word _ _ _ _ _ _ (by decide)
theorem tret : Statement .tret := word _ _ _ _ _ _ (by decide)
theorem icinv : ∀ v0 v1, Statement (.icinv v0 v1) := fun _ _ => word _ _ _ _ _ _ (by decide)
theorem yieldP : Statement .yieldP := word _ _ _ _ _ _ (by decide)
theorem xlinv : ∀ v0 v1, Statement (.xlinv v0 v1) := fun _ _ => word _ _ _ _ _ _ (by decide)
theorem loop : ∀ v0 v1 v2, Statement (.loop v0 v1 v2) := fun _ _ _ => word _ _ _ _ _ _ (by decide)
theorem vaddVv : ∀ v0 v1 v2 v3 v4 v5 v6, Statement (.vaddVv v0 v1 v2 v3 v4 v5 v6) := fun _ _ _ _ _ _ _ => word _ _ _ _ _ _ (by decide)
theorem vaddVx : ∀ v0 v1 v2 v3 v4 v5, Statement (.vaddVx v0 v1 v2 v3 v4 v5) := fun _ _ _ _ _ _ => word _ _ _ _ _ _ (by decide)
theorem vsubVv : ∀ v0 v1 v2 v3 v4 v5 v6, Statement (.vsubVv v0 v1 v2 v3 v4 v5 v6) := fun _ _ _ _ _ _ _ => word _ _ _ _ _ _ (by decide)
theorem vsubVx : ∀ v0 v1 v2 v3 v4 v5, Statement (.vsubVx v0 v1 v2 v3 v4 v5) := fun _ _ _ _ _ _ => word _ _ _ _ _ _ (by decide)
theorem vmulVv : ∀ v0 v1 v2 v3 v4 v5 v6, Statement (.vmulVv v0 v1 v2 v3 v4 v5 v6) := fun _ _ _ _ _ _ _ => word _ _ _ _ _ _ (by decide)
theorem vmulVx : ∀ v0 v1 v2 v3 v4 v5, Statement (.vmulVx v0 v1 v2 v3 v4 v5) := fun _ _ _ _ _ _ => word _ _ _ _ _ _ (by decide)
theorem vfmaVv : ∀ v0 v1 v2 v3 v4 v5 v6, Statement (.vfmaVv v0 v1 v2 v3 v4 v5 v6) := fun _ _ _ _ _ _ _ => word _ _ _ _ _ _ (by decide)
theorem vfmaVx : ∀ v0 v1 v2 v3 v4 v5, Statement (.vfmaVx v0 v1 v2 v3 v4 v5) := fun _ _ _ _ _ _ => word _ _ _ _ _ _ (by decide)
theorem vmin : ∀ v0 v1 v2 v3 v4 v5 v6, Statement (.vmin v0 v1 v2 v3 v4 v5 v6) := fun _ _ _ _ _ _ _ => word _ _ _ _ _ _ (by decide)
theorem vmax : ∀ v0 v1 v2 v3 v4 v5 v6, Statement (.vmax v0 v1 v2 v3 v4 v5 v6) := fun _ _ _ _ _ _ _ => word _ _ _ _ _ _ (by decide)
theorem vdiv : ∀ v0 v1 v2 v3 v4 v5 v6, Statement (.vdiv v0 v1 v2 v3 v4 v5 v6) := fun _ _ _ _ _ _ _ => word _ _ _ _ _ _ (by decide)
theorem vsqrt : ∀ v0 v1 v2 v3 v4, Statement (.vsqrt v0 v1 v2 v3 v4) := fun _ _ _ _ _ => word _ _ _ _ _ _ (by decide)
theorem vcmpeqVv : ∀ v0 v1 v2 v3 v4 v5 v6, Statement (.vcmpeqVv v0 v1 v2 v3 v4 v5 v6) := fun _ _ _ _ _ _ _ => word _ _ _ _ _ _ (by decide)
theorem vcmpneVv : ∀ v0 v1 v2 v3 v4 v5 v6, Statement (.vcmpneVv v0 v1 v2 v3 v4 v5 v6) := fun _ _ _ _ _ _ _ => word _ _ _ _ _ _ (by decide)
theorem vcmpltVv : ∀ v0 v1 v2 v3 v4 v5 v6, Statement (.vcmpltVv v0 v1 v2 v3 v4 v5 v6) := fun _ _ _ _ _ _ _ => word _ _ _ _ _ _ (by decide)
theorem vcmpleVv : ∀ v0 v1 v2 v3 v4 v5 v6, Statement (.vcmpleVv v0 v1 v2 v3 v4 v5 v6) := fun _ _ _ _ _ _ _ => word _ _ _ _ _ _ (by decide)
theorem vcmpeqVx : ∀ v0 v1 v2 v3 v4 v5, Statement (.vcmpeqVx v0 v1 v2 v3 v4 v5) := fun _ _ _ _ _ _ => word _ _ _ _ _ _ (by decide)
theorem vcmpneVx : ∀ v0 v1 v2 v3 v4 v5, Statement (.vcmpneVx v0 v1 v2 v3 v4 v5) := fun _ _ _ _ _ _ => word _ _ _ _ _ _ (by decide)
theorem vcmpltVx : ∀ v0 v1 v2 v3 v4 v5, Statement (.vcmpltVx v0 v1 v2 v3 v4 v5) := fun _ _ _ _ _ _ => word _ _ _ _ _ _ (by decide)
theorem vcmpleVx : ∀ v0 v1 v2 v3 v4 v5, Statement (.vcmpleVx v0 v1 v2 v3 v4 v5) := fun _ _ _ _ _ _ => word _ _ _ _ _ _ (by decide)
theorem vand : ∀ v0 v1 v2 v3 v4 v5 v6, Statement (.vand v0 v1 v2 v3 v4 v5 v6) := fun _ _ _ _ _ _ _ => word _ _ _ _ _ _ (by decide)
theorem vor : ∀ v0 v1 v2 v3 v4 v5 v6, Statement (.vor v0 v1 v2 v3 v4 v5 v6) := fun _ _ _ _ _ _ _ => word _ _ _ _ _ _ (by decide)
theorem vxor : ∀ v0 v1 v2 v3 v4 v5 v6, Statement (.vxor v0 v1 v2 v3 v4 v5 v6) := fun _ _ _ _ _ _ _ => word _ _ _ _ _ _ (by decide)
theorem vandn : ∀ v0 v1 v2 v3 v4 v5 v6, Statement (.vandn v0 v1 v2 v3 v4 v5 v6) := fun _ _ _ _ _ _ _ => word _ _ _ _ _ _ (by decide)
theorem vorn : ∀ v0 v1 v2 v3 v4 v5 v6, Statement (.vorn v0 v1 v2 v3 v4 v5 v6) := fun _ _ _ _ _ _ _ => word _ _ _ _ _ _ (by decide)
theorem vsll : ∀ v0 v1 v2 v3 v4 v5 v6, Statement (.vsll v0 v1 v2 v3 v4 v5 v6) := fun _ _ _ _ _ _ _ => word _ _ _ _ _ _ (by decide)
theorem vsrl : ∀ v0 v1 v2 v3 v4 v5 v6, Statement (.vsrl v0 v1 v2 v3 v4 v5 v6) := fun _ _ _ _ _ _ _ => word _ _ _ _ _ _ (by decide)
theorem vsra : ∀ v0 v1 v2 v3 v4 v5 v6, Statement (.vsra v0 v1 v2 v3 v4 v5 v6) := fun _ _ _ _ _ _ _ => word _ _ _ _ _ _ (by decide)
theorem vsel : ∀ v0 v1 v2 v3 v4 v5 v6, Statement (.vsel v0 v1 v2 v3 v4 v5 v6) := fun _ _ _ _ _ _ _ => word _ _ _ _ _ _ (by decide)
theorem vclamp : ∀ v0 v1 v2 v3 v4 v5 v6, Statement (.vclamp v0 v1 v2 v3 v4 v5 v6) := fun _ _ _ _ _ _ _ => word _ _ _ _ _ _ (by decide)
theorem vcvt : ∀ v0 v1 v2 v3 v4 v5, Statement (.vcvt v0 v1 v2 v3 v4 v5) := fun _ _ _ _ _ _ => word _ _ _ _ _ _ (by decide)
theorem vcvtsn : ∀ v0 v1 v2 v3 v4 v5, Statement (.vcvtsn v0 v1 v2 v3 v4 v5) := fun _ _ _ _ _ _ => word _ _ _ _ _ _ (by decide)
theorem vcvtsw : ∀ v0 v1 v2 v3 v4 v5 v6, Statement (.vcvtsw v0 v1 v2 v3 v4 v5 v6) := fun _ _ _ _ _ _ _ => word _ _ _ _ _ _ (by decide)
theorem vscale : ∀ v0 v1 v2 v3 v4, Statement (.vscale v0 v1 v2 v3 v4) := fun _ _ _ _ _ => word _ _ _ _ _ _ (by decide)
theorem vredsum : ∀ v0 v1 v2 v3 v4 v5 v6, Statement (.vredsum v0 v1 v2 v3 v4 v5 v6) := fun _ _ _ _ _ _ _ => word _ _ _ _ _ _ (by decide)
theorem vredmax : ∀ v0 v1 v2 v3 v4 v5 v6, Statement (.vredmax v0 v1 v2 v3 v4 v5 v6) := fun _ _ _ _ _ _ _ => word _ _ _ _ _ _ (by decide)
theorem vredmin : ∀ v0 v1 v2 v3 v4 v5 v6, Statement (.vredmin v0 v1 v2 v3 v4 v5 v6) := fun _ _ _ _ _ _ _ => word _ _ _ _ _ _ (by decide)
theorem vcompress : ∀ v0 v1 v2 v3 v4, Statement (.vcompress v0 v1 v2 v3 v4) := fun _ _ _ _ _ => word _ _ _ _ _ _ (by decide)
theorem vexpand : ∀ v0 v1 v2 v3 v4, Statement (.vexpand v0 v1 v2 v3 v4) := fun _ _ _ _ _ => word _ _ _ _ _ _ (by decide)
theorem vconfl : ∀ v0 v1 v2 v3 v4, Statement (.vconfl v0 v1 v2 v3 v4) := fun _ _ _ _ _ => word _ _ _ _ _ _ (by decide)
theorem vslideup : ∀ v0 v1 v2 v3 v4 v5 v6, Statement (.vslideup v0 v1 v2 v3 v4 v5 v6) := fun _ _ _ _ _ _ _ => word _ _ _ _ _ _ (by decide)
theorem vslidedn : ∀ v0 v1 v2 v3 v4 v5 v6, Statement (.vslidedn v0 v1 v2 v3 v4 v5 v6) := fun _ _ _ _ _ _ _ => word _ _ _ _ _ _ (by decide)
theorem vmv : ∀ v0 v1 v2 v3 v4, Statement (.vmv v0 v1 v2 v3 v4) := fun _ _ _ _ _ => word _ _ _ _ _ _ (by decide)
theorem vbcast : ∀ v0 v1 v2, Statement (.vbcast v0 v1 v2) := fun _ _ _ => word _ _ _ _ _ _ (by decide)
theorem vgetx : ∀ v0 v1 v2 v3, Statement (.vgetx v0 v1 v2 v3) := fun _ _ _ _ => word _ _ _ _ _ _ (by decide)
theorem vputx : ∀ v0 v1 v2 v3, Statement (.vputx v0 v1 v2 v3) := fun _ _ _ _ => word _ _ _ _ _ _ (by decide)
theorem kand : ∀ v0 v1 v2, Statement (.kand v0 v1 v2) := fun _ _ _ => word _ _ _ _ _ _ (by decide)
theorem kor : ∀ v0 v1 v2, Statement (.kor v0 v1 v2) := fun _ _ _ => word _ _ _ _ _ _ (by decide)
theorem kxor : ∀ v0 v1 v2, Statement (.kxor v0 v1 v2) := fun _ _ _ => word _ _ _ _ _ _ (by decide)
theorem kandn : ∀ v0 v1 v2, Statement (.kandn v0 v1 v2) := fun _ _ _ => word _ _ _ _ _ _ (by decide)
theorem knot : ∀ v0 v1, Statement (.knot v0 v1) := fun _ _ => word _ _ _ _ _ _ (by decide)
theorem kpop : ∀ v0 v1, Statement (.kpop v0 v1) := fun _ _ => word _ _ _ _ _ _ (by decide)
theorem kfirst : ∀ v0 v1, Statement (.kfirst v0 v1) := fun _ _ => word _ _ _ _ _ _ (by decide)
theorem nawait : ∀ v0 v1 v2, Statement (.nawait v0 v1 v2) := fun _ _ _ => word _ _ _ _ _ _ (by decide)
theorem vidx : ∀ v0 v1 v2 v3, Statement (.vidx v0 v1 v2 v3) := fun _ _ _ _ => word _ _ _ _ _ _ (by decide)
theorem setvl : ∀ v0 v1 v2 v3 v4, Statement (.setvl v0 v1 v2 v3 v4) := fun _ _ _ _ _ => word _ _ _ _ _ _ (by decide)
theorem vdef : ∀ v0 v1 v2, Statement (.vdef v0 v1 v2) := fun _ _ _ => word _ _ _ _ _ _ (by decide)
theorem vdgeta : ∀ v0 v1, Statement (.vdgeta v0 v1) := fun _ _ => word _ _ _ _ _ _ (by decide)
theorem vdgetb : ∀ v0 v1, Statement (.vdgetb v0 v1) := fun _ _ => word _ _ _ _ _ _ (by decide)
theorem mma : ∀ v0 v1 v2 v3 v4, Statement (.mma v0 v1 v2 v3 v4) := fun _ _ _ _ _ => word _ _ _ _ _ _ (by decide)
theorem mmas : ∀ v0 v1 v2 v3 v4, Statement (.mmas v0 v1 v2 v3 v4) := fun _ _ _ _ _ => word _ _ _ _ _ _ (by decide)
theorem mmag : ∀ v0 v1 v2 v3 v4, Statement (.mmag v0 v1 v2 v3 v4) := fun _ _ _ _ _ => word _ _ _ _ _ _ (by decide)
theorem aczero : ∀ v0 v1, Statement (.aczero v0 v1) := fun _ _ => word _ _ _ _ _ _ (by decide)
theorem acrd : ∀ v0 v1 v2, Statement (.acrd v0 v1 v2) := fun _ _ _ => word _ _ _ _ _ _ (by decide)
theorem acwr : ∀ v0 v1 v2, Statement (.acwr v0 v1 v2) := fun _ _ _ => word _ _ _ _ _ _ (by decide)
theorem tilerel : ∀ v0, Statement (.tilerel v0) := fun _ => word _ _ _ _ _ _ (by decide)
theorem tilewait : ∀ v0 v1 v2 v3, Statement (.tilewait v0 v1 v2 v3) := fun _ _ _ _ => word _ _ _ _ _ _ (by decide)
theorem vld : ∀ d a i w, Statement (.vld d a i w) := by
  intro d a i w
  show (packI i a.toNat d.toNat _).toNat % 128 = _
  rw [packI, pack_opcode]; simp only [opcode]; omega
theorem vst : ∀ d a i w, Statement (.vst d a i w) := by
  intro d a i w
  show (packI i a.toNat d.toNat _).toNat % 128 = _
  rw [packI, pack_opcode]; simp only [opcode]; omega
theorem vldm : ∀ v0 v1 v2 v3, Statement (.vldm v0 v1 v2 v3) := fun _ _ _ _ => word _ _ _ _ _ _ (by decide)
theorem vlds : ∀ v0 v1 v2 v3 v4, Statement (.vlds v0 v1 v2 v3 v4) := fun _ _ _ _ _ => word _ _ _ _ _ _ (by decide)
theorem vldi : ∀ v0 v1 v2 v3 v4 v5, Statement (.vldi v0 v1 v2 v3 v4 v5) := fun _ _ _ _ _ _ => word _ _ _ _ _ _ (by decide)
theorem vldiw : ∀ v0 v1 v2 v3 v4 v5, Statement (.vldiw v0 v1 v2 v3 v4 v5) := fun _ _ _ _ _ _ => word _ _ _ _ _ _ (by decide)
theorem vldro : ∀ v0 v1 v2 v3, Statement (.vldro v0 v1 v2 v3) := fun _ _ _ _ => word _ _ _ _ _ _ (by decide)
theorem vstm : ∀ v0 v1 v2 v3, Statement (.vstm v0 v1 v2 v3) := fun _ _ _ _ => word _ _ _ _ _ _ (by decide)
theorem vsts : ∀ v0 v1 v2 v3 v4, Statement (.vsts v0 v1 v2 v3 v4) := fun _ _ _ _ _ => word _ _ _ _ _ _ (by decide)
theorem vsti : ∀ v0 v1 v2 v3 v4 v5, Statement (.vsti v0 v1 v2 v3 v4 v5) := fun _ _ _ _ _ _ => word _ _ _ _ _ _ (by decide)
theorem vstiw : ∀ v0 v1 v2 v3 v4 v5, Statement (.vstiw v0 v1 v2 v3 v4 v5) := fun _ _ _ _ _ _ => word _ _ _ _ _ _ (by decide)
theorem sqopen : ∀ v0 v1 v2 v3, Statement (.sqopen v0 v1 v2 v3) := fun _ _ _ _ => word _ _ _ _ _ _ (by decide)
theorem sqclose : ∀ v0 v1, Statement (.sqclose v0 v1) := fun _ _ => word _ _ _ _ _ _ (by decide)
theorem sqpop : ∀ v0 v1 v2 v3 v4, Statement (.sqpop v0 v1 v2 v3 v4) := fun _ _ _ _ _ => word _ _ _ _ _ _ (by decide)
theorem vldz : ∀ v0 v1 v2 v3, Statement (.vldz v0 v1 v2 v3) := fun _ _ _ _ => word _ _ _ _ _ _ (by decide)
theorem tfetch : ∀ v0 v1 v2 v3, Statement (.tfetch v0 v1 v2 v3) := fun _ _ _ _ => word _ _ _ _ _ _ (by decide)
theorem acopy : ∀ v0 v1 v2 v3, Statement (.acopy v0 v1 v2 v3) := fun _ _ _ _ => word _ _ _ _ _ _ (by decide)
theorem tdrain : ∀ v0 v1 v2 v3, Statement (.tdrain v0 v1 v2 v3) := fun _ _ _ _ => word _ _ _ _ _ _ (by decide)
theorem bankopSplit : ∀ v0 v1 v2 v3, Statement (.bankopSplit v0 v1 v2 v3) := fun _ _ _ _ => word _ _ _ _ _ _ (by decide)
theorem bankopJoin : ∀ v0 v1 v2 v3, Statement (.bankopJoin v0 v1 v2 v3) := fun _ _ _ _ => word _ _ _ _ _ _ (by decide)
theorem bankopXp8 : ∀ v0 v1 v2 v3, Statement (.bankopXp8 v0 v1 v2 v3) := fun _ _ _ _ => word _ _ _ _ _ _ (by decide)
theorem bankopXp16 : ∀ v0 v1 v2 v3, Statement (.bankopXp16 v0 v1 v2 v3) := fun _ _ _ _ => word _ _ _ _ _ _ (by decide)
theorem bankopDenc : ∀ v0 v1 v2 v3, Statement (.bankopDenc v0 v1 v2 v3) := fun _ _ _ _ => word _ _ _ _ _ _ (by decide)
theorem bankopDdec : ∀ v0 v1 v2 v3, Statement (.bankopDdec v0 v1 v2 v3) := fun _ _ _ _ => word _ _ _ _ _ _ (by decide)
theorem bankopZsum : ∀ v0 v1 v2 v3, Statement (.bankopZsum v0 v1 v2 v3) := fun _ _ _ _ => word _ _ _ _ _ _ (by decide)
theorem fread : ∀ v0 v1 v2 v3, Statement (.fread v0 v1 v2 v3) := fun _ _ _ _ => word _ _ _ _ _ _ (by decide)
theorem aadd : ∀ v0 v1 v2 v3 v4 v5, Statement (.aadd v0 v1 v2 v3 v4 v5) := fun _ _ _ _ _ _ => word _ _ _ _ _ _ (by decide)
theorem aand : ∀ v0 v1 v2 v3 v4 v5, Statement (.aand v0 v1 v2 v3 v4 v5) := fun _ _ _ _ _ _ => word _ _ _ _ _ _ (by decide)
theorem aor : ∀ v0 v1 v2 v3 v4 v5, Statement (.aor v0 v1 v2 v3 v4 v5) := fun _ _ _ _ _ _ => word _ _ _ _ _ _ (by decide)
theorem axor : ∀ v0 v1 v2 v3 v4 v5, Statement (.axor v0 v1 v2 v3 v4 v5) := fun _ _ _ _ _ _ => word _ _ _ _ _ _ (by decide)
theorem amin : ∀ v0 v1 v2 v3 v4 v5, Statement (.amin v0 v1 v2 v3 v4 v5) := fun _ _ _ _ _ _ => word _ _ _ _ _ _ (by decide)
theorem amax : ∀ v0 v1 v2 v3 v4 v5, Statement (.amax v0 v1 v2 v3 v4 v5) := fun _ _ _ _ _ _ => word _ _ _ _ _ _ (by decide)
theorem aminu : ∀ v0 v1 v2 v3 v4 v5, Statement (.aminu v0 v1 v2 v3 v4 v5) := fun _ _ _ _ _ _ => word _ _ _ _ _ _ (by decide)
theorem amaxu : ∀ v0 v1 v2 v3 v4 v5, Statement (.amaxu v0 v1 v2 v3 v4 v5) := fun _ _ _ _ _ _ => word _ _ _ _ _ _ (by decide)
theorem aswap : ∀ v0 v1 v2 v3 v4 v5, Statement (.aswap v0 v1 v2 v3 v4 v5) := fun _ _ _ _ _ _ => word _ _ _ _ _ _ (by decide)
theorem acas : ∀ v0 v1 v2 v3 v4 v5, Statement (.acas v0 v1 v2 v3 v4 v5) := fun _ _ _ _ _ _ => word _ _ _ _ _ _ (by decide)
theorem vgl : ∀ v0 v1 v2 v3 v4 v5, Statement (.vgl v0 v1 v2 v3 v4 v5) := fun _ _ _ _ _ _ => word _ _ _ _ _ _ (by decide)
theorem vglw : ∀ v0 v1 v2 v3 v4 v5, Statement (.vglw v0 v1 v2 v3 v4 v5) := fun _ _ _ _ _ _ => word _ _ _ _ _ _ (by decide)
theorem vsc : ∀ v0 v1 v2 v3 v4 v5, Statement (.vsc v0 v1 v2 v3 v4 v5) := fun _ _ _ _ _ _ => word _ _ _ _ _ _ (by decide)
theorem vscw : ∀ v0 v1 v2 v3 v4 v5, Statement (.vscw v0 v1 v2 v3 v4 v5) := fun _ _ _ _ _ _ => word _ _ _ _ _ _ (by decide)
theorem vscadd : ∀ v0 v1 v2 v3 v4 v5, Statement (.vscadd v0 v1 v2 v3 v4 v5) := fun _ _ _ _ _ _ => word _ _ _ _ _ _ (by decide)
theorem fence : ∀ v0 v1 v2 v3, Statement (.fence v0 v1 v2 v3) := fun _ _ _ _ => word _ _ _ _ _ _ (by decide)
theorem bar : ∀ v0 v1 v2 v3, Statement (.bar v0 v1 v2 v3) := fun _ _ _ _ => word _ _ _ _ _ _ (by decide)
theorem waita : ∀ v0 v1 v2 v3, Statement (.waita v0 v1 v2 v3) := fun _ _ _ _ => word _ _ _ _ _ _ (by decide)
theorem vwaita : ∀ v0 v1 v2 v3, Statement (.vwaita v0 v1 v2 v3) := fun _ _ _ _ => word _ _ _ _ _ _ (by decide)
theorem phend : ∀ v0 v1 v2, Statement (.phend v0 v1 v2) := fun _ _ _ => word _ _ _ _ _ _ (by decide)
theorem twaitTake : ∀ v0 v1, Statement (.twaitTake v0 v1) := fun _ _ => word _ _ _ _ _ _ (by decide)
theorem twait : ∀ v0 v1 v2, Statement (.twait v0 v1 v2) := fun _ _ _ => word _ _ _ _ _ _ (by decide)
theorem mgwait : ∀ v0 v1 v2, Statement (.mgwait v0 v1 v2) := fun _ _ _ => word _ _ _ _ _ _ (by decide)
theorem qsend : ∀ v0 v1 v2 v3, Statement (.qsend v0 v1 v2 v3) := fun _ _ _ _ => word _ _ _ _ _ _ (by decide)
theorem qrecv : ∀ v0 v1 v2 v3, Statement (.qrecv v0 v1 v2 v3) := fun _ _ _ _ => word _ _ _ _ _ _ (by decide)
theorem lsync : Statement .lsync := word _ _ _ _ _ _ (by decide)
theorem roinv : Statement .roinv := word _ _ _ _ _ _ (by decide)
theorem cmread : ∀ v0 v1, Statement (.cmread v0 v1) := fun _ _ => word _ _ _ _ _ _ (by decide)
theorem tsub : ∀ v0 v1 v2 v3, Statement (.tsub v0 v1 v2 v3) := fun _ _ _ _ => word _ _ _ _ _ _ (by decide)
theorem tchk : ∀ v0, Statement (.tchk v0) := fun _ => word _ _ _ _ _ _ (by decide)
theorem tdone : ∀ v0, Statement (.tdone v0) := fun _ => word _ _ _ _ _ _ (by decide)
theorem mgopen : ∀ v0 v1, Statement (.mgopen v0 v1) := fun _ _ => word _ _ _ _ _ _ (by decide)
theorem mgclose : ∀ v0, Statement (.mgclose v0) := fun _ => word _ _ _ _ _ _ (by decide)
theorem mgdrain : ∀ v0, Statement (.mgdrain v0) := fun _ => word _ _ _ _ _ _ (by decide)
theorem mgpush : ∀ v0 v1 v2 v3 v4 v5, Statement (.mgpush v0 v1 v2 v3 v4 v5) := fun _ _ _ _ _ _ => word _ _ _ _ _ _ (by decide)
theorem fgather : ∀ v0 v1 v2 v3, Statement (.fgather v0 v1 v2 v3) := fun _ _ _ _ => word _ _ _ _ _ _ (by decide)
theorem freduce : ∀ v0 v1 v2 v3, Statement (.freduce v0 v1 v2 v3) := fun _ _ _ _ => word _ _ _ _ _ _ (by decide)
theorem fflag : ∀ v0 v1 v2 v3, Statement (.fflag v0 v1 v2 v3) := fun _ _ _ _ => word _ _ _ _ _ _ (by decide)
theorem fcoll : ∀ v0 v1, Statement (.fcoll v0 v1) := fun _ _ => word _ _ _ _ _ _ (by decide)
theorem brk : ∀ v0, Statement (.brk v0) := fun _ => word _ _ _ _ _ _ (by decide)
theorem trec : ∀ v0 v1, Statement (.trec v0 v1) := fun _ _ => word _ _ _ _ _ _ (by decide)
theorem dget : ∀ v0 v1, Statement (.dget v0 v1) := fun _ _ => word _ _ _ _ _ _ (by decide)
theorem illegalWord : ∀ v0, Statement (.illegalWord v0) := fun _ => rfl
theorem entryIssue : ∀ v0, Statement (.entryIssue v0) := fun _ => rfl
theorem laneGroupStart : ∀ v0 v1, Statement (.laneGroupStart v0 v1) := fun _ _ => rfl
theorem entryComplete : ∀ v0, Statement (.entryComplete v0) := fun _ => rfl
theorem trapEntry : ∀ v0, Statement (.trapEntry v0) := fun _ => rfl
theorem asyncStop : ∀ v0, Statement (.asyncStop v0) := fun _ => rfl
theorem waitWake : ∀ v0, Statement (.waitWake v0) := fun _ => rfl
theorem waitDeadlineExpiry : ∀ v0, Statement (.waitDeadlineExpiry v0) := fun _ => rfl
theorem streamEntryFetched : ∀ v0 v1, Statement (.streamEntryFetched v0 v1) := fun _ _ => rfl
theorem tileFillComplete : ∀ v0, Statement (.tileFillComplete v0) := fun _ => rfl
theorem tileFillFault : ∀ v0, Statement (.tileFillFault v0) := fun _ => rfl
theorem tileDrainComplete : ∀ v0, Statement (.tileDrainComplete v0) := fun _ => rfl
theorem tileDrainFault : ∀ v0, Statement (.tileDrainFault v0) := fun _ => rfl
theorem acopyComplete : ∀ v0, Statement (.acopyComplete v0) := fun _ => rfl
theorem bankopLineOperation : ∀ v0 v1, Statement (.bankopLineOperation v0 v1) := fun _ _ => rfl
theorem bankopComplete : ∀ v0, Statement (.bankopComplete v0) := fun _ => rfl
theorem freadComplete : ∀ v0 v1 v2, Statement (.freadComplete v0 v1 v2) := fun _ _ _ => rfl
theorem nvmeCompletion : ∀ v0 v1, Statement (.nvmeCompletion v0 v1) := fun _ _ => rfl
theorem scatterAddPerform : ∀ v0, Statement (.scatterAddPerform v0) := fun _ => rfl
theorem mergePassEnd : ∀ v0, Statement (.mergePassEnd v0) := fun _ => rfl
theorem mergeDrainComplete : ∀ v0, Statement (.mergeDrainComplete v0) := fun _ => rfl
theorem l2WriteBack : ∀ v0 v1 v2, Statement (.l2WriteBack v0 v1 v2) := fun _ _ _ => rfl
theorem mscEviction : ∀ v0, Statement (.mscEviction v0) := fun _ => rfl
theorem wideMarkExpire : ∀ v0, Statement (.wideMarkExpire v0) := fun _ => rfl
theorem taskSummaryRetest : ∀ v0, Statement (.taskSummaryRetest v0) := fun _ => rfl
theorem doorbellWrite : ∀ v0 v1, Statement (.doorbellWrite v0 v1) := fun _ _ => rfl
theorem startRecordTake : ∀ v0, Statement (.startRecordTake v0) := fun _ => rfl
theorem launchGrant : ∀ v0 v1, Statement (.launchGrant v0 v1) := fun _ _ => rfl
theorem recordAged : ∀ v0, Statement (.recordAged v0) := fun _ => rfl
theorem kernelEnd : ∀ v0, Statement (.kernelEnd v0) := fun _ => rfl
theorem cxlMemRead : ∀ v0, Statement (.cxlMemRead v0) := fun _ => rfl
theorem cxlMemWrite : ∀ v0 v1, Statement (.cxlMemWrite v0 v1) := fun _ _ => rfl
theorem migrate : Statement .migrate := rfl
theorem migrateCopyDone : Statement .migrateCopyDone := rfl
theorem shoot : Statement .shoot := rfl
theorem shootDrained : Statement .shootDrained := rfl
theorem fabricFlitReplay : ∀ v0 v1, Statement (.fabricFlitReplay v0 v1) := fun _ _ => rfl
theorem fabricLinkDown : ∀ v0, Statement (.fabricLinkDown v0) := fun _ => rfl
theorem fabricWritePacket : ∀ v0, Statement (.fabricWritePacket v0) := fun _ => rfl
theorem fabricReadRequest : ∀ v0 v1 v2 v3 v4, Statement (.fabricReadRequest v0 v1 v2 v3 v4) := fun _ _ _ _ _ => rfl
theorem fabricFlagApply : ∀ v0 v1 v2 v3 v4 v5, Statement (.fabricFlagApply v0 v1 v2 v3 v4 v5) := fun _ _ _ _ _ _ => rfl
theorem fgatherComplete : ∀ v0 v1 v2, Statement (.fgatherComplete v0 v1 v2) := fun _ _ _ => rfl
theorem freduceComplete : ∀ v0 v1, Statement (.freduceComplete v0 v1) := fun _ _ => rfl
theorem fcollComplete : ∀ v0, Statement (.fcollComplete v0) := fun _ => rfl
theorem haltNotice : ∀ v0 v1, Statement (.haltNotice v0 v1) := fun _ _ => rfl
theorem releaseNotice : ∀ v0, Statement (.releaseNotice v0) := fun _ => rfl
theorem debugHaltRequest : ∀ v0, Statement (.debugHaltRequest v0) := fun _ => rfl
theorem debugReleaseRequest : ∀ v0, Statement (.debugReleaseRequest v0) := fun _ => rfl
theorem debugStepRequest : ∀ v0, Statement (.debugStepRequest v0) := fun _ => rfl
theorem haltArrival : ∀ v0, Statement (.haltArrival v0) := fun _ => rfl
theorem stepReport : ∀ v0, Statement (.stepReport v0) := fun _ => rfl
theorem debugInject : ∀ v0 v1, Statement (.debugInject v0 v1) := fun _ _ => rfl
theorem stopUnitFire : ∀ v0 v1, Statement (.stopUnitFire v0 v1) := fun _ _ => rfl
theorem triggerTick : Statement .triggerTick := rfl
theorem ridgepoleGrantTick : ∀ v0 v1, Statement (.ridgepoleGrantTick v0 v1) := fun _ _ => rfl
theorem powerOnStart : ∀ v0 v1 v2 v3, Statement (.powerOnStart v0 v1 v2 v3) := fun _ _ _ _ => rfl
theorem keyctlOpen : ∀ v0, Statement (.keyctlOpen v0) := fun _ => rfl
theorem keyctlClose : ∀ v0, Statement (.keyctlClose v0) := fun _ => rfl
theorem mergeAssignWrite : ∀ v0 v1, Statement (.mergeAssignWrite v0 v1) := fun _ _ => rfl
theorem hostQueueCtlWrite : ∀ v0 v1 v2 v3, Statement (.hostQueueCtlWrite v0 v1 v2 v3) := fun _ _ _ _ => rfl
theorem preemptRequestPost : ∀ v0 v1, Statement (.preemptRequestPost v0 v1) := fun _ _ => rfl
theorem engineRecordDiscard : ∀ v0 v1, Statement (.engineRecordDiscard v0 v1) := fun _ _ => rfl
theorem satpWrite : ∀ v0 v1 v2, Statement (.satpWrite v0 v1 v2) := fun _ _ _ => rfl
theorem badgerEnable : ∀ v0 v1, Statement (.badgerEnable v0 v1) := fun _ _ => rfl
theorem registerWrite : ∀ v0 v1 v2, Statement (.registerWrite v0 v1 v2) := fun _ _ _ => rfl
theorem hostAtomic : ∀ v0 v1 v2 v3, Statement (.hostAtomic v0 v1 v2 v3) := fun _ _ _ _ => rfl
theorem fabricAcknowledgement : ∀ v0 v1 v2, Statement (.fabricAcknowledgement v0 v1 v2) := fun _ _ _ => rfl
theorem attestationReportRequest : ∀ v0, Statement (.attestationReportRequest v0) := fun _ => rfl
theorem powerLoss : Statement .powerLoss := rfl
theorem loadDataArrival : ∀ v0, Statement (.loadDataArrival v0) := fun _ => rfl

end MajorOpcode
end Laws
end Sys2Proof
end

