-- ==== Sys2Proof/Laws/State.lean ====
section
/-! SUPPORT. What each update of the state changes and what it leaves, one field at a time. -/
namespace Sys2Proof.Machine

/-! ### Units -/

theorem State.hart_setHart (s : State) (h g : Nat) (v : Hart) : (s.setHart h v).hart g = if g = h then v else s.hart g :=
  FMap.get_put _ _ _ _ _
theorem State.core_setCore (s : State) (c d : Nat) (v : Core) : (s.setCore c v).core d = if d = c then v else s.core d :=
  FMap.get_put _ _ _ _ _
theorem State.camp_setCamp (s : State) (p q : Nat) (v : Camp) : (s.setCamp p v).camp q = if q = p then v else s.camp q :=
  FMap.get_put _ _ _ _ _
theorem State.queue_setQueue (s : State) (p q : Nat) (v : HostQueue) : (s.setQueue p v).queue q = if q = p then v else s.queue q :=
  FMap.get_put _ _ _ _ _
theorem State.context_setContext (s : State) (p q : Nat) (v : Context) :
    (s.setContext p v).context q = if q = p then v else s.context q :=
  FMap.get_put _ _ _ _ _
theorem State.hart_modHart (s : State) (h g : Nat) (f : Hart → Hart) :
    (s.modHart h f).hart g = if g = h then f (s.hart h) else s.hart g := State.hart_setHart _ _ _ _
theorem State.core_modCore (s : State) (c d : Nat) (f : Core → Core) :
    (s.modCore c f).core d = if d = c then f (s.core c) else s.core d := State.core_setCore _ _ _ _
@[simp] theorem State.hart_setHart_same (s : State) (h : Nat) (v : Hart) : (s.setHart h v).hart h = v := by simp [State.hart_setHart]
@[simp] theorem State.core_setCore_same (s : State) (c : Nat) (v : Core) : (s.setCore c v).core c = v := by simp [State.core_setCore]
@[simp] theorem State.hart_modHart_same (s : State) (h : Nat) (f : Hart → Hart) : (s.modHart h f).hart h = f (s.hart h) := by
  simp [State.hart_modHart]
@[simp] theorem State.core_modCore_same (s : State) (c : Nat) (f : Core → Core) : (s.modCore c f).core c = f (s.core c) := by
  simp [State.core_modCore]
theorem State.hart_modHart_ne (s : State) {h g : Nat} (f : Hart → Hart) (n : g ≠ h) : (s.modHart h f).hart g = s.hart g := by
  simp [State.hart_modHart, n]
theorem State.core_modCore_ne (s : State) {c d : Nat} (f : Core → Core) (n : d ≠ c) : (s.modCore c f).core d = s.core d := by
  simp [State.core_modCore, n]

/-! ### `setHart` -/

@[simp] theorem State.setHart_agenda (s : State) (h : Nat) (v : Hart) : (s.setHart h v).agenda = s.agenda := rfl
@[simp] theorem State.setHart_cur (s : State) (h : Nat) (v : Hart) : (s.setHart h v).cur = s.cur := rfl
@[simp] theorem State.setHart_stepNs (s : State) (h : Nat) (v : Hart) : (s.setHart h v).stepNs = s.stepNs := rfl
@[simp] theorem State.setHart_defer (s : State) (h : Nat) (v : Hart) : (s.setHart h v).defer = s.defer := rfl
@[simp] theorem State.setHart_slow (s : State) (h : Nat) (v : Hart) : (s.setHart h v).slow = s.slow := rfl
@[simp] theorem State.setHart_inject (s : State) (h : Nat) (v : Hart) : (s.setHart h v).inject = s.inject := rfl
@[simp] theorem State.setHart_retests (s : State) (h : Nat) (v : Hart) : (s.setHart h v).retests = s.retests := rfl
@[simp] theorem State.setHart_power (s : State) (h : Nat) (v : Hart) : (s.setHart h v).power = s.power := rfl
@[simp] theorem State.setHart_dtime (s : State) (h : Nat) (v : Hart) : (s.setHart h v).dtime = s.dtime := rfl
@[simp] theorem State.setHart_mem (s : State) (h : Nat) (v : Hart) : (s.setHart h v).mem = s.mem := rfl
@[simp] theorem State.setHart_tags (s : State) (h : Nat) (v : Hart) : (s.setHart h v).tags = s.tags := rfl
@[simp] theorem State.setHart_bad (s : State) (h : Nat) (v : Hart) : (s.setHart h v).bad = s.bad := rfl
@[simp] theorem State.setHart_badLocal (s : State) (h : Nat) (v : Hart) : (s.setHart h v).badLocal = s.badLocal := rfl
@[simp] theorem State.setHart_mscDirty (s : State) (h : Nat) (v : Hart) : (s.setHart h v).mscDirty = s.mscDirty := rfl
@[simp] theorem State.setHart_marks (s : State) (h : Nat) (v : Hart) : (s.setHart h v).marks = s.marks := rfl
@[simp] theorem State.setHart_keys (s : State) (h : Nat) (v : Hart) : (s.setHart h v).keys = s.keys := rfl
@[simp] theorem State.setHart_sectorKeys (s : State) (h : Nat) (v : Hart) : (s.setHart h v).sectorKeys = s.sectorKeys := rfl
@[simp] theorem State.setHart_frameKeys (s : State) (h : Nat) (v : Hart) : (s.setHart h v).frameKeys = s.frameKeys := rfl
@[simp] theorem State.setHart_hdm (s : State) (h : Nat) (v : Hart) : (s.setHart h v).hdm = s.hdm := rfl
@[simp] theorem State.setHart_cores (s : State) (h : Nat) (v : Hart) : (s.setHart h v).cores = s.cores := rfl
@[simp] theorem State.setHart_core (s : State) (h j : Nat) (v : Hart) : (s.setHart h v).core j = s.core j := rfl
@[simp] theorem State.setHart_camps (s : State) (h : Nat) (v : Hart) : (s.setHart h v).camps = s.camps := rfl
@[simp] theorem State.setHart_camp (s : State) (h j : Nat) (v : Hart) : (s.setHart h v).camp j = s.camp j := rfl
@[simp] theorem State.setHart_health (s : State) (h : Nat) (v : Hart) : (s.setHart h v).health = s.health := rfl
@[simp] theorem State.setHart_tick (s : State) (h : Nat) (v : Hart) : (s.setHart h v).tick = s.tick := rfl
@[simp] theorem State.setHart_heldCamps (s : State) (h : Nat) (v : Hart) : (s.setHart h v).heldCamps = s.heldCamps := rfl
@[simp] theorem State.setHart_heldBefore (s : State) (h : Nat) (v : Hart) : (s.setHart h v).heldBefore = s.heldBefore := rfl
@[simp] theorem State.setHart_errHead (s : State) (h : Nat) (v : Hart) : (s.setHart h v).errHead = s.errHead := rfl
@[simp] theorem State.setHart_errRing (s : State) (h : Nat) (v : Hart) : (s.setHart h v).errRing = s.errRing := rfl
@[simp] theorem State.setHart_startA (s : State) (h : Nat) (v : Hart) : (s.setHart h v).startA = s.startA := rfl
@[simp] theorem State.setHart_startB (s : State) (h : Nat) (v : Hart) : (s.setHart h v).startB = s.startB := rfl
@[simp] theorem State.setHart_recordB (s : State) (h : Nat) (v : Hart) : (s.setHart h v).recordB = s.recordB := rfl
@[simp] theorem State.setHart_attest (s : State) (h : Nat) (v : Hart) : (s.setHart h v).attest = s.attest := rfl
@[simp] theorem State.setHart_ringBase (s : State) (h : Nat) (v : Hart) : (s.setHart h v).ringBase = s.ringBase := rfl
@[simp] theorem State.setHart_ringLcap (s : State) (h : Nat) (v : Hart) : (s.setHart h v).ringLcap = s.ringLcap := rfl
@[simp] theorem State.setHart_ringHead (s : State) (h : Nat) (v : Hart) : (s.setHart h v).ringHead = s.ringHead := rfl
@[simp] theorem State.setHart_ringTail (s : State) (h : Nat) (v : Hart) : (s.setHart h v).ringTail = s.ringTail := rfl
@[simp] theorem State.setHart_xreqs (s : State) (h : Nat) (v : Hart) : (s.setHart h v).xreqs = s.xreqs := rfl
@[simp] theorem State.setHart_queues (s : State) (h : Nat) (v : Hart) : (s.setHart h v).queues = s.queues := rfl
@[simp] theorem State.setHart_queue (s : State) (h j : Nat) (v : Hart) : (s.setHart h v).queue j = s.queue j := rfl
@[simp] theorem State.setHart_contexts (s : State) (h : Nat) (v : Hart) : (s.setHart h v).contexts = s.contexts := rfl
@[simp] theorem State.setHart_context (s : State) (h j : Nat) (v : Hart) : (s.setHart h v).context j = s.context j := rfl
@[simp] theorem State.setHart_kernels (s : State) (h : Nat) (v : Hart) : (s.setHart h v).kernels = s.kernels := rfl
@[simp] theorem State.setHart_nextKernel (s : State) (h : Nat) (v : Hart) : (s.setHart h v).nextKernel = s.nextKernel := rfl
@[simp] theorem State.setHart_nextTask (s : State) (h : Nat) (v : Hart) : (s.setHart h v).nextTask = s.nextTask := rfl
@[simp] theorem State.setHart_nextOp (s : State) (h : Nat) (v : Hart) : (s.setHart h v).nextOp = s.nextOp := rfl
@[simp] theorem State.setHart_arrivals (s : State) (h : Nat) (v : Hart) : (s.setHart h v).arrivals = s.arrivals := rfl
@[simp] theorem State.setHart_ops (s : State) (h : Nat) (v : Hart) : (s.setHart h v).ops = s.ops := rfl
@[simp] theorem State.setHart_staging (s : State) (h : Nat) (v : Hart) : (s.setHart h v).staging = s.staging := rfl
@[simp] theorem State.setHart_nvme (s : State) (h : Nat) (v : Hart) : (s.setHart h v).nvme = s.nvme := rfl
@[simp] theorem State.setHart_dreq (s : State) (h : Nat) (v : Hart) : (s.setHart h v).dreq = s.dreq := rfl
@[simp] theorem State.setHart_halts (s : State) (h : Nat) (v : Hart) : (s.setHart h v).halts = s.halts := rfl
@[simp] theorem State.setHart_triggers (s : State) (h : Nat) (v : Hart) : (s.setHart h v).triggers = s.triggers := rfl
@[simp] theorem State.setHart_trigEvents (s : State) (h : Nat) (v : Hart) : (s.setHart h v).trigEvents = s.trigEvents := rfl
@[simp] theorem State.setHart_ticked (s : State) (h : Nat) (v : Hart) : (s.setHart h v).ticked = s.ticked := rfl
@[simp] theorem State.setHart_spoorQueue (s : State) (h : Nat) (v : Hart) : (s.setHart h v).spoorQueue = s.spoorQueue := rfl
@[simp] theorem State.setHart_fabric (s : State) (h : Nat) (v : Hart) : (s.setHart h v).fabric = s.fabric := rfl
@[simp] theorem State.setHart_fuses (s : State) (h : Nat) (v : Hart) : (s.setHart h v).fuses = s.fuses := rfl
@[simp] theorem State.setHart_hostReply (s : State) (h : Nat) (v : Hart) : (s.setHart h v).hostReply = s.hostReply := rfl

/-! ### `setCore` -/

@[simp] theorem State.setCore_agenda (s : State) (c : Nat) (v : Core) : (s.setCore c v).agenda = s.agenda := rfl
@[simp] theorem State.setCore_cur (s : State) (c : Nat) (v : Core) : (s.setCore c v).cur = s.cur := rfl
@[simp] theorem State.setCore_stepNs (s : State) (c : Nat) (v : Core) : (s.setCore c v).stepNs = s.stepNs := rfl
@[simp] theorem State.setCore_defer (s : State) (c : Nat) (v : Core) : (s.setCore c v).defer = s.defer := rfl
@[simp] theorem State.setCore_slow (s : State) (c : Nat) (v : Core) : (s.setCore c v).slow = s.slow := rfl
@[simp] theorem State.setCore_inject (s : State) (c : Nat) (v : Core) : (s.setCore c v).inject = s.inject := rfl
@[simp] theorem State.setCore_retests (s : State) (c : Nat) (v : Core) : (s.setCore c v).retests = s.retests := rfl
@[simp] theorem State.setCore_power (s : State) (c : Nat) (v : Core) : (s.setCore c v).power = s.power := rfl
@[simp] theorem State.setCore_dtime (s : State) (c : Nat) (v : Core) : (s.setCore c v).dtime = s.dtime := rfl
@[simp] theorem State.setCore_mem (s : State) (c : Nat) (v : Core) : (s.setCore c v).mem = s.mem := rfl
@[simp] theorem State.setCore_tags (s : State) (c : Nat) (v : Core) : (s.setCore c v).tags = s.tags := rfl
@[simp] theorem State.setCore_bad (s : State) (c : Nat) (v : Core) : (s.setCore c v).bad = s.bad := rfl
@[simp] theorem State.setCore_badLocal (s : State) (c : Nat) (v : Core) : (s.setCore c v).badLocal = s.badLocal := rfl
@[simp] theorem State.setCore_mscDirty (s : State) (c : Nat) (v : Core) : (s.setCore c v).mscDirty = s.mscDirty := rfl
@[simp] theorem State.setCore_marks (s : State) (c : Nat) (v : Core) : (s.setCore c v).marks = s.marks := rfl
@[simp] theorem State.setCore_keys (s : State) (c : Nat) (v : Core) : (s.setCore c v).keys = s.keys := rfl
@[simp] theorem State.setCore_sectorKeys (s : State) (c : Nat) (v : Core) : (s.setCore c v).sectorKeys = s.sectorKeys := rfl
@[simp] theorem State.setCore_frameKeys (s : State) (c : Nat) (v : Core) : (s.setCore c v).frameKeys = s.frameKeys := rfl
@[simp] theorem State.setCore_hdm (s : State) (c : Nat) (v : Core) : (s.setCore c v).hdm = s.hdm := rfl
@[simp] theorem State.setCore_harts (s : State) (c : Nat) (v : Core) : (s.setCore c v).harts = s.harts := rfl
@[simp] theorem State.setCore_hart (s : State) (c j : Nat) (v : Core) : (s.setCore c v).hart j = s.hart j := rfl
@[simp] theorem State.setCore_camps (s : State) (c : Nat) (v : Core) : (s.setCore c v).camps = s.camps := rfl
@[simp] theorem State.setCore_camp (s : State) (c j : Nat) (v : Core) : (s.setCore c v).camp j = s.camp j := rfl
@[simp] theorem State.setCore_health (s : State) (c : Nat) (v : Core) : (s.setCore c v).health = s.health := rfl
@[simp] theorem State.setCore_tick (s : State) (c : Nat) (v : Core) : (s.setCore c v).tick = s.tick := rfl
@[simp] theorem State.setCore_heldCamps (s : State) (c : Nat) (v : Core) : (s.setCore c v).heldCamps = s.heldCamps := rfl
@[simp] theorem State.setCore_heldBefore (s : State) (c : Nat) (v : Core) : (s.setCore c v).heldBefore = s.heldBefore := rfl
@[simp] theorem State.setCore_errHead (s : State) (c : Nat) (v : Core) : (s.setCore c v).errHead = s.errHead := rfl
@[simp] theorem State.setCore_errRing (s : State) (c : Nat) (v : Core) : (s.setCore c v).errRing = s.errRing := rfl
@[simp] theorem State.setCore_startA (s : State) (c : Nat) (v : Core) : (s.setCore c v).startA = s.startA := rfl
@[simp] theorem State.setCore_startB (s : State) (c : Nat) (v : Core) : (s.setCore c v).startB = s.startB := rfl
@[simp] theorem State.setCore_recordB (s : State) (c : Nat) (v : Core) : (s.setCore c v).recordB = s.recordB := rfl
@[simp] theorem State.setCore_attest (s : State) (c : Nat) (v : Core) : (s.setCore c v).attest = s.attest := rfl
@[simp] theorem State.setCore_ringBase (s : State) (c : Nat) (v : Core) : (s.setCore c v).ringBase = s.ringBase := rfl
@[simp] theorem State.setCore_ringLcap (s : State) (c : Nat) (v : Core) : (s.setCore c v).ringLcap = s.ringLcap := rfl
@[simp] theorem State.setCore_ringHead (s : State) (c : Nat) (v : Core) : (s.setCore c v).ringHead = s.ringHead := rfl
@[simp] theorem State.setCore_ringTail (s : State) (c : Nat) (v : Core) : (s.setCore c v).ringTail = s.ringTail := rfl
@[simp] theorem State.setCore_xreqs (s : State) (c : Nat) (v : Core) : (s.setCore c v).xreqs = s.xreqs := rfl
@[simp] theorem State.setCore_queues (s : State) (c : Nat) (v : Core) : (s.setCore c v).queues = s.queues := rfl
@[simp] theorem State.setCore_queue (s : State) (c j : Nat) (v : Core) : (s.setCore c v).queue j = s.queue j := rfl
@[simp] theorem State.setCore_contexts (s : State) (c : Nat) (v : Core) : (s.setCore c v).contexts = s.contexts := rfl
@[simp] theorem State.setCore_context (s : State) (c j : Nat) (v : Core) : (s.setCore c v).context j = s.context j := rfl
@[simp] theorem State.setCore_kernels (s : State) (c : Nat) (v : Core) : (s.setCore c v).kernels = s.kernels := rfl
@[simp] theorem State.setCore_nextKernel (s : State) (c : Nat) (v : Core) : (s.setCore c v).nextKernel = s.nextKernel := rfl
@[simp] theorem State.setCore_nextTask (s : State) (c : Nat) (v : Core) : (s.setCore c v).nextTask = s.nextTask := rfl
@[simp] theorem State.setCore_nextOp (s : State) (c : Nat) (v : Core) : (s.setCore c v).nextOp = s.nextOp := rfl
@[simp] theorem State.setCore_arrivals (s : State) (c : Nat) (v : Core) : (s.setCore c v).arrivals = s.arrivals := rfl
@[simp] theorem State.setCore_ops (s : State) (c : Nat) (v : Core) : (s.setCore c v).ops = s.ops := rfl
@[simp] theorem State.setCore_staging (s : State) (c : Nat) (v : Core) : (s.setCore c v).staging = s.staging := rfl
@[simp] theorem State.setCore_nvme (s : State) (c : Nat) (v : Core) : (s.setCore c v).nvme = s.nvme := rfl
@[simp] theorem State.setCore_dreq (s : State) (c : Nat) (v : Core) : (s.setCore c v).dreq = s.dreq := rfl
@[simp] theorem State.setCore_halts (s : State) (c : Nat) (v : Core) : (s.setCore c v).halts = s.halts := rfl
@[simp] theorem State.setCore_triggers (s : State) (c : Nat) (v : Core) : (s.setCore c v).triggers = s.triggers := rfl
@[simp] theorem State.setCore_trigEvents (s : State) (c : Nat) (v : Core) : (s.setCore c v).trigEvents = s.trigEvents := rfl
@[simp] theorem State.setCore_ticked (s : State) (c : Nat) (v : Core) : (s.setCore c v).ticked = s.ticked := rfl
@[simp] theorem State.setCore_spoorQueue (s : State) (c : Nat) (v : Core) : (s.setCore c v).spoorQueue = s.spoorQueue := rfl
@[simp] theorem State.setCore_fabric (s : State) (c : Nat) (v : Core) : (s.setCore c v).fabric = s.fabric := rfl
@[simp] theorem State.setCore_fuses (s : State) (c : Nat) (v : Core) : (s.setCore c v).fuses = s.fuses := rfl
@[simp] theorem State.setCore_hostReply (s : State) (c : Nat) (v : Core) : (s.setCore c v).hostReply = s.hostReply := rfl

/-! ### `setCamp` -/

@[simp] theorem State.setCamp_agenda (s : State) (p : Nat) (v : Camp) : (s.setCamp p v).agenda = s.agenda := rfl
@[simp] theorem State.setCamp_cur (s : State) (p : Nat) (v : Camp) : (s.setCamp p v).cur = s.cur := rfl
@[simp] theorem State.setCamp_stepNs (s : State) (p : Nat) (v : Camp) : (s.setCamp p v).stepNs = s.stepNs := rfl
@[simp] theorem State.setCamp_defer (s : State) (p : Nat) (v : Camp) : (s.setCamp p v).defer = s.defer := rfl
@[simp] theorem State.setCamp_slow (s : State) (p : Nat) (v : Camp) : (s.setCamp p v).slow = s.slow := rfl
@[simp] theorem State.setCamp_inject (s : State) (p : Nat) (v : Camp) : (s.setCamp p v).inject = s.inject := rfl
@[simp] theorem State.setCamp_retests (s : State) (p : Nat) (v : Camp) : (s.setCamp p v).retests = s.retests := rfl
@[simp] theorem State.setCamp_power (s : State) (p : Nat) (v : Camp) : (s.setCamp p v).power = s.power := rfl
@[simp] theorem State.setCamp_dtime (s : State) (p : Nat) (v : Camp) : (s.setCamp p v).dtime = s.dtime := rfl
@[simp] theorem State.setCamp_mem (s : State) (p : Nat) (v : Camp) : (s.setCamp p v).mem = s.mem := rfl
@[simp] theorem State.setCamp_tags (s : State) (p : Nat) (v : Camp) : (s.setCamp p v).tags = s.tags := rfl
@[simp] theorem State.setCamp_bad (s : State) (p : Nat) (v : Camp) : (s.setCamp p v).bad = s.bad := rfl
@[simp] theorem State.setCamp_badLocal (s : State) (p : Nat) (v : Camp) : (s.setCamp p v).badLocal = s.badLocal := rfl
@[simp] theorem State.setCamp_mscDirty (s : State) (p : Nat) (v : Camp) : (s.setCamp p v).mscDirty = s.mscDirty := rfl
@[simp] theorem State.setCamp_marks (s : State) (p : Nat) (v : Camp) : (s.setCamp p v).marks = s.marks := rfl
@[simp] theorem State.setCamp_keys (s : State) (p : Nat) (v : Camp) : (s.setCamp p v).keys = s.keys := rfl
@[simp] theorem State.setCamp_sectorKeys (s : State) (p : Nat) (v : Camp) : (s.setCamp p v).sectorKeys = s.sectorKeys := rfl
@[simp] theorem State.setCamp_frameKeys (s : State) (p : Nat) (v : Camp) : (s.setCamp p v).frameKeys = s.frameKeys := rfl
@[simp] theorem State.setCamp_hdm (s : State) (p : Nat) (v : Camp) : (s.setCamp p v).hdm = s.hdm := rfl
@[simp] theorem State.setCamp_harts (s : State) (p : Nat) (v : Camp) : (s.setCamp p v).harts = s.harts := rfl
@[simp] theorem State.setCamp_hart (s : State) (p j : Nat) (v : Camp) : (s.setCamp p v).hart j = s.hart j := rfl
@[simp] theorem State.setCamp_cores (s : State) (p : Nat) (v : Camp) : (s.setCamp p v).cores = s.cores := rfl
@[simp] theorem State.setCamp_core (s : State) (p j : Nat) (v : Camp) : (s.setCamp p v).core j = s.core j := rfl
@[simp] theorem State.setCamp_health (s : State) (p : Nat) (v : Camp) : (s.setCamp p v).health = s.health := rfl
@[simp] theorem State.setCamp_tick (s : State) (p : Nat) (v : Camp) : (s.setCamp p v).tick = s.tick := rfl
@[simp] theorem State.setCamp_heldCamps (s : State) (p : Nat) (v : Camp) : (s.setCamp p v).heldCamps = s.heldCamps := rfl
@[simp] theorem State.setCamp_heldBefore (s : State) (p : Nat) (v : Camp) : (s.setCamp p v).heldBefore = s.heldBefore := rfl
@[simp] theorem State.setCamp_errHead (s : State) (p : Nat) (v : Camp) : (s.setCamp p v).errHead = s.errHead := rfl
@[simp] theorem State.setCamp_errRing (s : State) (p : Nat) (v : Camp) : (s.setCamp p v).errRing = s.errRing := rfl
@[simp] theorem State.setCamp_startA (s : State) (p : Nat) (v : Camp) : (s.setCamp p v).startA = s.startA := rfl
@[simp] theorem State.setCamp_startB (s : State) (p : Nat) (v : Camp) : (s.setCamp p v).startB = s.startB := rfl
@[simp] theorem State.setCamp_recordB (s : State) (p : Nat) (v : Camp) : (s.setCamp p v).recordB = s.recordB := rfl
@[simp] theorem State.setCamp_attest (s : State) (p : Nat) (v : Camp) : (s.setCamp p v).attest = s.attest := rfl
@[simp] theorem State.setCamp_ringBase (s : State) (p : Nat) (v : Camp) : (s.setCamp p v).ringBase = s.ringBase := rfl
@[simp] theorem State.setCamp_ringLcap (s : State) (p : Nat) (v : Camp) : (s.setCamp p v).ringLcap = s.ringLcap := rfl
@[simp] theorem State.setCamp_ringHead (s : State) (p : Nat) (v : Camp) : (s.setCamp p v).ringHead = s.ringHead := rfl
@[simp] theorem State.setCamp_ringTail (s : State) (p : Nat) (v : Camp) : (s.setCamp p v).ringTail = s.ringTail := rfl
@[simp] theorem State.setCamp_xreqs (s : State) (p : Nat) (v : Camp) : (s.setCamp p v).xreqs = s.xreqs := rfl
@[simp] theorem State.setCamp_queues (s : State) (p : Nat) (v : Camp) : (s.setCamp p v).queues = s.queues := rfl
@[simp] theorem State.setCamp_queue (s : State) (p j : Nat) (v : Camp) : (s.setCamp p v).queue j = s.queue j := rfl
@[simp] theorem State.setCamp_contexts (s : State) (p : Nat) (v : Camp) : (s.setCamp p v).contexts = s.contexts := rfl
@[simp] theorem State.setCamp_context (s : State) (p j : Nat) (v : Camp) : (s.setCamp p v).context j = s.context j := rfl
@[simp] theorem State.setCamp_kernels (s : State) (p : Nat) (v : Camp) : (s.setCamp p v).kernels = s.kernels := rfl
@[simp] theorem State.setCamp_nextKernel (s : State) (p : Nat) (v : Camp) : (s.setCamp p v).nextKernel = s.nextKernel := rfl
@[simp] theorem State.setCamp_nextTask (s : State) (p : Nat) (v : Camp) : (s.setCamp p v).nextTask = s.nextTask := rfl
@[simp] theorem State.setCamp_nextOp (s : State) (p : Nat) (v : Camp) : (s.setCamp p v).nextOp = s.nextOp := rfl
@[simp] theorem State.setCamp_arrivals (s : State) (p : Nat) (v : Camp) : (s.setCamp p v).arrivals = s.arrivals := rfl
@[simp] theorem State.setCamp_ops (s : State) (p : Nat) (v : Camp) : (s.setCamp p v).ops = s.ops := rfl
@[simp] theorem State.setCamp_staging (s : State) (p : Nat) (v : Camp) : (s.setCamp p v).staging = s.staging := rfl
@[simp] theorem State.setCamp_nvme (s : State) (p : Nat) (v : Camp) : (s.setCamp p v).nvme = s.nvme := rfl
@[simp] theorem State.setCamp_dreq (s : State) (p : Nat) (v : Camp) : (s.setCamp p v).dreq = s.dreq := rfl
@[simp] theorem State.setCamp_halts (s : State) (p : Nat) (v : Camp) : (s.setCamp p v).halts = s.halts := rfl
@[simp] theorem State.setCamp_triggers (s : State) (p : Nat) (v : Camp) : (s.setCamp p v).triggers = s.triggers := rfl
@[simp] theorem State.setCamp_trigEvents (s : State) (p : Nat) (v : Camp) : (s.setCamp p v).trigEvents = s.trigEvents := rfl
@[simp] theorem State.setCamp_ticked (s : State) (p : Nat) (v : Camp) : (s.setCamp p v).ticked = s.ticked := rfl
@[simp] theorem State.setCamp_spoorQueue (s : State) (p : Nat) (v : Camp) : (s.setCamp p v).spoorQueue = s.spoorQueue := rfl
@[simp] theorem State.setCamp_fabric (s : State) (p : Nat) (v : Camp) : (s.setCamp p v).fabric = s.fabric := rfl
@[simp] theorem State.setCamp_fuses (s : State) (p : Nat) (v : Camp) : (s.setCamp p v).fuses = s.fuses := rfl
@[simp] theorem State.setCamp_hostReply (s : State) (p : Nat) (v : Camp) : (s.setCamp p v).hostReply = s.hostReply := rfl

/-! ### `setQueue` -/

@[simp] theorem State.setQueue_agenda (s : State) (q : Nat) (v : HostQueue) : (s.setQueue q v).agenda = s.agenda := rfl
@[simp] theorem State.setQueue_cur (s : State) (q : Nat) (v : HostQueue) : (s.setQueue q v).cur = s.cur := rfl
@[simp] theorem State.setQueue_stepNs (s : State) (q : Nat) (v : HostQueue) : (s.setQueue q v).stepNs = s.stepNs := rfl
@[simp] theorem State.setQueue_defer (s : State) (q : Nat) (v : HostQueue) : (s.setQueue q v).defer = s.defer := rfl
@[simp] theorem State.setQueue_slow (s : State) (q : Nat) (v : HostQueue) : (s.setQueue q v).slow = s.slow := rfl
@[simp] theorem State.setQueue_inject (s : State) (q : Nat) (v : HostQueue) : (s.setQueue q v).inject = s.inject := rfl
@[simp] theorem State.setQueue_retests (s : State) (q : Nat) (v : HostQueue) : (s.setQueue q v).retests = s.retests := rfl
@[simp] theorem State.setQueue_power (s : State) (q : Nat) (v : HostQueue) : (s.setQueue q v).power = s.power := rfl
@[simp] theorem State.setQueue_dtime (s : State) (q : Nat) (v : HostQueue) : (s.setQueue q v).dtime = s.dtime := rfl
@[simp] theorem State.setQueue_mem (s : State) (q : Nat) (v : HostQueue) : (s.setQueue q v).mem = s.mem := rfl
@[simp] theorem State.setQueue_tags (s : State) (q : Nat) (v : HostQueue) : (s.setQueue q v).tags = s.tags := rfl
@[simp] theorem State.setQueue_bad (s : State) (q : Nat) (v : HostQueue) : (s.setQueue q v).bad = s.bad := rfl
@[simp] theorem State.setQueue_badLocal (s : State) (q : Nat) (v : HostQueue) : (s.setQueue q v).badLocal = s.badLocal := rfl
@[simp] theorem State.setQueue_mscDirty (s : State) (q : Nat) (v : HostQueue) : (s.setQueue q v).mscDirty = s.mscDirty := rfl
@[simp] theorem State.setQueue_marks (s : State) (q : Nat) (v : HostQueue) : (s.setQueue q v).marks = s.marks := rfl
@[simp] theorem State.setQueue_keys (s : State) (q : Nat) (v : HostQueue) : (s.setQueue q v).keys = s.keys := rfl
@[simp] theorem State.setQueue_sectorKeys (s : State) (q : Nat) (v : HostQueue) : (s.setQueue q v).sectorKeys = s.sectorKeys := rfl
@[simp] theorem State.setQueue_frameKeys (s : State) (q : Nat) (v : HostQueue) : (s.setQueue q v).frameKeys = s.frameKeys := rfl
@[simp] theorem State.setQueue_hdm (s : State) (q : Nat) (v : HostQueue) : (s.setQueue q v).hdm = s.hdm := rfl
@[simp] theorem State.setQueue_harts (s : State) (q : Nat) (v : HostQueue) : (s.setQueue q v).harts = s.harts := rfl
@[simp] theorem State.setQueue_hart (s : State) (q j : Nat) (v : HostQueue) : (s.setQueue q v).hart j = s.hart j := rfl
@[simp] theorem State.setQueue_cores (s : State) (q : Nat) (v : HostQueue) : (s.setQueue q v).cores = s.cores := rfl
@[simp] theorem State.setQueue_core (s : State) (q j : Nat) (v : HostQueue) : (s.setQueue q v).core j = s.core j := rfl
@[simp] theorem State.setQueue_camps (s : State) (q : Nat) (v : HostQueue) : (s.setQueue q v).camps = s.camps := rfl
@[simp] theorem State.setQueue_camp (s : State) (q j : Nat) (v : HostQueue) : (s.setQueue q v).camp j = s.camp j := rfl
@[simp] theorem State.setQueue_health (s : State) (q : Nat) (v : HostQueue) : (s.setQueue q v).health = s.health := rfl
@[simp] theorem State.setQueue_tick (s : State) (q : Nat) (v : HostQueue) : (s.setQueue q v).tick = s.tick := rfl
@[simp] theorem State.setQueue_heldCamps (s : State) (q : Nat) (v : HostQueue) : (s.setQueue q v).heldCamps = s.heldCamps := rfl
@[simp] theorem State.setQueue_heldBefore (s : State) (q : Nat) (v : HostQueue) : (s.setQueue q v).heldBefore = s.heldBefore := rfl
@[simp] theorem State.setQueue_errHead (s : State) (q : Nat) (v : HostQueue) : (s.setQueue q v).errHead = s.errHead := rfl
@[simp] theorem State.setQueue_errRing (s : State) (q : Nat) (v : HostQueue) : (s.setQueue q v).errRing = s.errRing := rfl
@[simp] theorem State.setQueue_startA (s : State) (q : Nat) (v : HostQueue) : (s.setQueue q v).startA = s.startA := rfl
@[simp] theorem State.setQueue_startB (s : State) (q : Nat) (v : HostQueue) : (s.setQueue q v).startB = s.startB := rfl
@[simp] theorem State.setQueue_recordB (s : State) (q : Nat) (v : HostQueue) : (s.setQueue q v).recordB = s.recordB := rfl
@[simp] theorem State.setQueue_attest (s : State) (q : Nat) (v : HostQueue) : (s.setQueue q v).attest = s.attest := rfl
@[simp] theorem State.setQueue_ringBase (s : State) (q : Nat) (v : HostQueue) : (s.setQueue q v).ringBase = s.ringBase := rfl
@[simp] theorem State.setQueue_ringLcap (s : State) (q : Nat) (v : HostQueue) : (s.setQueue q v).ringLcap = s.ringLcap := rfl
@[simp] theorem State.setQueue_ringHead (s : State) (q : Nat) (v : HostQueue) : (s.setQueue q v).ringHead = s.ringHead := rfl
@[simp] theorem State.setQueue_ringTail (s : State) (q : Nat) (v : HostQueue) : (s.setQueue q v).ringTail = s.ringTail := rfl
@[simp] theorem State.setQueue_xreqs (s : State) (q : Nat) (v : HostQueue) : (s.setQueue q v).xreqs = s.xreqs := rfl
@[simp] theorem State.setQueue_contexts (s : State) (q : Nat) (v : HostQueue) : (s.setQueue q v).contexts = s.contexts := rfl
@[simp] theorem State.setQueue_context (s : State) (q j : Nat) (v : HostQueue) : (s.setQueue q v).context j = s.context j := rfl
@[simp] theorem State.setQueue_kernels (s : State) (q : Nat) (v : HostQueue) : (s.setQueue q v).kernels = s.kernels := rfl
@[simp] theorem State.setQueue_nextKernel (s : State) (q : Nat) (v : HostQueue) : (s.setQueue q v).nextKernel = s.nextKernel := rfl
@[simp] theorem State.setQueue_nextTask (s : State) (q : Nat) (v : HostQueue) : (s.setQueue q v).nextTask = s.nextTask := rfl
@[simp] theorem State.setQueue_nextOp (s : State) (q : Nat) (v : HostQueue) : (s.setQueue q v).nextOp = s.nextOp := rfl
@[simp] theorem State.setQueue_arrivals (s : State) (q : Nat) (v : HostQueue) : (s.setQueue q v).arrivals = s.arrivals := rfl
@[simp] theorem State.setQueue_ops (s : State) (q : Nat) (v : HostQueue) : (s.setQueue q v).ops = s.ops := rfl
@[simp] theorem State.setQueue_staging (s : State) (q : Nat) (v : HostQueue) : (s.setQueue q v).staging = s.staging := rfl
@[simp] theorem State.setQueue_nvme (s : State) (q : Nat) (v : HostQueue) : (s.setQueue q v).nvme = s.nvme := rfl
@[simp] theorem State.setQueue_dreq (s : State) (q : Nat) (v : HostQueue) : (s.setQueue q v).dreq = s.dreq := rfl
@[simp] theorem State.setQueue_halts (s : State) (q : Nat) (v : HostQueue) : (s.setQueue q v).halts = s.halts := rfl
@[simp] theorem State.setQueue_triggers (s : State) (q : Nat) (v : HostQueue) : (s.setQueue q v).triggers = s.triggers := rfl
@[simp] theorem State.setQueue_trigEvents (s : State) (q : Nat) (v : HostQueue) : (s.setQueue q v).trigEvents = s.trigEvents := rfl
@[simp] theorem State.setQueue_ticked (s : State) (q : Nat) (v : HostQueue) : (s.setQueue q v).ticked = s.ticked := rfl
@[simp] theorem State.setQueue_spoorQueue (s : State) (q : Nat) (v : HostQueue) : (s.setQueue q v).spoorQueue = s.spoorQueue := rfl
@[simp] theorem State.setQueue_fabric (s : State) (q : Nat) (v : HostQueue) : (s.setQueue q v).fabric = s.fabric := rfl
@[simp] theorem State.setQueue_fuses (s : State) (q : Nat) (v : HostQueue) : (s.setQueue q v).fuses = s.fuses := rfl
@[simp] theorem State.setQueue_hostReply (s : State) (q : Nat) (v : HostQueue) : (s.setQueue q v).hostReply = s.hostReply := rfl

/-! ### `setContext` -/

@[simp] theorem State.setContext_agenda (s : State) (x : Nat) (v : Context) : (s.setContext x v).agenda = s.agenda := rfl
@[simp] theorem State.setContext_cur (s : State) (x : Nat) (v : Context) : (s.setContext x v).cur = s.cur := rfl
@[simp] theorem State.setContext_stepNs (s : State) (x : Nat) (v : Context) : (s.setContext x v).stepNs = s.stepNs := rfl
@[simp] theorem State.setContext_defer (s : State) (x : Nat) (v : Context) : (s.setContext x v).defer = s.defer := rfl
@[simp] theorem State.setContext_slow (s : State) (x : Nat) (v : Context) : (s.setContext x v).slow = s.slow := rfl
@[simp] theorem State.setContext_inject (s : State) (x : Nat) (v : Context) : (s.setContext x v).inject = s.inject := rfl
@[simp] theorem State.setContext_retests (s : State) (x : Nat) (v : Context) : (s.setContext x v).retests = s.retests := rfl
@[simp] theorem State.setContext_power (s : State) (x : Nat) (v : Context) : (s.setContext x v).power = s.power := rfl
@[simp] theorem State.setContext_dtime (s : State) (x : Nat) (v : Context) : (s.setContext x v).dtime = s.dtime := rfl
@[simp] theorem State.setContext_mem (s : State) (x : Nat) (v : Context) : (s.setContext x v).mem = s.mem := rfl
@[simp] theorem State.setContext_tags (s : State) (x : Nat) (v : Context) : (s.setContext x v).tags = s.tags := rfl
@[simp] theorem State.setContext_bad (s : State) (x : Nat) (v : Context) : (s.setContext x v).bad = s.bad := rfl
@[simp] theorem State.setContext_badLocal (s : State) (x : Nat) (v : Context) : (s.setContext x v).badLocal = s.badLocal := rfl
@[simp] theorem State.setContext_mscDirty (s : State) (x : Nat) (v : Context) : (s.setContext x v).mscDirty = s.mscDirty := rfl
@[simp] theorem State.setContext_marks (s : State) (x : Nat) (v : Context) : (s.setContext x v).marks = s.marks := rfl
@[simp] theorem State.setContext_keys (s : State) (x : Nat) (v : Context) : (s.setContext x v).keys = s.keys := rfl
@[simp] theorem State.setContext_sectorKeys (s : State) (x : Nat) (v : Context) : (s.setContext x v).sectorKeys = s.sectorKeys := rfl
@[simp] theorem State.setContext_frameKeys (s : State) (x : Nat) (v : Context) : (s.setContext x v).frameKeys = s.frameKeys := rfl
@[simp] theorem State.setContext_hdm (s : State) (x : Nat) (v : Context) : (s.setContext x v).hdm = s.hdm := rfl
@[simp] theorem State.setContext_harts (s : State) (x : Nat) (v : Context) : (s.setContext x v).harts = s.harts := rfl
@[simp] theorem State.setContext_hart (s : State) (x j : Nat) (v : Context) : (s.setContext x v).hart j = s.hart j := rfl
@[simp] theorem State.setContext_cores (s : State) (x : Nat) (v : Context) : (s.setContext x v).cores = s.cores := rfl
@[simp] theorem State.setContext_core (s : State) (x j : Nat) (v : Context) : (s.setContext x v).core j = s.core j := rfl
@[simp] theorem State.setContext_camps (s : State) (x : Nat) (v : Context) : (s.setContext x v).camps = s.camps := rfl
@[simp] theorem State.setContext_camp (s : State) (x j : Nat) (v : Context) : (s.setContext x v).camp j = s.camp j := rfl
@[simp] theorem State.setContext_health (s : State) (x : Nat) (v : Context) : (s.setContext x v).health = s.health := rfl
@[simp] theorem State.setContext_tick (s : State) (x : Nat) (v : Context) : (s.setContext x v).tick = s.tick := rfl
@[simp] theorem State.setContext_heldCamps (s : State) (x : Nat) (v : Context) : (s.setContext x v).heldCamps = s.heldCamps := rfl
@[simp] theorem State.setContext_heldBefore (s : State) (x : Nat) (v : Context) : (s.setContext x v).heldBefore = s.heldBefore := rfl
@[simp] theorem State.setContext_errHead (s : State) (x : Nat) (v : Context) : (s.setContext x v).errHead = s.errHead := rfl
@[simp] theorem State.setContext_errRing (s : State) (x : Nat) (v : Context) : (s.setContext x v).errRing = s.errRing := rfl
@[simp] theorem State.setContext_startA (s : State) (x : Nat) (v : Context) : (s.setContext x v).startA = s.startA := rfl
@[simp] theorem State.setContext_startB (s : State) (x : Nat) (v : Context) : (s.setContext x v).startB = s.startB := rfl
@[simp] theorem State.setContext_recordB (s : State) (x : Nat) (v : Context) : (s.setContext x v).recordB = s.recordB := rfl
@[simp] theorem State.setContext_attest (s : State) (x : Nat) (v : Context) : (s.setContext x v).attest = s.attest := rfl
@[simp] theorem State.setContext_ringBase (s : State) (x : Nat) (v : Context) : (s.setContext x v).ringBase = s.ringBase := rfl
@[simp] theorem State.setContext_ringLcap (s : State) (x : Nat) (v : Context) : (s.setContext x v).ringLcap = s.ringLcap := rfl
@[simp] theorem State.setContext_ringHead (s : State) (x : Nat) (v : Context) : (s.setContext x v).ringHead = s.ringHead := rfl
@[simp] theorem State.setContext_ringTail (s : State) (x : Nat) (v : Context) : (s.setContext x v).ringTail = s.ringTail := rfl
@[simp] theorem State.setContext_xreqs (s : State) (x : Nat) (v : Context) : (s.setContext x v).xreqs = s.xreqs := rfl
@[simp] theorem State.setContext_queues (s : State) (x : Nat) (v : Context) : (s.setContext x v).queues = s.queues := rfl
@[simp] theorem State.setContext_queue (s : State) (x j : Nat) (v : Context) : (s.setContext x v).queue j = s.queue j := rfl
@[simp] theorem State.setContext_kernels (s : State) (x : Nat) (v : Context) : (s.setContext x v).kernels = s.kernels := rfl
@[simp] theorem State.setContext_nextKernel (s : State) (x : Nat) (v : Context) : (s.setContext x v).nextKernel = s.nextKernel := rfl
@[simp] theorem State.setContext_nextTask (s : State) (x : Nat) (v : Context) : (s.setContext x v).nextTask = s.nextTask := rfl
@[simp] theorem State.setContext_nextOp (s : State) (x : Nat) (v : Context) : (s.setContext x v).nextOp = s.nextOp := rfl
@[simp] theorem State.setContext_arrivals (s : State) (x : Nat) (v : Context) : (s.setContext x v).arrivals = s.arrivals := rfl
@[simp] theorem State.setContext_ops (s : State) (x : Nat) (v : Context) : (s.setContext x v).ops = s.ops := rfl
@[simp] theorem State.setContext_staging (s : State) (x : Nat) (v : Context) : (s.setContext x v).staging = s.staging := rfl
@[simp] theorem State.setContext_nvme (s : State) (x : Nat) (v : Context) : (s.setContext x v).nvme = s.nvme := rfl
@[simp] theorem State.setContext_dreq (s : State) (x : Nat) (v : Context) : (s.setContext x v).dreq = s.dreq := rfl
@[simp] theorem State.setContext_halts (s : State) (x : Nat) (v : Context) : (s.setContext x v).halts = s.halts := rfl
@[simp] theorem State.setContext_triggers (s : State) (x : Nat) (v : Context) : (s.setContext x v).triggers = s.triggers := rfl
@[simp] theorem State.setContext_trigEvents (s : State) (x : Nat) (v : Context) : (s.setContext x v).trigEvents = s.trigEvents := rfl
@[simp] theorem State.setContext_ticked (s : State) (x : Nat) (v : Context) : (s.setContext x v).ticked = s.ticked := rfl
@[simp] theorem State.setContext_spoorQueue (s : State) (x : Nat) (v : Context) : (s.setContext x v).spoorQueue = s.spoorQueue := rfl
@[simp] theorem State.setContext_fabric (s : State) (x : Nat) (v : Context) : (s.setContext x v).fabric = s.fabric := rfl
@[simp] theorem State.setContext_fuses (s : State) (x : Nat) (v : Context) : (s.setContext x v).fuses = s.fuses := rfl
@[simp] theorem State.setContext_hostReply (s : State) (x : Nat) (v : Context) : (s.setContext x v).hostReply = s.hostReply := rfl

/-! ### `modHart` -/

@[simp] theorem State.modHart_agenda (s : State) (h : Nat) (g : Hart → Hart) : (s.modHart h g).agenda = s.agenda := rfl
@[simp] theorem State.modHart_cur (s : State) (h : Nat) (g : Hart → Hart) : (s.modHart h g).cur = s.cur := rfl
@[simp] theorem State.modHart_stepNs (s : State) (h : Nat) (g : Hart → Hart) : (s.modHart h g).stepNs = s.stepNs := rfl
@[simp] theorem State.modHart_defer (s : State) (h : Nat) (g : Hart → Hart) : (s.modHart h g).defer = s.defer := rfl
@[simp] theorem State.modHart_slow (s : State) (h : Nat) (g : Hart → Hart) : (s.modHart h g).slow = s.slow := rfl
@[simp] theorem State.modHart_inject (s : State) (h : Nat) (g : Hart → Hart) : (s.modHart h g).inject = s.inject := rfl
@[simp] theorem State.modHart_retests (s : State) (h : Nat) (g : Hart → Hart) : (s.modHart h g).retests = s.retests := rfl
@[simp] theorem State.modHart_power (s : State) (h : Nat) (g : Hart → Hart) : (s.modHart h g).power = s.power := rfl
@[simp] theorem State.modHart_dtime (s : State) (h : Nat) (g : Hart → Hart) : (s.modHart h g).dtime = s.dtime := rfl
@[simp] theorem State.modHart_mem (s : State) (h : Nat) (g : Hart → Hart) : (s.modHart h g).mem = s.mem := rfl
@[simp] theorem State.modHart_tags (s : State) (h : Nat) (g : Hart → Hart) : (s.modHart h g).tags = s.tags := rfl
@[simp] theorem State.modHart_bad (s : State) (h : Nat) (g : Hart → Hart) : (s.modHart h g).bad = s.bad := rfl
@[simp] theorem State.modHart_badLocal (s : State) (h : Nat) (g : Hart → Hart) : (s.modHart h g).badLocal = s.badLocal := rfl
@[simp] theorem State.modHart_mscDirty (s : State) (h : Nat) (g : Hart → Hart) : (s.modHart h g).mscDirty = s.mscDirty := rfl
@[simp] theorem State.modHart_marks (s : State) (h : Nat) (g : Hart → Hart) : (s.modHart h g).marks = s.marks := rfl
@[simp] theorem State.modHart_keys (s : State) (h : Nat) (g : Hart → Hart) : (s.modHart h g).keys = s.keys := rfl
@[simp] theorem State.modHart_sectorKeys (s : State) (h : Nat) (g : Hart → Hart) : (s.modHart h g).sectorKeys = s.sectorKeys := rfl
@[simp] theorem State.modHart_frameKeys (s : State) (h : Nat) (g : Hart → Hart) : (s.modHart h g).frameKeys = s.frameKeys := rfl
@[simp] theorem State.modHart_hdm (s : State) (h : Nat) (g : Hart → Hart) : (s.modHart h g).hdm = s.hdm := rfl
@[simp] theorem State.modHart_cores (s : State) (h : Nat) (g : Hart → Hart) : (s.modHart h g).cores = s.cores := rfl
@[simp] theorem State.modHart_core (s : State) (h j : Nat) (g : Hart → Hart) : (s.modHart h g).core j = s.core j := rfl
@[simp] theorem State.modHart_camps (s : State) (h : Nat) (g : Hart → Hart) : (s.modHart h g).camps = s.camps := rfl
@[simp] theorem State.modHart_camp (s : State) (h j : Nat) (g : Hart → Hart) : (s.modHart h g).camp j = s.camp j := rfl
@[simp] theorem State.modHart_health (s : State) (h : Nat) (g : Hart → Hart) : (s.modHart h g).health = s.health := rfl
@[simp] theorem State.modHart_tick (s : State) (h : Nat) (g : Hart → Hart) : (s.modHart h g).tick = s.tick := rfl
@[simp] theorem State.modHart_heldCamps (s : State) (h : Nat) (g : Hart → Hart) : (s.modHart h g).heldCamps = s.heldCamps := rfl
@[simp] theorem State.modHart_heldBefore (s : State) (h : Nat) (g : Hart → Hart) : (s.modHart h g).heldBefore = s.heldBefore := rfl
@[simp] theorem State.modHart_errHead (s : State) (h : Nat) (g : Hart → Hart) : (s.modHart h g).errHead = s.errHead := rfl
@[simp] theorem State.modHart_errRing (s : State) (h : Nat) (g : Hart → Hart) : (s.modHart h g).errRing = s.errRing := rfl
@[simp] theorem State.modHart_startA (s : State) (h : Nat) (g : Hart → Hart) : (s.modHart h g).startA = s.startA := rfl
@[simp] theorem State.modHart_startB (s : State) (h : Nat) (g : Hart → Hart) : (s.modHart h g).startB = s.startB := rfl
@[simp] theorem State.modHart_recordB (s : State) (h : Nat) (g : Hart → Hart) : (s.modHart h g).recordB = s.recordB := rfl
@[simp] theorem State.modHart_attest (s : State) (h : Nat) (g : Hart → Hart) : (s.modHart h g).attest = s.attest := rfl
@[simp] theorem State.modHart_ringBase (s : State) (h : Nat) (g : Hart → Hart) : (s.modHart h g).ringBase = s.ringBase := rfl
@[simp] theorem State.modHart_ringLcap (s : State) (h : Nat) (g : Hart → Hart) : (s.modHart h g).ringLcap = s.ringLcap := rfl
@[simp] theorem State.modHart_ringHead (s : State) (h : Nat) (g : Hart → Hart) : (s.modHart h g).ringHead = s.ringHead := rfl
@[simp] theorem State.modHart_ringTail (s : State) (h : Nat) (g : Hart → Hart) : (s.modHart h g).ringTail = s.ringTail := rfl
@[simp] theorem State.modHart_xreqs (s : State) (h : Nat) (g : Hart → Hart) : (s.modHart h g).xreqs = s.xreqs := rfl
@[simp] theorem State.modHart_queues (s : State) (h : Nat) (g : Hart → Hart) : (s.modHart h g).queues = s.queues := rfl
@[simp] theorem State.modHart_queue (s : State) (h j : Nat) (g : Hart → Hart) : (s.modHart h g).queue j = s.queue j := rfl
@[simp] theorem State.modHart_contexts (s : State) (h : Nat) (g : Hart → Hart) : (s.modHart h g).contexts = s.contexts := rfl
@[simp] theorem State.modHart_context (s : State) (h j : Nat) (g : Hart → Hart) : (s.modHart h g).context j = s.context j := rfl
@[simp] theorem State.modHart_kernels (s : State) (h : Nat) (g : Hart → Hart) : (s.modHart h g).kernels = s.kernels := rfl
@[simp] theorem State.modHart_nextKernel (s : State) (h : Nat) (g : Hart → Hart) : (s.modHart h g).nextKernel = s.nextKernel := rfl
@[simp] theorem State.modHart_nextTask (s : State) (h : Nat) (g : Hart → Hart) : (s.modHart h g).nextTask = s.nextTask := rfl
@[simp] theorem State.modHart_nextOp (s : State) (h : Nat) (g : Hart → Hart) : (s.modHart h g).nextOp = s.nextOp := rfl
@[simp] theorem State.modHart_arrivals (s : State) (h : Nat) (g : Hart → Hart) : (s.modHart h g).arrivals = s.arrivals := rfl
@[simp] theorem State.modHart_ops (s : State) (h : Nat) (g : Hart → Hart) : (s.modHart h g).ops = s.ops := rfl
@[simp] theorem State.modHart_staging (s : State) (h : Nat) (g : Hart → Hart) : (s.modHart h g).staging = s.staging := rfl
@[simp] theorem State.modHart_nvme (s : State) (h : Nat) (g : Hart → Hart) : (s.modHart h g).nvme = s.nvme := rfl
@[simp] theorem State.modHart_dreq (s : State) (h : Nat) (g : Hart → Hart) : (s.modHart h g).dreq = s.dreq := rfl
@[simp] theorem State.modHart_halts (s : State) (h : Nat) (g : Hart → Hart) : (s.modHart h g).halts = s.halts := rfl
@[simp] theorem State.modHart_triggers (s : State) (h : Nat) (g : Hart → Hart) : (s.modHart h g).triggers = s.triggers := rfl
@[simp] theorem State.modHart_trigEvents (s : State) (h : Nat) (g : Hart → Hart) : (s.modHart h g).trigEvents = s.trigEvents := rfl
@[simp] theorem State.modHart_ticked (s : State) (h : Nat) (g : Hart → Hart) : (s.modHart h g).ticked = s.ticked := rfl
@[simp] theorem State.modHart_spoorQueue (s : State) (h : Nat) (g : Hart → Hart) : (s.modHart h g).spoorQueue = s.spoorQueue := rfl
@[simp] theorem State.modHart_fabric (s : State) (h : Nat) (g : Hart → Hart) : (s.modHart h g).fabric = s.fabric := rfl
@[simp] theorem State.modHart_fuses (s : State) (h : Nat) (g : Hart → Hart) : (s.modHart h g).fuses = s.fuses := rfl
@[simp] theorem State.modHart_hostReply (s : State) (h : Nat) (g : Hart → Hart) : (s.modHart h g).hostReply = s.hostReply := rfl

/-! ### `modCore` -/

@[simp] theorem State.modCore_agenda (s : State) (c : Nat) (g : Core → Core) : (s.modCore c g).agenda = s.agenda := rfl
@[simp] theorem State.modCore_cur (s : State) (c : Nat) (g : Core → Core) : (s.modCore c g).cur = s.cur := rfl
@[simp] theorem State.modCore_stepNs (s : State) (c : Nat) (g : Core → Core) : (s.modCore c g).stepNs = s.stepNs := rfl
@[simp] theorem State.modCore_defer (s : State) (c : Nat) (g : Core → Core) : (s.modCore c g).defer = s.defer := rfl
@[simp] theorem State.modCore_slow (s : State) (c : Nat) (g : Core → Core) : (s.modCore c g).slow = s.slow := rfl
@[simp] theorem State.modCore_inject (s : State) (c : Nat) (g : Core → Core) : (s.modCore c g).inject = s.inject := rfl
@[simp] theorem State.modCore_retests (s : State) (c : Nat) (g : Core → Core) : (s.modCore c g).retests = s.retests := rfl
@[simp] theorem State.modCore_power (s : State) (c : Nat) (g : Core → Core) : (s.modCore c g).power = s.power := rfl
@[simp] theorem State.modCore_dtime (s : State) (c : Nat) (g : Core → Core) : (s.modCore c g).dtime = s.dtime := rfl
@[simp] theorem State.modCore_mem (s : State) (c : Nat) (g : Core → Core) : (s.modCore c g).mem = s.mem := rfl
@[simp] theorem State.modCore_tags (s : State) (c : Nat) (g : Core → Core) : (s.modCore c g).tags = s.tags := rfl
@[simp] theorem State.modCore_bad (s : State) (c : Nat) (g : Core → Core) : (s.modCore c g).bad = s.bad := rfl
@[simp] theorem State.modCore_badLocal (s : State) (c : Nat) (g : Core → Core) : (s.modCore c g).badLocal = s.badLocal := rfl
@[simp] theorem State.modCore_mscDirty (s : State) (c : Nat) (g : Core → Core) : (s.modCore c g).mscDirty = s.mscDirty := rfl
@[simp] theorem State.modCore_marks (s : State) (c : Nat) (g : Core → Core) : (s.modCore c g).marks = s.marks := rfl
@[simp] theorem State.modCore_keys (s : State) (c : Nat) (g : Core → Core) : (s.modCore c g).keys = s.keys := rfl
@[simp] theorem State.modCore_sectorKeys (s : State) (c : Nat) (g : Core → Core) : (s.modCore c g).sectorKeys = s.sectorKeys := rfl
@[simp] theorem State.modCore_frameKeys (s : State) (c : Nat) (g : Core → Core) : (s.modCore c g).frameKeys = s.frameKeys := rfl
@[simp] theorem State.modCore_hdm (s : State) (c : Nat) (g : Core → Core) : (s.modCore c g).hdm = s.hdm := rfl
@[simp] theorem State.modCore_harts (s : State) (c : Nat) (g : Core → Core) : (s.modCore c g).harts = s.harts := rfl
@[simp] theorem State.modCore_hart (s : State) (c j : Nat) (g : Core → Core) : (s.modCore c g).hart j = s.hart j := rfl
@[simp] theorem State.modCore_camps (s : State) (c : Nat) (g : Core → Core) : (s.modCore c g).camps = s.camps := rfl
@[simp] theorem State.modCore_camp (s : State) (c j : Nat) (g : Core → Core) : (s.modCore c g).camp j = s.camp j := rfl
@[simp] theorem State.modCore_health (s : State) (c : Nat) (g : Core → Core) : (s.modCore c g).health = s.health := rfl
@[simp] theorem State.modCore_tick (s : State) (c : Nat) (g : Core → Core) : (s.modCore c g).tick = s.tick := rfl
@[simp] theorem State.modCore_heldCamps (s : State) (c : Nat) (g : Core → Core) : (s.modCore c g).heldCamps = s.heldCamps := rfl
@[simp] theorem State.modCore_heldBefore (s : State) (c : Nat) (g : Core → Core) : (s.modCore c g).heldBefore = s.heldBefore := rfl
@[simp] theorem State.modCore_errHead (s : State) (c : Nat) (g : Core → Core) : (s.modCore c g).errHead = s.errHead := rfl
@[simp] theorem State.modCore_errRing (s : State) (c : Nat) (g : Core → Core) : (s.modCore c g).errRing = s.errRing := rfl
@[simp] theorem State.modCore_startA (s : State) (c : Nat) (g : Core → Core) : (s.modCore c g).startA = s.startA := rfl
@[simp] theorem State.modCore_startB (s : State) (c : Nat) (g : Core → Core) : (s.modCore c g).startB = s.startB := rfl
@[simp] theorem State.modCore_recordB (s : State) (c : Nat) (g : Core → Core) : (s.modCore c g).recordB = s.recordB := rfl
@[simp] theorem State.modCore_attest (s : State) (c : Nat) (g : Core → Core) : (s.modCore c g).attest = s.attest := rfl
@[simp] theorem State.modCore_ringBase (s : State) (c : Nat) (g : Core → Core) : (s.modCore c g).ringBase = s.ringBase := rfl
@[simp] theorem State.modCore_ringLcap (s : State) (c : Nat) (g : Core → Core) : (s.modCore c g).ringLcap = s.ringLcap := rfl
@[simp] theorem State.modCore_ringHead (s : State) (c : Nat) (g : Core → Core) : (s.modCore c g).ringHead = s.ringHead := rfl
@[simp] theorem State.modCore_ringTail (s : State) (c : Nat) (g : Core → Core) : (s.modCore c g).ringTail = s.ringTail := rfl
@[simp] theorem State.modCore_xreqs (s : State) (c : Nat) (g : Core → Core) : (s.modCore c g).xreqs = s.xreqs := rfl
@[simp] theorem State.modCore_queues (s : State) (c : Nat) (g : Core → Core) : (s.modCore c g).queues = s.queues := rfl
@[simp] theorem State.modCore_queue (s : State) (c j : Nat) (g : Core → Core) : (s.modCore c g).queue j = s.queue j := rfl
@[simp] theorem State.modCore_contexts (s : State) (c : Nat) (g : Core → Core) : (s.modCore c g).contexts = s.contexts := rfl
@[simp] theorem State.modCore_context (s : State) (c j : Nat) (g : Core → Core) : (s.modCore c g).context j = s.context j := rfl
@[simp] theorem State.modCore_kernels (s : State) (c : Nat) (g : Core → Core) : (s.modCore c g).kernels = s.kernels := rfl
@[simp] theorem State.modCore_nextKernel (s : State) (c : Nat) (g : Core → Core) : (s.modCore c g).nextKernel = s.nextKernel := rfl
@[simp] theorem State.modCore_nextTask (s : State) (c : Nat) (g : Core → Core) : (s.modCore c g).nextTask = s.nextTask := rfl
@[simp] theorem State.modCore_nextOp (s : State) (c : Nat) (g : Core → Core) : (s.modCore c g).nextOp = s.nextOp := rfl
@[simp] theorem State.modCore_arrivals (s : State) (c : Nat) (g : Core → Core) : (s.modCore c g).arrivals = s.arrivals := rfl
@[simp] theorem State.modCore_ops (s : State) (c : Nat) (g : Core → Core) : (s.modCore c g).ops = s.ops := rfl
@[simp] theorem State.modCore_staging (s : State) (c : Nat) (g : Core → Core) : (s.modCore c g).staging = s.staging := rfl
@[simp] theorem State.modCore_nvme (s : State) (c : Nat) (g : Core → Core) : (s.modCore c g).nvme = s.nvme := rfl
@[simp] theorem State.modCore_dreq (s : State) (c : Nat) (g : Core → Core) : (s.modCore c g).dreq = s.dreq := rfl
@[simp] theorem State.modCore_halts (s : State) (c : Nat) (g : Core → Core) : (s.modCore c g).halts = s.halts := rfl
@[simp] theorem State.modCore_triggers (s : State) (c : Nat) (g : Core → Core) : (s.modCore c g).triggers = s.triggers := rfl
@[simp] theorem State.modCore_trigEvents (s : State) (c : Nat) (g : Core → Core) : (s.modCore c g).trigEvents = s.trigEvents := rfl
@[simp] theorem State.modCore_ticked (s : State) (c : Nat) (g : Core → Core) : (s.modCore c g).ticked = s.ticked := rfl
@[simp] theorem State.modCore_spoorQueue (s : State) (c : Nat) (g : Core → Core) : (s.modCore c g).spoorQueue = s.spoorQueue := rfl
@[simp] theorem State.modCore_fabric (s : State) (c : Nat) (g : Core → Core) : (s.modCore c g).fabric = s.fabric := rfl
@[simp] theorem State.modCore_fuses (s : State) (c : Nat) (g : Core → Core) : (s.modCore c g).fuses = s.fuses := rfl
@[simp] theorem State.modCore_hostReply (s : State) (c : Nat) (g : Core → Core) : (s.modCore c g).hostReply = s.hostReply := rfl

/-! ### Registers of a hart -/

@[simp] theorem Hart.setX_run (a : Hart) (r : Reg) (v : Word) : (a.setX r v).run = a.run := by unfold Hart.setX; split <;> rfl
@[simp] theorem Hart.setX_kernel (a : Hart) (r : Reg) (v : Word) : (a.setX r v).kernel = a.kernel := by unfold Hart.setX; split <;> rfl
@[simp] theorem Hart.setX_supEnded (a : Hart) (r : Reg) (v : Word) : (a.setX r v).supEnded = a.supEnded := by unfold Hart.setX; split <;> rfl
@[simp] theorem Hart.setX_pc (a : Hart) (r : Reg) (v : Word) : (a.setX r v).pc = a.pc := by unfold Hart.setX; split <;> rfl
@[simp] theorem Hart.setX_k (a : Hart) (r : Reg) (v : Word) : (a.setX r v).k = a.k := by unfold Hart.setX; split <;> rfl
@[simp] theorem Hart.setX_vtype (a : Hart) (r : Reg) (v : Word) : (a.setX r v).vtype = a.vtype := by unfold Hart.setX; split <;> rfl
@[simp] theorem Hart.setX_vl (a : Hart) (r : Reg) (v : Word) : (a.setX r v).vl = a.vl := by unfold Hart.setX; split <;> rfl
@[simp] theorem Hart.setX_estart (a : Hart) (r : Reg) (v : Word) : (a.setX r v).estart = a.estart := by unfold Hart.setX; split <;> rfl
@[simp] theorem Hart.setX_fctl (a : Hart) (r : Reg) (v : Word) : (a.setX r v).fctl = a.fctl := by unfold Hart.setX; split <;> rfl
@[simp] theorem Hart.setX_dlmode (a : Hart) (r : Reg) (v : Word) : (a.setX r v).dlmode = a.dlmode := by unfold Hart.setX; split <;> rfl
@[simp] theorem Hart.setX_dlstat (a : Hart) (r : Reg) (v : Word) : (a.setX r v).dlstat = a.dlstat := by unfold Hart.setX; split <;> rfl
@[simp] theorem Hart.setX_rtime (a : Hart) (r : Reg) (v : Word) : (a.setX r v).rtime = a.rtime := by unfold Hart.setX; split <;> rfl
@[simp] theorem Hart.setX_dlcap (a : Hart) (r : Reg) (v : Word) : (a.setX r v).dlcap = a.dlcap := by unfold Hart.setX; split <;> rfl
@[simp] theorem Hart.setX_dlesc (a : Hart) (r : Reg) (v : Word) : (a.setX r v).dlesc = a.dlesc := by unfold Hart.setX; split <;> rfl
@[simp] theorem Hart.setX_pwbase (a : Hart) (r : Reg) (v : Word) : (a.setX r v).pwbase = a.pwbase := by unfold Hart.setX; split <;> rfl
@[simp] theorem Hart.setX_pwlen (a : Hart) (r : Reg) (v : Word) : (a.setX r v).pwlen = a.pwlen := by unfold Hart.setX; split <;> rfl
@[simp] theorem Hart.setX_pwctl (a : Hart) (r : Reg) (v : Word) : (a.setX r v).pwctl = a.pwctl := by unfold Hart.setX; split <;> rfl
@[simp] theorem Hart.setX_hstat (a : Hart) (r : Reg) (v : Word) : (a.setX r v).hstat = a.hstat := by unfold Hart.setX; split <;> rfl
@[simp] theorem Hart.setX_tcause (a : Hart) (r : Reg) (v : Word) : (a.setX r v).tcause = a.tcause := by unfold Hart.setX; split <;> rfl
@[simp] theorem Hart.setX_tval (a : Hart) (r : Reg) (v : Word) : (a.setX r v).tval = a.tval := by unfold Hart.setX; split <;> rfl
@[simp] theorem Hart.setX_trappc (a : Hart) (r : Reg) (v : Word) : (a.setX r v).trappc = a.trappc := by unfold Hart.setX; split <;> rfl
@[simp] theorem Hart.setX_trapei (a : Hart) (r : Reg) (v : Word) : (a.setX r v).trapei = a.trapei := by unfold Hart.setX; split <;> rfl
@[simp] theorem Hart.setX_edone (a : Hart) (r : Reg) (v : Word) : (a.setX r v).edone = a.edone := by unfold Hart.setX; split <;> rfl
@[simp] theorem Hart.setX_fmask (a : Hart) (r : Reg) (v : Word) : (a.setX r v).fmask = a.fmask := by unfold Hart.setX; split <;> rfl
@[simp] theorem Hart.setX_smiss (a : Hart) (r : Reg) (v : Word) : (a.setX r v).smiss = a.smiss := by unfold Hart.setX; split <;> rfl
@[simp] theorem Hart.setX_defs (a : Hart) (r : Reg) (v : Word) : (a.setX r v).defs = a.defs := by unfold Hart.setX; split <;> rfl
@[simp] theorem Hart.setX_loops (a : Hart) (r : Reg) (v : Word) : (a.setX r v).loops = a.loops := by unfold Hart.setX; split <;> rfl
@[simp] theorem Hart.setX_grpCeil (a : Hart) (r : Reg) (v : Word) : (a.setX r v).grpCeil = a.grpCeil := by unfold Hart.setX; split <;> rfl
@[simp] theorem Hart.setX_queue (a : Hart) (r : Reg) (v : Word) : (a.setX r v).queue = a.queue := by unfold Hart.setX; split <;> rfl
@[simp] theorem Hart.setX_wait (a : Hart) (r : Reg) (v : Word) : (a.setX r v).wait = a.wait := by unfold Hart.setX; split <;> rfl
@[simp] theorem Hart.setX_tileSince (a : Hart) (r : Reg) (v : Word) : (a.setX r v).tileSince = a.tileSince := by unfold Hart.setX; split <;> rfl
@[simp] theorem Hart.setX_links (a : Hart) (r : Reg) (v : Word) : (a.setX r v).links = a.links := by unfold Hart.setX; split <;> rfl
@[simp] theorem Hart.setX_lanes (a : Hart) (r : Reg) (v : Word) : (a.setX r v).lanes = a.lanes := by unfold Hart.setX; split <;> rfl
@[simp] theorem Hart.setX_dropped (a : Hart) (r : Reg) (v : Word) : (a.setX r v).dropped = a.dropped := by unfold Hart.setX; split <;> rfl
@[simp] theorem Hart.setX_addLines (a : Hart) (r : Reg) (v : Word) : (a.setX r v).addLines = a.addLines := by unfold Hart.setX; split <;> rfl
@[simp] theorem Hart.setX_task (a : Hart) (r : Reg) (v : Word) : (a.setX r v).task = a.task := by unfold Hart.setX; split <;> rfl
@[simp] theorem Hart.setX_parkedTask (a : Hart) (r : Reg) (v : Word) : (a.setX r v).parkedTask = a.parkedTask := by unfold Hart.setX; split <;> rfl
@[simp] theorem Hart.setX_streams (a : Hart) (r : Reg) (v : Word) : (a.setX r v).streams = a.streams := by unfold Hart.setX; split <;> rfl
@[simp] theorem Hart.setX_satp (a : Hart) (r : Reg) (v : Word) : (a.setX r v).satp = a.satp := by unfold Hart.setX; split <;> rfl
@[simp] theorem Hart.setX_ctx (a : Hart) (r : Reg) (v : Word) : (a.setX r v).ctx = a.ctx := by unfold Hart.setX; split <;> rfl
@[simp] theorem Hart.setX_xreason (a : Hart) (r : Reg) (v : Word) : (a.setX r v).xreason = a.xreason := by unfold Hart.setX; split <;> rfl
@[simp] theorem Hart.setX_batch (a : Hart) (r : Reg) (v : Word) : (a.setX r v).batch = a.batch := by unfold Hart.setX; split <;> rfl
@[simp] theorem Hart.setX_preempt (a : Hart) (r : Reg) (v : Word) : (a.setX r v).preempt = a.preempt := by unfold Hart.setX; split <;> rfl
@[simp] theorem Hart.setX_fetchBuf (a : Hart) (r : Reg) (v : Word) : (a.setX r v).fetchBuf = a.fetchBuf := by unfold Hart.setX; split <;> rfl
@[simp] theorem Hart.setX_loopBuf (a : Hart) (r : Reg) (v : Word) : (a.setX r v).loopBuf = a.loopBuf := by unfold Hart.setX; split <;> rfl
@[simp] theorem Hart.setX_share (a : Hart) (r : Reg) (v : Word) : (a.setX r v).share = a.share := by unfold Hart.setX; split <;> rfl
@[simp] theorem Hart.setX_vcount (a : Hart) (r : Reg) (v : Word) : (a.setX r v).vcount = a.vcount := by unfold Hart.setX; split <;> rfl
@[simp] theorem Hart.setX_issuable (a : Hart) (r : Reg) (v : Word) : (a.setX r v).issuable = a.issuable := by unfold Hart.setX; split <;> rfl
@[simp] theorem Hart.setX_frozen (a : Hart) (r : Reg) (v : Word) : (a.setX r v).frozen = a.frozen := by unfold Hart.setX; split <;> rfl
@[simp] theorem Hart.setX_dstat (a : Hart) (r : Reg) (v : Word) : (a.setX r v).dstat = a.dstat := by unfold Hart.setX; split <;> rfl
@[simp] theorem Hart.setX_dskid (a : Hart) (r : Reg) (v : Word) : (a.setX r v).dskid = a.dskid := by unfold Hart.setX; split <;> rfl
@[simp] theorem Hart.setX_dctl (a : Hart) (r : Reg) (v : Word) : (a.setX r v).dctl = a.dctl := by unfold Hart.setX; split <;> rfl
@[simp] theorem Hart.setX_dinj (a : Hart) (r : Reg) (v : Word) : (a.setX r v).dinj = a.dinj := by unfold Hart.setX; split <;> rfl
@[simp] theorem Hart.setX_stops (a : Hart) (r : Reg) (v : Word) : (a.setX r v).stops = a.stops := by unfold Hart.setX; split <;> rfl
@[simp] theorem Hart.setX_stepping (a : Hart) (r : Reg) (v : Word) : (a.setX r v).stepping = a.stepping := by unfold Hart.setX; split <;> rfl
@[simp] theorem Hart.setX_skid (a : Hart) (r : Reg) (v : Word) : (a.setX r v).skid = a.skid := by unfold Hart.setX; split <;> rfl
@[simp] theorem Hart.setX_dz (a : Hart) (r : Reg) (v : Word) : (a.setX r v).dz = a.dz := by unfold Hart.setX; split <;> rfl
@[simp] theorem Hart.setK_run (a : Hart) (r : KReg) (v : BitVec 8192) : (a.setK r v).run = a.run := rfl
@[simp] theorem Hart.setK_kernel (a : Hart) (r : KReg) (v : BitVec 8192) : (a.setK r v).kernel = a.kernel := rfl
@[simp] theorem Hart.setK_supEnded (a : Hart) (r : KReg) (v : BitVec 8192) : (a.setK r v).supEnded = a.supEnded := rfl
@[simp] theorem Hart.setK_x (a : Hart) (r : KReg) (v : BitVec 8192) : (a.setK r v).x = a.x := rfl
@[simp] theorem Hart.setK_pc (a : Hart) (r : KReg) (v : BitVec 8192) : (a.setK r v).pc = a.pc := rfl
@[simp] theorem Hart.setK_vtype (a : Hart) (r : KReg) (v : BitVec 8192) : (a.setK r v).vtype = a.vtype := rfl
@[simp] theorem Hart.setK_vl (a : Hart) (r : KReg) (v : BitVec 8192) : (a.setK r v).vl = a.vl := rfl
@[simp] theorem Hart.setK_estart (a : Hart) (r : KReg) (v : BitVec 8192) : (a.setK r v).estart = a.estart := rfl
@[simp] theorem Hart.setK_fctl (a : Hart) (r : KReg) (v : BitVec 8192) : (a.setK r v).fctl = a.fctl := rfl
@[simp] theorem Hart.setK_dlmode (a : Hart) (r : KReg) (v : BitVec 8192) : (a.setK r v).dlmode = a.dlmode := rfl
@[simp] theorem Hart.setK_dlstat (a : Hart) (r : KReg) (v : BitVec 8192) : (a.setK r v).dlstat = a.dlstat := rfl
@[simp] theorem Hart.setK_rtime (a : Hart) (r : KReg) (v : BitVec 8192) : (a.setK r v).rtime = a.rtime := rfl
@[simp] theorem Hart.setK_dlcap (a : Hart) (r : KReg) (v : BitVec 8192) : (a.setK r v).dlcap = a.dlcap := rfl
@[simp] theorem Hart.setK_dlesc (a : Hart) (r : KReg) (v : BitVec 8192) : (a.setK r v).dlesc = a.dlesc := rfl
@[simp] theorem Hart.setK_pwbase (a : Hart) (r : KReg) (v : BitVec 8192) : (a.setK r v).pwbase = a.pwbase := rfl
@[simp] theorem Hart.setK_pwlen (a : Hart) (r : KReg) (v : BitVec 8192) : (a.setK r v).pwlen = a.pwlen := rfl
@[simp] theorem Hart.setK_pwctl (a : Hart) (r : KReg) (v : BitVec 8192) : (a.setK r v).pwctl = a.pwctl := rfl
@[simp] theorem Hart.setK_hstat (a : Hart) (r : KReg) (v : BitVec 8192) : (a.setK r v).hstat = a.hstat := rfl
@[simp] theorem Hart.setK_tcause (a : Hart) (r : KReg) (v : BitVec 8192) : (a.setK r v).tcause = a.tcause := rfl
@[simp] theorem Hart.setK_tval (a : Hart) (r : KReg) (v : BitVec 8192) : (a.setK r v).tval = a.tval := rfl
@[simp] theorem Hart.setK_trappc (a : Hart) (r : KReg) (v : BitVec 8192) : (a.setK r v).trappc = a.trappc := rfl
@[simp] theorem Hart.setK_trapei (a : Hart) (r : KReg) (v : BitVec 8192) : (a.setK r v).trapei = a.trapei := rfl
@[simp] theorem Hart.setK_edone (a : Hart) (r : KReg) (v : BitVec 8192) : (a.setK r v).edone = a.edone := rfl
@[simp] theorem Hart.setK_fmask (a : Hart) (r : KReg) (v : BitVec 8192) : (a.setK r v).fmask = a.fmask := rfl
@[simp] theorem Hart.setK_smiss (a : Hart) (r : KReg) (v : BitVec 8192) : (a.setK r v).smiss = a.smiss := rfl
@[simp] theorem Hart.setK_defs (a : Hart) (r : KReg) (v : BitVec 8192) : (a.setK r v).defs = a.defs := rfl
@[simp] theorem Hart.setK_loops (a : Hart) (r : KReg) (v : BitVec 8192) : (a.setK r v).loops = a.loops := rfl
@[simp] theorem Hart.setK_grpCeil (a : Hart) (r : KReg) (v : BitVec 8192) : (a.setK r v).grpCeil = a.grpCeil := rfl
@[simp] theorem Hart.setK_queue (a : Hart) (r : KReg) (v : BitVec 8192) : (a.setK r v).queue = a.queue := rfl
@[simp] theorem Hart.setK_wait (a : Hart) (r : KReg) (v : BitVec 8192) : (a.setK r v).wait = a.wait := rfl
@[simp] theorem Hart.setK_tileSince (a : Hart) (r : KReg) (v : BitVec 8192) : (a.setK r v).tileSince = a.tileSince := rfl
@[simp] theorem Hart.setK_links (a : Hart) (r : KReg) (v : BitVec 8192) : (a.setK r v).links = a.links := rfl
@[simp] theorem Hart.setK_lanes (a : Hart) (r : KReg) (v : BitVec 8192) : (a.setK r v).lanes = a.lanes := rfl
@[simp] theorem Hart.setK_dropped (a : Hart) (r : KReg) (v : BitVec 8192) : (a.setK r v).dropped = a.dropped := rfl
@[simp] theorem Hart.setK_addLines (a : Hart) (r : KReg) (v : BitVec 8192) : (a.setK r v).addLines = a.addLines := rfl
@[simp] theorem Hart.setK_task (a : Hart) (r : KReg) (v : BitVec 8192) : (a.setK r v).task = a.task := rfl
@[simp] theorem Hart.setK_parkedTask (a : Hart) (r : KReg) (v : BitVec 8192) : (a.setK r v).parkedTask = a.parkedTask := rfl
@[simp] theorem Hart.setK_streams (a : Hart) (r : KReg) (v : BitVec 8192) : (a.setK r v).streams = a.streams := rfl
@[simp] theorem Hart.setK_satp (a : Hart) (r : KReg) (v : BitVec 8192) : (a.setK r v).satp = a.satp := rfl
@[simp] theorem Hart.setK_ctx (a : Hart) (r : KReg) (v : BitVec 8192) : (a.setK r v).ctx = a.ctx := rfl
@[simp] theorem Hart.setK_xreason (a : Hart) (r : KReg) (v : BitVec 8192) : (a.setK r v).xreason = a.xreason := rfl
@[simp] theorem Hart.setK_batch (a : Hart) (r : KReg) (v : BitVec 8192) : (a.setK r v).batch = a.batch := rfl
@[simp] theorem Hart.setK_preempt (a : Hart) (r : KReg) (v : BitVec 8192) : (a.setK r v).preempt = a.preempt := rfl
@[simp] theorem Hart.setK_fetchBuf (a : Hart) (r : KReg) (v : BitVec 8192) : (a.setK r v).fetchBuf = a.fetchBuf := rfl
@[simp] theorem Hart.setK_loopBuf (a : Hart) (r : KReg) (v : BitVec 8192) : (a.setK r v).loopBuf = a.loopBuf := rfl
@[simp] theorem Hart.setK_share (a : Hart) (r : KReg) (v : BitVec 8192) : (a.setK r v).share = a.share := rfl
@[simp] theorem Hart.setK_vcount (a : Hart) (r : KReg) (v : BitVec 8192) : (a.setK r v).vcount = a.vcount := rfl
@[simp] theorem Hart.setK_issuable (a : Hart) (r : KReg) (v : BitVec 8192) : (a.setK r v).issuable = a.issuable := rfl
@[simp] theorem Hart.setK_frozen (a : Hart) (r : KReg) (v : BitVec 8192) : (a.setK r v).frozen = a.frozen := rfl
@[simp] theorem Hart.setK_dstat (a : Hart) (r : KReg) (v : BitVec 8192) : (a.setK r v).dstat = a.dstat := rfl
@[simp] theorem Hart.setK_dskid (a : Hart) (r : KReg) (v : BitVec 8192) : (a.setK r v).dskid = a.dskid := rfl
@[simp] theorem Hart.setK_dctl (a : Hart) (r : KReg) (v : BitVec 8192) : (a.setK r v).dctl = a.dctl := rfl
@[simp] theorem Hart.setK_dinj (a : Hart) (r : KReg) (v : BitVec 8192) : (a.setK r v).dinj = a.dinj := rfl
@[simp] theorem Hart.setK_stops (a : Hart) (r : KReg) (v : BitVec 8192) : (a.setK r v).stops = a.stops := rfl
@[simp] theorem Hart.setK_stepping (a : Hart) (r : KReg) (v : BitVec 8192) : (a.setK r v).stepping = a.stepping := rfl
@[simp] theorem Hart.setK_skid (a : Hart) (r : KReg) (v : BitVec 8192) : (a.setK r v).skid = a.skid := rfl
@[simp] theorem Hart.setK_dz (a : Hart) (r : KReg) (v : BitVec 8192) : (a.setK r v).dz = a.dz := rfl

/-- x0 reads 0 (R22). -/
@[simp] theorem Hart.getX_zero (a : Hart) : a.getX 0 = 0 := rfl

/-- A register reads what was written to it; x0 discards the write, and no other register changes. -/
theorem Hart.getX_setX (a : Hart) (r q : Reg) (v : Word) : (a.setX r v).getX q = if q = r ∧ r ≠ 0 then v else a.getX q := by
  unfold Hart.setX
  by_cases h : r = 0
  · rw [if_pos h, if_neg (fun t => t.2 h)]
  · rw [if_neg h]
    unfold Hart.getX
    by_cases g : q = 0
    · rw [if_pos g, if_pos g, if_neg (fun (t : q = r ∧ r ≠ 0) => h (t.1 ▸ g))]
    · rw [if_neg g, if_neg g]
      by_cases e : q = r
      · subst e; rw [if_pos ⟨rfl, h⟩]; exact Vector.getElem_set_self _
      · have n : r.toNat ≠ q.toNat := fun t => e (BitVec.eq_of_toNat_eq t.symm)
        rw [if_neg (fun t => e t.1)]; exact Vector.getElem_set_ne (by omega) (by omega) n

/-- A mask register reads what was written to it, and no other mask register changes. -/
theorem Hart.getK_setK (a : Hart) (r q : KReg) (v : BitVec 8192) : (a.setK r v).getK q = if q = r then v else a.getK q := by
  unfold Hart.setK Hart.getK
  by_cases e : q = r
  · subst e; simp
  · have : r.toNat ≠ q.toNat := fun t => e (BitVec.eq_of_toNat_eq t.symm)
    simp [e, Vector.getElem_set_ne, this]

/-! ### The PC goes on: only the PC, the loop levels and a loop counter change (R114) -/

/-- What the end check of R114 changes. -/
theorem Hart.endCheck_cases (n : Nat) (a : Hart) :
    ∃ p l, (a.endCheck n = { a with pc := p, loops := l }) ∨
      ∃ r v, a.endCheck n = { a.setX r v with pc := p, loops := l } := by
  induction n generalizing a with
  | zero => exact ⟨_, _, .inl rfl⟩
  | succ n ih =>
    unfold Hart.endCheck
    split
    · exact ih a
    · split
      · exact ih a
      · split
        · exact ⟨_, _, .inr ⟨_, _, rfl⟩⟩
        · obtain ⟨p, l, h⟩ := ih { a with loops := a.loops.set! n none }
          refine ⟨p, l, ?_⟩
          rcases h with h | ⟨r, v, h⟩
          · exact .inl h
          · refine .inr ⟨r, v, ?_⟩
            rw [h]; unfold Hart.setX; split <;> rfl

/-- What going on changes. -/
theorem Hart.advance_cases (a : Hart) :
    ∃ p l, (a.advance = { a with pc := p, loops := l }) ∨ ∃ r v, a.advance = { a.setX r v with pc := p, loops := l } := by
  unfold Hart.advance
  split
  · exact ⟨_, a.loops, .inl rfl⟩
  · exact Hart.endCheck_cases 6 a

/-- With no level armed, going on adds 4 to the PC and does nothing else. -/
theorem Hart.advance_idle (a : Hart) (h : a.loops = Vector.replicate 6 none) : a.advance = { a with pc := a.pc + 4 } := by
  unfold Hart.advance
  have : (a.loops.all fun l => l.isNone) = true := by rw [h]; simp
  simp [this]

@[simp] theorem Hart.advance_run (a : Hart) : a.advance.run = a.run := by
  obtain ⟨p, l, h | ⟨r, v, h⟩⟩ := a.advance_cases <;> simp [h]
@[simp] theorem Hart.advance_kernel (a : Hart) : a.advance.kernel = a.kernel := by
  obtain ⟨p, l, h | ⟨r, v, h⟩⟩ := a.advance_cases <;> simp [h]
@[simp] theorem Hart.advance_supEnded (a : Hart) : a.advance.supEnded = a.supEnded := by
  obtain ⟨p, l, h | ⟨r, v, h⟩⟩ := a.advance_cases <;> simp [h]
@[simp] theorem Hart.advance_k (a : Hart) : a.advance.k = a.k := by
  obtain ⟨p, l, h | ⟨r, v, h⟩⟩ := a.advance_cases <;> simp [h]
@[simp] theorem Hart.advance_vtype (a : Hart) : a.advance.vtype = a.vtype := by
  obtain ⟨p, l, h | ⟨r, v, h⟩⟩ := a.advance_cases <;> simp [h]
@[simp] theorem Hart.advance_vl (a : Hart) : a.advance.vl = a.vl := by
  obtain ⟨p, l, h | ⟨r, v, h⟩⟩ := a.advance_cases <;> simp [h]
@[simp] theorem Hart.advance_estart (a : Hart) : a.advance.estart = a.estart := by
  obtain ⟨p, l, h | ⟨r, v, h⟩⟩ := a.advance_cases <;> simp [h]
@[simp] theorem Hart.advance_fctl (a : Hart) : a.advance.fctl = a.fctl := by
  obtain ⟨p, l, h | ⟨r, v, h⟩⟩ := a.advance_cases <;> simp [h]
@[simp] theorem Hart.advance_dlmode (a : Hart) : a.advance.dlmode = a.dlmode := by
  obtain ⟨p, l, h | ⟨r, v, h⟩⟩ := a.advance_cases <;> simp [h]
@[simp] theorem Hart.advance_dlstat (a : Hart) : a.advance.dlstat = a.dlstat := by
  obtain ⟨p, l, h | ⟨r, v, h⟩⟩ := a.advance_cases <;> simp [h]
@[simp] theorem Hart.advance_rtime (a : Hart) : a.advance.rtime = a.rtime := by
  obtain ⟨p, l, h | ⟨r, v, h⟩⟩ := a.advance_cases <;> simp [h]
@[simp] theorem Hart.advance_dlcap (a : Hart) : a.advance.dlcap = a.dlcap := by
  obtain ⟨p, l, h | ⟨r, v, h⟩⟩ := a.advance_cases <;> simp [h]
@[simp] theorem Hart.advance_dlesc (a : Hart) : a.advance.dlesc = a.dlesc := by
  obtain ⟨p, l, h | ⟨r, v, h⟩⟩ := a.advance_cases <;> simp [h]
@[simp] theorem Hart.advance_pwbase (a : Hart) : a.advance.pwbase = a.pwbase := by
  obtain ⟨p, l, h | ⟨r, v, h⟩⟩ := a.advance_cases <;> simp [h]
@[simp] theorem Hart.advance_pwlen (a : Hart) : a.advance.pwlen = a.pwlen := by
  obtain ⟨p, l, h | ⟨r, v, h⟩⟩ := a.advance_cases <;> simp [h]
@[simp] theorem Hart.advance_pwctl (a : Hart) : a.advance.pwctl = a.pwctl := by
  obtain ⟨p, l, h | ⟨r, v, h⟩⟩ := a.advance_cases <;> simp [h]
@[simp] theorem Hart.advance_hstat (a : Hart) : a.advance.hstat = a.hstat := by
  obtain ⟨p, l, h | ⟨r, v, h⟩⟩ := a.advance_cases <;> simp [h]
@[simp] theorem Hart.advance_tcause (a : Hart) : a.advance.tcause = a.tcause := by
  obtain ⟨p, l, h | ⟨r, v, h⟩⟩ := a.advance_cases <;> simp [h]
@[simp] theorem Hart.advance_tval (a : Hart) : a.advance.tval = a.tval := by
  obtain ⟨p, l, h | ⟨r, v, h⟩⟩ := a.advance_cases <;> simp [h]
@[simp] theorem Hart.advance_trappc (a : Hart) : a.advance.trappc = a.trappc := by
  obtain ⟨p, l, h | ⟨r, v, h⟩⟩ := a.advance_cases <;> simp [h]
@[simp] theorem Hart.advance_trapei (a : Hart) : a.advance.trapei = a.trapei := by
  obtain ⟨p, l, h | ⟨r, v, h⟩⟩ := a.advance_cases <;> simp [h]
@[simp] theorem Hart.advance_edone (a : Hart) : a.advance.edone = a.edone := by
  obtain ⟨p, l, h | ⟨r, v, h⟩⟩ := a.advance_cases <;> simp [h]
@[simp] theorem Hart.advance_fmask (a : Hart) : a.advance.fmask = a.fmask := by
  obtain ⟨p, l, h | ⟨r, v, h⟩⟩ := a.advance_cases <;> simp [h]
@[simp] theorem Hart.advance_smiss (a : Hart) : a.advance.smiss = a.smiss := by
  obtain ⟨p, l, h | ⟨r, v, h⟩⟩ := a.advance_cases <;> simp [h]
@[simp] theorem Hart.advance_defs (a : Hart) : a.advance.defs = a.defs := by
  obtain ⟨p, l, h | ⟨r, v, h⟩⟩ := a.advance_cases <;> simp [h]
@[simp] theorem Hart.advance_grpCeil (a : Hart) : a.advance.grpCeil = a.grpCeil := by
  obtain ⟨p, l, h | ⟨r, v, h⟩⟩ := a.advance_cases <;> simp [h]
@[simp] theorem Hart.advance_queue (a : Hart) : a.advance.queue = a.queue := by
  obtain ⟨p, l, h | ⟨r, v, h⟩⟩ := a.advance_cases <;> simp [h]
@[simp] theorem Hart.advance_wait (a : Hart) : a.advance.wait = a.wait := by
  obtain ⟨p, l, h | ⟨r, v, h⟩⟩ := a.advance_cases <;> simp [h]
@[simp] theorem Hart.advance_tileSince (a : Hart) : a.advance.tileSince = a.tileSince := by
  obtain ⟨p, l, h | ⟨r, v, h⟩⟩ := a.advance_cases <;> simp [h]
@[simp] theorem Hart.advance_links (a : Hart) : a.advance.links = a.links := by
  obtain ⟨p, l, h | ⟨r, v, h⟩⟩ := a.advance_cases <;> simp [h]
@[simp] theorem Hart.advance_lanes (a : Hart) : a.advance.lanes = a.lanes := by
  obtain ⟨p, l, h | ⟨r, v, h⟩⟩ := a.advance_cases <;> simp [h]
@[simp] theorem Hart.advance_dropped (a : Hart) : a.advance.dropped = a.dropped := by
  obtain ⟨p, l, h | ⟨r, v, h⟩⟩ := a.advance_cases <;> simp [h]
@[simp] theorem Hart.advance_addLines (a : Hart) : a.advance.addLines = a.addLines := by
  obtain ⟨p, l, h | ⟨r, v, h⟩⟩ := a.advance_cases <;> simp [h]
@[simp] theorem Hart.advance_task (a : Hart) : a.advance.task = a.task := by
  obtain ⟨p, l, h | ⟨r, v, h⟩⟩ := a.advance_cases <;> simp [h]
@[simp] theorem Hart.advance_parkedTask (a : Hart) : a.advance.parkedTask = a.parkedTask := by
  obtain ⟨p, l, h | ⟨r, v, h⟩⟩ := a.advance_cases <;> simp [h]
@[simp] theorem Hart.advance_streams (a : Hart) : a.advance.streams = a.streams := by
  obtain ⟨p, l, h | ⟨r, v, h⟩⟩ := a.advance_cases <;> simp [h]
@[simp] theorem Hart.advance_satp (a : Hart) : a.advance.satp = a.satp := by
  obtain ⟨p, l, h | ⟨r, v, h⟩⟩ := a.advance_cases <;> simp [h]
@[simp] theorem Hart.advance_ctx (a : Hart) : a.advance.ctx = a.ctx := by
  obtain ⟨p, l, h | ⟨r, v, h⟩⟩ := a.advance_cases <;> simp [h]
@[simp] theorem Hart.advance_xreason (a : Hart) : a.advance.xreason = a.xreason := by
  obtain ⟨p, l, h | ⟨r, v, h⟩⟩ := a.advance_cases <;> simp [h]
@[simp] theorem Hart.advance_batch (a : Hart) : a.advance.batch = a.batch := by
  obtain ⟨p, l, h | ⟨r, v, h⟩⟩ := a.advance_cases <;> simp [h]
@[simp] theorem Hart.advance_preempt (a : Hart) : a.advance.preempt = a.preempt := by
  obtain ⟨p, l, h | ⟨r, v, h⟩⟩ := a.advance_cases <;> simp [h]
@[simp] theorem Hart.advance_fetchBuf (a : Hart) : a.advance.fetchBuf = a.fetchBuf := by
  obtain ⟨p, l, h | ⟨r, v, h⟩⟩ := a.advance_cases <;> simp [h]
@[simp] theorem Hart.advance_loopBuf (a : Hart) : a.advance.loopBuf = a.loopBuf := by
  obtain ⟨p, l, h | ⟨r, v, h⟩⟩ := a.advance_cases <;> simp [h]
@[simp] theorem Hart.advance_share (a : Hart) : a.advance.share = a.share := by
  obtain ⟨p, l, h | ⟨r, v, h⟩⟩ := a.advance_cases <;> simp [h]
@[simp] theorem Hart.advance_vcount (a : Hart) : a.advance.vcount = a.vcount := by
  obtain ⟨p, l, h | ⟨r, v, h⟩⟩ := a.advance_cases <;> simp [h]
@[simp] theorem Hart.advance_issuable (a : Hart) : a.advance.issuable = a.issuable := by
  obtain ⟨p, l, h | ⟨r, v, h⟩⟩ := a.advance_cases <;> simp [h]
@[simp] theorem Hart.advance_frozen (a : Hart) : a.advance.frozen = a.frozen := by
  obtain ⟨p, l, h | ⟨r, v, h⟩⟩ := a.advance_cases <;> simp [h]
@[simp] theorem Hart.advance_dstat (a : Hart) : a.advance.dstat = a.dstat := by
  obtain ⟨p, l, h | ⟨r, v, h⟩⟩ := a.advance_cases <;> simp [h]
@[simp] theorem Hart.advance_dskid (a : Hart) : a.advance.dskid = a.dskid := by
  obtain ⟨p, l, h | ⟨r, v, h⟩⟩ := a.advance_cases <;> simp [h]
@[simp] theorem Hart.advance_dctl (a : Hart) : a.advance.dctl = a.dctl := by
  obtain ⟨p, l, h | ⟨r, v, h⟩⟩ := a.advance_cases <;> simp [h]
@[simp] theorem Hart.advance_dinj (a : Hart) : a.advance.dinj = a.dinj := by
  obtain ⟨p, l, h | ⟨r, v, h⟩⟩ := a.advance_cases <;> simp [h]
@[simp] theorem Hart.advance_stops (a : Hart) : a.advance.stops = a.stops := by
  obtain ⟨p, l, h | ⟨r, v, h⟩⟩ := a.advance_cases <;> simp [h]
@[simp] theorem Hart.advance_stepping (a : Hart) : a.advance.stepping = a.stepping := by
  obtain ⟨p, l, h | ⟨r, v, h⟩⟩ := a.advance_cases <;> simp [h]
@[simp] theorem Hart.advance_skid (a : Hart) : a.advance.skid = a.skid := by
  obtain ⟨p, l, h | ⟨r, v, h⟩⟩ := a.advance_cases <;> simp [h]
@[simp] theorem Hart.advance_dz (a : Hart) : a.advance.dz = a.dz := by
  obtain ⟨p, l, h | ⟨r, v, h⟩⟩ := a.advance_cases <;> simp [h]

end Sys2Proof.Machine
end

