-- ==== Sys2Proof/Tests/Slice0.lean ====
section
/-! SUPPORT. Tests on fixed values: ill-formed terms that are refused, words of the spec and what they decode to, single steps with the results
the spec gives, and for each statement a state and operands that meet its hypotheses. -/
namespace Sys2Proof.Tests
open Sys2Proof Sys2Proof.Machine
set_option Elab.async false

/-! ### WellFormed: each check refuses an ill-formed term -/

/-- R92 and others: a field that may not be 0, an odd register of a pair, or the zero word. -/
theorem test_wf_mask : (([
    .add 0 0 0, .vsel 0 0 0 0 0 0 0, .vsc 0 0 0 0 0 0, .vscw 0 0 0 0 0 0, .twait 0 0 0, .mgwait 0 0 0, .qsend 1 0 0 0,
    .qrecv 1 0 0 0, .mgpush 0 0 0 0 0 0] : List Instr).all fun i => !i.wf) = true := by decide +kernel

/-- R82: a rounding selection above 4. -/
theorem test_wf_round : (([
    .faddF32 0 0 0 5, .fsubF32 0 0 0 5, .fmulF32 0 0 0 5, .fdivF32 0 0 0 5, .fsqrtF32 0 0 5, .fcvtToI64F32 0 0 5,
    .fcvtToN64F32 0 0 5, .fcvtFromI64F32 0 0 5, .fcvtFromN64F32 0 0 5, .fcvtFromFloatF32 0 0 5 0, .faddF16 0 0 0 5,
    .fsubF16 0 0 0 5, .fmulF16 0 0 0 5, .fdivF16 0 0 0 5, .fsqrtF16 0 0 5, .fcvtToI64F16 0 0 5, .fcvtToN64F16 0 0 5,
    .fcvtFromI64F16 0 0 5, .fcvtFromN64F16 0 0 5, .fcvtFromFloatF16 0 0 5 0, .faddBf16 0 0 0 5, .fsubBf16 0 0 0 5,
    .fmulBf16 0 0 0 5, .fdivBf16 0 0 0 5, .fsqrtBf16 0 0 5, .fcvtToI64Bf16 0 0 5, .fcvtToN64Bf16 0 0 5,
    .fcvtFromI64Bf16 0 0 5, .fcvtFromN64Bf16 0 0 5, .fcvtFromFloatBf16 0 0 5 0] : List Instr).all fun i => !i.wf) = true := by decide +kernel

/-- R84: an FCVT from its own format, or from a code that is no float. -/
theorem test_wf_source : (([
    .fcvtFromFloatF32 0 0 0 8, .fcvtFromFloatF32 0 0 0 7, .fcvtFromFloatF16 0 0 0 9, .fcvtFromFloatF16 0 0 0 7,
    .fcvtFromFloatBf16 0 0 0 10, .fcvtFromFloatBf16 0 0 0 7] : List Instr).all fun i => !i.wf) = true := by decide +kernel

/-- R80 to R92: a field above its greatest value. -/
theorem test_wf_bound : (([
    .fmadd 0 0 0 0 3 0, .fmadd 0 0 0 0 0 5, .loop 0 6 1, .loop 0 0 16384, .loop 0 0 0, .vcvt 0 0 14 0 0 1,
    .vcvt 0 0 1 0 0 14, .vcvtsn 0 0 0 9 0 0, .vcvtsw 0 0 0 9 0 0 0, .vscale 0 0 9 0 0, .vredsum 0 0 0 7 0 0 0,
    .vredmax 0 0 0 7 0 0 0, .vredmin 0 0 0 7 0 0 0, .vidx 0 0 0 8, .mmas 30 0 11 0 0, .mmag 31 0 11 0 0, .vldz 0 0 0 8,
    .aadd 0 0 0 0 7 0, .aand 0 0 0 0 7 0, .aor 0 0 0 0 7 0, .axor 0 0 0 0 7 0, .amin 0 0 0 0 7 0, .amax 0 0 0 0 7 0,
    .aminu 0 0 0 0 7 0, .amaxu 0 0 0 0 7 0, .aswap 0 0 0 0 7 0, .acas 0 0 0 0 7 0, .fence 0 0 0 7, .bar 0 0 0 7,
    .bar 0 0 0 0, .waita 0 0 0 7, .vwaita 0 0 0 7, .phend 0 0 7, .qsend 0 0 0 7, .qrecv 0 0 0 7] : List Instr).all fun i => !i.wf) = true := by decide +kernel

/-- R87: a format code above 10. -/
theorem test_wf_arith : (([
    .vaddVv 0 0 0 11 0 0 0, .vaddVx 0 0 0 11 0 0, .vsubVv 0 0 0 11 0 0 0, .vsubVx 0 0 0 11 0 0, .vmulVv 0 0 0 11 0 0 0,
    .vmulVx 0 0 0 11 0 0, .vfmaVv 0 0 0 11 0 0 0, .vfmaVx 0 0 0 11 0 0, .vmin 0 0 0 11 0 0 0, .vmax 0 0 0 11 0 0 0,
    .vcmpeqVv 0 0 0 11 0 0 0, .vcmpneVv 0 0 0 11 0 0 0, .vcmpltVv 0 0 0 11 0 0 0, .vcmpleVv 0 0 0 11 0 0 0,
    .vcmpeqVx 0 0 0 11 0 0, .vcmpneVx 0 0 0 11 0 0, .vcmpltVx 0 0 0 11 0 0, .vcmpleVx 0 0 0 11 0 0, .vclamp 0 0 0 11 0 0 0] : List Instr).all fun i => !i.wf) = true := by decide +kernel

/-- R27, R84, R141, R162: a format code that the instruction does not list. -/
theorem test_wf_format : (([
    .vdiv 0 0 0 15 0 0 0, .vsqrt 0 0 15 0 0, .vcvt 0 0 1 0 0 1, .vconfl 0 0 15 0 0, .setvl 0 0 0 0 15, .setvl 0 0 0 0 23,
    .mma 0 0 15 0 0, .mmas 0 0 15 0 0, .mmag 0 0 15 0 0, .acrd 0 15 0, .acwr 0 15 0, .vscadd 0 0 0 15 0 0] : List Instr).all fun i => !i.wf) = true := by decide +kernel

/-- R1: a unit that does not exist, or a list of the wrong length. -/
theorem test_wf_unit : (([
    .entryIssue 640, .laneGroupStart 640 0, .laneGroupStart 0 4, .entryComplete 2560, .trapEntry 2560, .asyncStop 2560,
    .waitWake 2560, .waitDeadlineExpiry 2560, .nvmeCompletion ⟨0, 64⟩ 0, .streamEntryFetched 2560 0, .streamEntryFetched 0 2, .scatterAddPerform 640,
    .mergePassEnd 40, .mergeDrainComplete 40, .l2WriteBack 640 0 false, .taskSummaryRetest 40, .doorbellWrite 64 0,
    .startRecordTake 64, .launchGrant 64 [], .recordAged 64, .cxlMemWrite 0 [], .fabricFlitReplay 16 false,
    .fabricLinkDown 16, .fabricReadRequest 0 0 4 false [], .haltArrival 2560, .stepReport 2560, .debugInject 2560 0,
    .stopUnitFire 2560 0, .stopUnitFire 0 4, .ridgepoleGrantTick ⟨0, []⟩ false, .powerOnStart [] [] ⟨[], []⟩ [], .keyctlOpen 4096,
    .keyctlClose 4096, .mergeAssignWrite 40 0, .hostQueueCtlWrite 64 0 0 0, .preemptRequestPost 2560 0,
    .engineRecordDiscard 2560 0, .engineRecordDiscard 0 19, .satpWrite 2560 0 0, .satpWrite 0 2 0, .loadDataArrival 2560] : List Instr).all fun i => !i.wf) = true := by decide +kernel

/-! ### Decode: words of the spec, written out from its encodings -/

/-- R81: mulhu x7, x8, x9: op 0, d 7, a 8, b 9, fn 16. -/
theorem test_decode_integer : decode (0x80128380 : W32) = .ok (.mulhu 7 8 9) := by decide +kernel
/-- R84: fcvt.bf16.f32 x3, x4, rtz. -/
theorem test_decode_float : decode (0x7090418C : W32) = .ok (.fcvtFromFloatBf16 3 4 2 8) := by decide +kernel
/-- R86: crr x5, VL and loop x10, 0, +5 and bne x10, x0, -6 and yield.p. -/
theorem test_decode_system : decode (0x000202A0 : W32) = .ok (.crr 5 1) ∧ decode (0x000A0522 : W32) = .ok (.loop 10 0 5) ∧
    decode (0xFFF4051B : W32) = .ok (.bne 10 0 0x7FFA) ∧ decode (0x20000021 : W32) = .ok .yieldP := by decide +kernel
/-- R131, R133: vdef v4, x6, x7 and setvl x5, x10, e4m3, 32, g2. -/
theorem test_decode_names : decode (0x000E6251 : W32) = .ok (.vdef 4 6 7) ∧ decode (0x0196A2D0 : W32) = .ok (.setvl 5 10 1 2 11) := by
  decide +kernel
/-- R135 to R142: vadd.i32 v5, v3!, v4; vfma.f32 v6, v1, x13, k2; vsra.i32 v1, v1, 3; vsel v4, v1, v2, k3; vclamp.f32 v2, v8, v9; vcvtsn. -/
theorem test_decode_vector : decode (0x120832B0 : W32) = .ok (.vaddVv 5 3 4 2 0 1 0) ∧
    decode (0x409A1337 : W32) = .ok (.vfmaVx 6 1 13 8 0 2) ∧ decode (0xB00610BF : W32) = .ok (.vsra 1 1 3 1 2 0 0) ∧
    decode (0x10C41240 : W32) = .ok (.vsel 4 1 2 2 0 0 3) ∧ decode (0x40128141 : W32) = .ok (.vclamp 2 8 9 8 0 0 0) ∧
    decode (0x000A1243 : W32) = .ok (.vcvtsn 4 1 5 0 0 0) := by decide +kernel
/-- R144 to R150: vredsum, vcompress, vconfl, vslideup, vmv, vbcast, vgetx, vputx, kand, kpop, vidx. -/
theorem test_decode_moves : decode (0x000413C6 : W32) = .ok (.vredsum 7 1 2 0 0 0 0) ∧
    decode (0x104011C7 : W32) = .ok (.vcompress 3 1 2 0 1) ∧ decode (0x30403148 : W32) = .ok (.vconfl 2 3 6 0 1) ∧
    decode (0x30022149 : W32) = .ok (.vslideup 2 2 1 1 2 0 0) ∧ decode (0x1000534A : W32) = .ok (.vmv 6 5 2 0 0) ∧
    decode (0x301A014A : W32) = .ok (.vbcast 2 13 2) ∧ decode (0x501424CA : W32) = .ok (.vgetx 9 2 10 2) ∧
    decode (0x7014914A : W32) = .ok (.vputx 2 9 10 2) ∧ decode (0x000411CB : W32) = .ok (.kand 3 1 2) ∧
    decode (0x280024CB : W32) = .ok (.kpop 9 2) ∧ decode (0x000221CD : W32) = .ok (.vidx 3 0 1 2) := by decide +kernel
/-- R162, R167: mma.e4m3 v8, x5, x6; mmas.e2m1 v10, x5, x6; aczero x7, x6; acrd.f32 v3, x6; acwr.bf16 x6, v3. -/
theorem test_decode_matrix : decode (0x02CC5458 : W32) = .ok (.mma 8 0 11 6 5) ∧ decode (0x0B4C5558 : W32) = .ok (.mmas 10 0 13 6 5) ∧
    decode (0x000C7059 : W32) = .ok (.aczero 6 7) ∧ decode (0x0A0C01D9 : W32) = .ok (.acrd 3 8 6) ∧
    decode (0x128C01D9 : W32) = .ok (.acwr 3 10 6) := by decide +kernel
/-- R89, R190: vld.f32 v1, [x11 + 64]; vlds, vldi, vldro, vsti, vgl, vsc, vscadd, vldz. -/
theorem test_decode_memory : decode (0x0080B0E2 : W32) = .ok (.vld 1 11 64 2) ∧ decode (0x8818B0E8 : W32) = .ok (.vlds 1 11 12 2 0) ∧
    decode (0x9004B1E8 : W32) = .ok (.vldi 3 11 2 2 0 0) ∧ decode (0xA000B0E8 : W32) = .ok (.vldro 1 11 2 0) ∧
    decode (0x9004B1E9 : W32) = .ok (.vsti 3 11 2 2 0 0) ∧ decode (0x2006B272 : W32) = .ok (.vgl 4 11 3 0 0 0) ∧
    decode (0x6086B2F2 : W32) = .ok (.vsc 5 11 3 0 0 2) ∧ decode (0x4006B2F3 : W32) = .ok (.vscadd 5 11 3 8 0 0) ∧
    decode (0x2018B0EC : W32) = .ok (.vldz 1 11 12 4) ∧ decode (0x29CCA2F1 : W32) = .ok (.acas 5 10 6 7 1 1) := by decide +kernel
/-- R198 to R214: sqopen, sqpop, sqclose, tfetch, tdrain, acopy, bankop zsum, cmread, fread, tilerel, tilewait. -/
theorem test_decode_engines : decode (0x01CC5A6A : W32) = .ok (.sqopen 20 5 6 7) ∧ decode (0x00EC5A6B : W32) = .ok (.sqpop 20 5 22 0 3) ∧
    decode (0x08005AEA : W32) = .ok (.sqclose 21 5) ∧ decode (0x01CC5A6D : W32) = .ok (.tfetch 20 5 6 7) ∧
    decode (0x11CC5A6D : W32) = .ok (.tdrain 20 5 6 7) ∧ decode (0x0A928A6D : W32) = .ok (.acopy 20 8 9 10) ∧
    decode (0x32928A6E : W32) = .ok (.bankopZsum 20 8 9 10) ∧ decode (0x1000B2F6 : W32) = .ok (.cmread 5 11) ∧
    decode (0x02928A6F : W32) = .ok (.fread 20 8 9 10) ∧ decode (0x0000505A : W32) = .ok (.tilerel 5) ∧
    decode (0x002C5A5B : W32) = .ok (.tilewait 20 5 22 0) := by decide +kernel
/-- R253 to R281, R303: nawait, phend, bar, waita, vwaita, qsend, twait with x0 and x5, mgwait. -/
theorem test_decode_waits : decode (0x002C3A4C : W32) = .ok (.nawait 20 3 22) ∧ decode (0x20AC0A74 : W32) = .ok (.phend 20 22 2) ∧
    decode (0x08AC5A74 : W32) = .ok (.bar 20 5 22 2) ∧ decode (0x112C5A74 : W32) = .ok (.waita 20 5 22 4) ∧
    decode (0x186C5A74 : W32) = .ok (.vwaita 20 5 22 1) ∧ decode (0x012C5A75 : W32) = .ok (.qsend 20 5 22 4) ∧
    decode (0x282C0A74 : W32) = .ok (.twaitTake 20 22) ∧ decode (0x282C5A74 : W32) = .ok (.twait 20 5 22) ∧
    decode (0x302D0A74 : W32) = .ok (.mgwait 20 16 22) := by decide +kernel
/-- R272 to R302, R368: tsub, tchk, tdone, mgpush, mgopen, mgclose, mgdrain, fgather, freduce, fflag, fcoll. -/
theorem test_decode_tasks : decode (0x001AB678 : W32) = .ok (.tsub 12 11 13 0) ∧ decode (0x000004F9 : W32) = .ok (.tchk 9) ∧
    decode (0x08000079 : W32) = .ok (.tdone 0) ∧ decode (0x004620FB : W32) = .ok (.mgpush 1 2 3 0 0 1) ∧
    decode (0x0000D77A : W32) = .ok (.mgopen 14 13) ∧ decode (0x080007FA : W32) = .ok (.mgclose 15) ∧
    decode (0x1000087A : W32) = .ok (.mgdrain 16) ∧ decode (0x02928A7C : W32) = .ok (.fgather 20 8 9 10) ∧
    decode (0x0A928A7C : W32) = .ok (.freduce 20 8 9 10) ∧ decode (0x12928A7C : W32) = .ok (.fflag 20 8 9 10) ∧
    decode (0x18008A7C : W32) = .ok (.fcoll 20 8) := by decide +kernel
/-- R92: the zero word, opcode 0x7F, and a reserved field that is not zero are no instruction. -/
theorem test_decode_illegal : decode (0 : W32) = .error .zeroWord ∧ decode (0x7F : W32) = .error .unassigned ∧
    (decode (0x80128380 ||| 0x04000000 : W32)).toOption = none := by decide +kernel
/-- The row numbering of the table: bit 0 is the lowest bit of the word. -/
theorem test_table_word : decodeTableWord 32 0x80128380 = some (.mulhu 7 8 9) ∧
    (match step (State.reset.withFetchWord 32 0x80128380) with
      | .next t => (t.hart 0).pc == 4
      | _ => false) = true := by decide +kernel

/-! ### Single steps with the spec's results -/

/-- The device after reset with hart 0 running at supervisor privilege, changed by `f`. -/
def lab (f : Hart → Hart) : State := State.reset.setHart 0 (f { Hart.reset 0 with run := .running })

/-- The hart that an instruction leaves. -/
def after (i : Instr) (s : State) : Hart :=
  match exec i s with
  | .next t => t.hart s.cur
  | _ => Hart.reset 0

/-- A hart at kernel privilege. -/
def user (a : Hart) : Hart := { a with hstat := 0 }

/-- A row of elements of a format in row r of the window: kind 1, one row (R43). -/
def rowDef (fmt r : Nat) : Def := ⟨BitVec.ofNat 64 (2 ^ 61 + fmt * 2 ^ 56 + r * 2 ^ 46 + 2 ^ 22), 0⟩

/-- Entries 0 to 7 are rows of i32, 8 to 15 of f32, 16 to 19 of i64, 20 to 23 of i8, 24 to 27 of bf16, 28 to 31 of e4m3; VL is 4. -/
def named (a : Hart) : Hart :=
  { a with
    vl := 4
    defs := Vector.ofFn fun i => rowDef (if i.val < 8 then 2 else if i.val < 16 then 8 else if i.val < 20 then 3 else if i.val < 24 then 0
      else if i.val < 28 then 10 else 11) i.val }

/-- R102: a zero divisor and the overflow. -/
theorem test_div_boundaries : (after (.div 7 8 9) (lab fun a => a.setX 8 5)).getX 7 = -1 ∧
    (after (.rem 7 8 9) (lab fun a => (a.setX 8 0x8000000000000000).setX 9 (-1))).getX 7 = 0 := by decide +kernel
/-- R101: the high half of an unsigned product. -/
theorem test_mulhu : (after (.mulhu 7 8 9) (lab fun a => (a.setX 8 (-1)).setX 9 (-1))).getX 7 = 0xFFFFFFFFFFFFFFFE := by decide +kernel
/-- R99: a write to x0 is discarded. -/
theorem test_x0 : (after (.addi 0 0 5) (lab id)).getX 0 = 0 := by decide +kernel
/-- R114: the end word of a level with a nonzero counter takes its back edge. -/
theorem test_loop_end : let a := after (.addi 1 0 0) (lab fun a => { a.setX 10 3 with pc := 0x100, loops := a.loops.set 0 (some ⟨0x80, 0x100, 10⟩) })
    a.pc = 0x80 ∧ a.getX 10 = 2 := by decide +kernel
/-- R120, R335: SCALL at kernel privilege. -/
theorem test_scall : let a := after (.scall 5) (lab fun a => user { a.setX 5 77 with pc := 0x1000 })
    a.tcause = 19 ∧ a.tval = 77 ∧ a.trappc = 0x1004 ∧ a.hstat = 1 := by decide +kernel
/-- R110: a misaligned load. -/
theorem test_misaligned : let a := after (.lw 7 8 0) (lab fun a => a.setX 8 0x102)
    a.tcause = 4 ∧ a.tval = 0x102 ∧ a.getX 7 = 0 := by decide +kernel
/-- R109: a byte stored and loaded with its sign. -/
theorem test_store_load : (match exec (.sb 8 0 0x100) (lab fun a => a.setX 8 0x1FE) with
    | .next t => (match exec (.lb 7 0 0x100) t with
      | .next u => (u.hart 0).getX 7
      | _ => 0)
    | _ => 0) = 0xFFFFFFFFFFFFFFFE := by decide +kernel
/-- R133: of 904 elements of e4m3 in blocks of 32 at g2, 896 are granted. -/
theorem test_setvl : (after (.setvl 5 10 1 2 11) (lab fun a => a.setX 10 904)).vl = 896 := by decide +kernel
/-- R134: VIDX fills start + step × e. -/
theorem test_vidx : (match exec (.vidx 3 5 2 2) (lab named) with
    | .next t => (List.range 4).map fun e => (t.core 0).elem ((t.hart 0).shapeOf 3) e
    | _ => []) = [5, 7, 9, 11] := by decide +kernel
/-- R370: the elements of the worked packet, 0x38 and 0x40 of e4m3 under the scale 0x81, added to 1.0; 0x7F gives the canonical NaN. -/
theorem test_reduce_packet : ([0x38, 0x40, 0x7F].map fun b => (fadd .rne fmtF32 (fdecode fmtF32 0x3F800000)
    (remoteReduceVal 11 1 [BitVec.ofNat 8 b] [0x81] 0)).1) = [0x40A00000, 0x41100000, 0x7FC00000] := by decide +kernel
/-- R253: PHEND with nothing outstanding finishes OK at once. -/
theorem test_phend : (after (.phend 20 0 0) (lab fun a => { a with pc := 0x100 })).pc = 0x104 := by decide +kernel
/-- R148, R56: VMV over overlapping cells copies each old value once: cells 0 to 8 of 1.0 to 9.0 become 1.0, 1.0, 2.0, … 8.0. -/
theorem test_vmv_overlap : (let f (n : Nat) : Nat := (fofInt .rne fmtF32 (n + 1 : Nat) 0 false).1
    let s := lab fun a => { a with
      vl := 8
      defs := (a.defs.set 5 ⟨BitVec.ofNat 64 (5 * 2 ^ 61 + 8 * 2 ^ 56 + 2 ^ 22 + 8 * 2 ^ 8), 0⟩).set 6
        ⟨BitVec.ofNat 64 (5 * 2 ^ 61 + 8 * 2 ^ 56 + 2 ^ 31 + 2 ^ 22 + 8 * 2 ^ 8), 0⟩ }
    let s1 := s.setCore 0 { Core.reset 0 with plane := (List.range 9).map fun c => (c, BitVec.ofNat 32 (f c)) }
    match exec (.vmv 6 5 2 0 0) s1 with
    | .next t => (List.range 9).map fun c => ((t.core 0).cell c == f (c - 1)) || (c == 0 && (t.core 0).cell 0 == f 0)
    | _ => []) = List.replicate 9 true := by decide +kernel

/-! ### Witnesses: states and operands that meet the hypotheses of each statement -/

/-- A virtual address below 0x1000 of hart 0's supervisor is a byte of its save page (R336). -/
def savePage0 : Nat := 0x17FFD000000

theorem witness_IntegerResults : intResult (lab id).h (.add 7 8 9) = some (7, 0) := by decide +kernel
theorem witness_FloatResults : (floatResult (lab id).h (.faddF32 7 8 9 0)).isSome = true ∧
    (floatResult (lab id).h (.fmadd 7 8 9 10 2 4)).isSome = true := by decide +kernel
theorem witness_DecodeEncode : (Instr.add 1 2 3).isWord = true ∧ (Instr.add 1 2 3).wf = true := by decide +kernel
theorem witness_EncodeDecode : decode (0x80128380 : W32) = .ok (.mulhu 7 8 9) := by decide +kernel
theorem witness_IllegalWords : (lab id).h.queue = [] := by decide +kernel
theorem witness_StepRunsDecoded : let s := State.reset.withFetchWord 32 0x80128380
    s.power = true ∧ s.inject = none ∧ s.retests = [] ∧ s.agenda = [.run 0] ∧ (s.hart 0).run = .running ∧ (s.hart 0).frozen = false ∧
    (s.hart 0).skid = none ∧ (s.hart 0).wait = none ∧ (s.hart 0).stepping = none ∧ (∀ u ∈ (s.hart 0).stops.toList, u.w0.getLsbD 0 = false) ∧
    (s.hart 0).queue = [] ∧ (let r := State.fetch { s with agenda := [], cur := 0, defer := false } 0
      r.2 = .word 0x80128380 ∧ (match exec (.mulhu 7 8 9) r.1 with
        | .next t => !t.fabric.stalled
        | _ => false) = true) := by decide +kernel
/-- The same with a word that is no instruction. -/
theorem witness_StepRunsDecoded_illegal : let s := State.reset.withFetchWord 32 0x7F;
    decode (0x7F : W32) = .error .unassigned ∧ s.agenda = [.run 0] ∧ (s.hart 0).run = .running ∧ (s.hart 0).skid = none ∧
    (let r := State.fetch { s with agenda := [], cur := 0, defer := false } 0;
      r.2 = .word 0x7F ∧ (match exec (.illegalWord 0x7F) r.1 with
        | .next t => !t.fabric.stalled
        | _ => false) = true) := by decide +kernel
/-- A fence of a hart whose core holds dirty bytes of chip 1's window while the chip is held: their packet has no place. -/
theorem witness_StepRunsDecoded_stalled : let s := { (State.reset.withFetchWord 32 (encode (.fence 20 1 3 4)).toNat).setCore 0
      { Core.reset 0 with l2 := [((Config.peerBase + Config.peerLen) / 64, Vector.replicate 64 (1, true))] } with
      fabric := { State.reset.fabric with held := true } }
    s.power = true ∧ s.inject = none ∧ s.retests = [] ∧ s.agenda = [.run 0] ∧ (s.hart 0).run = .running ∧ (s.hart 0).frozen = false ∧
    (s.hart 0).skid = none ∧ (s.hart 0).wait = none ∧ (s.hart 0).stepping = none ∧ (∀ u ∈ (s.hart 0).stops.toList, u.w0.getLsbD 0 = false) ∧
    (s.hart 0).queue = [] ∧ (let r := State.fetch { s with agenda := [], cur := 0, defer := false } 0
      r.2 = .word (encode (.fence 20 1 3 4)) ∧ decode (encode (.fence 20 1 3 4)) = .ok (.fence 20 1 3 4) ∧
        (match exec (.fence 20 1 3 4) r.1 with
        | .next t => t.fabric.stalled
        | _ => false) = true) := by decide +kernel
theorem witness_FetchReadsMemory : let s := lab id
    (s.hart 0).ownWord (s.hart 0).pc = none ∧ s.translate (s.xctx 0) (s.hart 0).pc .fetch = (.ok savePage0, none) ∧
    savePage0 % 4 = 0 ∧ s.walks (s.xctx 0) (s.hart 0).pc .fetch = false ∧ s.hdm % 256 = 0 ∧ FMap.find? (s.core 0).icache savePage0 = none ∧
    s.badHeld 0 savePage0 = none ∧ (s.place (savePage0 / 256 * 256)).cached = true ∧
    s.fold (savePage0 / 256 * 256) = savePage0 / 256 * 256 := by decide +kernel

/-- A hart at 0x100 in a level that ends there. -/
def inLoop (n : Word) : Hart := Hart.setX { Hart.reset 0 with pc := 0x100, loops := (Vector.replicate 6 none).set 2 (some ⟨0x80, 0x100, 10⟩) } 10 n
theorem inLoop_level (n : Word) (m : Fin 6) : (inLoop n).loops[m] = if m = 2 then some ⟨0x80, 0x100, 10⟩ else none := by
  match m with
  | 0 => rfl
  | 1 => rfl
  | 2 => rfl
  | 3 => rfl
  | 4 => rfl
  | 5 => rfl
theorem inLoop_only (n : Word) (m : Fin 6) (l : LoopLevel) (h : (inLoop n).endsHere m l) : m = 2 ∧ l.counter = 10 := by
  have h1 := h.1
  rw [inLoop_level] at h1
  split at h1
  · exact ⟨‹_›, by rw [← Option.some.inj h1]⟩
  · cases h1
theorem witness_EndCheck : (∀ n l, (inLoop 0).endsHere n l → (inLoop 0).getX l.counter = 0) ∧
    (inLoop 3).endsHere 2 ⟨0x80, 0x100, 10⟩ ∧ (inLoop 3).getX 10 ≠ 0 ∧
    (∀ m k, 2 < m → (inLoop 3).endsHere m k → (inLoop 3).getX k.counter = 0) := by
  refine ⟨fun n l h => ?_, ⟨rfl, rfl⟩, by decide +kernel, fun m k hm h => ?_⟩
  · rw [(inLoop_only 0 n l h).2]; decide +kernel
  · rw [(inLoop_only 3 m k h).1] at hm; exact absurd hm (by decide)
theorem witness_TrapReturn : (lab id).h.queue = [] ∧ (lab fun a => { a with hstat := 3 }).h.sup = true ∧
    (lab fun a => { a with hstat := 3 }).h.hstat.getLsbD 1 = true ∧ (lab id).h.sup = true ∧ (lab id).h.hstat.getLsbD 1 = false ∧
    (lab id).h.preempt = none ∧ (lab user).h.sup = false ∧ (lab user).h.queue = [] := by decide +kernel
theorem witness_DivisionBoundaries : (lab id).h.getX 9 = 0 ∧ let s := lab fun a => (a.setX 8 0x8000000000000000).setX 9 (-1)
    s.h.getX 8 = 0x8000000000000000 ∧ s.h.getX 9 = -1 := by decide +kernel
theorem witness_Jumps : ((lab id).h.getX 8 + (8 : BitVec 15).signExtend 64).toNat % 4 = 0 ∧
    ((lab id).h.getX 8 + (2 : BitVec 15).signExtend 64).toNat % 4 ≠ 0 ∧ (lab id).h.queue = [] := by decide +kernel
theorem witness_RedirectIdlesLevels : (inLoop 3).loops[(2 : Fin 6)] = some ⟨0x80, 0x100, 10⟩ ∧ (inLoop 3).loops[(1 : Fin 6)] = none := by
  decide +kernel
theorem witness_LoopArms : (0 : Reg).toNat ≤ 5 ∧ 1 ≤ (5 : BitVec 15).toNat ∧ (16383 : BitVec 15).toNat ≤ 16383 ∧ (lab id).h.getX 10 = 0 ∧
    (lab fun a => a.setX 10 3).h.getX 10 ≠ 0 := by decide +kernel
theorem witness_ControlRegisterReads : crMayRead (lab id).h.sup 0x001 = true ∧ crMayRead (lab id).h.sup 0x27F = true ∧
    crMayRead (lab user).h.sup 0x013 = true ∧ (lab id).h.owns = true ∧ (lab id).h.queue = [] := by decide +kernel
theorem witness_ControlRegisterWrites : let s := lab fun a => a.setX 8 0xFFFF
    crMayWrite s.h.sup 0x000 = true ∧ crMayWrite s.h.sup 0x27F = true ∧ s.h.owns = true ∧ s.h.queue = [] ∧
    crAfterWrite s 0 0x000 (s.h.getX 8) = none ∧ crAfterWrite s 0 0x004 (s.h.getX 8) = some 1 ∧ (0x004 : BitVec 12) ≠ 5 := by decide +kernel
theorem witness_DeadlineStatusWrites : (lab id).h.sup = true ∧ (lab id).h.queue = [] ∧ (8 : Reg) ≠ 0 := by decide +kernel
theorem witness_ControlRegisterIllegal : (lab user).h.queue = [] ∧ crMayRead (lab user).h.sup 0x014 = false ∧
    crMayRead (lab id).h.sup 0x280 = false ∧ crMayWrite (lab user).h.sup 0x001 = false ∧ crMayWrite (lab id).h.sup 0x007 = false := by
  decide +kernel

/-- Hart 0 at kernel privilege as one of the two harts of kernel 7. -/
def kernel7 : Kernel := ⟨7, 1, 0x10000, 2, [0, 1], [0, 1], [], 0, 0, 0, false, [], ⟨0, false, 0, 1, 0⟩⟩
def inKernel : State := { lab fun a => user { a with kernel := some 7 } with kernels := [kernel7] }
theorem witness_ExitEndsHart : inKernel.h.queue = [] ∧ inKernel.h.sup = false ∧ inKernel.h.task = none ∧ inKernel.h.kernel = some 7 ∧
    (inKernel.kernels.find? fun y => y.id == 7) = some kernel7 ∧ 1 ∈ kernel7.live ∧
    1 ≠ inKernel.cur ∧ campOf 1 = campOf inKernel.cur ∧ inKernel.slow = false ∧ (inKernel.core 0).stores = [] := by decide +kernel
/-- No stream queue of a hart that has none is open. -/
theorem no_stream (s : State) (h q : Nat) (e : (s.hart h).streams.toList = [none, none]) : s.stream h q = none := by
  rw [State.stream, e]
  match q with
  | 0 => rfl
  | 1 => rfl
  | _ + 2 => rfl
/-- The same hart at supervisor privilege. -/
def inKernelSup : State := { lab fun a => { a with kernel := some 7 } with kernels := [kernel7] }
theorem witness_ExitEndsHart_supervisor : (inKernelSup.h.sup = true ∧ inKernelSup.h.task = none ∧ inKernelSup.h.parkedTask = none ∧
    inKernelSup.ops = [] ∧ inKernelSup.slow = false ∧ (inKernelSup.core 0).stores = []) ∧
    ∀ q v, inKernelSup.stream inKernelSup.cur q = some v → v.parked = false := by
  refine ⟨by decide +kernel, fun q v h => ?_⟩
  rw [no_stream _ _ _ (by decide +kernel)] at h
  cases h
/-- The hart as the last of its kernel in its camp, and as the last on the device. -/
def lastIn (live : List Nat) (m : Merge) : State :=
  { inKernel with kernels := [{ kernel7 with live := live }], camps := [(0, { Camp.reset 0 with merge := m })] }
theorem witness_ExitEndsHart_last : (let s := lastIn [0, 64] { Merge.reset with st := .opened, owner := some (5, some 7) }; let p := s.camp (campOf s.cur)
      s.h.sup = false ∧ s.h.task = none ∧ campOf 64 ≠ campOf s.cur ∧ p.tasks = [] ∧ p.merge.st ≠ .free ∧ p.merge.owner = some (5, some 7) ∧
        p.merge.closeObj = none ∧ p.merge.drainObj = none) ∧
    (let s := lastIn [0] Merge.reset; (s.camp (campOf s.cur)).tasks = [] ∧ (s.camp (campOf s.cur)).merge.st = .free ∧ s.ops = [] ∧
      ({ kernel7 with live := [0] } : Kernel).left = []) ∧
    ∀ e ∈ (lastIn [0] Merge.reset).harts, e.2.kernel = some 7 →
      (∀ q, (lastIn [0] Merge.reset).stream e.1 q = none) ∧ ((lastIn [0] Merge.reset).hart e.1).parkedTask = none := by
  refine ⟨by decide +kernel, by decide +kernel, fun e h _ => ?_⟩
  obtain rfl : e = (0, (lastIn [0] Merge.reset).hart 0) := List.mem_singleton.mp h
  exact ⟨fun q => no_stream _ _ _ (by decide +kernel), by decide +kernel⟩
theorem witness_CallsToSupervisor : (lab id).h.queue = [] ∧ ((lab id).core 0).stores = [] ∧ (lab id).h.sup = true ∧ (lab user).h.queue = [] ∧
    (lab user).h.sup = false := by
  decide +kernel
theorem witness_Invalidations : let s := lab fun a => a.setX 9 0x200
    (lab id).h.queue = [] ∧ ((lab id).core 0).stores = [] ∧ (lab id).h.getX 9 = 0 ∧ (lab id).h.sup = true ∧ (lab user).h.sup = false ∧
    0 < (s.h.getX 9).toNat ∧ (s.h.getX 8).toNat + (s.h.getX 9).toNat ≤ 2 ^ 64 ∧
    s.translate (s.xctx 0) 0 .fetch = (.ok savePage0, none) ∧ savePage0 % 4096 = 0 := by decide +kernel
theorem witness_SetLength : (Instr.setvl 5 10 1 2 11).wf = true ∧ (lab id).h.owns = true ∧ (lab id).h.sup = true ∧ (lab user).h.owns = false ∧
    (lab user).h.queue = [] ∧ let s := lab fun a => user { a with pwctl := 1, grpCeil := 0 }
    s.h.owns = true ∧ s.h.sup = false ∧ s.h.grpCeil < (1 : BitVec 2).toNat ∧ s.h.queue = [] := by decide +kernel
theorem witness_Definitions : (let s := lab fun a => (a.setX 8 (rowDef 2 3).w0).setX 9 0
    s.h.queue = [] ∧ s.h.owns = true ∧ s.defer = false ∧ (lab id).h.getX 8 = 0 ∧ (⟨s.h.getX 8, s.h.getX 9⟩ : Def).wf = true ∧
    ((⟨s.h.getX 8, s.h.getX 9⟩ : Def).shape s.h.base).firstOutside s.h.windowRows = none) ∧
    (⟨1, 0⟩ : Def).wf = false ∧ (let s := lab fun a => a.setX 8 (rowDef 2 64).w0
      (⟨s.h.getX 8, s.h.getX 9⟩ : Def).wf = true ∧ ((⟨s.h.getX 8, s.h.getX 9⟩ : Def).shape s.h.base).firstOutside s.h.windowRows = some 0) := by
  decide +kernel

/-- An address of the first page of hart 0's supervisor is reached, in a device whose memory is empty. -/
theorem reaches_page (s : State) (va : Word) (acc : Access) (n : Nat)
    (p : s.slow = false ∧ (s.core (coreOf s.cur)).stores = [] ∧ (s.h.sup = false ∨ va.toNat < 0x1000 ∨ 0x4000 ≤ va.toNat) ∧
      s.walks (s.xctx s.cur) va acc = false ∧ s.translate (s.xctx s.cur) va acc = (.ok (savePage0 + va.toNat), none))
    (f : (∀ i, i < n → s.fold (savePage0 + va.toNat + i) = savePage0 + va.toNat + i ∧
        (s.place (savePage0 + va.toNat + i)).cached = (s.place (savePage0 + va.toNat)).cached) ∧
      (s.place (savePage0 + va.toNat)).cached = true ∧ (savePage0 + va.toNat) % n = 0 ∧
      s.fillRefused (coreOf s.cur) s.h.ctx (savePage0 + va.toNat) n (acc == .store) = false ∧
      ∀ i, i < n → s.badHeld (coreOf s.cur) (savePage0 + va.toNat + i) = none) : Reaches s va acc n (savePage0 + va.toNat) s where
  prompt := ⟨p.1, p.2.1⟩
  outside := p.2.2.1
  translated := by rw [p.2.2.2.2]
  left := by rw [p.2.2.2.2, State.walkAcquire, p.2.2.2.1]; rfl
  folded := f.1
  plain := .inl f.2.1
  inLine := f.2.2.1
  filled := f.2.2.2.1
  sound := f.2.2.2.2
theorem witness_ScalarLoads : (lab id).h.queue = [] ∧ (lab id).unwatched ∧ Reaches (lab id) 0xFF8 .load 8 (savePage0 + 0xFF8) (lab id) ∧
    (lab user).h.sup = false ∧ ((lab user).translate ((lab user).xctx 0) 0xFF8 .load).1 = .refused 1 :=
  ⟨by decide +kernel, by unfold State.unwatched; decide +kernel, reaches_page _ 0xFF8 _ _ (by decide +kernel) (by decide +kernel),
    by decide +kernel⟩
theorem witness_ScalarStores : (lab id).h.queue = [] ∧ (lab id).unwatched ∧ Reaches (lab id) 0xFF8 .store 8 (savePage0 + 0xFF8) (lab id) ∧
    (lab id).storeRefused (savePage0 + 0xFF8) 8 = false ∧ ((lab user).translate ((lab user).xctx 0) 0xFF8 .store).1 = .refused 1 :=
  ⟨by decide +kernel, by unfold State.unwatched; decide +kernel, reaches_page _ 0xFF8 _ _ (by decide +kernel) (by decide +kernel),
    by decide +kernel⟩
theorem witness_MisalignedAccesses : (lab id).h.queue = [] ∧ ((lab id).h.getX 8 + (1 : BitVec 15).signExtend 64).toNat % 2 ≠ 0 := by
  decide +kernel

/-! #### Vector instructions -/

/-- Every hart but hart 0 is as after reset where hart 0 alone is listed. -/
theorem others_reset (s : State) (a : Hart) (l : s.harts = [(0, a)]) (h : Nat) (e : h ≠ 0) : s.hart h = Hart.reset h := by
  simp [State.hart, l, FMap.get, FMap.find?, Ne.symm e]
/-- No queue has an entry where hart 0 alone is listed and has none. -/
theorem queues_one {s : State} {a : Hart} {c : Nat} (l : s.harts = [(0, a)]) (q : (s.hart 0).queue = []) (h : Nat) (_ : coreOf h = c) :
    (s.hart h).queue = [] := by
  by_cases e : h = 0
  · subst e; exact q
  · rw [others_reset s a l h e]; rfl
theorem idle_named : Idle (lab named) := ⟨rfl, queues_one rfl rfl, by decide +kernel, rfl, rfl⟩
/-- A name that meets the four conditions. -/
theorem usable {s : State} {r : Reg} {w n : Nat} (h : (s.h.getDef r).wf = true ∧ (s.h.getDef r).width = w ∧
    ((s.h.getDef r).shape s.h.base).firstOutside s.h.windowRows = none ∧ n ≤ ((s.h.getDef r).shape s.h.base).count) : Usable s r w n :=
  ⟨h.1, h.2.1, h.2.2.1, h.2.2.2⟩
theorem witness_VectorArithmetic : (Idle (lab named) ∧ Usable (lab named) 1 32 4 ∧ Usable (lab named) 2 32 4 ∧ Usable (lab named) 3 32 4) ∧
    (vecArithmetic (lab named) (.vaddVv 1 2 3 2 0 0 0)).isSome = true ∧ (vecArithmetic (lab named) (.vdiv 8 9 10 8 0 0 0)).isSome = true ∧
    (let s := lab fun a => { named a with defs := (named a).defs.set 30 ⟨0, 0⟩ }; ((vecArithmetic s (.vaddVv 1 2 30 2 0 0 0)).map fun v => v.names) =
        some ([(1, 32, 4), (2, 32, 4)] ++ (30, 32, 4) :: []) ∧ (∀ y ∈ [((1 : Reg), 32, 4), (2, 32, 4)], s.nameFails y.1 y.2.2 = none) ∧
      s.nameFails 30 4 = some 126) ∧
    (let s := lab named; (∀ y ∈ [((1 : Reg), 32, 4), (2, 32, 4), (28, 32, 4)], s.nameFails y.1 y.2.2 = none) ∧ (s.h.getDef 1).width = 32 ∧
      (s.h.getDef 2).width = 32 ∧ (s.h.getDef 28).width ≠ 32) :=
  ⟨⟨idle_named, usable (by decide +kernel), usable (by decide +kernel), usable (by decide +kernel)⟩, by decide +kernel⟩
theorem witness_VectorPatterns : Idle (lab named) ∧ (vecPatterns (lab named) (.vmv 1 2 2 0 0)).isSome = true ∧ Usable (lab named) 1 32 4 ∧
    Usable (lab named) 2 32 4 :=
  ⟨idle_named, by decide +kernel, usable (by decide +kernel), usable (by decide +kernel)⟩
theorem witness_VectorConversions : Idle (lab named) ∧ (vecConversions (lab named) (.vcvt 8 1 8 0 0 2)).isSome = true ∧
    Usable (lab named) 8 32 4 ∧ Usable (lab named) 1 32 4 :=
  ⟨idle_named, by decide +kernel, usable (by decide +kernel), usable (by decide +kernel)⟩
theorem witness_VectorMasks : Idle (lab named) ∧ (maskForm (lab named) (.vcmpltVv 1 2 3 2 0 0 0)).isSome = true ∧ Usable (lab named) 2 32 4 ∧
    Usable (lab named) 3 32 4 :=
  ⟨idle_named, by decide +kernel, usable (by decide +kernel), usable (by decide +kernel)⟩
theorem witness_VectorToScalar : Idle (lab named) ∧ Usable (lab named) 2 (8 * 2 ^ (2 : BitVec 2).toNat) 0 :=
  ⟨idle_named, usable (by decide +kernel)⟩
theorem witness_PlaneElements : Usable (lab named) 16 64 2 ∧ 0 < 2 ∧ 1 < 2 := ⟨usable (by decide +kernel), by decide, by decide⟩
theorem witness_PlaneOwner : (Instr.vmv 1 2 2 0 0).ofPlane = true ∧ (lab user).defer = false ∧ (lab user).h.queue = [] ∧ (lab user).h.owns = false ∧
    (lab user).h.wait = none ∧ (Instr.sqpop 20 5 22 0 3).ofPlane = true ∧
    let v : Stream := ⟨0, 64, 4, 0, 0, 0, false, false, 0, none, ⟨0, true, 0, 0, 0⟩, 0, false, 0⟩
    let s := lab fun a => user (a.setStream 0 (some v)); s.h.owns = false ∧ s.stream s.cur ((s.h.getX 5).toNat % 2) = some v ∧ v.parked = false := by
  decide +kernel
/-- The same names with blocks of 16. -/
def blocked (a : Hart) : Hart := { named a with vtype := 0x4080, vl := 16 }
theorem witness_VectorNarrowing : Idle (lab blocked) ∧ (lab blocked).h.vtype.toNat / 128 % 4 ≠ 0 ∧ Usable (lab blocked) 9 32 16 ∧
    Usable (lab blocked) 28 8 16 ∧ Usable (lab blocked) 29 8 1 :=
  ⟨⟨rfl, queues_one rfl rfl, by decide +kernel, rfl, rfl⟩, by decide +kernel, usable (by decide +kernel),
    usable (by decide +kernel),
    usable (by decide +kernel)⟩
theorem witness_VectorReductions : Idle (lab named) ∧ Usable (lab named) 8 (fmtWidth (reductionCode 0)) 1 ∧
    Usable (lab named) 9 (fmtWidth (reductionCode 0)) 4 ∧ Usable (lab named) 10 (fmtWidth (reductionCode 0)) 1 :=
  ⟨idle_named, usable (by decide +kernel), usable (by decide +kernel), usable (by decide +kernel)⟩
theorem witness_IntegerReductions : 2 < 8 ∧ [some 5, none].length ≤ 8192 ∧ 7 < 2 ^ fmtWidth 2 ∧
    ∀ u, some u ∈ [some 5, none] → u < 2 ^ fmtWidth 2 := by
  refine ⟨by decide, by decide, by decide, fun u h => ?_⟩
  simp at h
  subst h
  decide

/-- An element of the first page of the supervisor of `s` lands. -/
theorem lands_page (s : State) (va : Word) (acc : Access) (n : Nat)
    (h : s.slow = false ∧ (s.core (coreOf s.cur)).stores = [] ∧ (s.h.sup = false ∨ va.toNat < 0x1000 ∨ 0x4000 ≤ va.toNat) ∧
      va.toNat % n = 0 ∧ va.toNat % 4096 ≤ savePage0 + va.toNat ∧
      s.translate (s.xctx s.cur) (BitVec.ofNat 64 (va.toNat / 4096 * 4096)) acc = (.ok (savePage0 + va.toNat - va.toNat % 4096), none))
    (f : (savePage0 + va.toNat) % n = 0 ∧ (∀ i, i < n → s.fold (savePage0 + va.toNat + i) = savePage0 + va.toNat + i ∧
        (s.place (savePage0 + va.toNat + i)).cached = (s.place (savePage0 + va.toNat)).cached) ∧
      (s.place (savePage0 + va.toNat)).cached = true ∧
      s.fillRefused (coreOf s.cur) s.h.ctx (savePage0 + va.toNat) n (acc == .store) = false ∧
      ∀ i, i < n → s.badHeld (coreOf s.cur) (savePage0 + va.toNat + i) = none) : Lands s va acc n (savePage0 + va.toNat) where
  prompt := ⟨h.1, h.2.1⟩
  outside := h.2.2.1
  aligned := h.2.2.2.1
  page := h.2.2.2.2
  inLine := f.1
  folded := f.2.1
  plain := .inl f.2.2.1
  filled := f.2.2.2.1
  sound := f.2.2.2.2
/-- The one element of a hart whose VL is 1. -/
def one (a : Hart) : Hart := { named a with vl := 1, links := [savePage0 / 256], k := a.k.set 1 1 }
theorem one_idle : Idle (lab one) ∧ (lab one).unobserved ∧ (lab one).performs 0 = [0] ∧ (lab one).performs 1 = [0] ∧ (lab one).indexed 1 = [0] :=
  ⟨⟨rfl, queues_one rfl rfl, by decide +kernel, rfl, rfl⟩, ⟨by unfold State.unwatched; decide +kernel, by decide +kernel⟩, by decide +kernel,
    by decide +kernel, by decide +kernel⟩
theorem one_usable : Usable (lab one) 1 (8 * 2 ^ (2 : BitVec 2).toNat) 1 ∧ Usable (lab one) 2 32 1 :=
  ⟨usable (by decide +kernel),
    usable (by decide +kernel)⟩
theorem one_lands (acc : Access) : Lands (lab one) 0 acc 4 (savePage0 + (0 : Word).toNat) := by
  cases acc <;> exact lands_page _ _ _ _ (by decide +kernel) (by decide +kernel)
theorem one_takes : (lab one).takesStore (savePage0 + 0) 4 := ⟨by decide +kernel, fun e h => nomatch (show e ∈ ([] : FMap Camp) from h)⟩
theorem witness_VectorLoads : (Idle (lab one) ∧ (lab one).unobserved ∧ (lab one).performs 0 = [0] ∧ (lab one).performs 1 = [0] ∧
    (lab one).indexed 1 = [0]) ∧ (Usable (lab one) 1 (8 * 2 ^ (2 : BitVec 2).toNat) 1 ∧ Usable (lab one) 2 32 1) ∧
    Lands (lab one) 0 .load 4 (savePage0 + (0 : Word).toNat) ∧ (lab one).h.getX 3 + (0 : BitVec 15).signExtend 64 + BitVec.ofNat 64 (0 * 4) = 0 ∧
    (lab one).peerRefuses (lab one).h.ctx (savePage0 + 0) 4 = false ∧ ∀ j, j < 4 → (lab one).badAt (savePage0 + 0 + j) = none :=
  ⟨one_idle, one_usable, one_lands _, by decide +kernel⟩
/-- Hart 0 at kernel privilege with its window and no table: every page is refused. -/
def noTable : State := lab fun a => user { named a with pwctl := 1, vl := 2 }
/-- An access of a page that is not walked for leaves no trace. -/
theorem not_walked (s : State) (va : Word) (acc : Access) (h : s.walks (s.xctx s.cur) va acc = false) : s.walkAcquire (s.xctx s.cur) va acc = s := by
  rw [State.walkAcquire, h]; rfl
theorem noTable_first (acc : Access) : FirstRefused noTable [0, 1] (fun e => BitVec.ofNat 64 (4 * e)) acc 4 0 1 where
  mem := by decide
  aligned := by decide
  known j h := by
    obtain rfl | rfl : j = 0 ∨ j = 1 := by simpa using h
    all_goals cases acc <;> exact ⟨not_walked _ _ _ (by decide +kernel), by decide +kernel⟩
  refused := by cases acc <;> decide +kernel
  below j _ h := absurd h (Nat.not_lt_zero j)
theorem witness_VectorLoads_refused : Idle noTable ∧ Usable noTable 1 32 2 ∧ noTable.performs 0 = [0, 1] ∧
    (∃ e, FirstRefused noTable [0, 1] (fun e => BitVec.ofNat 64 (4 * e)) .load 4 e 1) ∧
    ∃ e, FirstRefused noTable [0, 1] (fun e => BitVec.ofNat 64 (4 * e)) .store 4 e 1 :=
  ⟨⟨rfl, queues_one rfl rfl, by decide +kernel, rfl, rfl⟩, usable (by decide +kernel), by decide +kernel, ⟨0, noTable_first _⟩, ⟨0, noTable_first _⟩⟩
theorem witness_VectorStores : (lab one).performs 1 = [0] ∧ Lands (lab one) 0 .store 4 (savePage0 + (0 : Word).toNat) ∧
    (lab one).takesStore (savePage0 + 0) 4 := ⟨one_idle.2.2.2.1, one_lands _, one_takes⟩
theorem witness_IndexedAccesses : (lab one).indexVa 3 2 4 0 = 0 ∧ ((lab one).h.getX 3).toNat % 4 = 0 ∧ (lab one).indexed 1 = [0] ∧
    Lands (lab one) 0 .load 4 (savePage0 + (0 : Word).toNat) ∧ Lands (lab one) 0 .store 4 (savePage0 + (0 : Word).toNat) ∧
    (lab one).takesStore (savePage0 + 0) 4 :=
  ⟨by decide +kernel, by decide +kernel, one_idle.2.2.2.2, one_lands _, one_lands _, one_takes⟩
/-- Hart 0 at supervisor privilege without a table; its name 2 holds the indices 0 and 0x1400: the first page is its own, the one at 0x5000 refused. -/
def twoPages : State := (lab fun a => { named a with vl := 2 }).setCore 0
  { Core.reset 0 with plane := [(((lab named).h.shapeOf 2).cellOf 1 |>.1, 0x1400)] }
theorem twoPages_refused (acc : Access) (a : acc = .load ∨ acc = .store) :
    RefusedPage twoPages acc (twoPages.indexVa 3 2 4) [0, 1] [1] 0x5000 1 where
  length := by decide +kernel
  base := by decide
  refused := by rcases a with rfl | rfl <;> decide +kernel
  known := by rcases a with rfl | rfl <;> exact not_walked _ _ _ (by decide +kernel)
  elems := by decide +kernel
  some_ := by decide
theorem twoPages_lands (acc : Access) (a : acc = .load ∨ acc = .store) : Lands twoPages 0 acc 4 (savePage0 + (0 : Word).toNat) := by
  rcases a with rfl | rfl <;> exact lands_page _ _ _ _ (by decide +kernel) (by decide +kernel)
theorem witness_IndexedAccesses_refused : (Idle twoPages ∧ twoPages.unobserved ∧ twoPages.indexed 0 = [0, 1]) ∧
    (∀ acc, acc = .load ∨ acc = .store → RefusedPage twoPages acc (twoPages.indexVa 3 2 4) [0, 1] [1] 0x5000 1 ∧
      Lands twoPages (twoPages.indexVa 3 2 4 0) acc 4 (savePage0 + (0 : Word).toNat)) ∧
    Use.meets ⟨twoPages.h.shapeOf 1, twoPages.h.estart.toNat, twoPages.h.vl.toNat⟩
      ⟨twoPages.h.shapeOf 2, twoPages.h.estart.toNat, twoPages.h.vl.toNat⟩ = false :=
  ⟨⟨⟨rfl, queues_one rfl rfl, by decide +kernel, by decide +kernel, by decide +kernel⟩, ⟨by unfold State.unwatched; decide +kernel, by decide +kernel⟩,
      by decide +kernel⟩,
    fun acc a => ⟨twoPages_refused acc a, (show twoPages.indexVa 3 2 4 0 = 0 by decide +kernel) ▸ twoPages_lands acc a⟩, by decide +kernel⟩
/-- `one` on a core that holds permission for its line. -/
def linked : State := (lab one).setCore 0 { Core.reset 0 with perms := [savePage0 / 256] }
theorem witness_LinkedAccesses : (Idle linked ∧ linked.unobserved ∧ linked.indexed 1 = [0]) ∧ linked.scopeMiss (savePage0 + 0) = false ∧
    Lands linked 0 .load 4 (savePage0 + (0 : Word).toNat) ∧ (savePage0 + 0) / 256 ∈ (linked.core 0).perms ∧ linked.indexVa 3 2 4 0 = 0 ∧
    Lands linked 0 .store 4 (savePage0 + (0 : Word).toNat) ∧ linked.takesStore (savePage0 + 0) 4 ∧ (linked.core 0).adds = [] ∧
    linked.h.links.contains (savePage0 / 256) = true :=
  ⟨⟨⟨rfl, queues_one rfl rfl, by decide +kernel, by decide +kernel, by decide +kernel⟩, ⟨by unfold State.unwatched; decide +kernel, by decide +kernel⟩,
      by decide +kernel⟩,
    by decide +kernel, lands_page _ _ _ _ (by decide +kernel) (by decide +kernel), by decide +kernel, by decide +kernel, lands_page _ _ _ _ (by decide +kernel) (by decide +kernel),
    ⟨by decide +kernel, fun e h => nomatch (show e ∈ ([] : FMap Camp) from h)⟩, by decide +kernel, by decide +kernel⟩

/-! #### Commands, the matrix engine, merges, atomics and waits -/

/-- Bytes placed in device memory, each at its address, with the tags of their lines RAW (R182). -/
def placed (s : State) (bytes : List (Nat × Byte)) (lines : List Nat) : State := { s with mem := bytes, tags := lines.map fun l => (l, 0xC6) }
/-- The line of hart 0's save page that holds byte `o`. -/
def pageLine (o : Nat) : Nat := (savePage0 + o) / 256

theorem canIssue_one {s : State} {a : Hart} (l : s.harts = [(0, a)]) (d : s.defer = false) (q : (s.hart 0).queue = [])
    (r : s.slow = false ∧ (s.core (coreOf s.cur)).stores = [] ∧ s.opCount s.cur < 16) : CanIssue s :=
  ⟨d, queues_one l q, ⟨r.1, r.2.1⟩, r.2.2⟩
theorem canIssue_lab : CanIssue (lab id) := canIssue_one rfl rfl rfl (by decide +kernel)
/-- A context 5 with an object table of one KIND 3 entry of 16 bytes at its handle 0. -/
def withObject : State := { placed (lab fun a => { a.setX 8 0x0000000400000000 with ctx := 5 }) [(0x41C, 1), (0x1000, 3), (0x1010, 16)] [4, 16] with
  contexts := [(5, { Context.reset 5 with record := 0x401, objtab := 0x1000, nobj := 1 })] }
theorem witness_EngineCommands : CanIssue (lab id) ∧ ((lab id).h.getX 8).toNat % 256 = 0 ∧ ((lab id).h.getX 8).toNat % 4 = 0 ∧
    (let r := (lab id).loadRun (.engine 0 0) ((lab id).xctx 0) ((lab id).h.getX 10) 64; r.2.2 = none ∧ r.1.cur = 0) ∧
    (lab id).ops = [] ∧ ((lab id).h.getX 8).toNat / 4096 % 2 ^ 20 = 0 ∧ ((lab id).h.getX 8).toNat / 2 ^ 32 = 0 ∧
    CanIssue withObject ∧ (withObject.h.getX 8).toNat / 2 ^ 32 = 4 ∧ withObject.ops = [] ∧
    (match withObject.objectEntry 0 0 with
      | .ok e => fieldAt e 0 1 != 2
      | _ => false) = true ∧ (withObject.h.getX 8).toNat % 4096 = 0 ∧
    (match withObject.objectEntry 0 1 with
      | .error 5 => true
      | _ => false) = true ∧
    (match ({ withObject with bad := [0x40] }).objectEntry 0 0 with
      | .error 2 => true
      | _ => false) = true ∧ (let q := lab fun a => a.setX 8 1; CanIssue q ∧ (q.h.getX 8).toNat % 16 ≠ 0 ∧ (q.h.getX 9).toNat % 16 = 0 ∧
      (q.h.getX 8).toNat % 4 ≠ 0) :=
  ⟨canIssue_lab, by decide +kernel, by decide +kernel, by decide +kernel, by decide +kernel, by decide +kernel, by decide +kernel,
    canIssue_one rfl rfl rfl (by decide +kernel), by decide +kernel, by decide +kernel, by decide +kernel, by decide +kernel,
    by decide +kernel, by decide +kernel, canIssue_one rfl rfl rfl (by decide +kernel), by decide +kernel⟩

/-- A hart with a collective of two ranks at address 0: OP 0, NRANK 2, LEN 4, and the table of chips 0 and 1 at 0x40. -/
def withColl : State := placed (lab id) [(savePage0 + 1, 2), (savePage0 + 8, 0x40), (savePage0 + 32, 4), (savePage0 + 65, 1)] [pageLine 0]
theorem witness_FabricCommands : CanIssue (lab id) ∧ ((lab id).core 0).l2 = [] ∧ ((lab id).h.getX 8).toNat % 8 = 0 ∧
    ((lab id).h.getX 10).toNat % 2 ^ 32 < 4 ∧ ((lab id).h.getX 10).toNat / 2 ^ 32 ≤ 65536 ∧ ((lab id).h.getX 10).toNat < 2 ∧
    (let s := lab fun a => a.setX 10 0x4000000AB; let r := s.loadRun (.engine 0 0) (s.xctx 0) (s.h.getX 9) 129;
      (s.h.getX 10).toNat / 2 ^ 32 % 2 ^ 14 = 4 ∧ (s.h.getX 10).toNat % 32 = 11 ∧ (s.h.getX 10).toNat / 32 % 4 ≠ 0 ∧
      (s.h.getX 10).toNat / 256 % 2 ^ 24 = 0 ∧ r.2.2 = none ∧ r.1.cur = 0) ∧
    CanIssue withColl ∧ (withColl.core 0).l2 = [] ∧
    (let r := withColl.loadRun (.engine 0 0) (withColl.xctx 0) 0 64; let q := r.1.loadRun (.engine 0 0) (r.1.xctx 0) 0x40 2;
      r.2.2 = none ∧ fieldAt r.2.1 0 1 = 0 ∧ fieldAt r.2.1 1 1 = 2 ∧ fieldAt r.2.1 2 1 = 0 ∧ fieldAt r.2.1 3 1 = 0 ∧ fieldAt r.2.1 8 8 = 0x40 ∧
      fieldAt r.2.1 32 8 = 4 ∧ q.2.2 = none ∧ q.1.cur = 0 ∧ q.2.1 = [0, 1] ∧ q.2.1.Nodup) :=
  ⟨canIssue_lab, rfl, by decide +kernel, by decide +kernel, by decide +kernel, by decide +kernel, by decide +kernel,
    canIssue_one rfl rfl rfl (by decide +kernel), rfl, by decide +kernel⟩
theorem witness_CompletionObjects : let s := lab fun a => a.setX 20 0x100
    CanIssue s ∧ (s.h.getX 8).toNat % 256 = 0 ∧ s.unwatched ∧ Reaches s (s.h.getX 20) .store 8 (savePage0 + (s.h.getX 20).toNat) s ∧
    s.storeRefused (savePage0 + 0x100) 8 = false :=
  ⟨canIssue_one rfl rfl rfl (by decide +kernel), by decide +kernel, by unfold State.unwatched; decide +kernel,
    reaches_page _ _ _ _ (by decide +kernel) (by decide +kernel),
    by decide +kernel⟩
/-- A core whose tile 0 has a state. -/
def withTile (st : TileState) (flt : Bool) : State :=
  (lab fun a => a.setX 10 32).setCore 0 { Core.reset 0 with tiles := [(0, ⟨st, some 0, flt, 0⟩)] }
theorem witness_TilesAndStreams : let s := lab fun a => a.setX 10 32
    CanIssue s ∧ MayUseTile s (s.h.getX 8) ∧ ((s.core 0).tile 0).st = .empty ∧ s.inStreamArea 0 0 4096 = false ∧
    RowsOkay (s.h.getX 9) (s.h.getX 10) ∧ CanIssue (withTile .ready false) ∧ MayUseTile (withTile .ready false) 0 ∧
    (((withTile .ready false).core 0).tile 0).st = .ready ∧ (((withTile .ready false).core 0).tile 0).uses = 0 ∧ s.h.owns = true ∧
    (((withTile .empty true).core 0).tile 0).owner ≠ none ∧ (((withTile .empty true).core 0).tile 0).flt = true ∧
    (let q := lab fun a => a.setX 10 4; q.stream 0 0 = none ∧ q.tileBusy 0 0 2048 = false ∧ q.inStreamArea 0 0 2048 = false ∧
      (q.h.getX 10).toNat / 2 ^ 35 = 0 ∧ (q.h.getX 10).getLsbD 23 = false) ∧
    (let q := lab fun a => a.setStream 0 (some ⟨0, 64, 4, 0, 0, 0, false, false, 0, none, ⟨0, true, 0, 0, 0⟩, 0, false, 0⟩);
      CanIssue q ∧ ∃ v, q.stream 0 0 = some v ∧ v.parked = false ∧ v.objPa = none) :=
  ⟨canIssue_one rfl rfl rfl (by decide +kernel), ⟨by decide +kernel, .inl (by decide +kernel)⟩, by decide +kernel, by decide +kernel,
    ⟨⟨5, by decide +kernel⟩, by decide +kernel, by decide +kernel⟩, canIssue_one rfl rfl rfl (by decide +kernel),
    ⟨by decide +kernel, .inl (by decide +kernel)⟩, by decide +kernel, by decide +kernel, by decide +kernel, by decide +kernel,
    by decide +kernel, by decide +kernel, canIssue_one rfl rfl rfl (by decide +kernel),
    ⟨0, 64, 4, 0, 0, 0, false, false, 0, none, ⟨0, true, 0, 0, 0⟩, 0, false, 0⟩, by decide +kernel⟩
/-- A state for each trap of these commands: a tile that does not exist, another context's, and one in the wrong state; no queue open; a row length of
48, a row address and a pitch that are not multiples of 32. -/
theorem witness_TilesAndStreams_traps : (let s := lab fun a => a.setX 8 512; CanIssue s ∧ 512 ≤ (s.h.getX 8).toNat ∧ s.h.owns = true ∧
      s.stream s.cur ((s.h.getX 8).toNat % 2) = none) ∧
    (let s := (lab user).setCore 0 { Core.reset 0 with tiles := [(0, ⟨.ready, some 5, false, 0⟩)] };
      CanIssue s ∧ s.h.sup = false ∧ ∃ o, ((s.core 0).tile 0).owner = some o ∧ o ≠ s.h.ctx) ∧
    (MayUseTile (lab id) 0 ∧ ((lab id).core 0).tile 0 = ⟨.empty, none, false, 0⟩ ∧ (lab id).inStreamArea 0 0 4096 = false) ∧
    ((lab fun a => a.setX 10 48).h.getX 10).toNat % 65536 = 48 ∧
    (let s := lab fun a => (a.setX 9 8).setX 10 32; (s.h.getX 10).toNat % 65536 = 32 ∧ (s.h.getX 9).toNat % 32 ≠ 0) ∧
    (let s := lab fun a => a.setX 10 (65536 + 32); (s.h.getX 9).toNat % 32 = 0 ∧ (s.h.getX 10).toNat / 65536 % 32 ≠ 0) :=
  ⟨⟨canIssue_one rfl rfl rfl (by decide +kernel), by decide +kernel⟩,
    ⟨canIssue_one rfl rfl rfl (by decide +kernel), by decide +kernel, 5, by decide +kernel⟩,
    ⟨⟨by decide +kernel, .inl (by decide +kernel)⟩, by decide +kernel⟩, by decide +kernel⟩

/-- A rectangle of one row and 64 columns of e4m3 in row r of the window. -/
def matrixRow (r : Nat) : Def := ⟨BitVec.ofNat 64 (5 * 2 ^ 61 + 11 * 2 ^ 56 + r * 2 ^ 46 + 2 ^ 22 + 64 * 2 ^ 8), 0⟩
/-- A hart whose name 8 is `x` and whose core has tile 0 in a state; names 9 and 10 hold two scales and 128. -/
def forMatrixOf (x : Def) (st : TileState) (f : Hart → Hart) : State := (lab fun a => { f a with
    vtype := 0x4100
    defs := ((a.defs.set 8 x).set 9 (rowDef 0 9)).set 10 (rowDef 0 10) }).setCore 0
  { Core.reset 0 with tiles := [(0, ⟨st, some 0, false, 0⟩)] }
/-- A hart whose name 8 is an operand of one row and whose core has a READY tile 0. -/
def forMatrix : State := forMatrixOf (matrixRow 8) .ready id
theorem matrixIdle : MatrixIdle forMatrix where
  runs := rfl
  queues := queues_one rfl rfl
  owns := by decide +kernel
  pending := by decide +kernel
  sound := by decide +kernel
  acc := by decide +kernel
/-- Nothing is uncorrectable where nothing is marked so and every tag kept is RAW (R182, R406). -/
theorem sound_all {s : State} (b : s.bad = []) (l : s.badLocal = []) (t : ∀ e ∈ s.tags, tagOk e.2 = true) (q : Nat) : s.badAt q = none := by
  have k : ∀ n, tagOk (s.tag n) = true := by
    intro n
    have : ∀ m : FMap Byte, (∀ e ∈ m, tagOk e.2 = true) → tagOk (FMap.get (fun _ => 0) m n) = true := by
      intro m h
      induction m with
      | nil => simp [FMap.get, FMap.find?, tagOk]
      | cons e m ih =>
        have ih := ih fun x hx => h x (List.mem_cons_of_mem _ hx)
        simp only [FMap.get, FMap.find?] at ih ⊢
        split
        · exact h e (List.mem_cons_self ..)
        · exact ih
    exact this _ t
  simp only [State.badAt, k, b, l]
  split <;> simp
theorem forMatrix_sound (q : Nat) : forMatrix.badAt q = none := sound_all rfl rfl (by decide +kernel) q
theorem witness_MatrixMultiply : (MatrixIdle forMatrix ∧ Usable forMatrix 8 8 0 ∧ Usable forMatrix 9 8 (64 / 16) ∧
      Usable forMatrix 10 8 (64 / 16 * 64) ∧ MayUseTile forMatrix 0 ∧ ∀ q, forMatrix.badAt q = none) ∧
    ((Instr.mma 8 0 11 0 0).wf = true ∧ (Instr.mmas 8 0 11 0 0).wf = true ∧ ((forMatrix.core 0).tile 0).st = .ready ∧
      (forMatrix.h.getDef 8).kind = 5 ∧ (forMatrix.h.shapeOf 8).cols = 64 ∧ (forMatrix.h.shapeOf 8).rows = 1 ∧
      forMatrix.h.vtype.toNat / 128 % 4 ≠ 0) ∧ forMatrix.blockFits 0 1 64 :=
  ⟨⟨matrixIdle, usable (by decide +kernel), usable (by decide +kernel), usable (by decide +kernel), ⟨by decide +kernel, .inl (by decide +kernel)⟩,
      forMatrix_sound⟩, by decide +kernel, ⟨by decide +kernel, by decide +kernel⟩⟩
/-- A rectangle of R rows and C columns of a format from row r of the window on. -/
def matrixDef (kind fmt r R C : Nat) : Def := ⟨BitVec.ofNat 64 (kind * 2 ^ 61 + fmt * 2 ^ 56 + r * 2 ^ 46 + R * 2 ^ 22 + C * 2 ^ 8), 0⟩
theorem forMatrixOf_idle (x : Def) (st : TileState) (f : Hart → Hart)
    (h : (f { Hart.reset 0 with run := .running }).queue = [] ∧ (forMatrixOf x st f).h.owns = true ∧ let k := (forMatrixOf x st f).core (coreOf (forMatrixOf x st f).cur)
      k.pend = [] ∧ k.badPlane = [] ∧ k.badAcc = []) :
    MatrixIdle (forMatrixOf x st f) where
  runs := rfl
  queues := queues_one rfl h.1
  owns := h.2.1
  pending := h.2.2.1
  sound := h.2.2.2.1
  acc := h.2.2.2.2
/-- The tile not READY, and shapes that R160 refuses: kind 1 for e4m3, 32 columns, no row, two planes of three, and blocks beyond the region's rows and columns. -/
theorem witness_MatrixMultiply_traps : (∀ x st f, (x, st, f) ∈ [(matrixRow 8, TileState.filling, (id : Hart → Hart)), (rowDef 11 8, .ready, id),
      (matrixDef 5 11 8 1 32, .ready, id), (matrixDef 1 13 8 2 64, .ready, id), (matrixRow 8, .ready, fun a => a.setX 5 128),
      (matrixRow 8, .ready, fun a => a.setX 5 (65 * 256))] →
      MatrixIdle (forMatrixOf x st f) ∧ MayUseTile (forMatrixOf x st f) 0) ∧
    (Usable (forMatrixOf (matrixRow 8) .filling id) 8 8 0 ∧ Usable (forMatrixOf (rowDef 11 8) .ready id) 8 8 0 ∧
      Usable (forMatrixOf (matrixDef 5 11 8 1 32) .ready id) 8 8 0) ∧
    (((forMatrixOf (matrixRow 8) .filling id).core 0).tile 0).st ≠ .ready ∧ ((forMatrixOf (rowDef 11 8) .ready id).h.getDef 8).kind = 1 ∧
    ((forMatrixOf (matrixDef 5 11 8 1 32) .ready id).h.shapeOf 8).cols = 32 ∧
    (let s := forMatrixOf (matrixRow 8) .ready fun a => a.setX 5 128; s.h.windowRows / 2 < (s.h.getX 5).toNat % 256 + 1) ∧
    (let s := forMatrixOf (matrixRow 8) .ready fun a => a.setX 5 (65 * 256); (s.h.getX 5).toNat % 256 + 1 ≤ s.h.windowRows / 2 ∧
      128 < (s.h.getX 5).toNat / 256 % 256 + 64) := by
  refine ⟨fun x st f h => ?_, ⟨usable (by decide +kernel), usable (by decide +kernel), usable (by decide +kernel)⟩, by decide +kernel⟩
  simp only [List.mem_cons, List.mem_nil_iff, or_false, Prod.mk.injEq] at h
  rcases h with h | h | h | h | h | h <;> obtain ⟨rfl, rfl, rfl⟩ := h <;>
    exact ⟨forMatrixOf_idle _ _ _ (by decide +kernel), by decide +kernel, .inl (by decide +kernel)⟩
theorem witness_AccumulatorMoves : MatrixIdle forMatrix ∧ forMatrix.blockFits 0 1 64 ∧ (forMatrix.h.getX 5).toNat % 256 ≤ 128 ∧
    (let s := lab fun a => { a with defs := a.defs.set 3 ⟨BitVec.ofNat 64 (5 * 2 ^ 61 + 8 * 2 ^ 56 + 2 ^ 22 + 64 * 2 ^ 8), 0⟩ };
      Usable s 3 32 0 ∧ (s.h.getDef 3).kind = 5 ∧ s.blockFits 0 (s.h.shapeOf 3).rows (s.h.shapeOf 3).cols) :=
  ⟨matrixIdle, ⟨by decide +kernel, by decide +kernel⟩, by decide +kernel,
    usable (by decide +kernel), by decide +kernel, ⟨by decide +kernel, by decide +kernel⟩⟩

/-- The camp of hart 0 with its merge assigned to context 5 and in a state. -/
def withMerge (st : MergeState) (f : Hart → Hart) : State :=
  (placed (lab fun a => { f a with ctx := 5 }) [(savePage0 + 16, 16)] [pageLine 0]).setCamp 0 { Camp.reset 0 with
    mergeCtx := 5
    mergeV := true
    merge := { Merge.reset with st := st, owner := some (5, none) } }
theorem witness_MergeCommands : CanIssue (withMerge .free id) ∧ ((withMerge .free id).camp 0).mergeV = true ∧
    (let s := withMerge .free id; let r := s.loadRun (.hart 0) (s.xctx 0) 0 64; let q := r.1.loadRun (.hart 0) (r.1.xctx 0) 0 64;
      r.2.2 = none ∧ r.1.cur = 0 ∧ q = r ∧ fieldAt r.2.1 0 1 = 0 ∧ fieldAt r.2.1 16 8 = 16 ∧ fieldAt r.2.1 4 4 = 0) ∧
    HoldsNet (withMerge .opened id) ∧ ((withMerge .opened id).camp 0).merge.st = .opened ∧ HoldsNet (withMerge .closed id) ∧
    HoldsNet (withMerge .closing id) ∧ ((withMerge .closing id).camp 0).merge.drainRecorded = false ∧
    (let s := withMerge .opened fun a => { named a with k := a.k.set 1 15 };
      Idle s ∧ HoldsNet s ∧ Usable s 1 32 4 ∧ (s.performs 1).length = 4 ∧ (s.camp 0).merge.fullFlag = false) :=
  ⟨canIssue_one rfl rfl rfl (by decide +kernel), by decide +kernel, by decide +kernel, ⟨by decide +kernel, by decide +kernel⟩,
    by decide +kernel, ⟨by decide +kernel, by decide +kernel⟩, ⟨by decide +kernel, by decide +kernel⟩, by decide +kernel,
    ⟨rfl, queues_one rfl rfl, by decide +kernel, by decide +kernel, by decide +kernel⟩, ⟨by decide +kernel, by decide +kernel⟩,
    usable (by decide +kernel), by decide +kernel, by decide +kernel⟩

/-- A stream record at address 0 that has ended: STATE 4. -/
def streamEnd : State := placed (lab fun a => { named a with estart := 0 }) [(savePage0 + 17, 4)] [pageLine 0]
theorem streamEnd_plain (o : Nat) (h : o < 384) : Plain streamEnd (BitVec.ofNat 64 o) (savePage0 + o) := by
  have e : (BitVec.ofNat 64 o).toNat = o := by rw [BitVec.toNat_ofNat]; omega
  have k : ∀ o, o < 384 → ∀ acc, acc = .load ∨ acc = .store →
      streamEnd.walks (streamEnd.xctx streamEnd.cur) (BitVec.ofNat 64 o) acc = false ∧
      streamEnd.translate (streamEnd.xctx streamEnd.cur) (BitVec.ofNat 64 o) acc = (.ok (savePage0 + o), none) ∧
      streamEnd.fillRefused 0 streamEnd.h.ctx (savePage0 + o) 1 (acc == .store) = false := by
    rintro o h acc (rfl | rfl)
    · revert o h; decide +kernel
    · revert o h; decide +kernel
  have f : ∀ o, o < 384 → streamEnd.fold (savePage0 + o) = savePage0 + o ∧ (streamEnd.place (savePage0 + o)).cached = true ∧
      streamEnd.badHeld 0 (savePage0 + o) = none := by decide +kernel
  refine ⟨fun acc ha => ?_, (f o h).2.1⟩
  have r := reaches_page streamEnd (BitVec.ofNat 64 o) acc 1
    ⟨rfl, rfl, .inr (.inl (by omega)), (k o h acc ha).1, by rw [e]; exact (k o h acc ha).2.1⟩
  rw [e] at r
  refine r ⟨fun i hi => ?_, (f o h).2.1, Nat.mod_one _, (k o h acc ha).2.2, fun i hi => ?_⟩
  · obtain rfl : i = 0 := by omega
    exact ⟨(f o h).1, rfl⟩
  · obtain rfl : i = 0 := by omega
    exact (f o h).2.2
theorem witness_StreamEnd : Idle streamEnd ∧ streamEnd.unobserved ∧ streamEnd.h.estart = 0 ∧ Usable streamEnd 20 (fmtWidth 4) 4 ∧
    8 ≤ fmtWidth 4 ∧ (∀ o, o < 384 → Plain streamEnd (BitVec.ofNat 64 o) (savePage0 + o)) ∧
    (let r := (List.range 384).map fun o => streamEnd.seen 0 (savePage0 + o); recordOkay r = true ∧ fieldAt r 17 1 = 4 ∧ fieldAt r 20 1 = 0) :=
  ⟨⟨rfl, queues_one rfl rfl, by decide +kernel, by decide +kernel, by decide +kernel⟩,
    ⟨by unfold State.unwatched; decide +kernel, by decide +kernel⟩, by decide +kernel,
    usable (by decide +kernel), by decide +kernel, streamEnd_plain, by decide +kernel⟩
theorem witness_ScalarAtomics : (0 : BitVec 3).toNat < 2 ∧ (lab id).h.queue = [] ∧ (lab id).unwatched ∧ ((lab id).h.getX 8).toNat % 8 = 0 ∧
    Reaches (lab id) 0 .store 8 (savePage0 + (0 : Word).toNat) (lab id) ∧ (lab id).storeRefused (savePage0 + 0) 8 = false :=
  ⟨by decide, by decide +kernel, by unfold State.unwatched; decide +kernel, by decide +kernel,
    reaches_page _ _ _ _ (by decide +kernel) (by decide +kernel),
    by decide +kernel⟩

/-! #### Tasks, waits and events -/

/-- A task with identifier 3 of kernel 7. -/
def task3 (st : TaskState) (wdraw : Word) (path : Nat) (w : Bool) : Task :=
  ⟨3, 7, 5, ⟨0, true, 0, 5, 0⟩, 0x40, 0x80, wdraw, 0, false, [], [], [], 1, 2, 0x200, savePage0 + 0x200, st, path, w, 0, 0, []⟩
/-- Hart 0 of kernel 7 in a camp that holds a task. -/
def withTask (t : Task) (has : Bool) : State :=
  (lab fun a => { a with kernel := some 7, task := if has then some 3 else none }).setCamp 0 { Camp.reset 0 with tasks := [t] }
/-- A hart of kernel 7 and context 5, whose record allows one entry, with a task descriptor at address 0. -/
def submitting : State := { placed (lab fun a => { a.setX 12 0x200 with kernel := some 7, ctx := 5 })
    [(0x418, 1), (savePage0, 0x40)] [4, pageLine 0] with contexts := [(5, { Context.reset 5 with record := 0x401, tent := 1 })] }
theorem submitting_waits (h : Nat) : (submitting.hart h).wait = none ∧ (submitting.hart h).links = [] := by
  by_cases e : h = 0
  · subst e; exact ⟨rfl, rfl⟩
  · rw [others_reset submitting _ rfl h e]; exact ⟨rfl, rfl⟩
theorem lab_waits (f : Hart → Hart) (w : (f { Hart.reset 0 with run := .running }).wait = none) (h : Nat) : ((lab f).hart h).wait = none := by
  by_cases e : h = 0
  · subst e; exact w
  · rw [others_reset (lab f) _ rfl h e]; rfl
theorem witness_SystemAndTasks : ((lab id).h.queue = [] ∧ (lab id).translate ((lab id).xctx 0) 0 .load = (.ok savePage0, none) ∧
    ((lab id).core 0).stores = [] ∧ (lab id).h.frozen = false ∧ (lab id).h.dctl.getLsbD 0 = false ∧ (lab id).h.sup = true ∧ (lab user).h.sup = false ∧
    (lab fun a => { a with dctl := 1 }).h.dctl.getLsbD 0 = true ∧ (lab id).currentTask 0 = none ∧
    (withTask (task3 .running 0x100 0 true) true).currentTask 0 = some (task3 .running 0x100 0 true) ∧
    (withTask (task3 .running 0 0 false) true).currentTask 0 = some (task3 .running 0 0 false) ∧
    ((withTask (task3 .running 0 0 false) true).camp 0).tasks = [task3 .running 0 0 false] ∧
    (withTask (task3 .running 0 0 false) true).h.task = some 3 ∧ ((withTask (task3 .running 0 0 false) true).core 0).l2 = [] ∧
    (let s := submitting; let r := s.loadRun (.hart 0) (s.xctx 0) (s.h.getX 11) 256;
      s.h.queue = [] ∧ s.h.kernel = some 7 ∧ (s.h.getX 12).toNat % 8 = 0 ∧ s.storeRefused (savePage0 + 0x200) 8 = false ∧
      s.translate (s.xctx 0) (s.h.getX 12) .store = (.ok (savePage0 + 0x200), none) ∧ r.2.2 = none ∧
      r.1.translate (r.1.xctx 0) (s.h.getX 12) .store = (.ok (savePage0 + 0x200), none) ∧ fieldAt r.2.1 0 8 = 0x40 ∧
      fieldAt r.2.1 8 8 = 0 ∧ fieldAt r.2.1 16 8 = 0 ∧ fieldAt r.2.1 24 232 = 0 ∧ 1 ≤ s.freeEntries 0 ∧ (s.camp 0).tasks = [])) ∧
    CoreBare submitting ∧ Prompt submitting ∧ Prompt (withTask (task3 .running 0 0 false) true) ∧ ∀ h, (submitting.hart h).wait = none :=
  ⟨by decide +kernel, ⟨rfl, rfl, fun h _ => (submitting_waits h).2⟩, ⟨rfl, rfl⟩, ⟨rfl, rfl⟩, fun h => (submitting_waits h).1⟩
/-- EXIT with a current task: the hart of kernel 7, whose other hart lives in the camp. -/
theorem witness_ExitEndsHart_task : let s := { (lab fun a => user { a with kernel := some 7, task := some 3 }).setCamp 0
      { Camp.reset 0 with tasks := [task3 .running 0 0 false] } with kernels := [kernel7] }
    s.h.sup = false ∧ (s.camp (campOf s.cur)).tasks = [task3 .running 0 0 false] ∧ s.h.task = some (task3 .running 0 0 false).id ∧
    (task3 .running 0 0 false).path ≠ 2 ∧ (s.core (coreOf s.cur)).l2 = [] ∧ (s.kernels.find? fun y => y.id == 7) = some kernel7 ∧ 1 ∈ kernel7.live := by
  decide +kernel

/-- No store is refused in the lower device memory while no network is open. -/
theorem takes_device (s : State) (c : s.camps = []) (pa n off : Nat) (p : s.place pa = .device off)
    (b : off + n ≤ Config.hdmLen - Config.stageFromTop) : s.takesStore pa n := by
  refine ⟨?_, ?_⟩
  · simp [State.storeRefused, p, State.inSpill, c, b]
  · rw [c]; intro e h; cases h
/-- A barrier line of one expected arrival, and a queue that holds one message, at address 0. -/
def barrier : State := placed (lab id) [(savePage0, 1)] [pageLine 0]
/-- A barrier line that expects three arrivals, of which two are there. -/
def barrier3 : State := placed (lab id) [(savePage0, 3), (savePage0 + 2, 2)] [pageLine 0]
def message : State := placed (lab id) [(savePage0 + 4, 1)] [pageLine 0]
/-- Below the staging slots of the default module (R362). -/
theorem limit : Config.hdmLen - Config.stageFromTop = 1649259053056 := by decide +kernel
theorem page_device : ∀ o, o ≤ 256 → (lab id).place (savePage0 + o) = .device (savePage0 + o) := by decide +kernel
theorem witness_Waits : (MayWait (lab named) ∧ (lab named).h.owns = true ∧ Usable (lab named) 1 32 4 ∧ ((lab named).core 0).pend = []) ∧
    (MayUseTile (withTile .ready false) 0 ∧ MayWait (withTile .ready false) ∧ (((withTile .ready false).core 0).tile 0).st = .ready ∧
      MayWait (withTile .empty false) ∧ (((withTile .empty false).core 0).tile 0).st = .empty ∧
      (((withTile .empty false).core 0).tile 0).flt = false) ∧
    (MayWait (lab id) ∧ (lab id).h.lanes = Vector.replicate 64 0 ∧ (lab id).h.dropped = 0 ∧ (lab id).h.vl.toNat = 0) ∧
    (CoreBare (lab id) ∧ (lab id).unwatched ∧ Reaches (lab id) 0 .load 8 (savePage0 + (0 : Word).toNat) (lab id) ∧
      (lab id).peerRefuses (lab id).h.ctx (savePage0 + 0) 8 = false ∧
      (lab id).seenNat (savePage0 + 0) 8 = 0 ∧ (lab id).inside (savePage0 + 0) ∧ (lab fun a => a.setX 20 1).h.getX 20 = 1) ∧
    (Reaches (lab fun a => { a with vl := 1 }) 0 .load 8 (savePage0 + (0 : Word).toNat) (lab fun a => { a with vl := 1 }) ∧ (lab fun a => { a with vl := 1 }).h.vl = 1) ∧
    (Reaches barrier 0 .store 8 (savePage0 + (0 : Word).toNat) barrier ∧ barrier.seenNat (savePage0 + 2) 2 + 1 = barrier.seenNat savePage0 2 ∧
      barrier.takesStore savePage0 8) ∧
    (Reaches barrier3 0 .store 8 (savePage0 + (0 : Word).toNat) barrier3 ∧ barrier3.seenNat (savePage0 + 2) 2 + 1 = barrier3.seenNat savePage0 2 ∧
      barrier3.takesStore savePage0 8) ∧
    (Reaches (lab id) 0 .store 256 (savePage0 + (0 : Word).toNat) (lab id) ∧ (∀ o m, o + m ≤ 256 → (lab id).takesStore (savePage0 + o) m) ∧
      (lab id).h.frozen = false ∧ (∀ h, h ≠ 0 → ((lab id).hart h).wait = none) ∧ (lab id).seenNat (savePage0 + 8) 1 ≤ 4 ∧
      (lab id).seenNat (savePage0 + 9) 7 = 0 ∧ message.seenNat (savePage0 + 4) 4 = 1 ∧ message.seenNat savePage0 4 = 0 ∧
      Reaches message 0 .store 256 (savePage0 + (0 : Word).toNat) message) ∧
    (let s := withTask (task3 .ready 0 0 false) false;
      s.h.task = none ∧ s.h.kernel = some 7 ∧ (s.camp 0).tasks = [task3 .ready 0 0 false] ∧ (s.core 0).l2 = []) ∧
    (let s := lab fun a => (named a).setStream 0 (some ⟨0, 64, 4, 1, 0, 1, false, false, 0, none, ⟨0, true, 0, 0, 0⟩, 0, false, 0⟩);
      s.h.owns = true ∧ Usable s 1 32 16 ∧ ∃ v, s.stream 0 0 = some v ∧ v.parked = false ∧ v.popped < v.count ∧
        v.full.getLsbD (v.popped % v.slots) = true ∧ v.len * 8 / 32 = 16) :=
  ⟨⟨⟨⟨rfl, rfl⟩, rfl, rfl, rfl, rfl⟩, by decide +kernel, usable (by decide +kernel), rfl⟩,
    ⟨⟨by decide +kernel, .inl (by decide +kernel)⟩, ⟨⟨rfl, rfl⟩, rfl, rfl, rfl, by decide +kernel⟩, by decide +kernel, ⟨⟨rfl, rfl⟩, rfl, rfl, rfl, by decide +kernel⟩,
      by decide +kernel, by decide +kernel⟩,
    ⟨⟨⟨rfl, rfl⟩, rfl, rfl, rfl, rfl⟩, by decide +kernel, by decide +kernel, by decide +kernel⟩,
    ⟨⟨rfl, rfl, fun h _ => by
        by_cases e : h = 0
        · subst e; rfl
        · rw [others_reset (lab id) _ rfl h e]; rfl⟩, by unfold State.unwatched; decide +kernel,
      reaches_page _ _ _ _ (by decide +kernel) (by decide +kernel),
      by decide +kernel, by decide +kernel, .inl ⟨savePage0, by decide +kernel⟩, by decide +kernel⟩,
    ⟨reaches_page _ _ _ _ (by decide +kernel) (by decide +kernel),
      by decide +kernel⟩,
    ⟨reaches_page _ _ _ _ (by decide +kernel) (by decide +kernel),
      by decide +kernel, takes_device _ rfl _ _ savePage0 (by decide +kernel) (by decide +kernel)⟩,
    ⟨reaches_page _ _ _ _ (by decide +kernel) (by decide +kernel),
      by decide +kernel, takes_device _ rfl _ _ savePage0 (by decide +kernel) (by decide +kernel)⟩,
    ⟨reaches_page _ _ _ _ (by decide +kernel) (by decide +kernel),
      fun o m h => takes_device _ rfl _ _ (savePage0 + o) (page_device o (by omega)) (by rw [limit, savePage0]; omega), by decide +kernel,
      fun h _ => lab_waits id rfl h, by decide +kernel, by decide +kernel, by decide +kernel, by decide +kernel,
      reaches_page _ _ _ _ (by decide +kernel) (by decide +kernel)⟩,
    by decide +kernel,
    ⟨by decide +kernel, usable (by decide +kernel),
      ⟨0, 64, 4, 1, 0, 1, false, false, 0, none, ⟨0, true, 0, 0, 0⟩, 0, false, 0⟩, by decide +kernel⟩⟩

/-- An entry of hart 0's queue: instruction, issue number, elements, pages, and trap. -/
def entry (i : Instr) (issued : Option Nat) (len : Nat) (frames : List Frame) (whole : Bool) (trap : Option Trap) : QEntry :=
  { instr := i, pc := 0x100, vtype := 0x4000, vl := len, va := 0, vb := 0, vc := 0, vd := 0, xs := Vector.replicate 32 0,
    loops := Vector.replicate 6 none, sflags := 0, issued := issued, startsAt := 0, len := len,
    defs := (named (Hart.reset 0)).defs, edone := 0, settled := true, frames := frames, whole := whole, chain := [], follow := [],
    begun := Vector.replicate 4 0, arrived := 0, landed := [], parts := [], flags := [], trap := trap, sampled := none, ended := false }
/-- Hart 0 with one entry in its queue. -/
def queuedLab (e : QEntry) (f : Hart → Hart) : State := lab fun a => { f a with queue := [e] }
theorem alone_lab (e : QEntry) (f : Hart → Hart) (t : e.trap = none ∧ e.ended = false ∧ e.settled = true ∧ e.parts = [])
    (r : let a := f { Hart.reset 0 with run := .running }; a.run = .running ∧ a.frozen = false ∧ a.skid = none ∧ ∀ u ∈ a.stops.toList, u.w0.getLsbD 0 = false) :
    Alone (queuedLab e f) 0 e where
  runs := r.1
  free := r.2.1
  queue := rfl
  trap := t.1
  going := t.2
  units := r.2.2.2
  skid := r.2.2.1
  others g _ h := by rw [others_reset (queuedLab e f) _ rfl g h]; rfl
/-- A wait on tile 0. -/
def tileWait (t0 deadline : Word) : Wait := ⟨.tilewait 20 5 22 0, 20, 22, deadline, t0, false, 0, 0, 0, 0, 0, 0, none, false, 0, 0, none⟩
/-- Hart 0 waits on a tile in a state. -/
def waiting (st : TileState) (w : Wait) : State :=
  (lab fun a => { a with wait := some w, rtime := 10, dlcap := 0, dlesc := 0 }).setCore 0
    { Core.reset 0 with tiles := [(0, ⟨st, some 0, false, 0⟩)] }
theorem witness_QueueEvents :
    (Alone (queuedLab (entry (.kand 1 2 3) none 4 [] false none) id) 0 (entry (.kand 1 2 3) none 4 [] false none) ∧
      ((queuedLab (entry (.kand 1 2 3) none 4 [] false none) id).hart 0).owns = true) ∧
    (Alone (queuedLab (entry (.kand 1 2 3) (some 0) 4 [] false none) id) 0 (entry (.kand 1 2 3) (some 0) 4 [] false none) ∧
      IssuedKand (entry (.kand 1 2 3) (some 0) 4 [] false none) 1 2 3) ∧
    (let e := entry (.vld 1 2 0 2) (some 0) 1 [⟨0, 0, 0x1000, 0, false, 0⟩] true none; let s := queuedLab e user;
      Alone s 0 e ∧ s.unwatched ∧ (s.core 0).stores = [] ∧ (s.hart 0).sup = false ∧ s.inside 0x1000 ∧
        ∀ i, i < 4 → s.fold (0x1000 + i) = 0x1000 + i ∧ s.badHeld 0 (0x1000 + i) = none) ∧
    (let e := entry (.kand 1 2 3) none 4 [] false (some ⟨9, 0, none⟩); let s := queuedLab e user;
      (s.hart 0).run = .running ∧ (s.hart 0).frozen = false ∧ (s.hart 0).queue = [e] ∧ e.trap = some ⟨9, 0, none⟩ ∧
        (entryOp e.instr).isSome = true) ∧
    (let s := lab fun a => user { a with preempt := some 5 };
      (s.hart 0).run = .running ∧ (s.hart 0).frozen = false ∧ (s.hart 0).queue = [] ∧ (s.hart 0).wait = none ∧ (s.hart 0).sup = false ∧
        (s.hart 0).stepping = none ∧ (s.hart 0).preempt = some 5) ∧
    (let s := waiting .ready (tileWait 0 100); WaitsOnTile s 0 (tileWait 0 100) ∧ ((s.core 0).tile 0).st = .ready) ∧
    (let s := waiting .filling (tileWait 0 5); WaitsOnTile s 0 (tileWait 0 5) ∧ ((s.core 0).tile 0).st = .filling ∧
      (s.hart 0).dlcap = 0 ∧ (s.hart 0).dlesc.toNat % 256 = 0 ∧ s.expired 0 (tileWait 0 5) = true) := by
  refine ⟨⟨alone_lab _ _ ⟨rfl, rfl, rfl, rfl⟩ (by decide +kernel), by decide +kernel⟩, ⟨alone_lab _ _ ⟨rfl, rfl, rfl, rfl⟩ (by decide +kernel), ?_⟩,
    ⟨alone_lab _ _ ⟨rfl, rfl, rfl, rfl⟩ (by decide +kernel), by unfold State.unwatched; decide +kernel, by decide +kernel, by decide +kernel, .inl ⟨0x1000, by decide +kernel⟩,
      by decide +kernel⟩, by decide +kernel, by decide +kernel, ?_, ?_⟩
  · exact ⟨rfl, by decide, rfl, by decide, rfl, rfl, rfl, rfl, rfl⟩
  · exact ⟨⟨rfl, rfl, rfl, rfl, rfl, ⟨20, 5, 22, rfl⟩, rfl, rfl⟩, by decide +kernel⟩
  · exact ⟨⟨rfl, rfl, rfl, rfl, rfl, ⟨20, 5, 22, rfl⟩, rfl, rfl⟩, by decide +kernel⟩
/-- Hart 0 with a VMV of name 2 at its head, which an entry of hart 1 writes; the charge of a KAND stays below the window. -/
theorem witness_QueueEvents_empty : let e := entry (.vmv 1 2 2 1 0) none 4 [] false none; let o := entry (.vmv 2 3 2 0 0) (some 0) 4 [] false none
    let s0 := lab fun a => { named a with queue := [e] }; let p : PendingWrite := ⟨1, 0, false, [⟨s0.h.shapeOf 2, 0, 4⟩], [], []⟩
    let s := (s0.setHart 1 { Hart.reset 1 with run := .running, queue := [o] }).setCore 0 { Core.reset 0 with pend := [p] }; let u := s.hart 0
    u.run = .running ∧ u.frozen = false ∧ u.skid = none ∧ (∀ v ∈ u.stops.toList, v.w0.getLsbD 0 = false) ∧ u.queue = [e] ∧ e.issued = none ∧
    e.trap = none ∧ coreOf 1 = 0 ∧ (∀ q ∈ (s.hart 1).queue, q.issued ≠ none) ∧ (∀ f, f < 4 → f ≠ 0 → f ≠ 1 → (s.hart f).queue = []) ∧ u.owns = true ∧
    (∀ r ∈ [(1 : Reg), 2], (u.getDef r).wf = true ∧ (u.getDef r).width = 8 * 2 ^ (2 : BitVec 2).toNat ∧
      ((u.getDef r).shape u.base).firstOutside u.windowRows = none ∧ e.vl ≤ ((u.getDef r).shape u.base).count) ∧
    (s.core 0).pend = [p] ∧ p.h = 1 ∧ (∃ x ∈ p.dsts, x.meets ⟨(u.getDef 2).shape u.base, u.estart.toNat, e.vl⟩ = true) ∧
    Nat.max u.vcount (s.core 0).arbM + 8 / Nat.max u.share 1 ≤ (s.core 0).arbM + 56 := by decide +kernel

/-! #### Events of the engines -/

/-- The translation of hart 0's supervisor, and one that translates nothing. -/
def supX : XCtx := ⟨0, true, 0, 0, 0⟩
def noX : XCtx := ⟨0, false, 0, 0, 0⟩
/-- An operation of hart 0 without an object. -/
def opOf (x : XCtx) (k : OpKind) : Op := ⟨4, 0, none, x, k, 0, none, 0x100, 0, none, [], 0⟩
/-- Hart 0's device with one operation in flight. -/
def flying (x : XCtx) (k : OpKind) : State := { lab id with ops := [opOf x k] }
theorem only_flying (x : XCtx) (k : OpKind) : OnlyOp (flying x k) (opOf x k) := ⟨rfl, rfl, rfl, fun _ => rfl⟩
/-- The descriptor of a copy of one run of four bytes. -/
def desc4 : List Byte := [4, 0, 0, 0, 1, 0, 0, 0, 1, 0, 0, 0, 1, 0, 0, 0] ++ List.replicate 48 0

theorem witness_EngineEvents_stream : let x : Stream := ⟨0, 64, 4, 0, 0, 0, false, false, 0, none, supX, 0x100, false, 0⟩
    let s := lab fun a => user (a.setStream 0 (some x))
    s.stream 0 0 = some x ∧ s.streamReady 0 x = true ∧ x.fetched + 1 < x.count ∧ s.unwatched ∧
      (s.loadRun (.engine 0 x.pc) x.x (x.base + BitVec.ofNat 64 x.fetched * x.stride) x.len).2.2.isNone = true :=
  ⟨by decide +kernel, by decide +kernel, by decide +kernel, by unfold State.unwatched; decide +kernel, by decide +kernel⟩
/-- A core that has the page at 0x10000 cached, mapped to tile 16 of its own store, for the identifier 0 at kernel privilege. -/
def localPage (s : State) : State := s.setCore 0 { s.core 0 with tlb := [⟨16, 0, BitVec.ofNat 64 ((0xF0000000000 + 16) * 1024 + 0xD7), 0⟩] }
def userX : XCtx := ⟨0, false, 0xA000000000000000, 0, 0⟩
theorem witness_EngineEvents_fill :
    (fillN (opOf supX (.fill 0 0x2000 4096 0)) 0 (tilePieces true 0x2000 4096 0) (flying supX (.fill 0 0x2000 4096 0))).2.isNone =
      true ∧
    (fillN (opOf noX (.fill 0 0 4096 0)) 0 (tilePieces true 0 4096 0) (flying noX (.fill 0 0 4096 0))).2.isSome = true := by decide +kernel
theorem witness_EngineEvents_drain :
    (drainN (opOf userX (.drain 0 0x10000 4096 0)) 0 (tilePieces false 0x10000 4096 0) (localPage (flying userX (.drain 0 0x10000 4096 0)))).2.isNone =
      true ∧ (drainN (opOf noX (.drain 0 0 4096 0)) 0 (tilePieces false 0 4096 0) (flying noX (.drain 0 0 4096 0))).2.isSome = true := by decide +kernel
theorem witness_EngineEvents_copy : let k := OpKind.copy 0 0x100 desc4 none; let s := flying supX k; let o := opOf supX k
    OnlyOp s o ∧ o.prog = 0 ∧ fieldAt desc4 0 4 = 4 ∧ fieldAt desc4 4 4 = 1 ∧ fieldAt desc4 8 4 = 1 ∧ fieldAt desc4 12 4 = 1 ∧
    (match s.memLoad (.engine 0 0x100) supX 0 4 with
      | (u, .ok bs) => (match u.memStore (.engine 0 0x100) supX none 0x100 bs with
        | (v, .ok ()) => decide (v.ops = u.ops) && decide (u.ops = s.ops)
        | _ => false)
      | _ => false) = true := ⟨only_flying _ _, by decide +kernel, by decide +kernel, by decide +kernel, by decide +kernel, by decide +kernel, by decide +kernel⟩
theorem witness_EngineEvents_bankop : let k := OpKind.bankop 0 0 256 0 [] false 0; let s := flying supX k; let o := opOf supX k
    OnlyOp s o ∧ (match s.memLoad o.agent o.x 0 256 with
      | (u, .ok bs) => (match u.memStore (.engine 0 0x100) supX none 0 (bankTransform 0 0 bs) with
        | (v, .ok ()) => decide (v.ops = [o])
        | _ => false)
      | _ => false) = true ∧ OnlyOp (flying supX (.bankop 6 0 0 0x100 [] true 0)) (opOf supX (.bankop 6 0 0 0x100 [] true 0)) ∧
    (match (flying supX (.bankop 6 0 0 0x100 [] true 0)).memStore (.engine 0 0x100) supX none 0x100 (leBytes 4 1) with
      | (v, .ok ()) => decide (v.ops = (flying supX (.bankop 6 0 0 0x100 [] true 0)).ops)
      | _ => false) = true := ⟨only_flying _ _, by decide +kernel, only_flying _ _, by decide +kernel⟩
/-- A far read of four bytes of an object at 0x20000000000 of another chip or of host memory (KIND 3 or 1), under context 5 bound to domain 1. -/
def farEntry (kind : Byte) (base : List Byte) : List Byte := kind :: List.replicate 7 0 ++ base ++ [16] ++ List.replicate 47 0
def farRead (e : List Byte) : State :=
  { flying supX (.fread 0 e 0 4 0x100 [] 0) with
    ops := [opOf ⟨0, true, 0, 5, 0⟩ (.fread 0 e 0 4 0x100 [] 0)]
    contexts := [(5, { Context.reset 5 with domain := 1, dbind := true })] }
theorem witness_EngineEvents_fread :
    (let e := farEntry 1 [0, 0, 0, 0, 0, 2, 0, 0]; let s := farRead e; let o := opOf ⟨0, true, 0, 5, 0⟩ (.fread 0 e 0 4 0x100 [] 0)
      OnlyOp s o ∧ o.done = [] ∧ fieldAt e 0 1 = 1 ∧
        (let r := farParts o e 0 0x100 [] 0 (partsOf 0x100 4) s; r.2 = none ∧ r.1.ops = s.ops)) ∧
    (let e := farEntry 3 [0, 0, 0, 0, 0, 2, 0, 2]; let s := farRead e; let o := opOf ⟨0, true, 0, 5, 0⟩ (.fread 0 e 0 4 0x100 [] 0)
      OnlyOp s o ∧ fieldAt e 0 1 = 3 ∧
        (let r := farParts o e 0 0x100 [1, 2, 3, 4] 0 (partsOf 0x100 4) s; r.2 = none ∧ r.1.ops = s.ops)) ∧
    (let e := farEntry 2 [0, 0, 0, 0, 0, 0, 0, 0]; let s := { farRead e with staging := [(9, ⟨4, 0, 4, 0⟩)] }
      FMap.find? s.staging 9 = some ⟨4, 0, 4, 0⟩ ∧ (s.nvmeQueue (5 * 4096 + 0) e).cq = 0) :=
  ⟨⟨⟨rfl, rfl, rfl, fun _ => rfl⟩, by decide +kernel, by decide +kernel, by decide +kernel⟩,
    ⟨⟨rfl, rfl, rfl, fun _ => rfl⟩, by decide +kernel, by decide +kernel⟩, by decide +kernel⟩
/-- A core with one addition of i32 handed to its unit, at a line it has permission for. -/
def adding : State := (lab fun a => { a with lanes := a.lanes.set 3 1 }).setCore 0
  { Core.reset 0 with adds := [⟨0, none, 0x100, 3, 0, savePage0, 2, 5, 0⟩], perms := [savePage0 / 256] }
theorem witness_EngineEvents_units : ((adding.core 0).adds = [⟨0, none, 0x100, 3, 0, savePage0, 2, 5, 0⟩] ∧ adding.unwatched ∧ savePage0 % (fmtWidth 2 / 8) = 0 ∧
      adding.inside savePage0 ∧ adding.scopeMiss savePage0 = false ∧ savePage0 / 256 ∈ (adding.core 0).perms ∧
      adding.takesStore savePage0 4 ∧ (adding.hart 0).kernel = none ∧
      adding.addReady ⟨0, none, 0x100, 3, 0, savePage0, 2, 5, 0⟩ = true ∧ adding.recordOff 0 savePage0 = none ∧ (adding.core 0).stores = [] ∧
      ∀ i, i < 4 → adding.fold (savePage0 + i) = savePage0 + i ∧ adding.badHeld 0 (savePage0 + i) = none) ∧
    (let m := ((withMerge .closing id).camp 0).merge; m.st = .closing ∧ m.runs = [] ∧ m.closeObj = none) ∧
    (let s := withMerge .draining id; let m := (s.camp 0).merge;
      m.st = .draining ∧ m.drainObj = none ∧ m.failed = 0 ∧ m.runs = [] ∧ m.done = [] ∧
        (writePieces m s (m.output (deliver (sortEntries m.store))).1).2.isNone = true) ∧
    (let s := withTask (task3 .waiting 0 0 false) false; (s.camp 0).tasks = [task3 .waiting 0 0 false] ∧ (s.hart 0).wait = none) :=
  ⟨⟨by decide +kernel, by unfold State.unwatched; decide +kernel, by decide +kernel, .inl ⟨savePage0, by decide +kernel⟩, by decide +kernel,
    by decide +kernel, takes_device _ rfl _ _ savePage0 (by decide +kernel) (by decide +kernel), rfl, by decide +kernel, by decide +kernel, rfl, by decide +kernel⟩, by decide +kernel,
    by decide +kernel, by decide +kernel⟩

/-! #### Events of the host and of the device's controllers -/

/-- A place of device memory that a write at its home changes. -/
theorem homeWritable (s : State) (pa n : Nat) (u : s.unwatched) (h : (s.hdm % 256 = 0 ∧ (s.hdm ≤ pa ∧ pa + n ≤ s.hdm + Config.hdmLen) ∧
    pa % 256 + n ≤ 256 ∧ s.storeRefused pa n = false ∧ (∀ i, i < n → s.badAt (pa + i) = none) ∧
    (s.frameKeys = 0 ∧ (s.keySlot 0).isOpen = true))) : HomeWritable s pa n :=
  ⟨h.1, h.2.1, h.2.2.1, h.2.2.2.1, h.2.2.2.2.1, h.2.2.2.2.2, u⟩
theorem homeWritable_lab : HomeWritable (lab id) 0 256 := homeWritable _ _ _ (by unfold State.unwatched; decide +kernel) (by decide +kernel)
theorem witness_ScalarAtomics_wide : 2 ≤ (2 : BitVec 3).toNat ∧ CoreBare (lab id) ∧ HomeWritable (lab id) (savePage0 + 0) 8 ∧
    (lab id).permitsNone ((savePage0 + 0) / 256) :=
  ⟨by decide, ⟨rfl, rfl, fun h _ => by
      by_cases e : h = 0
      · subst e; rfl
      · rw [others_reset (lab id) _ rfl h e]; rfl⟩,
    homeWritable _ _ _ (by unfold State.unwatched; decide +kernel) (by decide +kernel), fun e h => nomatch (show e ∈ ([] : FMap Core) from h)⟩
/-- Host queue 3 of context 5, enabled, with two records at most, its ring at 0x800. -/
def hostQueue : HostQueue := ⟨0x800, 5, 1, true, false, 0, 0, none, none, []⟩
theorem witness_HostEvents_doorbell : (let s := (lab id).setQueue 3 hostQueue; let v := s.queue 3;
      v.en = true ∧ v.ctx ≠ 0 ∧ ((2 : W32) - v.head).toNat ≤ 2 ^ v.lcap.toNat ∧ (v.tail - v.head).toNat ≤ ((2 : W32) - v.head).toNat ∧
      2 ^ v.lcap.toNat < ((3 : W32) - v.head).toNat) ∧ ((lab id).queue 3).en = false := by decide +kernel
/-- A start record of context 5 at 0x800 for the image at 0x10000: one temporal level, no definitions; the context lets it run on camp 0 under
key slot 1. -/
def launching : State :=
  ({ placed (lab id) [(0x407, 0xA0), (0x408, 1), (0x41A, 1), (0x802, 1), (0x808, 5), (0x10000, 1), (0x10010, 1)] [4, 8, 0x100] with
    contexts := [(5, { Context.reset 5 with record := 0x401 })]
    keys := [(1, ⟨true, 0⟩)] }.setQueue 3 { hostQueue with tail := 1 }).setCore 640
      { Core.reset 640 with tlb := [⟨16, 0, BitVec.ofNat 64 (16 * 1024 + 0xD7), 0⟩] }
theorem witness_HostEvents_take : (let v := launching.queue 3; let r := launching.homeBytes (v.base.toNat + 128 * (v.head.toNat % 2 ^ v.lcap.toNat)) 128
    v.en = true ∧ v.ctx ≠ 0 ∧ v.record = none ∧ v.head ≠ v.tail ∧ launching.health.getLsbD 0 = true ∧
    launching.slotReadable (v.base.toNat + 128 * (v.head.toNat % 2 ^ v.lcap.toNat)) = true ∧ fieldAt r 48 8 = 0 ∧
    launching.launchReason v.ctx (launching.readLaunch v.ctx r) = 0) ∧ ∀ j, launching.badAt j = none :=
  ⟨by decide +kernel, sound_all rfl rfl (by decide +kernel)⟩
/-- A waiting record of one hart on camp 0. -/
def record1 : WaitingRecord := ⟨5, 0x10000, false, 1, 0, 1, 1, 1, 0x10000, [7], [], [], [], 0, 0, 0, [true, true, true, true],
  ⟨2560, false, 0xA000000000000000, 5, 1⟩, 1, 0, 64, 0x05F5E100, 8, false, false, 0, 0⟩
theorem witness_HostEvents_grant : let s := { State.reset with dtime := 1000000 }.setQueue 3 { hostQueue with record := some record1 }
    (s.queue 3).record = some record1 ∧ record1.stale = false ∧ s.considered (s.queue 3) record1 = true ∧ s.goesBefore 3 record1 = false ∧
    s.placeOkay record1 [0] = true ∧ record1.levels = [] ∧ record1.since + 1000000 ≤ s.dtime.toNat := by decide +kernel
/-- A kernel whose harts have all ended. -/
def ended7 : Kernel := ⟨7, 5, 0x10000, 1, [0], [], [], 0, 0, 0, false, [], noX⟩
theorem witness_HostEvents_end : (let s := { lab id with kernels := [ended7] };
      (s.kernels.find? fun y => y.id == 7) = some ended7 ∧ s.kernelDone ended7 = true ∧ ended7.cpl = 0) ∧ (lab id).landed ∧
    ∀ c, ((lab id).core c).l2 = [] :=
  ⟨by decide +kernel, fun _ => rfl, fun _ => rfl⟩
theorem witness_HostEvents_memory : ((lab id).hostReach 0 64 = true ∧ (lab id).badAt 0 = none ∧ (lab id).unwatched) ∧
    ((List.replicate 64 (0 : Byte)).length = 64 ∧ HomeWritable (lab id) 0 64) ∧
    ((lab id).hostReach 0 8 = true ∧ HomeWritable (lab id) 0 8 ∧ (lab id).permitsNone 0) ∧ (HomeWritable (lab id) (256 * 0) 256 ∧ ((lab id).core 0).badL2 = []) :=
  ⟨⟨by decide +kernel, by decide +kernel, by unfold State.unwatched; decide +kernel⟩,
    ⟨by decide, homeWritable _ _ _ (by unfold State.unwatched; decide +kernel) (by decide +kernel)⟩,
    ⟨by decide +kernel, homeWritable _ _ _ (by unfold State.unwatched; decide +kernel) (by decide +kernel),
      fun e h => nomatch (show e ∈ ([] : FMap Core) from h)⟩, homeWritable_lab, rfl⟩
/-- A MIGRATE toward the host at the head of the ring at 0x600: the entry at 0x500 is device-owned; and a SHOOT of one page. -/
def migrating : State := { placed (lab id) [(0x500, 2), (0x501, 3), (0x600, 1), (0x619, 5)] [5, 6] with ringBase := 0x600, ringTail := 1 }
def shooting : State := { placed (lab id) [(0x600, 2), (0x638, 1)] [6] with ringBase := 0x600, ringTail := 1 }
theorem witness_HostEvents_requests : (let r := migrating.homeBytes 0x600 64;
      Posted migrating r ∧ fieldAt r 0 1 = 1 ∧ migrateOkay r = true ∧ fieldAt r 24 8 = 0x500 ∧ HomeWritable migrating 0x500 8 ∧
      migrating.landed ∧ migrating.permitsNone 5 ∧
      sourceState (fieldAt r 40 1 == 1) (BitVec.ofNat 64 (leNat (migrating.homeBytes 0x500 8))) = true) ∧
    (let r := shooting.homeBytes 0x600 64; Posted shooting r ∧ fieldAt r 0 1 = 2 ∧ shootOkay r = true ∧ shooting.landed) :=
  ⟨⟨⟨⟨0x600, by decide +kernel⟩, by decide +kernel⟩, by decide +kernel, by decide +kernel, by decide +kernel,
    homeWritable _ _ _ (by unfold State.unwatched; decide +kernel) (by decide +kernel), fun _ => rfl,
    (fun e h => nomatch (show e ∈ ([] : FMap Core) from h)), by decide +kernel⟩,
    ⟨⟨0x600, by decide +kernel⟩, by decide +kernel⟩, by decide +kernel, by decide +kernel, fun _ => rfl⟩
/-- A migration of the page at 0 toward host memory, its entry at 0x5000 moving. -/
def moving : State := { placed (lab id) [(0x5000, 2), (0x5001, 2)] [0x50] with
  xreqs := [⟨false, 0x1000, 0, false, 0x5000, 0x20000000000, false, 0, 1, 0x302, []⟩] }
/-- The same once the request is taken: each line of the page is copied, and leaves it as it is. -/
def copying : State := { moving with xreqs := [] }
theorem copying_line : ∀ i, i < 16 → copyLines 1 copying (256 * i) (0x20000000000 + 256 * i) = (copying, 0) := by decide +kernel
theorem copied_then (r : State × Nat) (u : State) (f : State → State × Nat) (h : (if r.2 = 0 then (r.1, 0) else r) = (u, 0)) :
    (if r.2 = 0 then f r.1 else r) = f u := by
  by_cases z : r.2 = 0
  · rw [if_pos z] at h ⊢; rw [(Prod.mk.inj h).1]
  · rw [if_neg z] at h; rw [h] at z; exact absurd rfl z
theorem copyLines_cons (n : Nat) (s u : State) (a b : Nat) (h : copyLines 1 s a b = (u, 0)) :
    copyLines (n + 1) s a b = copyLines n u (a + 256) (b + 256) := by
  simp only [copyLines] at h ⊢
  cases hb : s.badRange a 256 with
  | some x => rw [hb] at h; cases h
  | none => rw [hb] at h; exact copied_then _ u (fun v => copyLines n v (a + 256) (b + 256)) h
theorem copying_lines (n : Nat) : ∀ i, i + n = 16 → copyLines n copying (256 * i) (0x20000000000 + 256 * i) = (copying, 0) := by
  induction n with
  | zero => intro i _; rfl
  | succ n ih =>
    intro i h
    rw [copyLines_cons n _ _ _ _ (copying_line i (by omega))]
    have := ih (i + 1) (by omega)
    rwa [show 256 * (i + 1) = 256 * i + 256 by omega, show 0x20000000000 + (256 * i + 256) = 0x20000000000 + 256 * i + 256 by omega] at this
theorem witness_HostEvents_drained : let q : XRequest := ⟨false, 0x1000, 0, false, 0x5000, 0x20000000000, false, 0, 1, 0x302, []⟩
    moving.xreqs = [q] ∧ moving.drained q = true ∧ q.cpl = 0 ∧ (∀ c, (moving.core c).l2 = []) ∧ moving.landed ∧
    moving.fold ((pteOf q.original).ppn * 4096) = 0 ∧ moving.framesOkay q 0 = true ∧
    copyLines 16 { moving with xreqs := [] } 0 q.frame = (copying, 0) ∧ HomeWritable copying 0x5000 8 ∧ copying.permitsNone (0x5000 / 256) ∧
    BitVec.ofNat 64 (leNat (copying.homeBytes 0x5000 8)) = (q.original &&& ~~~0x301) ||| 0x200 :=
  ⟨by decide +kernel, by decide +kernel, by decide +kernel, fun _ => rfl, fun _ => rfl, by decide +kernel, by decide +kernel,
    copying_lines 16 0 rfl, homeWritable _ _ _ (by unfold State.unwatched; decide +kernel) (by decide +kernel),
    (fun e h => nomatch (show e ∈ ([] : FMap Core) from h)), by decide +kernel⟩
theorem witness_HostEvents_writes : ((lab id).queue 63).en = false ∧ ((lab id).queue 63).base.toNat % 128 = 0 ∧
    (0x01010005 : Word).toNat / 2 ^ 16 % 16 = 1 ∧ (0x010C0005 : Word).toNat / 2 ^ 16 % 16 = 12 ∧ (0x01010005 : Word).toNat / 2 ^ 24 % 4 = 1 ∧
    ((lab id).hart 0).sup = true ∧ ((lab id).hart 0).queue = [] ∧ ((lab id).core 0).stores = [] ∧
    (let o := { opOf supX (.copy 0 0 desc4 none) with parked := some 15 }; let s := { lab id with ops := [o] };
      s.ops = [o] ∧ o.h = 0 ∧ o.parked = some 15 ∧ o.objPa = none) ∧
    ((∀ k ∈ (lab id).kernels, k.ctx ≠ 5) ∧ (1 : Word).getLsbD 0 = true ∧ ((lab id).context 5).bdg = false) ∧
    (∃ k ∈ inKernel.kernels, k.ctx = 1) ∧ (List.replicate 32 (0 : Byte)).length = 32 := by
  decide +kernel

/-! #### Events of the fabric, of debug, of the clock and of power -/

/-- Context 5, bound to domain 1, with its record at 0x400 and an export table at 0x2000 whose one entry lets chip 3 read and write the first 64
KiB of device memory; the page at 0x10000 is mapped for requests of the fabric. -/
def onFabric : State := ({ placed (lab id) [(0x407, 0xA0), (0x2000, 3), (0x2001, 3), (0x2002, 1), (0x2012, 1)] [4, 0x20] with
    contexts := [(5, { Context.reset 5 with record := 0x401, domain := 1, dbind := true, export_ := 0x2001 })] }).setCore 640
  { Core.reset 640 with tlb := [⟨16, 0, BitVec.ofNat 64 (16 * 1024 + 0xD7), 0⟩] }
theorem onFabric_writable (pa n : Nat) (h : (onFabric.hdm % 256 = 0 ∧ (onFabric.hdm ≤ pa ∧ pa + n ≤ onFabric.hdm + Config.hdmLen) ∧
    pa % 256 + n ≤ 256 ∧ onFabric.storeRefused pa n = false ∧ (∀ i, i < n → onFabric.badAt (pa + i) = none) ∧
    (onFabric.frameKeys = 0 ∧ (onFabric.keySlot 0).isOpen = true))) : HomeWritable onFabric pa n :=
  homeWritable _ _ _ (by unfold State.unwatched; decide +kernel) h
/-- A packet of 64 bytes of chip 3. -/
def packet3 (seq : Nat) : Packet := ⟨3, seq, 1, .bytes 0x3000 (List.replicate 64 7)⟩
theorem witness_DeviceEvents_packets : (onFabric.fabric.ports[(5 : Fin 16)].up = true ∧ onFabric.fabric.ports[(5 : Fin 16)].replays < 7 ∧
      (let s := { onFabric with fabric := { onFabric.fabric with ports := onFabric.fabric.ports.set 5 ⟨true, 7, 0⟩ } };
        7 ≤ s.fabric.ports[(5 : Fin 16)].replays)) ∧
    Fresh onFabric (packet3 4095) 0x3000 (List.replicate 64 7) ∧
    (let s := onFabric.recordSeq 3 0; packetBytes (packet3 0).body ≤ 4096 ∧ (s.received 3).has 0 = true) ∧
    ((onFabric.received 3).has 4096 = false ∧ (onFabric.received 3).below + 4096 ≤ 4096) ∧
    (onFabric.exported 3 1 0x3000 8 true false = true ∧ (∀ q, onFabric.badAt q = none) ∧ onFabric.unwatched) ∧
    ((onFabric.received 3).below = 0 ∧ (onFabric.received 3).has 0 = false ∧ onFabric.remoteXlat 1 0x10000 .store = (onFabric, .ok 0x10000) ∧
      HomeWritable onFabric 0x10000 8 ∧ onFabric.permitsNone (0x10000 / 256)) ∧
    ((onFabric.received 3).has 1 = false ∧ (onFabric.received 3).below < 1 ∧ 1 < (onFabric.received 3).below + 4096) :=
  ⟨by decide +kernel,
    ⟨rfl, by decide +kernel, by decide +kernel, by decide +kernel, by decide +kernel, onFabric_writable _ _ (by decide +kernel)⟩,
    by decide +kernel, by decide +kernel, ⟨by decide +kernel, sound_all rfl rfl (by decide +kernel), by unfold State.unwatched; decide +kernel⟩,
    ⟨by decide +kernel, by decide +kernel, by decide +kernel, onFabric_writable _ _ (by decide +kernel),
      by unfold State.permitsNone; decide +kernel⟩, by decide +kernel⟩

/-- The translation of the supervisor of hart 0 for context 5, and its device with one operation of that context in flight. -/
def fabX : XCtx := ⟨0, true, 0, 5, 0⟩
def inFlight (k : OpKind) (sent : FMap Sent) : State :=
  { onFabric with ops := [opOf fabX k], fabric := { onFabric.fabric with sent := sent } }
/-- A gather of one byte of chip 1, whose address stands at 0x40; a reduce of no element into chip 1 and of one into this chip; the root of a
broadcast of four bytes to chip 1; a flag for chip 1. -/
def gather1 : OpKind := .fgather 0x40 0x100 0 1
def gathering : State := { inFlight gather1 [] with mem := onFabric.mem ++ [(savePage0 + 0x47, 2)], tags := onFabric.tags ++ [(pageLine 0, 0xC6)] }
def reduceFar : OpKind := .freduce 0x0200000000000000 0 8 0 [] [] none 0 none
def reduceOwn : OpKind := .freduce 0x10000 1 8 0 [0, 0, 0x80, 0x3F] [] none 0 none
def collBlock : List Byte := [0, 2] ++ List.replicate 14 0 ++ [0, 1] ++ List.replicate 6 0 ++ [0, 2] ++ List.replicate 6 0 ++ [4] ++ List.replicate 31 0
def broadcast : OpKind := .fcoll collBlock [0, 1] none [(1, 0)]
def flag1 : OpKind := .fflag 0x0200000000000000 5 false 0
def sent1 (chip : Nat) : FMap Sent := [(chip, ⟨1, [0], 0⟩)]
theorem witness_DeviceEvents_commands :
    (OnlyOp gathering (opOf fabX gather1) ∧ (let r := gathering.loadRun (opOf fabX gather1).agent fabX 0x40 8;
      r.2.2 = none ∧ r.1.opDomain (opOf fabX gather1) = some 1 ∧ remoteChip (BitVec.ofNat 64 (fieldAt r.2.1 0 8)) = 1 ∧ r.1.fabric.chip = 0 ∧
        r.1.route 1 ≠ none ∧ (let q := r.1.storeRun (opOf fabX gather1).agent fabX none 0x100 (leBytes 1 7);
          q.2.2 = none ∧ q.1.ops = [opOf fabX gather1]))) ∧
    (let s := inFlight reduceFar (sent1 1); OnlyOp s (opOf fabX reduceFar) ∧ s.fabric.held = false ∧ s.opDomain (opOf fabX reduceFar) = some 1 ∧
      remoteChip 0x0200000000000000 = 1 ∧ s.route 1 ≠ none ∧ s.isSent 1 0 = true) ∧
    (let s := inFlight reduceOwn (sent1 0); OnlyOp s (opOf fabX reduceOwn) ∧ remoteChip 0x10000 = s.fabric.chip ∧
      (let r := s.applyReduce 0 1 0x10000 1 8 0 [0, 0, 0x80, 0x3F] [] none; r.2 = 0 ∧ r.1.ops = s.ops)) ∧
    (let s := inFlight broadcast (sent1 1); OnlyOp s (opOf fabX broadcast) ∧ s.route 1 ≠ none ∧ fieldAt collBlock 1 1 = 2 ∧
      fieldAt collBlock 16 8 = 0x100 ∧ fieldAt collBlock 24 8 = 0x200 ∧ fieldAt collBlock 32 8 = 4 ∧
      (let r := s.loadRun (opOf fabX broadcast).agent fabX 0x100 4; let q := collStore (opOf fabX broadcast) 0x200 r.2.1 (partsOf 0x200 4) r.1;
        r.2.2 = none ∧ r.2.1.length = 4 ∧ q.2 = none ∧ q.1.ops = s.ops ∧ q.1.fabric.colls = [])) ∧
    (let s := { onFabric with fabric := { onFabric.fabric with sent := sent1 1 } }; s.flagOp 1 0 = none ∧ s.isSent 1 0 = true ∧ s.ops = []) ∧
    (let s := inFlight flag1 (sent1 1); OnlyOp s (opOf fabX flag1) ∧ s.opDomain (opOf fabX flag1) = some 1 ∧ s.route 1 ≠ none ∧
      s.isSent 1 0 = true) ∧
    (1, true) ∉ onFabric.fabric.halted :=
  ⟨⟨⟨rfl, rfl, rfl, fun _ => rfl⟩, by decide +kernel⟩, ⟨⟨rfl, rfl, rfl, fun _ => rfl⟩, by decide +kernel⟩, ⟨⟨rfl, rfl, rfl, fun _ => rfl⟩, by decide +kernel⟩,
    ⟨⟨rfl, rfl, rfl, fun _ => rfl⟩, by decide +kernel⟩, by decide +kernel, ⟨⟨rfl, rfl, rfl, fun _ => rfl⟩, by decide +kernel⟩, by decide +kernel⟩

/-- A hart with stop unit 0 enabled at its PC, whose fetch buffer holds the word there: addi x1, x0, 5. -/
def atStop : State := lab fun a => { a with
    fetchBuf := [(fetchKey true 0, encode (.addi 1 0 5))]
    stops := a.stops.set 0 ⟨1, 0, false⟩ }
/-- Trigger 2 with kind 0, its event 5 and its end 6, at a tick in which event 5 happened. -/
def triggering : State := { lab id with triggers := (lab id).triggers.set 2 ⟨0x0005000600000001, 0, 0, false⟩, trigEvents := [5] }
/-- A device at a boundary of the clock grants, whose camp 0 may not run above code 20; and an estimate of 1 for every camp and code. -/
def granting : State := { (lab user).setCamp 0 { Camp.reset 0 with ceil := 20 } with dtime := 2000 }
def estimate (budget : Nat) : PowerEstimate := ⟨budget, List.replicate 40 (List.replicate 25 1)⟩
theorem quiet_lab (f : Hart → Hart) (h : let a := f { Hart.reset 0 with run := .running }; a.run = .running ∧ a.frozen = false ∧ a.skid = none ∧ a.queue = []) :
    Quiet (lab f) 0 :=
  ⟨h.1, h.2.1, h.2.2.1, h.2.2.2, show (FMap.get Camp.reset [] (campOf 0)).ring.cfg.getLsbD 6 = false by decide +kernel⟩
theorem witness_DeviceEvents_debug :
    ((lab fun a => { a with frozen := true }).hart 0).frozen = true ∧ (lab id).halts = [] ∧
    (Quiet { lab id with halts := [⟨[0], 1, 0, 0⟩] } 0 ∧ ((lab id).hart 0).stepping = none) ∧
    (let s := lab fun a => { a with stepping := some ⟨0, some (.addi 1 0 5)⟩ };
      Quiet s 0 ∧ (s.hart 0).wait = none ∧ s.ops = [] ∧ s.stepDrained 0 (.addi 1 0 5) = true) ∧
    (Quiet atStop 0 ∧ (atStop.hart 0).wait = none ∧ (atStop.hart 0).stops[(0 : Fin 4)] = ⟨(atStop.hart 0).pc ||| 1, 0, false⟩ ∧
      (let r := State.fetch { atStop with cur := 0 } 0; r.1 = { atStop with cur := 0 } ∧ r.2 = .word (encode (.addi 1 0 5))) ∧
      decode (encode (.addi 1 0 5)) = .ok (.addi 1 0 5) ∧ (entryOp (.addi 1 0 5)).isNone = true) ∧
    (let g := triggering.triggers[(2 : Fin 8)];
      (∀ j : Fin 8, j ≠ 2 → triggering.triggers[j].cfg.getLsbD 0 = false) ∧ triggering.camps = [] ∧ triggering.ticked = none ∧
        (∀ e ∈ triggering.cores, e.2.gated = 0) ∧
        g.cfg.getLsbD 0 = true ∧ g.isOpen = false ∧ g.cfg.toNat / 2 ^ 20 % 8 ≠ 2 ∧ g.cfg.toNat / 2 ^ 48 = 5 ∧
        g.cfg.toNat / 2 ^ 32 % 65536 = 6) ∧
    (lab user).grantDue = false ∧ (let s := granting; s.grantDue = true ∧ s.startRecord.outcomes[(1 : Fin 16)] ≠ 3 ∧
      Nat.min (s.camp 0).ceil.toNat 24 < 24 ∧ ((List.range 40).map fun p => ((estimate 1000).powers.getD p []).getD
        (Nat.min (Nat.min (s.camp p).floor.toNat 24) (Nat.min (s.camp p).ceil.toNat 24)) 0).sum ≤ (estimate 1000).budget ∧
      (estimate 10).budget < ((List.range 40).map fun p => ((estimate 10).powers.getD p []).getD 0 0).sum) :=
  ⟨by decide +kernel, by decide +kernel, ⟨⟨rfl, rfl, rfl, rfl, by decide +kernel⟩, by decide +kernel⟩,
    ⟨quiet_lab _ (by decide +kernel), by decide +kernel⟩, ⟨quiet_lab _ (by decide +kernel), by decide +kernel⟩, by decide +kernel,
    by decide +kernel⟩

/-- A hash is 32 bytes. -/
theorem sha256_length (m : List Byte) : (sha256 m).length = 32 := by simp [sha256, beBytes, leBytes]
theorem merkleRoot_length (ident : List Byte) (n : Nat) : ∀ (node : Nat) (t path : List Byte), t.length = 32 →
    (merkleRoot ident n node t path).length = 32 := by
  induction n with
  | zero => intro _ _ _ h; exact h
  | succ n ih => intro _ _ _ _; exact ih _ _ _ (sha256_length _)
/-- An image whose key is the one that its signature leads to, with a tree of 15 levels. -/
def ident0 : List Byte := List.replicate 16 0
def sig0 : List Byte := [0, 0, 0, 0, 0, 0, 0, 3] ++ List.replicate 2176 0 ++ [0, 0, 0, 7] ++ List.replicate 480 0
def root0 : List Byte := merkleRoot ident0 15 (2 ^ 15)
  (keyHash ident0 (2 ^ 15) 0x8282 (oneTimeKey ident0 0 (slice sig0 4 2180) (beBytes 2 9 ++ [1] ++ [0xAA]))) (sig0.drop 2188)
def key0 : List Byte := ([0, 0, 0, 7, 0, 0, 0, 3] ++ ident0) ++ root0
def image0 : Firmware := ⟨[0xAA], 9, true, key0, sig0⟩
theorem root0_length : root0.length = 32 := merkleRoot_length _ _ _ _ _ (sha256_length _)
theorem slice_left (l r : List Byte) (i n : Nat) (h : i + n ≤ l.length) : slice (l ++ r) i n = slice l i n := by
  have e : n - ((l ++ r).length - i) = 0 ∧ n - (l.length - i) = 0 := by rw [List.length_append]; omega
  rw [slice, slice, e.1, e.2, List.drop_append_of_le_length (by omega), List.take_append_of_le_length (by rw [List.length_drop]; omega)]
theorem key0_root : slice key0 24 32 = root0 := by
  have : (([0, 0, 0, 7, 0, 0, 0, 3] ++ ident0 : List Byte)).length = 24 := rfl
  rw [slice, key0, List.drop_append_of_le_length (by omega), ← this, List.drop_length, List.nil_append, List.length_append, root0_length]
  simp [root0_length]
theorem image0_holds : lmsHolds key0 (signedBytes image0) sig0 = true := by
  have k : key0.length = 56 := by rw [key0, List.length_append, root0_length]; rfl
  have a : beAt key0 0 4 = 7 ∧ beAt key0 4 4 = 3 ∧ slice key0 8 16 = ident0 := by
    refine ⟨?_, ?_, ?_⟩ <;> simp only [beAt, key0] <;> rw [slice_left _ _ _ _ (by decide)] <;> decide
  have b : sig0.length = 2668 ∧ beAt sig0 0 4 = 0 ∧ beAt sig0 4 4 = 3 ∧ beAt sig0 2184 4 = 7 := by decide +kernel
  simp only [lmsHolds, a.1, treeHeight, k, a.2.1, a.2.2, b.1, b.2.1, b.2.2.1, b.2.2.2, key0_root, if_true]
  simp [root0, signedBytes, image0]
/-- A module without power whose fuses hold the hash of that key. -/
def dark : State := { lab id with power := false, fuses := ⟨sha256 key0, 9⟩ }
theorem witness_DeviceEvents_power : dark.power = false ∧ dark.fuses.accept image0 = true ∧
    (∀ i : Fin 16, dark.flashRecord.outcomes[i] ≠ 2 ∧ dark.flashRecord.outcomes[i] ≠ 3) ∧ (List.replicate 11 (⟨true, false⟩ : StepTrial)).length = 11 ∧
    (∀ x ∈ List.replicate 11 (⟨true, false⟩ : StepTrial), x.main = true) ∧ dark.fuses.accept { image0 with version := 8 } = false := by
  refine ⟨rfl, ?_, by decide +kernel, rfl, by decide, ?_⟩
  · simp [Fuses.accept, dark, image0]
    exact image0_holds
  · simp [Fuses.accept, dark, image0]

theorem witness_StepKeepsMemory : Memory.wf (State.reset.withFetchWord 32 0x80128380).mem = true ∧
    (match step (State.reset.withFetchWord 32 0x80128380) with
      | .next t => Memory.wf t.mem
      | _ => false) = true := by decide +kernel

end Sys2Proof.Tests
end

section
/-! Memory in canonical form (log 2): what it means of a state, of an outcome and of the parts of the machine. -/
namespace Sys2Proof.Machine

/-- The memory of a state is in canonical form. -/
def State.MemWf (s : State) : Prop := Memory.wf s.mem = true

/-- An outcome's next state, where there is one, has its memory in canonical form. -/
def OutMemWf : Out → Prop
  | .next s => s.MemWf
  | _ => True

/-- The state that the attempt of a wait leaves has its memory in canonical form. -/
def Try.MemWf : Try → Prop
  | .trap s _ => s.MemWf
  | .done s _ _ => s.MemWf
  | .finished s => s.MemWf
  | .wait s _ => s.MemWf

/-- The effects of an instruction of the queue keep memory in canonical form. -/
structure QOp.Keeps (op : QOp) : Prop where
  post : ∀ {s h e}, s.MemWf → (op.post s h e).1.MemWf
  start : ∀ {s h e}, s.MemWf → (op.start s h e).MemWf
  run : ∀ {s h e lo hi}, s.MemWf → (op.run s h e lo hi).state.MemWf
  closing : ∀ {s h e}, s.MemWf → (op.closing s h e).1.MemWf
  leave : ∀ {s h e}, s.MemWf → (op.leave s h e).MemWf
  finish : ∀ {s h e}, s.MemWf → (op.finish s h e).MemWf

/-- The element of an indexed access keeps memory in canonical form. -/
structure Indexed.Keeps (x : Indexed) : Prop where
  one : ∀ {s h e i va pa}, s.MemWf → (x.one s h e i va pa).1.MemWf

/-- The begin, the attempts and the deadline of a wait keep memory in canonical form. -/
structure WaitOp.Keeps (op : WaitOp) : Prop where
  start : ∀ {s h w}, s.MemWf → (op.start s h w).MemWf
  attempt : ∀ {s h w}, s.MemWf → (op.attempt s h w).MemWf
  late : ∀ {s h w}, s.MemWf → (op.late s h w).MemWf

/-- The state that the decoder of VLDZ leaves, its unit taken or stopped, has its memory in canonical form. -/
def DecMemWf {α : Type} : Except (State × DzStop) (α × State × Nat) → Prop
  | .ok r => r.2.1.MemWf
  | .error r => r.1.MemWf

/-- A part of the decoder of VLDZ keeps memory in canonical form. -/
structure Dec.Keeps {α : Type} (m : Dec α) : Prop where
  run : ∀ {q : State × Nat}, q.1.MemWf → DecMemWf (m q)

/-- A change of other parts of a state keeps the form. -/
theorem State.MemWf.of_mem {s t : State} (hs : s.MemWf) (h : t.mem = s.mem) : t.MemWf := by
  unfold State.MemWf at *
  rw [h]
  exact hs

theorem State.MemWf.fst {α : Type} {s : State} {a : α} (hs : s.MemWf) : (s, a).1.MemWf := hs

theorem State.MemWf.of_eq {α : Type} {s : State} {r : State × α} {a : α} (e : r = (s, a)) (hr : r.1.MemWf) : s.MemWf := by
  subst e; exact hr

theorem Try.MemWf.of_trap {s : State} {t : Trap} {r : Try} (e : r = .trap s t) (hr : r.MemWf) : s.MemWf := by
  subst e; exact hr

theorem Try.MemWf.of_done {s : State} {st : Word} {late : Bool} {r : Try} (e : r = .done s st late) (hr : r.MemWf) : s.MemWf := by
  subst e; exact hr

theorem Try.MemWf.of_finished {s : State} {r : Try} (e : r = .finished s) (hr : r.MemWf) : s.MemWf := by
  subst e; exact hr

theorem Try.MemWf.of_wait {s : State} {w : Wait} {r : Try} (e : r = .wait s w) (hr : r.MemWf) : s.MemWf := by
  subst e; exact hr

/-- A fold whose steps keep the canonical form keeps it. -/
theorem State.MemWf.foldl {α : Type} {f : State → α → State} (hf : ∀ (s : State) (a : α), s.MemWf → (f s a).MemWf) {l : List α} {s : State}
    (hs : s.MemWf) : (l.foldl f s).MemWf := by
  induction l generalizing s with
  | nil => exact hs
  | cons a l ih => exact ih (hf s a hs)

theorem exists_ok_of_map_ok {ε α β : Type} {f : α → β} {x : Except ε α} {b : β} (h : x.map f = .ok b) : ∃ a, x = .ok a ∧ f a = b := by
  cases x with
  | error e => cases h
  | ok a => exact ⟨a, rfl, Except.ok.inj h⟩

theorem exists_ok_of_bind_ok {ε α β : Type} {f : α → Except ε β} {x : Except ε α} {b : β} (h : (x >>= f) = .ok b) :
    ∃ a, x = .ok a ∧ f a = .ok b := by
  cases x with
  | error e => cases h
  | ok a => exact ⟨a, rfl, h⟩

/-- A fold over a state and a result. -/
theorem foldl_memWf {α β : Type} {f : State × β → α → State × β} (hf : ∀ (r : State × β) (a : α), r.1.MemWf → (f r a).1.MemWf) {l : List α}
    {r : State × β} (hr : r.1.MemWf) : (l.foldl f r).1.MemWf := by
  induction l generalizing r with
  | nil => exact hr
  | cons a l ih => exact ih (hf r a hr)

/-- Writes of the bytes of a line keep the canonical form. -/
theorem writeCells_wf {m : Memory} (h : Memory.wf m = true) (pa : Nat) (l : List (Nat × Byte)) : Memory.wf (writeCells m pa l) = true := by
  induction l generalizing m with
  | nil => exact h
  | cons e l ih => exact ih (Memory.wf_write _ _ _ h)

end Sys2Proof.Machine
end

section
/-! The canonical form of memory through the operations of Sys2Proof/Machine/Ops.lean. -/
namespace Sys2Proof.Machine

theorem State.MemWf.setHart {s : State} {h : Nat} {v : Hart} (hs : s.MemWf) : (s.setHart h v).MemWf := .of_mem hs rfl

theorem State.MemWf.setCore {s : State} {c : Nat} {v : Core} (hs : s.MemWf) : (s.setCore c v).MemWf := .of_mem hs rfl

theorem State.MemWf.setCamp {s : State} {p : Nat} {v : Camp} (hs : s.MemWf) : (s.setCamp p v).MemWf := .of_mem hs rfl

theorem State.MemWf.setQueue {s : State} {q : Nat} {v : HostQueue} (hs : s.MemWf) : (s.setQueue q v).MemWf := .of_mem hs rfl

theorem State.MemWf.setContext {s : State} {x : Nat} {v : Context} (hs : s.MemWf) : (s.setContext x v).MemWf := .of_mem hs rfl

theorem State.MemWf.modHart {s : State} {h : Nat} {f : Hart → Hart} (hs : s.MemWf) : (s.modHart h f).MemWf := .setHart hs

theorem State.MemWf.modCore {s : State} {c : Nat} {f : Core → Core} (hs : s.MemWf) : (s.modCore c f).MemWf := .setCore hs

theorem State.MemWf.modCamp {s : State} {p : Nat} {f : Camp → Camp} (hs : s.MemWf) : (s.modCamp p f).MemWf := .setCamp hs

theorem State.MemWf.modH {s : State} {f : Hart → Hart} (hs : s.MemWf) : (s.modH f).MemWf := .setHart hs

theorem State.MemWf.logError {s : State} {srcLoc : Word} {pa kind id : Nat} (hs : s.MemWf) : (s.logError srcLoc pa kind id).MemWf := .of_mem hs rfl

theorem State.MemWf.logBad {s : State} {src : Nat} {va : Word} {pa id : Nat} (hs : s.MemWf) : (s.logBad src va pa id).MemWf := .logError hs

theorem State.MemWf.homeMerge {s : State} {line : Nat} {ws : List (Nat × Byte)} {found : Word × Nat} {whole : Bool} (hs : s.MemWf) :
    (s.homeMerge line ws found whole).1.MemWf := by
  unfold State.homeMerge
  extract_lets base full gone
  split
  · extract_lets p ln t touched old kept m line' t' slot key secs s1
    have hs1 : s1.MemWf := writeCells_wf (writeCells_wf hs _ _) _ _
    split
    · exact .logBad hs
    · dsimp only
      split <;> exact hs1
  · exact hs
  · exact writeCells_wf hs _ _

theorem State.MemWf.homeWriteN {s : State} {found : Word × Nat} {n pa : Nat} {bs : List Byte} (hs : s.MemWf) :
    (homeWriteN found n s pa bs).1.MemWf := by
  induction n generalizing s pa bs with
  | zero => exact hs
  | succ n ih =>
    unfold Machine.homeWriteN
    split
    · exact hs
    · exact ih (.homeMerge hs)

theorem State.MemWf.homeWrite {s : State} {pa : Nat} {bs : List Byte} {found : Word × Nat} (hs : s.MemWf) : (s.homeWrite pa bs found).1.MemWf :=
  .homeWriteN hs

theorem State.MemWf.dropLinks {s : State} {c line : Nat} (hs : s.MemWf) : (s.dropLinks c line).MemWf := by
  unfold State.dropLinks
  refine .foldl (fun s _ hs => ?_) hs
  extract_lets h
  split
  · exact .modHart hs
  · exact hs

theorem State.MemWf.l2Fill {s : State} {c sec : Nat} (hs : s.MemWf) : (s.l2Fill c sec).MemWf := by
  unfold State.l2Fill
  split
  · exact hs
  · exact .modCore hs

theorem State.MemWf.l2Claim {s : State} {c sec : Nat} (hs : s.MemWf) : (s.l2Claim c sec).MemWf := .modCore hs

theorem State.MemWf.l2Put {s : State} {c pa : Nat} {b : Byte} (hs : s.MemWf) : (s.l2Put c pa b).MemWf := .modCore hs

theorem State.MemWf.l2FillRange {s : State} {c pa n : Nat} (hs : s.MemWf) : (s.l2FillRange c pa n).MemWf := by
  unfold State.l2FillRange
  split
  · exact hs
  · exact .foldl (fun _ _ h => .l2Fill h) hs

theorem State.MemWf.coreRead {s : State} {c pa n : Nat} (hs : s.MemWf) : (s.coreRead c pa n).1.MemWf := by
  unfold State.coreRead
  extract_lets p s1
  have hs1 : s1.MemWf := .l2FillRange hs
  split
  · exact hs1
  · exact hs

theorem State.MemWf.localWrite {s : State} {p : Nat} {bs : List Byte} (hs : s.MemWf) : (s.localWrite p bs).MemWf :=
  writeCells_wf hs _ _

theorem State.MemWf.coreWrite {s : State} {c pa : Nat} {bs : List Byte} (hs : s.MemWf) : (s.coreWrite c pa bs).MemWf := by
  unfold State.coreWrite
  extract_lets p
  split
  · exact .modCore (.foldl (fun _ _ h => .l2Put h) (.l2FillRange hs))
  · exact .localWrite hs

theorem State.MemWf.countPacket {s : State} {chip : Nat} (hs : s.MemWf) : (s.countPacket chip).MemWf := .of_mem hs rfl

theorem State.MemWf.post {s : State} {pa : Nat} (hs : s.MemWf) : (s.post pa).MemWf := by
  unfold State.post
  split
  · split
    · exact hs
    · split
      · exact .countPacket hs
      · exact .of_mem hs rfl
  · exact hs

theorem State.MemWf.writeBackLine {s : State} {c line : Nat} (hs : s.MemWf) : (s.writeBackLine c line).MemWf := by
  unfold State.writeBackLine
  extract_lets secs held dirty good whole ws s1 s2 s3 s31
  have hs1 : s1.MemWf := by
    unfold s1
    split
    · exact hs
    · exact .homeMerge hs
  have hs2 : s2.MemWf := .post hs1
  have hs3 : s3.MemWf := .foldl (fun _ _ h => .logError h) hs2
  have hs31 : s31.MemWf := by
    unfold s31
    split
    · exact hs2
    · split
      · exact .of_mem hs3 rfl
      · exact hs3
  split
  · exact hs
  · exact .modCore hs31

theorem State.MemWf.evictLine {s : State} {c line : Nat} (hs : s.MemWf) : (s.evictLine c line).MemWf := .modCore (.writeBackLine hs)

theorem State.MemWf.acquire {s : State} {c scope : Nat} (hs : s.MemWf) : (s.acquire c scope).MemWf := by
  unfold State.acquire
  split
  · exact hs
  · exact .modCore hs

theorem State.MemWf.homeWriteVia {s : State} {c pa : Nat} {bs : List Byte} (hs : s.MemWf) : (s.homeWriteVia c pa bs).1.MemWf := by
  unfold State.homeWriteVia
  extract_lets p
  split
  · exact .homeWrite (.evictLine (.evictLine hs))
  · exact .fst (.localWrite hs)

theorem State.MemWf.saveWrite {s : State} {h off : Nat} {bs : List Byte} (hs : s.MemWf) : (s.saveWrite h off bs).MemWf := .homeWriteVia hs

theorem State.MemWf.parkCopy {s : State} {o : Op} (hs : s.MemWf) : (s.parkCopy o).MemWf := by
  unfold State.parkCopy
  split
  · split
    · exact .saveWrite (.of_mem hs rfl)
    · exact hs
  · exact hs

theorem State.MemWf.parkStream {s : State} {h q : Nat} {st : Option Stream} {objVa : Word} (hs : s.MemWf) : (s.parkStream h q st objVa).MemWf := by
  unfold State.parkStream
  split
  · exact hs
  · split
    · exact hs
    · exact .saveWrite (.modHart hs)

theorem State.MemWf.parkTask {s : State} {h : Nat} (hs : s.MemWf) : (s.parkTask h).MemWf := by
  unfold State.parkTask
  split
  · exact hs
  · split
    · exact hs
    · exact .saveWrite (.modHart hs)

theorem State.MemWf.park {s : State} {h : Nat} (hs : s.MemWf) : (s.park h).MemWf :=
  .parkTask (.parkStream (.parkStream (.foldl (fun _ _ h' => .parkCopy h') hs)))

theorem State.MemWf.takeTrap {s : State} {h : Nat} {t : Trap} {pc : Word} (hs : s.MemWf) : (s.takeTrap h t pc).MemWf := by
  unfold State.takeTrap
  extract_lets s1
  have hs1 : s1.MemWf := .modHart hs
  split
  · exact .park hs1
  · exact hs1

theorem State.MemWf.setReason {s : State} {h reason : Nat} (hs : s.MemWf) : (s.setReason h reason).MemWf := .modHart hs

theorem State.MemWf.restart {s : State} {h : Nat} (hs : s.MemWf) : (s.restart h).MemWf := by
  unfold State.restart
  extract_lets ctx recs s1 s2 s3
  have hs1 : s1.MemWf := .of_mem hs rfl
  have hs2 : s2.MemWf := .foldl (fun _ _ h' => .saveWrite h') hs1
  have hs3 : s3.MemWf := by
    unfold s3
    refine .foldl (fun s _ hs => ?_) hs2
    extract_lets a
    split
    · split
      · exact .saveWrite (.modHart hs)
      · exact hs
    · exact hs
  split
  · split
    · exact .saveWrite (.modHart hs3)
    · exact hs3
  · exact hs3

theorem State.MemWf.returnTrap {s : State} {h : Nat} (hs : s.MemWf) : (s.returnTrap h).MemWf := by
  unfold State.returnTrap
  extract_lets s1 a
  have hs1 : s1.MemWf := .modHart hs
  split
  · exact hs1
  · split
    · exact .takeTrap (.modHart hs1)
    · exact .restart hs1

end Sys2Proof.Machine
end

section
/-! The canonical form of memory through the operations of Sys2Proof/Machine/Translate.lean. -/
namespace Sys2Proof.Machine

theorem State.MemWf.walkAcquire {s : State} {x : XCtx} {va : Word} {acc : Access} (hs : s.MemWf) : (s.walkAcquire x va acc).MemWf := by
  unfold State.walkAcquire
  split
  · exact .acquire hs
  · exact hs

theorem State.MemWf.pin {s : State} {x : XCtx} {va : Word} {acc : Access} (hs : s.MemWf) : (s.pin x va acc).MemWf := by
  unfold State.pin
  split
  · exact hs
  · exact .modCore hs

theorem State.MemWf.keep {s : State} {h : Nat} {t : Option TlbEntry} (hs : s.MemWf) : (s.keep h t).MemWf := by
  unfold State.keep
  split
  · exact hs
  · exact .modCore hs

theorem State.MemWf.tlbDrop {s : State} {c va asid : Nat} {all : Bool} (hs : s.MemWf) : (s.tlbDrop c va asid all).MemWf := .modCore hs

end Sys2Proof.Machine
end

section
/-! The canonical form of memory through the operations of Sys2Proof/Machine/Hooks.lean. -/
namespace Sys2Proof.Machine

theorem State.MemWf.spoor {s : State} {camp kind ctx src : Nat} {pc : Word} {ps : List Word} {ticket : Option (Nat × Nat)} (hs : s.MemWf) :
    (s.spoor camp kind ctx src pc ps ticket).MemWf := by
  unfold State.spoor
  extract_lets c
  split
  · exact .of_mem hs rfl
  · exact hs

theorem State.MemWf.freeze {s : State} {h cause unit : Nat} {exact undr : Bool} {instrs elems : Nat} (hs : s.MemWf) :
    (s.freeze h cause unit exact undr instrs elems).MemWf := by
  unfold State.freeze
  extract_lets a d k s1
  have hs1 : s1.MemWf := .modHart hs
  split
  · exact hs
  · exact .spoor hs1

theorem State.MemWf.hold {s : State} {freeze : Bool} (hs : s.MemWf) : (s.hold freeze).MemWf := by
  unfold State.hold
  split <;> exact .of_mem hs rfl

theorem State.MemWf.postHalt {s : State} {l : List Nat} {cause unit : Nat} {freeze : Bool} (hs : s.MemWf) :
    (s.postHalt l cause unit freeze).MemWf := by
  unfold State.postHalt
  split
  · exact hs
  · extract_lets s1
    have hs1 : s1.MemWf := .of_mem hs rfl
    split
    · exact .hold hs1
    · exact hs1

theorem State.MemWf.trigEvent {s : State} {kind index : Nat} (hs : s.MemWf) : (s.trigEvent kind index).MemWf := .of_mem hs rfl

theorem State.MemWf.watchOne {s0 s1 : State} {ag : Agent} {atHome store atomic : Bool} {at_ : Nat → Bool} {camp w : Nat} {wt : Watch} (hs1 : s1.MemWf) :
    (s0.watchOne s1 ag atHome store atomic at_ camp w wt).MemWf := by
  unfold State.watchOne
  extract_lets c word bytes isLocal isDev here own touches after value same before src ctx pc s2 act s3
  have hs2 : s2.MemWf := .spoor hs1
  have hs3 : s3.MemWf := by
    unfold s3
    clear_value act
    split
    · split
      · exact .postHalt hs2
      · exact hs2
    · exact .postHalt hs2
    · exact hs2
  split
  · exact hs1
  · split
    · exact .trigEvent hs3
    · exact hs3

theorem State.MemWf.watchBytes {s0 s1 : State} {ag : Agent} {atHome store atomic : Bool} {at_ : Nat → Bool} (hs1 : s1.MemWf) :
    (s0.watchBytes s1 ag atHome store atomic at_).MemWf := by
  unfold State.watchBytes
  refine .foldl (fun s _ hs => ?_) hs1
  refine .foldl (fun s _ hs => ?_) hs
  split
  · split
    · exact .watchOne hs
    · exact hs
  · exact hs

theorem State.MemWf.watch {s0 s1 : State} {ag : Agent} {atHome store atomic : Bool} {pa n : Nat} (hs1 : s1.MemWf) :
    (s0.watch s1 ag atHome store atomic pa n).MemWf :=
  .watchBytes hs1

theorem State.MemWf.loseLinks {s : State} {line : Nat} {except only : Option Nat} (hs : s.MemWf) : (s.loseLinks line except only).MemWf :=
  .of_mem hs rfl

theorem State.MemWf.wake {s : State} {line : Nat} {l2 : Option Nat} (hs : s.MemWf) : (s.wake line l2).MemWf := .of_mem hs rfl

theorem State.MemWf.noteRetests {s : State} {line : Nat} (hs : s.MemWf) : (s.noteRetests line).MemWf := .of_mem hs rfl

theorem State.MemWf.afterStore {s0 s1 : State} {ag : Agent} {atHome atomic : Bool} {pa n : Nat} (hs1 : s1.MemWf) :
    (s0.afterStore s1 ag atHome atomic pa n).MemWf := by
  unfold State.afterStore
  extract_lets s2 hart isLocal only
  have hs2 : s2.MemWf := .watch hs1
  refine .foldl (fun s _ hs => ?_) hs2
  extract_lets s3
  have hs3 : s3.MemWf := .wake (.loseLinks hs)
  split
  · exact .noteRetests hs3
  · exact hs3

theorem State.MemWf.afterLoad {s : State} {ag : Agent} {atHome : Bool} {pa n : Nat} (hs : s.MemWf) : (s.afterLoad ag atHome pa n).MemWf := .watch hs

theorem State.MemWf.dropLine {s : State} {c line : Nat} (hs : s.MemWf) : (s.dropLine c line).MemWf := .modCore hs

theorem State.MemWf.writeBack {s : State} {c line : Nat} (hs : s.MemWf) : (s.writeBack c line).MemWf := by
  unfold State.writeBack
  extract_lets secs ds s1 s2 s3
  have hs1 : s1.MemWf := .writeBackLine hs
  have hs2 : s2.MemWf := .watchBytes hs1
  have hs3 : s3.MemWf := .of_mem hs2 rfl
  clear_value ds
  split
  · exact hs
  · split
    · exact .dropLine hs
    · exact .noteRetests (.wake hs3)

theorem State.MemWf.giveUp {s : State} {c line : Nat} (hs : s.MemWf) : (s.giveUp c line).MemWf := .dropLinks (.modCore (.writeBack hs))

theorem State.MemWf.revoke {s : State} {line : Nat} (hs : s.MemWf) : (s.revoke line).MemWf := by
  unfold State.revoke
  refine .foldl (fun s _ hs => ?_) hs
  split
  · exact .giveUp hs
  · exact hs

theorem State.MemWf.setMark {s : State} {line : Nat} {m : MarkHolder} (hs : s.MemWf) : (s.setMark line m).MemWf := .revoke (.of_mem hs rfl)

theorem State.MemWf.markAt {s : State} {pa : Nat} {m : MarkHolder} (hs : s.MemWf) : (s.markAt pa m).MemWf := by
  unfold State.markAt
  split
  · exact .setMark hs
  · exact hs

theorem State.MemWf.noteOwed {s : State} {h : Nat} {vector : Bool} {pa n : Nat} (hs : s.MemWf) : (s.noteOwed h vector pa n).MemWf := by
  unfold State.noteOwed
  split
  · exact .modCore hs
  · exact hs

theorem State.MemWf.performHeld {s : State} {c : Nat} {r : HeldStore} (hs : s.MemWf) : (s.performHeld c r).MemWf := by
  unfold State.performHeld
  extract_lets s1
  have hs1 : s1.MemWf := .modCore hs
  split
  · exact hs1
  · split
    · exact .logBad hs1
    · exact .afterStore (.noteOwed (.coreWrite hs1))

theorem State.MemWf.landIf {s : State} {c : Nat} {f : HeldStore → Bool} (hs : s.MemWf) : (s.landIf c f).MemWf :=
  .foldl (fun _ _ h => .performHeld h) hs

theorem State.MemWf.land {s : State} {c : Nat} (hs : s.MemWf) : (s.land c).MemWf := .landIf hs

theorem State.MemWf.landOwn {s : State} {h : Nat} (hs : s.MemWf) : (s.landOwn h).MemWf := .landIf hs

theorem State.MemWf.landAll {s : State} (hs : s.MemWf) : s.landAll.MemWf := .foldl (fun _ _ h => .land h) hs

theorem State.MemWf.landMet {s : State} {h pa n : Nat} (hs : s.MemWf) : (s.landMet h pa n).MemWf := .landIf hs

theorem State.MemWf.landFor {s : State} {ag : Agent} {pa n : Nat} (hs : s.MemWf) : (s.landFor ag pa n).MemWf := by
  unfold State.landFor
  split
  · exact .landMet hs
  · exact hs

theorem State.MemWf.landNth {s : State} {c n : Nat} (hs : s.MemWf) : (s.landNth c n).MemWf := by
  unfold State.landNth
  split
  · split
    · exact hs
    · exact .performHeld hs
  · exact hs

theorem State.MemWf.flush {s : State} {c : Nat} (hs : s.MemWf) : (s.flush c).MemWf := .foldl (fun _ _ h => .writeBack h) (.land hs)

theorem State.MemWf.releaseAt {s : State} {c scope : Nat} (hs : s.MemWf) : (s.releaseAt c scope).MemWf := by
  unfold State.releaseAt
  split
  · exact .land hs
  · exact .flush hs

theorem State.MemWf.noteDirty {s : State} {k : Option Nat} {va : Word} {n : Nat} (hs : s.MemWf) : (s.noteDirty k va n).MemWf := by
  unfold State.noteDirty
  split
  · exact hs
  · exact .of_mem hs rfl

theorem State.MemWf.deviceStore {s : State} {atomic : Bool} {pa : Nat} {bs : List Byte} {ag : Agent} {own : Option Nat} (hs : s.MemWf) :
    (s.deviceStore atomic pa bs ag own).1.MemWf := by
  unfold State.deviceStore
  split
  · exact hs
  · extract_lets r s1
    have hr : r.1.MemWf := .homeWrite hs
    have hs1 : s1.MemWf := by
      unfold s1
      split
      · exact .post hr
      · exact hr
    dsimp only
    split
    · exact .afterStore hs1
    · exact hs1

theorem State.MemWf.unitStore {s : State} {pa : Nat} {bs : List Byte} (hs : s.MemWf) : (s.unitStore pa bs).MemWf := .deviceStore hs

theorem State.MemWf.ringStore {s : State} {e : SpoorEvent} (hs : s.MemWf) : (s.ringStore e).1.MemWf := by
  unfold State.ringStore
  extract_lets r cap full lost pa holds body w s1
  have hw : w.1.MemWf := .deviceStore hs
  have hs1 : s1.MemWf := .modCamp hw
  split
  · exact .fst (.modCamp hs)
  · split
    · exact .fst (.modCamp hw)
    · dsimp only
      split
      · exact hs1
      · exact .unitStore hs1

theorem State.MemWf.spoorEventCount {s : State} {e : SpoorEvent} (hs : s.MemWf) : (e.count s).MemWf := by
  unfold SpoorEvent.count
  split
  · exact .modCore hs
  · exact hs

theorem State.MemWf.recordEvent {s : State} {live : BitVec 9} {e : SpoorEvent} (hs : s.MemWf) : (s.recordEvent live e).MemWf := by
  unfold State.recordEvent
  extract_lets r l s1 q
  have hl : l.1.MemWf := by
    unfold l
    split
    · exact hs
    · exact .ringStore hs
  have hs1 : s1.MemWf := by
    unfold s1
    split
    · exact hl
    · exact .modCamp hl
  have hq : q.1.MemWf := .ringStore hs1
  split
  · exact hs
  · split
    · exact hl
    · split
      · exact .spoorEventCount hq
      · exact hq

theorem State.MemWf.recordAll {s : State} {live : BitVec 9} (hs : s.MemWf) : (s.recordAll live).MemWf :=
  .foldl (fun _ _ h => .recordEvent h) (.of_mem hs rfl)

end Sys2Proof.Machine
end

section
/-! The canonical form of memory through the operations of Sys2Proof/Machine/Mgmt.lean. -/
namespace Sys2Proof.Machine

theorem State.MemWf.postPreempt {s : State} {h : Nat} {w : Word} (hs : s.MemWf) : (s.postPreempt h w).MemWf := by
  unfold State.postPreempt
  split
  · exact .modHart hs
  · exact hs

theorem State.MemWf.mergeAssign {s : State} {camp : Nat} {w : Word} (hs : s.MemWf) : (s.mergeAssign camp w).MemWf := by
  unfold State.mergeAssign
  split
  · exact .modCamp hs
  · exact hs

theorem State.MemWf.keyctl {s : State} {v : Word} (hs : s.MemWf) : (s.keyctl v).MemWf := by
  unfold State.keyctl
  extract_lets slot k
  split
  · exact hs
  · split
    · exact .of_mem hs rfl
    · split
      · exact .of_mem hs rfl
      · exact hs

theorem State.MemWf.dgctl {s : State} {ctx : Nat} {v : Word} (hs : s.MemWf) : (s.dgctl ctx v).MemWf := by
  unfold State.dgctl
  split
  · extract_lets b __src
    split <;> exact .setContext hs
  · exact hs

theorem State.MemWf.hostQueueWrite {s : State} {q off n : Nat} {v : Word} (hs : s.MemWf) : (s.hostQueueWrite q off n v).MemWf := by
  unfold State.hostQueueWrite
  split
  · exact .setQueue hs
  · exact hs

theorem State.MemWf.doorbell {s : State} {q : Nat} {tail : W32} (hs : s.MemWf) : (s.doorbell q tail).MemWf := by
  unfold State.doorbell
  split
  · exact .of_mem hs rfl
  · exact hs

theorem State.MemWf.ringDoorbell {s : State} {v : Word} (hs : s.MemWf) : (s.ringDoorbell v).MemWf := by
  unfold State.ringDoorbell
  split
  · exact .of_mem hs rfl
  · exact hs

theorem State.MemWf.releaseHarts {s : State} {l : List Nat} (hs : s.MemWf) : (s.releaseHarts l).MemWf := by
  unfold State.releaseHarts
  extract_lets s1 __src
  have hs1 : s1.MemWf := by
    unfold s1
    refine .foldl (fun s _ hs => ?_) hs
    split
    · exact .modHart hs
    · split
      · exact .modHart hs
      · exact hs
  exact .of_mem hs1 rfl

theorem State.MemWf.stepHart {s : State} {h : Nat} (hs : s.MemWf) : (s.stepHart h).MemWf := by
  unfold State.stepHart
  split
  · exact .modHart hs
  · exact hs

theorem State.MemWf.dreqPost {s : State} {w : Word} (hs : s.MemWf) : (s.dreqPost w).MemWf := by
  unfold State.dreqPost
  extract_lets n s1 dom
  have hs1 : s1.MemWf := .of_mem hs rfl
  split
  · exact hs1
  · split
    · exact .postHalt hs1
    · exact .releaseHarts hs1
    · split
      · exact .foldl (fun _ _ h => .stepHart h) hs1
      · exact hs1
    · exact hs1

theorem State.MemWf.campHubWrite {s : State} {camp o : Nat} {v : Word} (hs : s.MemWf) : (s.campHubWrite camp o v).MemWf := by
  unfold State.campHubWrite
  split
  · exact .modCamp hs
  · split
    · split
      · exact .modCore hs
      · exact hs
    · split
      · exact .modCamp hs
      · exact .modCamp hs
      · exact .modCamp hs
      · exact .modCamp hs
      · exact hs

theorem State.MemWf.hubWrite {s : State} {o : Nat} {v : Word} (hs : s.MemWf) : (s.hubWrite o v).MemWf := by
  unfold State.hubWrite
  split
  · extract_lets s1
    have hs1 : s1.MemWf := .modHart hs
    split
    · exact .of_mem hs1 rfl
    · exact hs1
  · split
    · exact .campHubWrite hs
    · split
      · exact .dreqPost hs
      · split
        · exact .of_mem hs rfl
        · split
          · split
            · exact .dgctl hs
            · exact hs
          · exact hs

theorem State.MemWf.mgmtWriteWord {s : State} {o b n : Nat} {v : Word} (hs : s.MemWf) : (s.mgmtWriteWord o b n v).MemWf := by
  unfold State.mgmtWriteWord
  refine iteInduction (fun _ => hs) fun _ => ?_
  refine iteInduction (fun _ => ?_) fun _ => ?_
  · dsimp only
    split
    · exact .modCamp hs
    · exact .modCamp hs
    · exact .modCamp hs
    · exact .mergeAssign hs
    · exact hs
  refine iteInduction (fun _ => .postPreempt hs) fun _ => ?_
  refine iteInduction (fun _ => hs) fun _ => ?_
  refine iteInduction (fun _ => hs) fun _ => ?_
  refine iteInduction (fun _ => .ringDoorbell hs) fun _ => ?_
  refine iteInduction (fun _ => .keyctl hs) fun _ => ?_
  refine iteInduction (fun _ => hs) fun _ => ?_
  refine iteInduction (fun _ => ?_) fun _ => ?_
  · split
    · exact .doorbell hs
    · exact hs
  refine iteInduction (fun _ => ?_) fun _ => ?_
  · dsimp only
    split
    · exact .setContext hs
    · exact hs
    · exact .setContext hs
    · exact .setContext hs
    · exact hs
  refine iteInduction (fun _ => .hubWrite hs) fun _ => hs

theorem State.MemWf.mgmtPart {s : State} {off n : Nat} {v : Word} (hs : s.MemWf) : (s.mgmtPart off n v).MemWf := by
  unfold State.mgmtPart
  split
  · exact .hostQueueWrite hs
  · exact .mgmtWriteWord hs

theorem State.MemWf.mgmtWrite {s : State} {off n : Nat} {v : Word} (hs : s.MemWf) : (s.mgmtWrite off n v).MemWf := by
  unfold State.mgmtWrite
  split
  · exact hs
  · exact .mgmtPart hs

theorem State.MemWf.mgmtStoreN {s : State} {k off : Nat} {bs : List Byte} (hs : s.MemWf) : (mgmtStoreN k s off bs).MemWf := by
  induction k generalizing s off bs with
  | zero => exact hs
  | succ k ih =>
    unfold Machine.mgmtStoreN
    split
    · exact hs
    · exact ih (.mgmtPart hs)

theorem State.MemWf.mgmtStore {s : State} {off : Nat} {bs : List Byte} (hs : s.MemWf) : (s.mgmtStore off bs).MemWf := .mgmtStoreN hs

end Sys2Proof.Machine
end

section
/-! The canonical form of memory through the operations of Sys2Proof/Machine/Access.lean. -/
namespace Sys2Proof.Machine

theorem State.MemWf.probe {s : State} {x : XCtx} {va : Word} {acc : Access} (hs : s.MemWf) : (s.probe x va acc).1.MemWf := by
  unfold State.probe
  extract_lets r s1
  have hs1 : s1.MemWf := .walkAcquire hs
  clear_value r
  split
  · exact .fst (.keep hs1)
  · exact hs1
  · exact .fst (.logBad hs1)

theorem State.MemWf.noteBad {s : State} {va : Word} {pa n : Nat} (hs : s.MemWf) : (s.noteBad va pa n).MemWf := by
  unfold State.noteBad
  split
  · exact .logBad hs
  · exact hs

theorem State.MemWf.claimRange {s : State} {c pa n : Nat} (hs : s.MemWf) : (s.claimRange c pa n).MemWf := by
  unfold State.claimRange
  refine .foldl (fun s _ hs => ?_) hs
  split
  · exact .l2Claim hs
  · exact hs

theorem State.MemWf.loadPa {s : State} {ag : Agent} {c : Nat} {va : Word} {pa n : Nat} (hs : s.MemWf) : (s.loadPa ag c va pa n).1.MemWf := by
  unfold State.loadPa
  split
  · exact hs
  · exact hs
  · extract_lets s1 r
    have hs1 : s1.MemWf := .landFor hs
    have hr : r.1.MemWf := .coreRead hs1
    split
    · exact .fst (.logBad hs1)
    · exact .fst (.afterLoad hr)

theorem State.MemWf.noteOwedBy {s : State} {ag : Agent} {vector : Bool} {pa n : Nat} (hs : s.MemWf) : (s.noteOwedBy ag vector pa n).MemWf := by
  unfold State.noteOwedBy
  split
  · exact .noteOwed hs
  · exact hs

theorem State.MemWf.storePa {s : State} {ag : Agent} {c : Nat} {va : Word} {pa : Nat} {bs : List Byte} {vector : Bool} (hs : s.MemWf) :
    (s.storePa ag c va pa bs vector).1.MemWf := by
  unfold State.storePa
  split
  · exact .fst (.mgmtStore hs)
  · exact hs
  · split
    · exact hs
    · extract_lets s1
      have hs1 : s1.MemWf := .landFor hs
      split
      · exact .fst (.logBad hs1)
      · exact .fst (.afterStore (.noteOwedBy (.coreWrite (.claimRange hs1))))

theorem State.MemWf.translationStore {s : State} {h off : Nat} {bs : List Byte} (hs : s.MemWf) : (s.translationStore h off bs).MemWf := by
  unfold State.translationStore
  refine .foldl (fun s _ hs => ?_) hs
  extract_lets o
  split
  · exact .modHart (.landOwn hs)
  · exact hs

theorem State.MemWf.memLoad {s : State} {ag : Agent} {x : XCtx} {va : Word} {n : Nat} (hs : s.MemWf) : (s.memLoad ag x va n).1.MemWf := by
  unfold State.memLoad
  split
  · exact hs
  · split
    next heq => exact .fst (.of_eq heq (.probe hs))
    next heq =>
      split
      · exact .fst (.of_eq heq (.probe hs))
      · exact .loadPa (.of_eq heq (.probe hs))

theorem State.MemWf.loadRunN {s : State} {f : Nat} {ag : Agent} {x : XCtx} {va : Word} {n : Nat} (hs : s.MemWf) :
    (loadRunN f s ag x va n).1.MemWf := by
  induction f generalizing s ag x va n with
  | zero => exact hs
  | succ f ih =>
    unfold Machine.loadRunN
    split
    · exact hs
    · extract_lets k
      split
      next heq => exact .fst (.of_eq heq (.memLoad hs))
      next heq => exact ih (.of_eq heq (.memLoad hs))

theorem State.MemWf.loadRun {s : State} {ag : Agent} {x : XCtx} {va : Word} {n : Nat} (hs : s.MemWf) : (s.loadRun ag x va n).1.MemWf := .loadRunN hs

theorem State.MemWf.evict {s : State} {c line : Nat} (hs : s.MemWf) : (s.evict c line).MemWf := .dropLinks (.modCore (.writeBack hs))

theorem State.MemWf.homeStore {s : State} {ag : Agent} {atomic : Bool} {c : Nat} {va : Word} {pa : Nat} {bs : List Byte} (hs : s.MemWf) :
    (s.homeStore ag atomic c va pa bs).1.MemWf := by
  unfold State.homeStore
  extract_lets s1 r s2
  have hs1 : s1.MemWf := by
    unfold s1
    split
    · exact .evict hs
    · exact hs
  have hr : r.1.MemWf := by
    unfold r
    split
    · exact hs1
    · split
      · exact .homeWrite hs1
      · exact .fst (.localWrite hs1)
  have hs2 : s2.MemWf := .post hr
  dsimp only
  split
  · exact .afterStore hs2
  · exact hs2

theorem State.MemWf.atomicPa {s : State} {h scope : Nat} {va : Word} {pa n : Nat} {f : Nat → Option Nat} (hs : s.MemWf) :
    (s.atomicPa h scope va pa n f).1.MemWf := by
  unfold State.atomicPa
  extract_lets c s1
  have hs1 : s1.MemWf := .landMet hs
  split
  · extract_lets old
    dsimp only
    split
    · exact .mgmtWrite hs
    · exact hs
  · exact hs
  · split
    · exact hs
    · split
      · exact hs
      · extract_lets near s2 r old s3 old1
        have hs2 : s2.MemWf := by
          unfold s2
          split
          · exact hs1
          · exact .evict hs1
        have hr : r.1.MemWf := .coreRead hs2
        have hs3 : s3.MemWf := .markAt hs2
        split
        · exact .fst (.logBad hs2)
        · split
          · split
            · exact .fst (.afterStore (.noteOwed (.coreWrite hr)))
            · exact .fst (.watch hr)
          · dsimp only
            split
            · exact .homeStore hs3
            · exact .post (.watch hs3)

theorem State.MemWf.homeLoad {s : State} {h scope : Nat} {va : Word} {pa n : Nat} (hs : s.MemWf) : (s.homeLoad h scope va pa n).1.MemWf := by
  unfold State.homeLoad
  split
  · exact hs
  · split
    · split
      · exact hs
      · exact .loadPa hs
    · split
      · exact hs
      · split
        · exact hs
        · exact hs
        · extract_lets s1 s2
          have hs1 : s1.MemWf := .landMet hs
          have hs2 : s2.MemWf := by
            unfold s2
            split
            · exact .evict hs1
            · exact hs1
          split
          · exact .fst (.logBad hs2)
          · exact .fst (.afterLoad hs2)

/-- Whether an address lies in a save page is left open here and in the lemmas below: the form is kept either way. -/
theorem State.MemWf.writeObject {s : State} {h : Nat} {kernel : Option Nat} {objVa : Word} {objPa : Option Nat} {v pc : Word} (hs : s.MemWf) :
    (s.writeObject h kernel objVa objPa v pc).MemWf := by
  unfold State.writeObject
  obtain ⟨recordOff, e⟩ := exists_eq' (a' := State.recordOff)
  rw [e]
  split
  · exact hs
  · extract_lets s1
    have hs1 : s1.MemWf := .flush hs
    split
    · exact .translationStore hs1
    · split
      · exact hs1
      · exact .noteDirty (.homeStore hs1)

theorem State.MemWf.endOp {s : State} {o : Op} {v : Word} (hs : s.MemWf) : (s.endOp o v).MemWf := .writeObject (.of_mem hs rfl)

theorem State.MemWf.accessTrap {s : State} {h : Nat} {store : Bool} {va : Word} {e : MemErr} (hs : s.MemWf) :
    (s.accessTrap h store va e).1.MemWf := by
  unfold State.accessTrap
  split
  · exact .fst (.setReason hs)
  · exact hs
  · exact hs
  · exact .fst (.logBad hs)

end Sys2Proof.Machine
end

section
/-! The canonical form of memory through the operations of Sys2Proof/Machine/Fetch.lean. -/
namespace Sys2Proof.Machine

theorem State.MemWf.icacheSector {s : State} {c pa : Nat} (hs : s.MemWf) : (s.icacheSector c pa).MemWf := by
  unfold State.icacheSector
  extract_lets good r ws
  have hr : r.1.MemWf := .coreRead hs
  split
  · exact hs
  · exact .modCore hr

theorem State.MemWf.icacheFill {s : State} {c pa : Nat} (hs : s.MemWf) : (s.icacheFill c pa).MemWf := .foldl (fun _ _ h => .icacheSector h) hs

theorem State.MemWf.icacheRefresh {s : State} {c pa : Nat} (hs : s.MemWf) : (s.icacheRefresh c pa).MemWf := by
  unfold State.icacheRefresh
  split
  · exact hs
  · exact .modCore (.coreRead hs)

theorem State.MemWf.icacheWord {s : State} {c pa : Nat} (hs : s.MemWf) : (s.icacheWord c pa).1.MemWf := by
  unfold State.icacheWord
  split
  · exact hs
  · exact .icacheFill hs

theorem State.MemWf.fetchAt {s : State} {h : Nat} {va : Word} (hs : s.MemWf) : (s.fetchAt h va).1.MemWf := by
  unfold State.fetchAt
  split
  next heq => exact .fst (.setReason (.of_eq heq (.probe hs)))
  next heq => exact .fst (.of_eq heq (.probe hs))
  next heq =>
    split
    · exact .fst (.logBad (.of_eq heq (.probe hs)))
    · exact .icacheWord (.of_eq heq (.probe hs))

theorem State.MemWf.keepWord {s : State} {h : Nat} {va : Word} {f : Fetched} (hs : s.MemWf) : (s.keepWord h va f).MemWf := by
  unfold State.keepWord
  split
  · split
    · exact .modHart hs
    · exact hs
  · exact hs

theorem State.MemWf.fetch {s : State} {h : Nat} (hs : s.MemWf) : (s.fetch h).1.MemWf := by
  unfold State.fetch
  extract_lets pc r
  have hr : r.1.MemWf := by
    unfold r
    split
    · exact hs
    · exact .fetchAt hs
  exact .fst (.keepWord hr)

theorem State.MemWf.prefetchN {s : State} {n h : Nat} {va : Word} (hs : s.MemWf) : (prefetchN n s h va).MemWf := by
  induction n generalizing s h va with
  | zero => exact hs
  | succ n ih =>
    unfold Machine.prefetchN
    split
    next heq => exact ih (.modHart (.of_eq heq (.fetchAt hs)))
    · exact hs

theorem State.MemWf.prefetch {s : State} {h : Nat} (hs : s.MemWf) : (s.prefetch h).MemWf := .prefetchN (.modHart hs)

theorem State.MemWf.icacheInvalidate {s : State} {h : Nat} {va : Word} {n : Nat} (hs : s.MemWf) : (s.icacheInvalidate h va n).MemWf :=
  .modCore (.modHart hs)

end Sys2Proof.Machine
end

section
/-! The canonical form of memory through the operations of Sys2Proof/Machine/Operands.lean. -/
namespace Sys2Proof.Machine

theorem State.MemWf.commit {s : State} {f : Hart → Hart} (hs : s.MemWf) : OutMemWf (commit s f) := .modH hs

theorem State.MemWf.writeX {s : State} {d : Reg} {v : Word} (hs : s.MemWf) : OutMemWf (writeX s d v) := State.MemWf.commit hs

theorem State.MemWf.raiseIn {s s1 : State} {t : Trap} (hs : s.MemWf) (hs1 : s1.MemWf) : OutMemWf (raiseIn s s1 t) := by
  unfold Machine.raiseIn
  split
  · exact .takeTrap hs1
  · exact hs

theorem State.MemWf.raise {s : State} {t : Trap} (hs : s.MemWf) : OutMemWf (raise s t) := State.MemWf.raiseIn hs hs

theorem State.MemWf.illegal {s : State} {i : Instr} (hs : s.MemWf) : OutMemWf (illegal s i) := State.MemWf.raise hs

theorem State.MemWf.held {s : State} {k : State → Out} (hk : ∀ (s : State), s.MemWf → OutMemWf (k s)) (hs : s.MemWf) :
    OutMemWf (held s k) := by
  unfold Machine.held
  split
  · exact hk s hs
  · exact hs

end Sys2Proof.Machine
end

section
/-! The canonical form of memory through the operations of Sys2Proof/Machine/Queue.lean. -/
namespace Sys2Proof.Machine

theorem QOp.Keeps.check {s : State} {op : QOp} {h : Nat} {e : QEntry} (kop : op.Keeps) (hs : s.MemWf) : (op.check s h e).1.MemWf := by
  unfold QOp.check
  split
  · exact hs
  · exact kop.post hs

theorem State.MemWf.dropUses {s : State} {h : Nat} {l : List QEntry} (hs : s.MemWf) : (s.dropUses h l).MemWf := .modCore hs

theorem State.MemWf.noteIssue {before s : State} {op : QOp} {h : Nat} {e : QEntry} (hs : s.MemWf) :
    (op.noteIssue before s h e).1.MemWf := by
  unfold QOp.noteIssue
  split
  · exact hs
  · extract_lets core v r
    split
    · exact hs
    · split
      · exact hs
      · exact .fst (.setCore hs)
      · exact .fst (.modCore hs)

theorem State.MemWf.emitSample {s : State} {h : Nat} {e : QEntry} (hs : s.MemWf) : (s.emitSample h e).MemWf := by
  unfold State.emitSample
  split
  · exact hs
  · exact .spoor hs

theorem State.MemWf.settleTicket {s : State} {core n : Nat} {sampled : Bool} (hs : s.MemWf) : (s.settleTicket core n sampled).MemWf :=
  .of_mem (.foldl (fun _ _ h => .modHart h) hs) rfl

theorem State.MemWf.countTickets {s : State} {core k n : Nat} (hs : s.MemWf) : (countTickets core k n s).MemWf := by
  induction k generalizing n s with
  | zero => exact hs
  | succ k ih =>
    unfold Machine.countTickets
    exact ih (.settleTicket (.setCore hs))

theorem State.MemWf.closeGates {s : State} {count : Bool} (hs : s.MemWf) : (s.closeGates count).MemWf := by
  unfold State.closeGates
  refine .foldl (fun s _ hs => ?_) hs
  extract_lets n t
  have ht : t.MemWf := by
    unfold t
    split
    · exact .countTickets hs
    · exact .foldl (fun _ _ h => .settleTicket h) hs
  split
  · exact hs
  · exact .modCore ht

theorem QOp.Keeps.trapWhole {s : State} {op : QOp} {e : QEntry} {f : Flags} {t : Trap} (kop : op.Keeps) (hs : s.MemWf) :
    (op.trapWhole s e f t).MemWf := by
  unfold QOp.trapWhole
  extract_lets t1 s1
  have hs1 : s1.MemWf := by
    unfold s1
    refine .modH ?_
    refine .dropUses ?_
    split
    · exact kop.leave hs
    · exact hs
  exact .takeTrap hs1

theorem QOp.Keeps.retire {s : State} {op : QOp} {e : QEntry} {f : Flags} (kop : op.Keeps) (hs : s.MemWf) : (op.retire s e f).MemWf :=
  .modH (.emitSample (kop.finish (.modH (.dropUses hs))))

theorem QOp.Keeps.begin_ {s : State} {op : QOp} {h : Nat} {e : QEntry} (kop : op.Keeps) (hs : s.MemWf) : (op.begin_ s h e).MemWf := by
  unfold QOp.begin_
  refine kop.start ?_
  split
  · exact .landOwn hs
  · exact hs

theorem QOp.Keeps.whole {s : State} {op : QOp} {e : QEntry} (kop : op.Keeps) (hs : s.MemWf) : (op.whole s e).MemWf := by
  unfold QOp.whole
  extract_lets r
  have hr : r.state.MemWf := kop.run (kop.begin_ hs)
  split
  · exact kop.trapWhole hr
  · split
    next heq => exact kop.trapWhole (.of_eq heq (kop.closing hr))
    next heq => exact kop.retire (.of_eq heq (kop.closing hr))

theorem State.MemWf.enter {s : State} {op : QOp} {e : QEntry} (hs : s.MemWf) : (op.enter s e).MemWf := .modH hs

theorem State.MemWf.charged {s : State} {h cost : Nat} {matrix : Bool} (hs : s.MemWf) : (s.charged h cost matrix).MemWf := by
  unfold State.charged
  extract_lets c a v m s1
  have hs1 : s1.MemWf := .modCore (.modHart hs)
  refine .foldl (fun s _ hs => ?_) hs1
  split
  · exact .modHart hs
  · exact hs

theorem State.MemWf.commitQueued {s : State} {i : Instr} {op : QOp} (kop : op.Keeps) (hs : s.MemWf) : OutMemWf (commitQueued i op s) := by
  unfold Machine.commitQueued
  extract_lets a e
  split
  · exact hs
  · split
    · exact State.MemWf.enter hs
    · split
      next heq => exact kop.trapWhole (.of_eq heq (kop.check hs))
      next heq =>
        split
        · exact State.MemWf.enter hs
        · exact kop.trapWhole (.of_eq heq (kop.check hs))
        · exact kop.whole (.charged (.noteIssue (.of_eq heq (kop.check hs))))

theorem State.MemWf.modEntry {s : State} {h seq : Nat} {f : QEntry → QEntry} (hs : s.MemWf) : (s.modEntry h seq f).MemWf := .modHart hs

theorem State.MemWf.under {β : Type} {op : QOp} {s : State} {h : Nat} {e : QEntry} {f : State → State × β}
    (hf : ∀ (s : State), s.MemWf → (f s).1.MemWf) (hs : s.MemWf) : (op.under s h e f).1.MemWf := by
  unfold QOp.under
  split
  · extract_lets a r done s1
    have hr : r.1.MemWf := hf _ (.modHart hs)
    have hs1 : s1.MemWf := .modHart hr
    dsimp only
    split
    · exact .modEntry hs1
    · exact hs1
  · exact hf s hs

theorem QOp.Keeps.runAll {s : State} {op : QOp} {h : Nat} {e : QEntry} {l : List (Nat × Nat)} (kop : op.Keeps) (hs : s.MemWf) :
    (op.runAll h e l s).1.MemWf := by
  induction l generalizing s with
  | nil => exact hs
  | cons a l ih =>
    unfold QOp.runAll
    extract_lets d q
    have hd : d.state.MemWf := kop.run hs
    have hq : q.1.MemWf := ih hd
    split
    · exact hd
    · exact hq

theorem State.MemWf.unlist {s : State} {h : Nat} {seq : Option Nat} (hs : s.MemWf) : (s.unlist h seq).MemWf := .modCore hs

theorem State.MemWf.endIfDone {s : State} {op : QOp} {h seq : Nat} (hs : s.MemWf) : (op.endIfDone s h seq).MemWf := by
  unfold QOp.endIfDone
  split
  · split
    · exact .unlist (.modEntry (.modHart (.dropUses hs)))
    · exact hs
  · exact hs

theorem State.MemWf.skidElems {s : State} {h n : Nat} (hs : s.MemWf) : (s.skidElems h n).MemWf := by
  unfold State.skidElems
  split
  · exact .modHart hs
  · exact hs

theorem QOp.Keeps.runs {s : State} {op : QOp} {h : Nat} {e : QEntry} {l : List (Nat × Nat)} (kop : op.Keeps) (hs : s.MemWf) :
    (op.runs s h e l).1.MemWf := by
  unfold QOp.runs
  split
  · split
    · exact .under (fun _ h' => kop.runAll h') hs
    · exact hs
  · exact .under (fun _ h' => kop.runAll h') hs

theorem QOp.Keeps.perform {s : State} {op : QOp} {h : Nat} {e : QEntry} {j : Nat} (kop : op.Keeps) (hs : s.MemWf) : (op.perform s h e j).MemWf :=
  .endIfDone (.skidElems (.modEntry (kop.runs hs)))

theorem QOp.Keeps.performPart {s : State} {op : QOp} {h : Nat} {e : QEntry} {lo hi : Nat} (kop : op.Keeps) (hs : s.MemWf) :
    (op.performPart s h e lo hi).MemWf := by
  unfold QOp.performPart
  extract_lets r mark s1
  have hr : r.1.MemWf := kop.runs hs
  have hs1 : s1.MemWf := .skidElems (.modEntry hr)
  split
  · exact State.MemWf.endIfDone hs1
  · exact hs1

theorem QOp.Keeps.issue {s : State} {op : QOp} {h : Nat} {e : QEntry} {chain follow : List Nat} {late : Bool} {smp : Option Sample} (kop : op.Keeps)
    (hs : s.MemWf) :
    (op.issue s h e chain follow late smp).MemWf :=
  .endIfDone (kop.begin_ (.modHart (.modCore hs)))

theorem QOp.Keeps.retireOldest {s : State} {op : QOp} {h : Nat} {e : QEntry} (kop : op.Keeps) (hs : s.MemWf) : (op.retireOldest s h e).MemWf := by
  unfold QOp.retireOldest
  extract_lets f s1 s2 s3
  have hs1 : s1.MemWf := .modHart hs
  have hs2 : s2.MemWf := by
    unfold s2
    split
    · exact hs1
    · exact .unlist (.modHart (.dropUses hs1))
  have hs3 : s3.MemWf := .emitSample (kop.finish hs2)
  split
  · exact .modHart hs3
  · exact hs3

theorem QOp.Keeps.unwind {s : State} {op : QOp} {h : Nat} {e : QEntry} {elem : Nat} {unit : Bool} (kop : op.Keeps) (hs : s.MemWf) :
    (op.unwind s h e elem unit).MemWf := by
  unfold QOp.unwind
  extract_lets stop s1
  have hs1 : s1.MemWf := by
    unfold s1
    refine .modHart ?_
    refine .dropUses ?_
    split
    · exact kop.leave hs
    · exact hs
  exact .unlist hs1

end Sys2Proof.Machine
end

section
/-! The canonical form of memory through the operations of Sys2Proof/Machine/WaitBase.lean. -/
namespace Sys2Proof.Machine

theorem State.MemWf.freeMonitors {s : State} {h : Nat} (hs : s.MemWf) : (s.freeMonitors h).MemWf := by
  unfold State.freeMonitors
  split
  · exact hs
  · exact .modCore hs

theorem State.MemWf.finishWait {s : State} {h : Nat} {w : Wait} {st : Word} {atDeadline : Bool} (hs : s.MemWf) :
    (s.finishWait h w st atDeadline).MemWf := by
  unfold State.finishWait
  extract_lets capHit s1
  have hs1 : s1.MemWf := .modHart (.freeMonitors hs)
  split
  · exact .takeTrap hs1
  · exact .modHart hs1

theorem State.MemWf.finishAt {s : State} {h : Nat} {w : Wait} {st pc : Word} (hs : s.MemWf) : (s.finishAt h w st pc).MemWf :=
  .modHart (.freeMonitors hs)

theorem State.MemWf.dropWait {s : State} {h : Nat} {w : Wait} (hs : s.MemWf) : (s.dropWait h w).MemWf := .modHart (.freeMonitors hs)

/-- The definition is unfolded as a function (`unfold` would have the kernel evaluate `recordOff` to compare its sides). -/
theorem State.MemWf.barWithdraw {s : State} {h : Nat} {w : Wait} (hs : s.MemWf) : (s.barWithdraw h w).MemWf := by
  obtain ⟨f, e⟩ := exists_eq' (a' := State.barWithdraw)
  rw [e]
  delta State.barWithdraw at e
  obtain ⟨recordOff, e'⟩ := exists_eq' (a' := State.recordOff)
  rw [e'] at e
  subst e
  beta_reduce
  extract_lets less
  split
  · split
    · exact .translationStore hs
    · exact hs
  · exact .atomicPa hs

theorem State.MemWf.waitTrap {s : State} {h : Nat} {t : Trap} (hs : s.MemWf) : (s.waitTrap h t).MemWf := by
  unfold State.waitTrap
  split
  · exact .takeTrap hs
  · extract_lets s1
    have hs1 : s1.MemWf := by
      unfold s1
      split
      · exact .barWithdraw hs
      · exact hs
    exact .takeTrap (.dropWait hs1)

end Sys2Proof.Machine
end

section
/-! The canonical form of memory through the operations of Sys2Proof/Machine/TaskUnit.lean. -/
namespace Sys2Proof.Machine

theorem State.MemWf.taskObject {s : State} {t : Task} {v : Word} (hs : s.MemWf) : (s.taskObject t v).MemWf := .noteDirty (.unitStore hs)

theorem State.MemWf.fallsN {s : State} {n camp : Nat} {rest : List (Nat × Bool)} (hs : s.MemWf) : (fallsN n s camp rest).MemWf := by
  induction n generalizing s rest with
  | zero => exact hs
  | succ n ih =>
    cases rest with
    | nil => exact hs
    | cons x rest =>
      unfold Machine.fallsN
      split
      · exact ih hs
      · dsimp only
        split
        · split
          · exact ih (.modCamp hs)
          · exact ih (.taskObject (.modCamp hs))
        · exact ih (.modCamp hs)

theorem State.MemWf.falls {s : State} {camp : Nat} {ps : List Nat} {late : Bool} (hs : s.MemWf) : (s.falls camp ps late).MemWf := .fallsN hs

theorem State.MemWf.makeReady {s : State} {camp : Nat} {t : Task} {path : Nat} (hs : s.MemWf) : (s.makeReady camp t path).MemWf := by
  unfold State.makeReady
  extract_lets s1
  have hs1 : s1.MemWf := .modCamp hs
  split
  · exact .falls hs1
  · exact hs1

theorem State.MemWf.retestN {s : State} {n camp : Nat} (hs : s.MemWf) : (retestN n s camp).MemWf := by
  induction n generalizing s camp with
  | zero => exact hs
  | succ n ih =>
    unfold Machine.retestN
    extract_lets hit
    clear_value hit
    split
    · exact hs
    · exact ih (.makeReady hs)

theorem State.MemWf.startTask {s : State} {h : Nat} {w : Wait} {t : Task} (hs : s.MemWf) : (s.startTask h w t).MemWf :=
  .finishAt (.acquire (.modHart hs))

theorem State.MemWf.giveTask {s : State} {camp h : Nat} {t : Task} (hs : s.MemWf) : (s.giveTask camp h t).MemWf := by
  unfold State.giveTask
  extract_lets s1
  have hs1 : s1.MemWf := .modHart (.modCamp hs)
  split
  · exact hs1
  · split
    · exact .modHart hs1
    · exact .startTask hs1

theorem State.MemWf.giveN {s : State} {n camp : Nat} (hs : s.MemWf) : (giveN n s camp).MemWf := by
  induction n generalizing s camp with
  | zero => exact hs
  | succ n ih =>
    unfold Machine.giveN
    extract_lets ready o hit
    clear_value hit
    split
    · exact hs
    · exact ih (.giveTask hs)

theorem State.MemWf.unitSettle {s : State} {camp : Nat} (hs : s.MemWf) : (s.unitSettle camp).MemWf := .giveN (.retestN hs)

theorem State.MemWf.endTask {s : State} {camp : Nat} {t : Task} {code reason : Nat} (hs : s.MemWf) : (s.endTask camp t code reason).1.MemWf := by
  unfold State.endTask
  extract_lets v s1 s2 s3
  have hs1 : s1.MemWf := .modCamp hs
  have hs2 : s2.MemWf := .taskObject hs1
  have hs3 : s3.MemWf := by
    unfold s3
    split
    · exact hs2
    · exact .falls hs2
  exact .fst (.unitSettle hs3)

theorem State.MemWf.taskDone {s : State} {h : Nat} {t : Task} (hs : s.MemWf) : (s.taskDone h t).1.MemWf := by
  unfold State.taskDone
  extract_lets s1
  have hs1 : s1.MemWf := .modHart (.flush hs)
  split <;> exact .endTask hs1

theorem State.MemWf.withdrawTask {s : State} {camp h id : Nat} (hs : s.MemWf) : (s.withdrawTask camp h id).MemWf := by
  unfold State.withdrawTask
  split
  · exact hs
  · split
    · exact .endTask (.flush hs)
    · exact .endTask hs

theorem State.MemWf.withdrawAll {s : State} {camp : Nat} {l : List Task} (hs : s.MemWf) : (s.withdrawAll camp l).MemWf :=
  .unitSettle (.falls (.foldl (fun _ _ h => .taskObject h) (.modCamp hs)))

theorem State.MemWf.finishGiven {s : State} {h : Nat} {w : Wait} {st : Word} (hs : s.MemWf) : (s.finishGiven h w st).MemWf := by
  unfold State.finishGiven
  split
  · exact .startTask hs
  · exact .finishWait (.acquire (.modHart hs))
  · exact .finishWait hs

theorem State.MemWf.abandonWait {s : State} {h : Nat} (hs : s.MemWf) : (s.abandonWait h).MemWf := by
  unfold State.abandonWait
  split
  · exact hs
  · split
    · exact .finishGiven hs
    · split
      · exact .finishWait (.acquire hs)
      · extract_lets s1
        have hs1 : s1.MemWf := by
          unfold s1
          split
          · exact .barWithdraw hs
          · exact hs
        exact .dropWait hs1

end Sys2Proof.Machine
end

section
/-! The canonical form of memory through the operations of Sys2Proof/Machine/Engine.lean. -/
namespace Sys2Proof.Machine

theorem State.MemWf.streamObject {s : State} {h : Nat} {v : Stream} {w : Word} (hs : s.MemWf) : (s.streamObject h v w).MemWf := .writeObject hs

theorem State.MemWf.streamClose {s : State} {h q : Nat} {v : Stream} (hs : s.MemWf) : (s.streamClose h q v).MemWf := by
  unfold State.streamClose
  extract_lets s1
  have hs1 : s1.MemWf := .modHart hs
  split
  · exact hs1
  · exact .streamObject hs1

theorem State.MemWf.discardRecord {s : State} {h i : Nat} (hs : s.MemWf) : (s.discardRecord h i).MemWf := by
  unfold State.discardRecord
  split
  · split
    · exact .saveWrite (.endOp hs)
    · exact hs
  · split
    · split
      · split
        · exact .saveWrite (.streamClose hs)
        · exact hs
      · exact hs
    · split
      · exact .saveWrite (.withdrawTask (.modHart hs))
      · exact hs

theorem State.MemWf.discardAll {s : State} {h : Nat} (hs : s.MemWf) : (s.discardAll h).MemWf := .foldl (fun _ _ h' => .discardRecord h') hs

theorem State.MemWf.recordStore {s : State} {h off : Nat} {bs : List Byte} (hs : s.MemWf) : (s.recordStore h off bs).MemWf := by
  unfold State.recordStore
  split
  · exact .translationStore hs
  · refine .foldl (fun s _ hs => ?_) hs
    split
    · split
      · exact hs
      · exact .discardRecord hs
    · exact hs

theorem State.MemWf.memStore {s : State} {ag : Agent} {x : XCtx} {k : Option Nat} {va : Word} {bs : List Byte} {vector : Bool} (hs : s.MemWf) :
    (s.memStore ag x k va bs vector).1.MemWf := by
  unfold State.memStore
  split
  · exact .fst (.recordStore hs)
  · split
    next heq => exact .fst (.of_eq heq (.probe hs))
    next heq =>
      split
      · exact .fst (.of_eq heq (.probe hs))
      · split
        next heq1 => exact .fst (.of_eq heq1 (.storePa (.of_eq heq (.probe hs))))
        next heq1 =>
          dsimp only
          split
          · exact .of_eq heq1 (.storePa (.of_eq heq (.probe hs)))
          · exact .noteDirty (.of_eq heq1 (.storePa (.of_eq heq (.probe hs))))

theorem State.MemWf.storeRunN {s : State} {f : Nat} {ag : Agent} {x : XCtx} {kn : Option Nat} {va : Word} {bs : List Byte} (hs : s.MemWf) :
    (storeRunN f s ag x kn va bs).1.MemWf := by
  induction f generalizing s ag x kn va bs with
  | zero => exact hs
  | succ f ih =>
    unfold Machine.storeRunN
    split
    · exact hs
    · extract_lets k
      split
      next heq => exact .fst (.of_eq heq (.memStore hs))
      next heq => exact ih (.of_eq heq (.memStore hs))

theorem State.MemWf.storeRun {s : State} {ag : Agent} {x : XCtx} {kn : Option Nat} {va : Word} {bs : List Byte} (hs : s.MemWf) :
    (s.storeRun ag x kn va bs).1.MemWf :=
  .storeRunN hs

theorem State.MemWf.probeVa {s : State} {h : Nat} {va : Word} {acc : Access} (hs : s.MemWf) : (s.probeVa h va acc).1.MemWf := by
  unfold State.probeVa
  split
  next heq => exact .fst (.of_eq heq (.probe hs))
  next heq => exact .accessTrap (.of_eq heq (.probe hs))

theorem State.MemWf.objCheck {s : State} {h : Nat} {d : Reg} {va : Word} (hs : s.MemWf) : (s.objCheck h d va).1.MemWf := by
  unfold State.objCheck
  split
  · exact hs
  · split
    · exact hs
    · split
      next heq => exact .fst (.of_eq heq (.probeVa hs))
      next heq => split <;> exact .fst (.of_eq heq (.probeVa hs))

theorem State.MemWf.objPending {s : State} {h : Nat} {d : Reg} {va : Word} (hs : s.MemWf) : (s.objPending h d va).1.MemWf := by
  unfold State.objPending
  split
  · exact hs
  · extract_lets pa s1
    have hs1 : s1.MemWf := .pin hs
    split
    next heq => exact .fst (.of_eq heq (.memStore hs1))
    next heq => exact .accessTrap (.of_eq heq (.memStore hs1))

theorem State.MemWf.startOp {s : State} {h : Nat} {d : Reg} {va pc : Word} {kind : State → OpKind} (hs : s.MemWf) :
    (s.startOp h d va pc kind).state.MemWf := by
  unfold State.startOp
  split
  next s t heq => exact .of_eq heq (.objPending hs)
  next s pa heq =>
    have hs1 : s.MemWf := .of_eq heq (.objPending hs)
    exact hs1

theorem State.MemWf.failOp {s : State} {o : Op} {reason prog : Nat} (hs : s.MemWf) : (s.failOp o reason prog).MemWf := .endOp hs

theorem State.MemWf.copyN {s : State} {f : Nat} {o : Op} {src dst : Word} {desc : List Byte} {p limit : Nat} (hs : s.MemWf) :
    (copyN f s o src dst desc p limit).1.MemWf := by
  induction f generalizing s o src dst desc p limit with
  | zero => exact hs
  | succ f ih =>
    unfold Machine.copyN
    split
    · exact hs
    · split
      · exact ih hs
      · extract_lets a b inner m k
        split
        next heq => exact .fst (.of_eq heq (.memLoad hs))
        next heq =>
          split
          next heq1 => exact .fst (.of_eq heq1 (.memStore (.of_eq heq (.memLoad hs))))
          next heq1 => exact ih (.of_eq heq1 (.memStore (.of_eq heq (.memLoad hs))))

theorem State.MemWf.copyAdvance {s : State} {o : Op} {limit : Nat} (hs : s.MemWf) : (s.copyAdvance o limit).MemWf := by
  unfold State.copyAdvance
  split
  · split
    · split
      · exact .endOp hs
      · exact .failOp hs
    · split
      next heq => exact .failOp (.of_eq heq (.copyN hs))
      next heq =>
        split
        · exact .endOp (.of_eq heq (.copyN hs))
        · exact .of_mem (.of_eq heq (.copyN hs)) rfl
  · exact hs

theorem State.MemWf.streamFetch {s : State} {h q : Nat} (hs : s.MemWf) : (s.streamFetch h q).MemWf := by
  unfold State.streamFetch
  split
  · exact hs
  · split
    · exact hs
    · extract_lets a v1 pa v11
      split
      next heq => exact .streamObject (.modHart (.of_eq heq (.loadRun hs)))
      next heq =>
        extract_lets s11 s2
        have hs11 : s11.MemWf := .afterStore (.localWrite (.of_eq heq (.loadRun hs)))
        have hs2 : s2.MemWf := .modHart hs11
        split
        · exact .streamObject hs2
        · exact hs2

end Sys2Proof.Machine
end

section
/-! The canonical form of memory through the operations of Sys2Proof/Machine/HartAccess.lean. -/
namespace Sys2Proof.Machine

theorem State.MemWf.hartLoad {s : State} {h : Nat} {va : Word} {n : Nat} (hs : s.MemWf) : (s.hartLoad h va n).1.MemWf := .memLoad hs

theorem State.MemWf.hartStore {s : State} {h : Nat} {va : Word} {bs : List Byte} {vector : Bool} (hs : s.MemWf) :
    (s.hartStore h va bs vector).1.MemWf :=
  .memStore hs

end Sys2Proof.Machine
end

section
/-! The canonical form of memory through the operations of Sys2Proof/Machine/ScalarMem.lean. -/
namespace Sys2Proof.Machine

theorem State.MemWf.scalarLoad {s : State} {d a : Reg} {i : BitVec 15} {n : Nat} {f : Nat → Word} (hs : s.MemWf) :
    OutMemWf (scalarLoad s d a i n f) := by
  unfold Machine.scalarLoad
  extract_lets va
  split
  · exact State.MemWf.raise hs
  · split
    · exact hs
    · split
      next heq => exact State.MemWf.writeX (.of_eq heq (.hartLoad hs))
      next heq => exact State.MemWf.raiseIn hs (.accessTrap (.of_eq heq (.hartLoad hs)))

theorem State.MemWf.scalarStore {s : State} {d a : Reg} {i : BitVec 15} {n : Nat} (hs : s.MemWf) : OutMemWf (scalarStore s d a i n) := by
  unfold Machine.scalarStore
  refine State.MemWf.held (fun s hs => ?_) hs
  extract_lets va
  split
  · exact State.MemWf.raise hs
  · split
    next heq => exact State.MemWf.commit (.of_eq heq (.hartStore hs))
    next heq => exact State.MemWf.raiseIn hs (.accessTrap (.of_eq heq (.hartStore hs)))

end Sys2Proof.Machine
end

section
/-! The canonical form of memory through the operations of Sys2Proof/Machine/Integer.lean. -/
namespace Sys2Proof.Machine

theorem State.MemWf.alu {s : State} {d a b : Reg} {f : Word → Word → Word} (hs : s.MemWf) : OutMemWf (alu s d a b f) := State.MemWf.writeX hs

theorem State.MemWf.aluI {s : State} {d a : Reg} {i : BitVec 15} {f : Word → Word → Word} (hs : s.MemWf) : OutMemWf (aluI s d a i f) :=
  State.MemWf.writeX hs

theorem State.MemWf.alu1 {s : State} {d a : Reg} {f : Word → Word} (hs : s.MemWf) : OutMemWf (alu1 s d a f) := State.MemWf.writeX hs

end Sys2Proof.Machine
end

section
/-! The canonical form of memory through the operations of Sys2Proof/Machine/VectorOps.lean. -/
namespace Sys2Proof.Machine

theorem State.MemWf.finishPieces {s : State} {h : Nat} {e : QEntry} {r : List Piece × Option (Nat × Nat)} {put : State → List Piece → State}
    (hput : ∀ (s : State) (l : List Piece), s.MemWf → (put s l).MemWf) (hs : s.MemWf) : (finishPieces s h e r put).state.MemWf := by
  unfold Machine.finishPieces
  split
  · exact hput _ _ hs
  · extract_lets s'
    have hs' : s'.MemWf := .logError hs
    split
    · exact hs'
    · exact hput _ _ hs'

theorem State.MemWf.planeRun {s : State} {d : Reg} {k : KReg} {f : Core → Hart → Nat → Except Nat (Option Piece)} {h : Nat} {e : QEntry} {lo hi : Nat}
    (hs : s.MemWf) :
    (planeRun d k f s h e lo hi).state.MemWf :=
  .finishPieces (fun _ _ h' => .modCore h') hs

theorem State.MemWf.maskRun {s : State} {d k : KReg} {f : Core → Hart → Nat → Except Nat (Option Piece)} {h : Nat} {e : QEntry} {lo hi : Nat}
    (hs : s.MemWf) :
    (maskRun d k f s h e lo hi).state.MemWf :=
  .finishPieces (fun _ _ h' => .modHart h') hs

theorem opVV_keeps {w d a b y x k f} : (opVV w d a b y x k f).Keeps := ⟨id, id, fun hs => .planeRun hs, id, id, id⟩
theorem opVX_keeps {w d a b x k f} : (opVX w d a b x k f).Keeps := ⟨id, id, fun hs => .planeRun hs, id, id, id⟩
theorem opVVd_keeps {w d a b y x k f} : (opVVd w d a b y x k f).Keeps := ⟨id, id, fun hs => .planeRun hs, id, id, id⟩
theorem opVXd_keeps {w d a b x k f} : (opVXd w d a b x k f).Keeps := ⟨id, id, fun hs => .planeRun hs, id, id, id⟩
theorem opV1_keeps {wd wa d a x k f} : (opV1 wd wa d a x k f).Keeps := ⟨id, id, fun hs => .planeRun hs, id, id, id⟩
theorem cmpVV_keeps {c d a b f y x k} : (cmpVV c d a b f y x k).Keeps := ⟨id, id, fun hs => .maskRun hs, id, id, id⟩
theorem cmpVX_keeps {c d a b f x k} : (cmpVX c d a b f x k).Keeps := ⟨id, id, fun hs => .maskRun hs, id, id, id⟩
theorem opShift_keeps {w d a b sh x k f} : (opShift w d a b sh x k f).Keeps := ⟨id, id, fun hs => .planeRun hs, id, id, id⟩

theorem State.MemWf.narrowRun {s : State} {vd : Option Reg} {vs va : Reg} {f : BitVec 5} {k : KReg} {h : Nat} {e : QEntry} {lo hi : Nat}
    (hs : s.MemWf) :
    (narrowRun vd vs va f k s h e lo hi).state.MemWf := by
  unfold Machine.narrowRun
  extract_lets a B r put
  split
  · exact .modCore hs
  · extract_lets s' __src
    have hs' : s'.MemWf := .logError hs
    split
    · exact hs'
    · exact .modCore hs'

end Sys2Proof.Machine
end

section
/-! The canonical form of memory through the operations of Sys2Proof/Machine/VectorMem.lean. -/
namespace Sys2Proof.Machine

theorem State.MemWf.keepPages {s : State} {h : Nat} {acc : Access} {ps : List Nat} (hs : s.MemWf) : (s.keepPages h acc ps).MemWf :=
  .foldl (fun _ _ h' => .keep (.walkAcquire h')) hs

theorem State.MemWf.elemLoad {s : State} {h : Nat} {va : Word} {pa n : Nat} (hs : s.MemWf) : (s.elemLoad h va pa n).1.MemWf := by
  unfold State.elemLoad
  split
  · exact .hartLoad hs
  · split
    · exact hs
    · exact .loadPa hs

theorem State.MemWf.elemStore {s : State} {h : Nat} {va : Word} {pa : Nat} {bs : List Byte} (hs : s.MemWf) : (s.elemStore h va pa bs).1.MemWf := by
  unfold State.elemStore
  split
  · exact .hartStore hs
  · split
    · exact hs
    · split
      next heq => exact .fst (.of_eq heq (.storePa hs))
      next heq =>
        dsimp only
        split
        · exact .of_eq heq (.storePa hs)
        · exact .noteDirty (.of_eq heq (.storePa hs))

theorem State.MemWf.elemQueue {s : State} {h : Nat} {va : Word} {pa : Nat} {bs : List Byte} (hs : s.MemWf) : (s.elemQueue h va pa bs).1.MemWf := by
  unfold State.elemQueue
  split
  · exact .elemStore hs
  · split
    · exact hs
    · split
      · exact hs
      · split
        · exact .fst (.logBad hs)
        · extract_lets s1
          have hs1 : s1.MemWf := .modCore hs
          dsimp only
          split
          · exact hs1
          · exact .noteDirty hs1

theorem State.MemWf.roSector {s : State} {c sec : Nat} (hs : s.MemWf) : (s.roSector c sec).1.MemWf := by
  unfold State.roSector
  split
  · exact hs
  · exact .modCore hs

theorem State.MemWf.roLoadBy {s : State} {ag : Agent} {x : XCtx} {va : Word} {pa n : Nat} (hs : s.MemWf) : (s.roLoadBy ag x va pa n).1.MemWf := by
  unfold State.roLoadBy
  extract_lets h r
  have hr : r.1.MemWf := .roSector hs
  split
  · exact hs
  · split
    · exact hs
    · exact hs
    · split
      · exact hs
      · split
        · exact .fst (.logBad hs)
        · exact .fst (.afterLoad hr)

theorem State.MemWf.roLoad {s : State} {h : Nat} {va : Word} {pa n : Nat} (hs : s.MemWf) : (s.roLoad h va pa n).1.MemWf := .roLoadBy hs

theorem State.MemWf.probeAll {s : State} {store : Bool} {n : Nat} {k : KReg} {addr : QEntry → Nat → Word} {h : Nat} {e : QEntry} (hs : s.MemWf) :
    (probeAll store n k addr s h e).1.MemWf := by
  unfold Machine.probeAll
  extract_lets acc l ps fs s1 bad
  have hs1 : s1.MemWf := .keepPages hs
  split
  · exact hs
  · clear_value bad
    split
    · exact hs1
    · exact .accessTrap hs1

theorem State.MemWf.eachElem {f : State → Nat → State × Option Trap} (hf : ∀ (s : State) (i : Nat), s.MemWf → (f s i).1.MemWf) {l : List Nat}
    {s : State} (hs : s.MemWf) : (eachElem f l s).state.MemWf := by
  induction l generalizing s with
  | nil => exact hs
  | cons i l ih =>
    unfold Machine.eachElem
    split
    next s t heq => exact .of_eq heq (hf _ _ hs)
    next s heq => exact ih (.of_eq heq (hf _ _ hs))

theorem loadForm_keeps {d w k addr get} (hget : ∀ (s : State) (h : Nat) (va : Word) (pa n : Nat), s.MemWf → (get s h va pa n).1.MemWf) :
    (loadForm d w k addr get).Keeps where
  post hs := .probeAll hs
  run {_ _ e _ _} hs := by
    refine .eachElem (fun s i hs => ?_) hs
    dsimp only
    split
    · exact .accessTrap hs
    · split
      next s er heq => exact .accessTrap (.of_eq heq (hget _ _ _ _ _ hs))
      next s bs heq => exact .modCore (.of_eq heq (hget _ _ _ _ _ hs))
  start := id; closing := id; leave := id; finish := id

theorem State.MemWf.claimCovered {s : State} {h n : Nat} {p : Shape} {addr : QEntry → Nat → Word} {e : QEntry} {l : List Nat} (hs : s.MemWf) :
    (s.claimCovered h n p addr e l).MemWf := by
  unfold State.claimCovered
  extract_lets c at_ cover safe
  split
  · exact hs
  · exact .foldl (fun _ _ h' => .l2Claim h') hs

theorem storeForm_keeps {d w k addr} : (storeForm d w k addr).Keeps where
  post hs := .probeAll hs
  run {_ _ e _ _} hs := by
    refine .eachElem (fun s i hs => ?_) (.claimCovered hs)
    dsimp only
    split
    · exact .logError hs
    · split
      · exact .accessTrap hs
      · split
        next s er heq => exact .accessTrap (.of_eq heq (.elemQueue hs))
        next s heq => exact .of_eq heq (.elemQueue hs)
  start := id; closing := id; leave := id; finish := id

/-- What a form adds to its base changes neither its checks nor its effects. -/
theorem QOp.Keeps.of_form {op form : QOp} (kop : op.Keeps) (h : (form.post, form.start, form.run, form.closing, form.leave, form.finish) =
    (op.post, op.start, op.run, op.closing, op.leave, op.finish)) : form.Keeps := by
  obtain ⟨post, start, run, closing, leave, finish⟩ := form
  obtain ⟨rfl, rfl, rfl, rfl, rfl, rfl⟩ := by simpa only [Prod.mk.injEq] using h
  exact ⟨kop.post, kop.start, kop.run, kop.closing, kop.leave, kop.finish⟩

theorem opVld_keeps {d a i w} : (opVld d a i w).Keeps :=
  .of_form (op := loadForm d w 0 (unitAddr w (simm i)) State.elemLoad) (loadForm_keeps fun _ _ _ _ _ hs => .elemLoad hs) rfl
theorem opVldm_keeps {d a w k} : (opVldm d a w k).Keeps :=
  .of_form (op := loadForm d w k (unitAddr w 0) State.elemLoad) (loadForm_keeps fun _ _ _ _ _ hs => .elemLoad hs) rfl
theorem opVlds_keeps {d a b w k} : (opVlds d a b w k).Keeps :=
  .of_form (op := loadForm d w k strideAddr State.elemLoad) (loadForm_keeps fun _ _ _ _ _ hs => .elemLoad hs) rfl
theorem opVldro_keeps {d a w k} : (opVldro d a w k).Keeps :=
  .of_form (op := loadForm d w k (unitAddr w 0) State.roLoad) (loadForm_keeps fun _ _ _ _ _ hs => .roLoad hs) rfl
theorem opVst_keeps {d a i w} : (opVst d a i w).Keeps := .of_form (op := storeForm d w 0 (unitAddr w (simm i))) storeForm_keeps rfl
theorem opVstm_keeps {d a w k} : (opVstm d a w k).Keeps := .of_form (op := storeForm d w k (unitAddr w 0)) storeForm_keeps rfl
theorem opVsts_keeps {d a b w k} : (opVsts d a b w k).Keeps := .of_form (op := storeForm d w k strideAddr) storeForm_keeps rfl

theorem State.MemWf.indexedCheck {s : State} {x : Indexed} {h : Nat} {e : QEntry} (hs : s.MemWf) : (x.check s h e).1.MemWf := by
  unfold Indexed.check
  split
  · exact hs
  · exact .fst (.keepPages hs)

theorem Indexed.Keeps.step {s : State} {x : Indexed} {h : Nat} {e : QEntry} {at_ : Nat → Except Nat Word} {i : Nat} (kx : x.Keeps) (hs : s.MemWf) :
    (x.step h e at_ s i).1.MemWf := by
  unfold Indexed.step
  split
  · exact .fst (.logError hs)
  · split
    · exact hs
    · exact .accessTrap hs
    · split
      next heq => exact .fst (.of_eq heq (kx.one hs))
      next heq => exact .fst (.modHart (.of_eq heq (kx.one hs)))

theorem Indexed.Keeps.elems {s : State} {x : Indexed} {h : Nat} {e : QEntry} {lo hi : Nat} (kx : x.Keeps) (hs : s.MemWf) :
    (x.elems s h e lo hi).state.MemWf :=
  .eachElem (fun _ _ h' => kx.step h') hs

theorem State.MemWf.undoElems {s old : State} {h : Nat} (hs : s.MemWf) : (s.undoElems h old).MemWf := .modHart (.modCore hs)

theorem State.MemWf.indexedFault {s : State} {x : Indexed} {h : Nat} {e : QEntry} {l : List (Nat × Word)} (hs : s.MemWf) :
    (x.fault s h e l).1.MemWf := by
  unfold Indexed.fault
  split
  · exact hs
  · exact .modHart hs

theorem Indexed.Keeps.run {s : State} {x : Indexed} {h : Nat} {e : QEntry} {lo hi : Nat} (kx : x.Keeps) (hs : s.MemWf) :
    (x.run s h e lo hi).state.MemWf := by
  unfold Indexed.run
  split
  · extract_lets r
    have hr : r.state.MemWf := kx.elems hs
    split
    · exact .undoElems hr
    · split
      next heq => exact .of_eq heq (.indexedFault hs)
      · exact hr
  · exact kx.elems hs

theorem State.MemWf.indexedClosing {s : State} {x : Indexed} {h : Nat} {e : QEntry} (hs : s.MemWf) : (x.closing s h e).1.MemWf :=
  .indexedFault hs

theorem indexedOp_keeps {x : Indexed} {d b w wi y} (kx : x.Keeps) : (indexedOp x d b w wi y).Keeps where
  post hs := .indexedCheck hs
  run hs := kx.run hs
  closing hs := .indexedClosing hs
  start := id; leave := id; finish := id

theorem State.MemWf.loadOne {s : State} {d : Reg} {n h : Nat} {e : QEntry} {i : Nat} {va : Word} {pa : Nat} (hs : s.MemWf) :
    (loadOne d n s h e i va pa).1.MemWf := by
  unfold Machine.loadOne
  split
  next heq => exact .accessTrap (.of_eq heq (.elemLoad hs))
  next heq => exact .fst (.modCore (.of_eq heq (.elemLoad hs)))

theorem State.MemWf.storeOne {put : State → Nat → Word → Nat → List Byte → Res Unit} {d : Reg} {n : Nat} {s : State} {h : Nat} {e : QEntry}
    {i : Nat} {va : Word} {pa : Nat}
    (hput : ∀ (s : State) (h : Nat) (va : Word) (pa : Nat) (bs : List Byte), s.MemWf → (put s h va pa bs).1.MemWf) (hs : s.MemWf) :
    (storeOne put d n s h e i va pa).1.MemWf := by
  unfold Machine.storeOne
  split
  · exact .logError hs
  · split
    next s er heq => exact .accessTrap (.of_eq heq (hput _ _ _ _ _ hs))
    next s heq => exact .of_eq heq (hput _ _ _ _ _ hs)

theorem indexedLoad_keeps {d a b w y k wi} : (indexedLoad d a b w y k wi).Keeps :=
  .of_form (op := indexedOp ⟨2 ^ w.toNat, false, k, b, loadOne d (2 ^ w.toNat)⟩ d b (widthOf w) wi y)
    (indexedOp_keeps ⟨fun {_ _ e _ _ _} hs => .loadOne (e := e) hs⟩) rfl
theorem indexedStore_keeps {d a b w y k wi} : (indexedStore d a b w y k wi).Keeps :=
  .of_form (op := indexedOp ⟨2 ^ w.toNat, true, k, b, storeOne State.elemQueue d (2 ^ w.toNat)⟩ d b (widthOf w) wi y)
    (indexedOp_keeps ⟨fun {_ _ e _ _ _} hs => .storeOne (e := e) (fun _ _ _ _ _ hs => .elemQueue hs) hs⟩) rfl

end Sys2Proof.Machine
end

section
/-! The canonical form of memory through the operations of Sys2Proof/Machine/Atomics.lean. -/
namespace Sys2Proof.Machine

theorem State.MemWf.atomicAt {s : State} {h scope : Nat} {va : Word} {pa n : Nat} {f : Nat → Option Nat} (hs : s.MemWf) :
    (s.atomicAt h scope va pa n f).1.MemWf := by
  unfold State.atomicAt
  split
  · split
    next heq => exact .fst (.of_eq heq (.hartLoad hs))
    next heq =>
      split
      · exact .fst (.of_eq heq (.hartLoad hs))
      · exact .fst (.hartStore (.of_eq heq (.hartLoad hs)))
  · split
    next heq => exact .fst (.of_eq heq (.atomicPa hs))
    next heq =>
      dsimp only
      split
      · exact .noteDirty (.of_eq heq (.atomicPa hs))
      · exact .of_eq heq (.atomicPa hs)

theorem State.MemWf.atomic {s : State} {d a : Reg} {n : Nat} {sc : BitVec 3} {o : BitVec 2} {f : Hart → Nat → Option Nat} (hs : s.MemWf) :
    OutMemWf (atomic d a n sc o f s) := by
  unfold Machine.atomic
  refine State.MemWf.held (fun s hs => ?_) hs
  extract_lets va
  split
  · exact State.MemWf.raise hs
  · split
    next heq => exact State.MemWf.raiseIn hs (.of_eq heq (.probeVa hs))
    next heq =>
      extract_lets s2
      have hs2 : s2.MemWf := by
        unfold s2
        split
        · exact .releaseAt (.of_eq heq (.probeVa hs))
        · exact .of_eq heq (.probeVa hs)
      split
      next heq1 => exact State.MemWf.raiseIn hs (.accessTrap (.of_eq heq1 (.atomicAt hs2)))
      next heq1 =>
        refine State.MemWf.commit ?_
        split
        · exact .acquire (.of_eq heq1 (.atomicAt hs2))
        · exact .of_eq heq1 (.atomicAt hs2)

theorem State.MemWf.atomicOp {op : AtomicOp} {d a b : Reg} {w : BitVec 1} {sc : BitVec 3} {o : BitVec 2} {s : State} (hs : s.MemWf) :
    OutMemWf (atomicOp op d a b w sc o s) := by
  unfold Machine.atomicOp
  exact State.MemWf.atomic hs

theorem State.MemWf.refill {s : State} {c line : Nat} (hs : s.MemWf) : (s.refill c line).MemWf := .modCore hs

theorem State.MemWf.takePermission {s : State} {c line : Nat} (hs : s.MemWf) : (s.takePermission c line).MemWf := by
  unfold State.takePermission
  split
  · exact hs
  · extract_lets s1
    have hs1 : s1.MemWf := by
      unfold s1
      refine .foldl (fun s _ hs => ?_) hs
      split
      · exact .giveUp hs
      · exact hs
    exact .modCore (.refill hs1)

theorem State.MemWf.permitFor {s : State} {c pa : Nat} (hs : s.MemWf) : (s.permitFor c pa).MemWf := by
  unfold State.permitFor
  split
  · exact .takePermission hs
  · exact hs

theorem State.MemWf.glOne {s : State} {d : Reg} {n h : Nat} {e : QEntry} {i : Nat} {va : Word} {pa : Nat} (hs : s.MemWf) :
    (glOne d n s h e i va pa).1.MemWf := by
  unfold Machine.glOne
  split
  · exact .fst (.modHart hs)
  · split
    next heq => exact .fst (.of_eq heq (.loadOne (.permitFor hs)))
    next heq => exact .fst (.modHart (.of_eq heq (.loadOne (.permitFor hs))))

theorem State.MemWf.elemNow {s : State} {h : Nat} {va : Word} {pa : Nat} {bs : List Byte} (hs : s.MemWf) : (s.elemNow h va pa bs).1.MemWf :=
  .elemStore (.landIf hs)

theorem State.MemWf.scOne {s : State} {d : Reg} {n : Nat} {k : KReg} {h : Nat} {e : QEntry} {i : Nat} {va : Word} {pa : Nat} (hs : s.MemWf) :
    (scOne d n k s h e i va pa).1.MemWf := by
  unfold Machine.scOne
  split
  · exact .fst (.modHart hs)
  · split
    · split
      next heq => exact .fst (.of_eq heq (.storeOne (fun _ _ _ _ _ h' => .elemNow h') hs))
      next heq => exact .fst (.modHart (.of_eq heq (.storeOne (fun _ _ _ _ _ h' => .elemNow h') hs)))
    · exact .fst (.modHart hs)

theorem gatherLinked_keeps {d a b w y k wi} : (gatherLinked d a b w y k wi).Keeps :=
  .of_form (op := indexedOp ⟨linkBytes w, false, k, b, glOne d (linkBytes w)⟩ d b (8 * linkBytes w) wi y)
    (indexedOp_keeps ⟨fun hs => .glOne hs⟩) rfl
theorem scatterConditional_keeps {d a b w y k wi} : (scatterConditional d a b w y k wi).Keeps :=
  .of_form (op := indexedOp ⟨linkBytes w, true, k, b, scOne d (linkBytes w) k⟩ d b (8 * linkBytes w) wi y)
    (indexedOp_keeps ⟨fun hs => .scOne hs⟩) rfl

theorem State.MemWf.modAdder {s : State} {p : PendingAdd} {f : Hart → Hart} (hs : s.MemWf) : (s.modAdder p f).MemWf := by
  unfold State.modAdder
  split
  · exact .modHart hs
  · exact hs

theorem State.MemWf.afterAdd {s0 s1 : State} {p : PendingAdd} {n : Nat} (hs1 : s1.MemWf) : (s0.afterAdd s1 p n).MemWf := by
  unfold State.afterAdd
  extract_lets pa h s2 isLocal s3
  have hs2 : s2.MemWf := .watch hs1
  have hs3 : s3.MemWf := .wake (.loseLinks hs2)
  split
  · exact .noteRetests hs3
  · exact hs3

/-- Unfolded as in `State.MemWf.barWithdraw`. -/
theorem State.MemWf.addAt {s : State} {c : Nat} {p : PendingAdd} (hs : s.MemWf) : (s.addAt c p).MemWf := by
  obtain ⟨f, e⟩ := exists_eq' (a' := State.addAt)
  rw [e]
  delta State.addAt at e
  obtain ⟨recordOff, e'⟩ := exists_eq' (a' := State.recordOff)
  rw [e'] at e
  subst e
  beta_reduce
  extract_lets n s0 s1 r v s2
  have hs0 : s0.MemWf := .landOwn hs
  have hs1 : s1.MemWf := by
    unfold s1
    split
    · exact hs0
    · exact .permitFor hs0
  have hr : r.1.MemWf := .coreRead hs1
  have hs2 : s2.MemWf := .afterAdd (.coreWrite hr)
  split
  · exact .modAdder (.recordStore hs0)
  · split
    · exact .modAdder (.logBad hs0)
    · exact .modAdder hs0
    · exact .modAdder hs2

theorem State.MemWf.performAdd {s : State} {c n : Nat} (hs : s.MemWf) : (s.performAdd c n).MemWf := by
  unfold State.performAdd
  split
  · exact hs
  · exact .addAt (.modCore hs)

theorem State.MemWf.performFirst {s : State} {c : Nat} {sel : PendingAdd → Bool} (hs : s.MemWf) : (s.performFirst c sel).MemWf := by
  unfold State.performFirst
  split
  · exact hs
  · exact .performAdd hs

theorem State.MemWf.performAddsN {s : State} {n c : Nat} {sel : PendingAdd → Bool} (hs : s.MemWf) : (performAddsN n s c sel).MemWf := by
  induction n generalizing s c sel with
  | zero => exact hs
  | succ n ih =>
    unfold Machine.performAddsN
    exact ih (.performFirst hs)

theorem State.MemWf.handAdd {s : State} {c : Nat} {p : PendingAdd} (hs : s.MemWf) : (s.handAdd c p).MemWf := by
  unfold State.handAdd
  extract_lets slice held_ s1
  have hs1 : s1.MemWf := by
    unfold s1
    split
    · exact hs
    · split
      · exact .performAddsN hs
      · exact hs
  exact .modHart (.modCore hs1)

theorem State.MemWf.addOne {s : State} {d : Reg} {fmt n h : Nat} {e : QEntry} {i : Nat} {va : Word} {pa : Nat} (hs : s.MemWf) :
    (addOne d fmt n s h e i va pa).1.MemWf := by
  unfold Machine.addOne
  split
  · exact .fst (.modHart hs)
  · split
    · exact .fst (.logError hs)
    · split
      · exact hs
      · extract_lets s1 s2
        have hs1 : s1.MemWf := .handAdd hs
        have hs2 : s2.MemWf := by
          unfold s2
          split
          · exact hs1
          · exact .noteDirty hs1
        exact .fst (.modHart hs2)

theorem opVscadd_keeps {d a b f y k} : (opVscadd d a b f y k).Keeps :=
  let w := fmtWidth f.toNat
  .of_form (op := indexedOp ⟨w / 8, true, k, b, addOne d f.toNat (w / 8)⟩ d b w 32 y) (indexedOp_keeps ⟨fun hs => .addOne hs⟩) rfl

end Sys2Proof.Machine
end

section
/-! The canonical form of memory through the operations of Sys2Proof/Machine/Matrix.lean. -/
namespace Sys2Proof.Machine

theorem opTilerel_keeps {a} : (opTilerel a).Keeps := ⟨id, id, fun hs => .modCore hs, id, id, id⟩

theorem State.MemWf.matrixRows {row : State → Nat → Except Trap (State × Flags)}
    (hrow : ∀ (s : State) (m : Nat) (r : State × Flags), s.MemWf → row s m = .ok r → r.1.MemWf) {n : Nat} {s : State} {m : Nat} {f : Flags}
    (hs : s.MemWf) : (matrixRows row n s m f).state.MemWf := by
  induction n generalizing s m f with
  | zero => exact hs
  | succ n ih =>
    unfold Machine.matrixRows
    split
    · exact hs
    next r heq => exact ih (hrow _ _ _ hs heq)

theorem State.MemWf.runRows {row : State → Nat → Except Trap (State × Flags)} {s : State} {h lo hi : Nat}
    (hrow : ∀ (s : State) (m : Nat) (r : State × Flags), s.MemWf → row s m = .ok r → r.1.MemWf) (hs : s.MemWf) :
    (runRows row s h lo hi).state.MemWf := by
  unfold Machine.runRows
  extract_lets r
  have hr : r.state.MemWf := .matrixRows hrow hs
  split
  · exact hr
  · exact .logError hr

theorem State.MemWf.accShape {s : State} {r : Reg} {h : Nat} {e : QEntry} (hs : s.MemWf) : (accShape r s h e).1.MemWf := hs

theorem opMmaKind_keeps {v va adv f o t} : (opMmaKind v va adv f o t).Keeps where
  start hs := .modCore hs
  run hs := by
    refine .runRows (fun s m r hs heq => ?_) hs
    obtain ⟨q, -, rfl⟩ := exists_ok_of_map_ok heq
    exact .modCore hs
  post := id; closing := id; leave := id; finish := id

theorem opAczero_keeps {o e} : (opAczero o e).Keeps where
  run hs := by
    refine .runRows (fun s m r hs heq => ?_) hs
    obtain rfl := Except.ok.inj heq
    exact .modCore hs
  post := id; start := id; closing := id; leave := id; finish := id

theorem opAcrd_keeps {d f o} : (opAcrd d f o).Keeps where
  run hs := by
    refine .runRows (fun s m r hs heq => ?_) hs
    obtain ⟨l, -, hl⟩ := exists_ok_of_bind_ok heq
    obtain rfl := Except.ok.inj hl
    exact .modCore hs
  post := id; start := id; closing := id; leave := id; finish := id

theorem opAcwr_keeps {a f o} : (opAcwr a f o).Keeps where
  run hs := by
    refine .runRows (fun s m r hs heq => ?_) hs
    obtain ⟨l, -, hl⟩ := exists_ok_of_bind_ok heq
    obtain rfl := Except.ok.inj hl
    exact .modCore hs
  post := id; start := id; closing := id; leave := id; finish := id

end Sys2Proof.Machine
end

section
/-! The canonical form of memory through the operations of Sys2Proof/Machine/MergeUnit.lean. -/
namespace Sys2Proof.Machine

theorem State.MemWf.netStoreN {s : State} {kn : Option Nat} {f : Nat} {x : XCtx} {va : Word} {bs : List Byte} (hs : s.MemWf) :
    (netStoreN kn f s x va bs).1.MemWf := by
  induction f generalizing s x va bs with
  | zero => exact hs
  | succ f ih =>
    unfold Machine.netStoreN
    split
    · exact hs
    · extract_lets k own
      split
      · exact ih (.translationStore hs)
      · split
        next heq => exact .fst (.of_eq heq (.probe hs))
        next heq => exact .fst (.of_eq heq (.probe hs))
        next heq =>
          split
          · exact .fst (.of_eq heq (.probe hs))
          · split
            next heq1 => exact .fst (.of_eq heq1 (.deviceStore (.of_eq heq (.probe hs))))
            next heq1 => exact ih (.noteDirty (.of_eq heq1 (.deviceStore (.of_eq heq (.probe hs)))))

theorem State.MemWf.netStore {s : State} {m : Merge} {va : Word} {bs : List Byte} (hs : s.MemWf) : (s.netStore m va bs).1.MemWf := .netStoreN hs

theorem State.MemWf.netLoadN {s : State} {f : Nat} {x : XCtx} {va : Word} {n : Nat} (hs : s.MemWf) : (netLoadN f s x va n).1.MemWf := by
  induction f generalizing s x va n with
  | zero => exact hs
  | succ f ih =>
    unfold Machine.netLoadN
    split
    · exact hs
    · extract_lets k
      split
      next heq => exact .fst (.of_eq heq (.probe hs))
      next heq => exact .fst (.of_eq heq (.probe hs))
      next heq =>
        split
        · split
          next heq1 => exact .fst (.of_eq heq1 (ih (.of_eq heq (.probe hs))))
          · exact ih (.of_eq heq (.probe hs))
        · split
          · exact .fst (.logBad (.of_eq heq (.probe hs)))
          · split
            next heq1 => exact .fst (.of_eq heq1 (ih (.afterLoad (.of_eq heq (.probe hs)))))
            · exact ih (.afterLoad (.of_eq heq (.probe hs)))

theorem State.MemWf.netLoad {s : State} {x : XCtx} {va : Word} {n : Nat} (hs : s.MemWf) : (s.netLoad x va n).1.MemWf := .netLoadN hs

theorem State.MemWf.modMerge {s : State} {camp : Nat} {f : Merge → Merge} (hs : s.MemWf) : (s.modMerge camp f).MemWf := .modCamp hs

theorem State.MemWf.writeTable {s : State} {camp : Nat} (hs : s.MemWf) : (s.writeTable camp).MemWf := by
  unfold State.writeTable
  extract_lets m r
  have hr : r.1.MemWf := .netStore hs
  split
  · exact hs
  · exact .modMerge hr

theorem State.MemWf.spillRun {s : State} {camp : Nat} (hs : s.MemWf) : (s.spillRun camp).MemWf := .writeTable (.modMerge (.netStore hs))

theorem State.MemWf.refuseElem {s : State} {camp : Nat} {full : Bool} (hs : s.MemWf) : (s.refuseElem camp full).MemWf := .writeTable (.modMerge hs)

theorem State.MemWf.present {s : State} {camp port row col : Nat} {val : W32} (hs : s.MemWf) : (s.present camp port row col val).1.MemWf := by
  unfold State.present
  extract_lets m seq storeFull s1
  have hs1 : s1.MemWf := by
    unfold s1
    split
    · exact .spillRun hs
    · exact hs
  split
  · exact hs
  · split
    · exact .fst (.refuseElem hs)
    · split
      · exact .fst (.refuseElem hs)
      · exact .fst (.modMerge hs1)

theorem State.MemWf.mergeObject {s : State} {m : Merge} {o : Option (Word × Nat)} {v : Word} (hs : s.MemWf) : (s.mergeObject m o v).MemWf := by
  unfold State.mergeObject
  obtain ⟨recordOff, e⟩ := exists_eq' (a' := State.recordOff)
  rw [e]
  split
  · exact hs
  · split
    · exact .translationStore hs
    · exact .noteDirty (.unitStore (.foldl (fun _ _ hs => .evict hs) hs))

theorem State.MemWf.mergeFree {s : State} {camp : Nat} (hs : s.MemWf) : (s.mergeFree camp).MemWf := .modMerge hs

theorem State.MemWf.mergeRelease {s : State} {camp kernel : Nat} (hs : s.MemWf) : (s.mergeRelease camp kernel).MemWf := by
  unfold State.mergeRelease
  extract_lets m
  split
  · exact .mergeFree (.mergeObject (.mergeObject hs))
  · exact hs

theorem State.MemWf.readRuns {s : State} {m : Merge} {l : List (Nat × Nat)} (hs : s.MemWf) : (readRuns m s l).1.MemWf := by
  induction l generalizing s with
  | nil => exact hs
  | cons a l ih =>
    unfold Machine.readRuns
    split
    next heq => exact .fst (.of_eq heq (.netLoad hs))
    next heq =>
      split
      next heq1 => exact .fst (.of_eq heq1 (ih (.of_eq heq (.netLoad hs))))
      next heq1 => exact .fst (.of_eq heq1 (ih (.of_eq heq (.netLoad hs))))

theorem State.MemWf.passGroups {s : State} {m : Merge} {f : Nat} {runs : List (Nat × Nat)} {at_ : Nat} (hs : s.MemWf) :
    (passGroups m f s runs at_).1.MemWf := by
  induction f generalizing s runs at_ with
  | zero => exact hs
  | succ f ih =>
    unfold Machine.passGroups
    split
    · exact hs
    · split
      next heq => exact .fst (.of_eq heq (.readRuns hs))
      next heq =>
        split
        next heq1 => exact .fst (.of_eq heq1 (.netStore (.of_eq heq (.readRuns hs))))
        next heq1 =>
          split
          next heq2 => exact .fst (.of_eq heq2 (ih (.of_eq heq1 (.netStore (.of_eq heq (.readRuns hs))))))
          next heq2 => exact .fst (.of_eq heq2 (ih (.of_eq heq1 (.netStore (.of_eq heq (.readRuns hs))))))

theorem State.MemWf.passesN {s : State} {n camp : Nat} (hs : s.MemWf) : (passesN n s camp).MemWf := by
  induction n generalizing s camp with
  | zero => exact hs
  | succ n ih =>
    unfold Machine.passesN
    extract_lets m
    split
    · exact hs
    · split
      next heq => exact .modMerge (.of_eq heq (.passGroups hs))
      next heq => exact ih (.writeTable (.modMerge (.of_eq heq (.passGroups hs))))

theorem State.MemWf.mergeClosed {s : State} {camp : Nat} (hs : s.MemWf) : (s.mergeClosed camp).MemWf := .mergeObject (.modMerge (.passesN hs))

theorem State.MemWf.writePieces {s : State} {m : Merge} {l : List (Nat × List Byte)} (hs : s.MemWf) : (writePieces m s l).1.MemWf := by
  induction l generalizing s with
  | nil => exact hs
  | cons a l ih =>
    unfold Machine.writePieces
    split
    next heq => exact .fst (.of_eq heq (.netStore hs))
    next heq => exact ih (.of_eq heq (.netStore hs))

theorem State.MemWf.mergePiece {s : State} {camp off n : Nat} (hs : s.MemWf) : (s.mergePiece camp off n).MemWf := by
  unfold State.mergePiece
  extract_lets m
  split
  · exact hs
  · split
    · exact hs
    · extract_lets ps
      split
      · exact hs
      next heq1 => exact .modMerge (.of_eq heq1 (.writePieces hs))

theorem State.MemWf.mergeDrain {s : State} {camp : Nat} (hs : s.MemWf) : (s.mergeDrain camp).MemWf := by
  unfold State.mergeDrain
  extract_lets m done
  split
  · exact .mergeFree (.mergeObject hs)
  · split
    next heq => exact .mergeFree (.mergeObject (.of_eq heq (.readRuns hs)))
    next heq =>
      extract_lets all o
      split
      next heq1 => exact .mergeFree (.mergeObject (.of_eq heq1 (.writePieces (.of_eq heq (.readRuns hs)))))
      next heq1 => exact .mergeFree (.mergeObject (.of_eq heq1 (.writePieces (.of_eq heq (.readRuns hs)))))

end Sys2Proof.Machine
end

section
/-! The canonical form of memory through the operations of Sys2Proof/Machine/Commands.lean. -/
namespace Sys2Proof.Machine

theorem State.MemWf.withObj {d : Reg} {f : State → Nat → QEntry → Option Trap} {s : State} {h : Nat} {e : QEntry} (hs : s.MemWf) :
    (withObj d f s h e).1.MemWf := by
  unfold Machine.withObj
  split
  next s t heq => exact .of_eq heq (.objCheck hs)
  next s heq => exact .of_eq heq (.objCheck hs)

theorem command_keeps {d a b c check kind} : (command d a b c check kind).Keeps where
  post hs := .withObj hs
  run hs := .startOp hs
  start := id; closing := id; leave := id; finish := id

theorem State.MemWf.setOp {s : State} {o : Op} (hs : s.MemWf) : (s.setOp o).MemWf := .of_mem hs rfl

theorem opSqopen_keeps {d a b c} : (opSqopen d a b c).Keeps where
  post hs := .withObj hs
  run {s h e _ _} hs := by
    unfold opSqopen
    dsimp only
    split
    next s t heq => exact .of_eq heq (.objPending hs)
    next s pa heq =>
      have hs1 : (s.modHart h (Hart.setStream (sqDesc e).queue (some { sqDesc e with objPa := pa, x := s.xctx h, done := (sqDesc e).count == 0 }))).MemWf :=
        .modHart (.of_eq heq (.objPending hs))
      split
      · exact .streamObject hs1
      · exact hs1
  start := id; closing := id; leave := id; finish := id

theorem opSqclose_keeps {d a} : (opSqclose d a).Keeps where
  post hs := .withObj hs
  run hs := by
    unfold opSqclose
    dsimp only
    split
    · exact hs
    · split
      next s t heq => exact .of_eq heq (.objPending hs)
      next s pa heq => exact .writeObject (.streamClose (.of_eq heq (.objPending hs)))
  start := id; closing := id; leave := id; finish := id

theorem popWrite_keeps {n} : (popWrite n).Keeps where
  run hs := by
    unfold popWrite
    dsimp only
    split
    · exact hs
    · refine .eachElem (fun s i hs => ?_) hs
      split
      · exact .logBad hs
      · exact .modCore hs
  finish hs := by
    unfold popWrite
    dsimp only
    split
    · exact hs
    · exact .modHart hs
  post := id; start := id; closing := id; leave := id

theorem State.MemWf.modTile {s : State} {h tile : Nat} {f : Tile → Tile} (hs : s.MemWf) : (s.modTile h tile f).MemWf := .modCore hs

theorem State.MemWf.doneAndThen {r : Done} {f : State → State} (hf : ∀ (s : State), s.MemWf → (f s).MemWf) (hr : r.state.MemWf) :
    (r.andThen f).state.MemWf := by
  unfold Done.andThen
  split
  · exact hr
  · exact hf _ hr

theorem State.MemWf.startFill {s : State} {d : Reg} {h : Nat} {e : QEntry} {lo hi : Nat} (hs : s.MemWf) :
    (startFill d s h e lo hi).state.MemWf :=
  .doneAndThen (fun _ h' => .modTile h') (.startOp hs)

theorem State.MemWf.startDrain {s : State} {d : Reg} {h : Nat} {e : QEntry} {lo hi : Nat} (hs : s.MemWf) :
    (startDrain d s h e lo hi).state.MemWf :=
  .doneAndThen (fun _ h' => .modTile h') (.startOp hs)

theorem opTfetch_keeps {d a b c} : (opTfetch d a b c).Keeps where
  post hs := .withObj hs
  run {_ _ _ lo hi} hs := .startFill (lo := lo) (hi := hi) hs
  start := id; closing := id; leave := id; finish := id

theorem opTdrain_keeps {d a b c} : (opTdrain d a b c).Keeps where
  post hs := .withObj hs
  run {_ _ _ lo hi} hs := .startDrain (lo := lo) (hi := hi) hs
  start := id; closing := id; leave := id; finish := id

theorem State.MemWf.fillN {s : State} {o : Op} {tile : Nat} {l : List (Nat × Word × Nat)} (hs : s.MemWf) : (fillN o tile l s).1.MemWf := by
  induction l generalizing s with
  | nil => exact hs
  | cons a l ih =>
    unfold Machine.fillN
    split
    next heq => exact .fst (.of_eq heq (.probe hs))
    next heq =>
      split
      next heq1 => exact .fst (.of_eq heq1 (.roLoadBy (.of_eq heq (.probe hs))))
      next heq1 => exact ih (.afterStore (.localWrite (.of_eq heq1 (.roLoadBy (.of_eq heq (.probe hs))))))

theorem State.MemWf.drainN {s : State} {o : Op} {tile : Nat} {l : List (Nat × Word × Nat)} (hs : s.MemWf) : (drainN o tile l s).1.MemWf := by
  induction l generalizing s with
  | nil => exact hs
  | cons a l ih =>
    unfold Machine.drainN
    extract_lets src
    split
    · exact .fst (.logBad hs)
    · split
      next heq => exact .fst (.of_eq heq (.memStore hs))
      next heq => exact ih (.of_eq heq (.memStore hs))

theorem State.MemWf.doPiece {s : State} {o : Op} {n : Nat} (hs : s.MemWf) : (s.doPiece o n).MemWf := .setOp hs

theorem State.MemWf.endFill {s : State} {id : Nat} {want : Bool} (hs : s.MemWf) : (s.endFill id want).MemWf := by
  unfold State.endFill
  split
  · split
    · split
      next heq =>
        split
        · exact .endOp (.modTile (.of_eq heq (.fillN hs)))
        · exact hs
      next heq =>
        split
        · exact hs
        · exact .failOp (.modTile (.of_eq heq (.fillN hs)))
    · exact hs
  · exact hs

theorem State.MemWf.endDrain {s : State} {id : Nat} {want : Bool} (hs : s.MemWf) : (s.endDrain id want).MemWf := by
  unfold State.endDrain
  split
  · split
    · split
      next heq =>
        split
        · exact .endOp (.modTile (.of_eq heq (.drainN hs)))
        · exact hs
      next heq =>
        split
        · exact hs
        · exact .failOp (.modTile (.of_eq heq (.drainN hs)))
    · exact hs
  · exact hs

theorem State.MemWf.startCopy {s : State} {d : Reg} {h : Nat} {e : QEntry} {lo hi : Nat} (hs : s.MemWf) :
    (startCopy d s h e lo hi).state.MemWf :=
  .startOp (.loadRun hs)

theorem opAcopy_keeps {d a b c} : (opAcopy d a b c).Keeps where
  post hs := .withObj hs
  run {_ _ _ lo hi} hs := .startCopy (lo := lo) (hi := hi) hs
  start := id; closing := id; leave := id; finish := id

theorem State.MemWf.execAcopyComplete {s : State} {id : Nat} (hs : s.MemWf) : OutMemWf (execAcopyComplete id s) := by
  unfold Machine.execAcopyComplete
  show State.MemWf _
  split
  · split
    · exact .copyAdvance hs
    · exact hs
  · exact hs

theorem State.MemWf.bankLine {s : State} {id n : Nat} (hs : s.MemWf) : (s.bankLine id n).MemWf := by
  unfold State.bankLine
  split
  · split
    · split
      · exact hs
      · extract_lets p mark
        split
        next heq => exact .setOp (.of_eq heq (.memLoad hs))
        next heq =>
          split
          · exact .setOp (.of_eq heq (.memLoad hs))
          · split
            next heq1 => exact .setOp (.of_eq heq1 (.memStore (.of_eq heq (.memLoad hs))))
            next heq1 => exact .setOp (.of_eq heq1 (.memStore (.of_eq heq (.memLoad hs))))
    · exact hs
  · exact hs

theorem State.MemWf.execBankopComplete {s : State} {id : Nat} (hs : s.MemWf) : OutMemWf (execBankopComplete id s) := by
  unfold Machine.execBankopComplete
  show State.MemWf _
  split
  · split
    · split
      · exact hs
      · split
        · exact .failOp hs
        · split
          · split
            next heq => exact .failOp (.of_eq heq (.memStore hs))
            next heq => exact .endOp (.of_eq heq (.memStore hs))
          · exact .endOp hs
    · exact hs
  · exact hs

theorem State.MemWf.devStore {s : State} {o : Op} {va : Word} {bs : List Byte} (hs : s.MemWf) : (s.devStore o va bs).1.MemWf := by
  unfold State.devStore
  split
  · exact .fst (.recordStore hs)
  · split
    next heq => exact .fst (.of_eq heq (.probe hs))
    next heq =>
      split
      · exact .fst (.mgmtStore (.of_eq heq (.probe hs)))
      · exact .fst (.of_eq heq (.probe hs))
      · split
        · exact .fst (.of_eq heq (.probe hs))
        · split
          · exact .fst (.of_eq heq (.probe hs))
          · extract_lets r
            have hr : r.1.MemWf := .homeStore (.of_eq heq (.probe hs))
            split
            · dsimp only
              split
              · exact hr
              · exact .noteDirty hr
            · exact hr

theorem State.MemWf.devStoreN {s : State} {f : Nat} {o : Op} {va : Word} {bs : List Byte} (hs : s.MemWf) : (devStoreN f s o va bs).1.MemWf := by
  induction f generalizing s o va bs with
  | zero => exact hs
  | succ f ih =>
    unfold Machine.devStoreN
    split
    · exact hs
    · extract_lets k
      split
      next heq => exact .fst (.of_eq heq (.devStore hs))
      next heq => exact ih (.of_eq heq (.devStore hs))

theorem State.MemWf.devStoreRun {s : State} {o : Op} {va : Word} {bs : List Byte} (hs : s.MemWf) : (s.devStoreRun o va bs).1.MemWf := .devStoreN hs

theorem State.MemWf.forgetQueue {s : State} {h handle : Nat} (hs : s.MemWf) : (s.forgetQueue h handle).MemWf := by
  unfold State.forgetQueue
  split
  · exact .of_mem hs rfl
  · exact hs

theorem State.MemWf.forgetQueues {s : State} (hs : s.MemWf) : s.forgetQueues.MemWf := by
  unfold State.forgetQueues
  split
  · exact hs
  · exact .of_mem hs rfl

theorem State.MemWf.nvmeSubmit {s : State} {o : Op} (hs : s.MemWf) : (s.nvmeSubmit o).MemWf := by
  unfold State.nvmeSubmit
  split
  · extract_lets key q busy t
    split
    · exact hs
    · split
      · exact hs
      · exact .setOp (.of_mem (.unitStore (.unitStore hs)) rfl)
  · exact hs

theorem State.MemWf.nvmeSubmitN {s : State} {f : Nat} {l : List Nat} (hs : s.MemWf) : (nvmeSubmitN f s l).MemWf := by
  induction f generalizing s l with
  | zero => exact hs
  | succ f ih =>
    cases l with
    | nil => exact hs
    | cons id l =>
      unfold Machine.nvmeSubmitN
      split
      · exact ih hs
      next o _ =>
        extract_lets s1
        have hs1 : s1.MemWf := .nvmeSubmit hs
        split
        · exact ih hs
        · exact ih hs1

theorem State.MemWf.nvmeSubmitAll {s : State} (hs : s.MemWf) : s.nvmeSubmitAll.MemWf := .nvmeSubmitN hs

theorem State.MemWf.startFread {s : State} {d : Reg} {h : Nat} {e : QEntry} {lo hi : Nat} (hs : s.MemWf) :
    (startFread d s h e lo hi).state.MemWf := by
  unfold Machine.startFread
  extract_lets id s1
  have hs1 : s1.MemWf := by
    unfold s1
    split
    · exact hs
    · exact .forgetQueue hs
  exact .doneAndThen (fun _ h' => .nvmeSubmitAll (.of_mem h' rfl)) (.startOp hs1)

theorem opFread_keeps {d a b c} : (opFread d a b c).Keeps where
  post hs := .withObj hs
  run {_ _ _ lo hi} hs := .startFread (lo := lo) (hi := hi) hs
  start := id; closing := id; leave := id; finish := id

theorem State.MemWf.nvmeHead {s : State} {key : Nat} {e : List Byte} {cq : Word} (hs : s.MemWf) : (s.nvmeHead key e cq).MemWf := by
  unfold State.nvmeHead
  extract_lets q head s1
  have hs1 : s1.MemWf := .unitStore hs
  split
  · exact hs
  · exact .of_mem hs1 rfl

theorem State.MemWf.execNvmeCompletion {s : State} {slot : StagedSlot} {status : Nat} (hs : s.MemWf) :
    OutMemWf (execNvmeCompletion slot status s) := by
  unfold Machine.execNvmeCompletion
  show State.MemWf _
  split
  · exact hs
  · split
    · exact hs
    · split
      · extract_lets lo hi s1 s2 bs s3
        have hs1 : s1.MemWf := .nvmeHead hs
        have hs2 : s2.MemWf := .of_mem hs1 rfl
        have hs3 : s3.MemWf := by
          unfold s3
          split
          · exact .setOp hs2
          · split
            next heq => exact .setOp (.of_eq heq (.devStoreRun hs2))
            next heq => exact .of_eq heq (.devStoreRun hs2)
        exact .nvmeSubmitAll hs3
      · exact hs

theorem opRoinv_keeps : opRoinv.Keeps := ⟨id, id, fun hs => .modCore hs, id, id, id⟩

theorem State.MemWf.execCmread {s : State} {d a : Reg} (hs : s.MemWf) : OutMemWf (execCmread d a s) := by
  unfold Machine.execCmread
  extract_lets va
  split
  · exact hs
  · split
    next heq => exact State.MemWf.writeX (.of_eq heq (.probeVa hs))
    next heq => exact State.MemWf.raiseIn hs (.of_eq heq (.probeVa hs))

end Sys2Proof.Machine
end

section
/-! The canonical form of memory through the operations of Sys2Proof/Machine/Fabric.lean. -/
namespace Sys2Proof.Machine

theorem State.MemWf.recordSeq {s : State} {src seq : Nat} (hs : s.MemWf) : (s.recordSeq src seq).MemWf := .of_mem hs rfl

theorem State.MemWf.dropSent {s : State} {chip seq : Nat} (hs : s.MemWf) : (s.dropSent chip seq).MemWf := .of_mem hs rfl

theorem State.MemWf.settleSeqs {s : State} {chip seq n : Nat} (hs : s.MemWf) : (s.settleSeqs chip seq n).MemWf := by
  unfold State.settleSeqs
  refine .foldl (fun s _ hs => ?_) hs
  extract_lets s1
  have hs1 : s1.MemWf := .dropSent hs
  split
  · exact .recordSeq hs1
  · exact hs1

theorem State.MemWf.answer {s : State} {l : List (Option Word)} (hs : s.MemWf) : (s.answer l).MemWf := .of_mem hs rfl

theorem State.MemWf.remoteXlat {s : State} {domain : Nat} {a : Word} {acc : Access} (hs : s.MemWf) : (s.remoteXlat domain a acc).1.MemWf := by
  unfold State.remoteXlat
  split
  · exact hs
  · extract_lets va s1 x
    have hs1 : s1.MemWf := .noteBad hs
    split
    · exact hs1
    · exact .fst (.logBad hs1)
    · split
      · split <;> exact hs1
      · exact hs1

theorem State.MemWf.noteExports {s : State} {domain : Nat} (hs : s.MemWf) : (s.noteExports domain).MemWf := by
  unfold State.noteExports
  split
  · exact hs
  · exact .foldl (fun _ _ h => .noteBad h) hs

theorem State.MemWf.peerLoad {s : State} {src pa n : Nat} (hs : s.MemWf) : (s.peerLoad src pa n).1.MemWf := by
  unfold State.peerLoad
  split
  · exact .fst (.logBad hs)
  · exact .fst (.afterLoad hs)

theorem State.MemWf.peerStore {s : State} {src : Nat} {atomic : Bool} {pa : Nat} {bs : List Byte} (hs : s.MemWf) :
    (s.peerStore src atomic pa bs).1.MemWf := by
  unfold State.peerStore
  split
  · exact hs
  · extract_lets r
    have hr : r.1.MemWf := .homeWrite hs
    split
    · exact .fst (.afterStore hr)
    · exact hr

theorem State.MemWf.peerAtomic {s : State} {src pa n : Nat} {f : Nat → Nat} (hs : s.MemWf) : (s.peerAtomic src pa n f).1.MemWf := by
  unfold State.peerAtomic
  split
  next heq => exact .fst (.of_eq heq (.peerLoad hs))
  · extract_lets s2 old r
    have hs2 : s2.MemWf := by
      unfold s2
      split
      · exact hs
      · exact .markAt hs
    have hr : r.1.MemWf := .peerStore hs2
    exact hr

theorem State.MemWf.remoteElem {s : State} {src domain n : Nat} {a : Word} (hs : s.MemWf) : (s.remoteElem src domain n a).1.MemWf := by
  unfold State.remoteElem
  split
  · exact hs
  · split
    next heq => exact .fst (.of_eq heq (.remoteXlat hs))
    next heq =>
      split
      next heq1 => exact .fst (.of_eq heq1 (.peerLoad (.of_eq heq (.remoteXlat hs))))
      next heq1 => exact .fst (.of_eq heq1 (.peerLoad (.of_eq heq (.remoteXlat hs))))

theorem State.MemWf.reduceN {s : State} {n src domain : Nat} {va : Word} {v : Nat → Option FVal} {e : Nat} (hs : s.MemWf) :
    (reduceN n s src domain va v e).1.MemWf := by
  induction n generalizing s src domain va v e with
  | zero => exact hs
  | succ n ih =>
    unfold Machine.reduceN
    split
    · exact ih hs
    · split
      next heq => exact .fst (.of_eq heq (.remoteXlat hs))
      next heq =>
        split
        · exact .fst (.logBad (.of_eq heq (.remoteXlat hs)))
        · extract_lets sum
          split
          next heq1 => exact ih (.of_eq heq1 (.peerStore (.of_eq heq (.remoteXlat hs))))
          next heq1 => exact .fst (.of_eq heq1 (.peerStore (.of_eq heq (.remoteXlat hs))))

theorem State.MemWf.applyReduce {s : State} {src domain : Nat} {va : Word} {vl fmt blk : Nat} {elems scales : List Byte} {mask : Option (List Byte)}
    {first : Nat} (hs : s.MemWf) :
    (s.applyReduce src domain va vl fmt blk elems scales mask first).1.MemWf := by
  unfold State.applyReduce
  split
  · exact hs
  · exact .reduceN hs

theorem State.MemWf.applyFlag {s : State} {src domain : Nat} {va value : Word} {isAdd : Bool} (hs : s.MemWf) :
    (s.applyFlag src domain va value isAdd).1.MemWf := by
  unfold State.applyFlag
  split
  · exact hs
  · split
    next heq => exact .fst (.of_eq heq (.remoteXlat hs))
    next heq => exact .peerAtomic (.of_eq heq (.remoteXlat hs))

theorem State.MemWf.applyLine {s : State} {src off : Nat} {tag : Byte} {stored : List Byte} (hs : s.MemWf) :
    (s.applyLine src off tag stored).1.MemWf := by
  unfold State.applyLine
  extract_lets pa
  split
  · exact hs
  · split
    next heq => exact .fst (.of_mem (.of_eq heq (.peerStore hs)) rfl)
    next heq => exact .fst (.of_eq heq (.peerStore hs))

theorem State.MemWf.noteExportsOf {s : State} {p : Packet} (hs : s.MemWf) : (s.noteExportsOf p).MemWf := by
  unfold State.noteExportsOf
  split
  · exact .noteExports hs
  · exact .noteExports hs
  · exact .noteExports hs
  · exact hs

theorem State.MemWf.applyBody {s : State} {p : Packet} (hs : s.MemWf) : (s.applyBody p).1.MemWf := by
  unfold State.applyBody
  extract_lets s1 __src
  have hs1 : s1.MemWf := .noteExportsOf hs
  split
  · split
    · exact hs1
    · split
      · exact hs1
      · exact .peerStore hs1
  · split
    · exact hs1
    · exact .peerAtomic hs1
  · split
    · exact hs1
    · exact .applyLine hs1
  · exact .applyReduce hs1
  · split
    · exact hs1
    · exact .of_mem hs1 rfl

theorem State.MemWf.execFabricWritePacket {s : State} {p : Packet} (hs : s.MemWf) : OutMemWf (execFabricWritePacket p s) := by
  unfold Machine.execFabricWritePacket
  extract_lets r b
  have hb : b.1.MemWf := .applyBody hs
  split
  · exact .answer hs
  · split
    · exact .answer hs
    · split
      · exact .answer hs
      · exact .answer (.recordSeq hb)

theorem State.MemWf.elemsN {f : State → Word → State × Except Nat Word} (hf : ∀ (s : State) (a : Word), s.MemWf → (f s a).1.MemWf)
    {l : List Word} {s : State} (hs : s.MemWf) : (elemsN f s l).1.MemWf := by
  induction l generalizing s with
  | nil => exact hs
  | cons a l ih =>
    unfold Machine.elemsN
    split
    next s v heq => exact ih (.of_eq heq (hf _ _ hs))
    next s er heq => exact ih (.of_eq heq (hf _ _ hs))

theorem State.MemWf.windowElem {s : State} {src domain n : Nat} {a : Word} (hs : s.MemWf) : (s.windowElem src domain n a).1.MemWf := by
  unfold State.windowElem
  extract_lets s1
  have hs1 : s1.MemWf := .noteExports hs
  split
  · exact hs1
  · split
    next heq => exact .fst (.of_eq heq (.peerLoad hs1))
    next heq => exact .fst (.of_eq heq (.peerLoad hs1))

theorem State.MemWf.execFabricReadRequest {s : State} {src domain width : Nat} {window : Bool} {addrs : List Word} (hs : s.MemWf) :
    OutMemWf (execFabricReadRequest src domain width window addrs s) := by
  unfold Machine.execFabricReadRequest
  extract_lets n r
  have hr : r.1.MemWf := by
    unfold r
    split
    · exact .elemsN (fun _ _ h => .windowElem h) hs
    · exact .elemsN (fun _ _ h => .remoteElem h) hs
  exact .answer hr

theorem State.MemWf.execFabricFlagApply {s : State} {src seq domain : Nat} {va value : Word} {isAdd : Bool} (hs : s.MemWf) :
    OutMemWf (execFabricFlagApply src seq domain va value isAdd s) := by
  unfold Machine.execFabricFlagApply
  extract_lets r b
  have hb : b.1.MemWf := .applyFlag hs
  split
  · exact .answer hs
  · split
    · exact .answer hs
    · split
      · exact hs
      · exact .answer (.recordSeq hb)

theorem fabricCommand_keeps {d a b c check start} (hstart : ∀ {s h e}, s.MemWf → (start s h e).state.MemWf) :
    (fabricCommand d a b c check start).Keeps where
  post hs := .withObj hs
  run hs := hstart (.flush hs)
  start := id; closing := id; leave := id; finish := id

theorem State.MemWf.assignSeqs {s : State} {chip n : Nat} (hs : s.MemWf) : (s.assignSeqs chip n).1.MemWf :=
  .fst (.foldl (fun _ _ h => .countPacket h) hs)

theorem State.MemWf.startFreduce {s : State} {d : Reg} {h : Nat} {e : QEntry} (hs : s.MemWf) : (startFreduce d s h e).state.MemWf :=
  .doneAndThen (fun _ h' => .assignSeqs h') (.startOp (.loadRun hs))

theorem State.MemWf.readColl {s : State} {h : Nat} {e : QEntry} (hs : s.MemWf) : (readColl s h e).1.MemWf := by
  unfold Machine.readColl
  split
  next heq => exact .fst (.of_eq heq (.loadRun hs))
  next heq =>
    split
    next heq1 => exact .fst (.of_eq heq1 (.loadRun (.of_eq heq (.loadRun hs))))

theorem State.MemWf.startFcoll {s : State} {d : Reg} {h : Nat} {e : QEntry} (hs : s.MemWf) : (startFcoll d s h e).state.MemWf :=
  .doneAndThen (fun _ h' => .foldl (fun _ _ h' => .assignSeqs h') h') (.startOp (.readColl hs))

theorem opFgather_keeps {d a b c} : (opFgather d a b c).Keeps := fabricCommand_keeps fun hs => .startOp hs
theorem opFreduce_keeps {d a b c} : (opFreduce d a b c).Keeps := fabricCommand_keeps fun hs => .startFreduce hs
theorem opFflag_keeps {d a b c} : (opFflag d a b c).Keeps :=
  fabricCommand_keeps fun hs => .doneAndThen (fun _ hs => .countPacket hs) (.startOp hs)
theorem opFcoll_keeps {d a} : (opFcoll d a).Keeps := fabricCommand_keeps fun hs => .startFcoll hs

theorem State.MemWf.gathered {s : State} {o : Op} {n : Nat} {a : Word} {got : Option Word} {reason : Nat} (hs : s.MemWf) :
    (s.gathered o n a got reason).1.MemWf := by
  unfold State.gathered
  split
  · exact hs
  · split
    · exact hs
    · split
      · exact .remoteElem hs
      · split
        · exact hs
        · split <;> exact hs

theorem State.MemWf.gatherOne {s : State} {o : Op} {dst : Word} {n : Nat} {list : List Byte} {got : Option Word} {reason e : Nat} (hs : s.MemWf) :
    (s.gatherOne o dst n list got reason e).1.MemWf := by
  unfold State.gatherOne
  split
  next heq => exact .fst (.of_eq heq (.gathered hs))
  next heq =>
    split
    next heq1 => exact .fst (.of_eq heq1 (.storeRun (.of_eq heq (.gathered hs))))
    next heq1 => exact .fst (.of_eq heq1 (.storeRun (.of_eq heq (.gathered hs))))

theorem State.MemWf.gatherN {s : State} {k : Nat} {o : Op} {dst : Word} {n : Nat} {list : List Byte} {elems : List (Option Word)} {reason e : Nat}
    (hs : s.MemWf) :
    (gatherN k s o dst n list elems reason e).1.MemWf := by
  induction k generalizing s o dst n list elems reason e with
  | zero => exact hs
  | succ k ih =>
    unfold Machine.gatherN
    split
    · exact ih hs
    · exact ih (.gatherOne hs)

theorem State.MemWf.execFgatherComplete {s : State} {id : Nat} {elems : List (Option Word)} {reason : Nat} (hs : s.MemWf) :
    OutMemWf (execFgatherComplete id elems reason s) := by
  unfold Machine.execFgatherComplete
  show State.MemWf _
  split
  · split
    · extract_lets n r have_
      have hr : r.1.MemWf := .loadRun hs
      split
      next heq => exact .failOp (.of_eq heq (.gatherN hr))
      next heq =>
        split
        · exact .failOp (.of_eq heq (.gatherN hr))
        · exact .endOp (.of_eq heq (.gatherN hr))
    · exact hs
  · exact hs

theorem State.MemWf.endReduce {s : State} {o : Op} {vl reason : Nat} (hs : s.MemWf) : (s.endReduce o vl reason).MemWf := by
  unfold State.endReduce
  split
  · exact .endOp hs
  · exact .failOp hs

theorem State.MemWf.reduceHere {s : State} {o : Op} {d : Nat} {dst : Word} {vl fmt blk : Nat} {elems scales : List Byte} {mask : Option (List Byte)}
    (hs : s.MemWf) :
    (s.reduceHere o d dst vl fmt blk elems scales mask).1.MemWf := by
  unfold State.reduceHere
  extract_lets r
  have hr : r.1.MemWf := .applyReduce hs
  dsimp only
  split
  · exact hr
  · exact .noteDirty hr

theorem State.MemWf.execFreduceComplete {s : State} {id reason : Nat} (hs : s.MemWf) : OutMemWf (execFreduceComplete id reason s) := by
  unfold Machine.execFreduceComplete
  show State.MemWf _
  split
  · split
    · extract_lets chip n
      split
      · exact .failOp (.settleSeqs hs)
      · exact .failOp (.settleSeqs hs)
      · split
        · split
          · exact hs
          · exact .endReduce (.settleSeqs (.reduceHere hs))
        · split
          · exact .failOp (.settleSeqs hs)
          · split
            · exact hs
            · exact .endReduce hs
    · exact hs
  · exact hs

theorem State.MemWf.failColl {s : State} {chip seq reason : Nat} (hs : s.MemWf) : (s.failColl chip seq reason).MemWf := .of_mem hs rfl

theorem State.MemWf.endFlag {s : State} {o : Op} {chip seq : Nat} {dst value : Word} {isAdd : Bool} {reason : Nat} (hs : s.MemWf) :
    (s.endFlag o chip seq dst value isAdd reason).MemWf := by
  unfold State.endFlag
  split
  · exact .failOp (.settleSeqs hs)
  · split
    · split
      · exact hs
      · extract_lets r s1
        have hr : r.1.MemWf := .applyFlag hs
        have hs1 : s1.MemWf := .settleSeqs hr
        split
        · exact .endOp (.noteDirty hs1)
        · exact .failOp hs1
    · split
      · exact .failOp (.settleSeqs hs)
      · split
        · exact hs
        · split
          · exact .endOp (.settleSeqs hs)
          · exact .failOp (.settleSeqs hs)

theorem State.MemWf.execFabricAcknowledgement {s : State} {chip seq reason : Nat} (hs : s.MemWf) :
    OutMemWf (execFabricAcknowledgement chip seq reason s) := by
  unfold Machine.execFabricAcknowledgement
  show State.MemWf _
  split
  · exact hs
  · split
    · split
      · exact hs
      · split
        · exact .dropSent hs
        · exact .failColl (.dropSent hs)
    · split
      · exact .endFlag hs
      · exact hs

theorem State.MemWf.dropColl {s : State} {dom : Nat} {bs : List Byte} (hs : s.MemWf) : (s.dropColl dom bs).MemWf := .of_mem hs rfl

theorem State.MemWf.collOwn {s : State} {o : Op} {bs : List Byte} (hs : s.MemWf) : (s.collOwn o bs).1.MemWf := by
  unfold State.collOwn
  extract_lets len me
  split
  · exact hs
  · exact .loadRun hs

theorem State.MemWf.collBytes {s : State} {o : Op} {dom : Nat} {bs : List Byte} (hs : s.MemWf) : (s.collBytes o dom bs).1.MemWf := by
  unfold State.collBytes
  extract_lets me
  split
  next heq => exact .fst (.of_eq heq (.collOwn hs))
  next heq => exact .fst (.of_eq heq (.collOwn hs))

theorem State.MemWf.collStore {s : State} {o : Op} {dst : Word} {res : List Byte} {l : List (Nat × Nat)} (hs : s.MemWf) :
    (collStore o dst res l s).1.MemWf := by
  induction l generalizing s with
  | nil => exact hs
  | cons a l ih =>
    unfold Machine.collStore
    split
    next heq => exact .fst (.of_eq heq (.storeRun hs))
    next heq => exact ih (.of_eq heq (.storeRun hs))

theorem State.MemWf.collWrite {s : State} {o : Op} {dom : Nat} {bs : List Byte} (hs : s.MemWf) : (s.collWrite o dom bs).MemWf := by
  unfold State.collWrite
  split
  next heq => exact .failOp (.of_eq heq (.collBytes hs))
  next heq =>
    extract_lets dst
    split
    next heq1 => exact .failOp (.of_eq heq1 (.collStore (.of_eq heq (.collBytes hs))))
    next heq1 => exact .endOp (.dropColl (.of_eq heq1 (.collStore (.of_eq heq (.collBytes hs)))))

theorem State.MemWf.execFcollComplete {s : State} {id : Nat} (hs : s.MemWf) : OutMemWf (execFcollComplete id s) := by
  unfold Machine.execFcollComplete
  show State.MemWf _
  split
  · split
    · split
      · exact .failOp hs
      · exact .failOp hs
      · split
        · exact .failOp hs
        · split
          · refine .failOp ?_
            refine .foldl (fun s _ hs => ?_) hs
            split
            · exact .settleSeqs hs
            · exact hs
          · split
            · exact .collWrite hs
            · exact hs
    · exact hs
  · exact hs

theorem State.MemWf.endFread {s : State} {o : Op} (hs : s.MemWf) : (s.endFread o).MemWf := by
  unfold State.endFread
  split
  · exact .endOp hs
  · exact hs

theorem State.MemWf.hostBytes {s : State} {o : Op} {base n : Nat} (hs : s.MemWf) : (s.hostBytes o base n).1.MemWf := by
  unfold State.hostBytes
  split
  · exact hs
  · exact .fst (.logBad hs)

theorem State.MemWf.ownBytes {s : State} {n d : Nat} {a : Word} (hs : s.MemWf) : (ownBytes n s d a).1.MemWf := by
  induction n generalizing s d a with
  | zero => exact hs
  | succ n ih =>
    unfold Machine.ownBytes
    split
    next heq => exact .fst (.of_eq heq (.remoteElem hs))
    next heq => exact ih (.of_eq heq (.remoteElem hs))

theorem State.MemWf.farBytes {s : State} {o : Op} {e : List Byte} {at_ n : Nat} {peer : List Byte} {reason : Nat} (hs : s.MemWf) :
    (s.farBytes o e at_ n peer reason).1.MemWf := by
  unfold State.farBytes
  extract_lets base
  split
  · exact .hostBytes hs
  · split
    · exact hs
    · split
      · exact .ownBytes hs
      · split <;> exact hs

theorem State.MemWf.farParts {s : State} {o : Op} {e : List Byte} {off : Nat} {dst : Word} {peer : List Byte} {reason : Nat} {l : List (Nat × Nat)}
    (hs : s.MemWf) :
    (farParts o e off dst peer reason l s).1.MemWf := by
  induction l generalizing s with
  | nil => exact hs
  | cons a l ih =>
    unfold Machine.farParts
    extract_lets g
    have hg : g.1.MemWf := .farBytes hs
    split
    next heq => exact .fst (.of_eq heq (.devStoreRun hg))
    next heq =>
      split
      · exact .fst (.of_eq heq (.devStoreRun hg))
      · exact ih (.of_eq heq (.devStoreRun hg))

theorem State.MemWf.execFreadComplete {s : State} {id : Nat} {peer : List Byte} {reason : Nat} (hs : s.MemWf) :
    OutMemWf (execFreadComplete id peer reason s) := by
  unfold Machine.execFreadComplete
  show State.MemWf _
  split
  · split
    · split
      · exact hs
      · split
        · exact .endFread hs
        · split
          · split
            · exact .endFread hs
            · exact hs
          · extract_lets chip far
            split
            · exact hs
            · split
              next heq => exact .endFread (.of_eq heq (.farParts hs))
              next heq => exact .endFread (.of_eq heq (.farParts hs))
    · exact hs
  · exact hs

/-- A result that stands where nothing failed. -/
theorem memWf_of_ite_none {α : Type} {r : State × Option α} {t : State} (hr : r.1.MemWf) (h : (if r.2.isNone then some r.1 else none) = some t) :
    t.MemWf := by
  split at h
  · cases h; exact hr
  · cases h

/-- A piece of an operation that succeeds. -/
theorem piece_memWf {o : Op} {n : Nat} {data : List Byte} {s t : State} (hs : s.MemWf) (h : o.piece n data s = some t) : t.MemWf := by
  unfold Op.piece at h
  dsimp only at h
  split at h
  · split at h
    · exact memWf_of_ite_none (.fillN hs) h
    · cases h
  · obtain ⟨p, -, hp⟩ := Option.bind_eq_some_iff.mp h
    exact memWf_of_ite_none (.drainN hs) hp
  · split at h
    · exact memWf_of_ite_none (r := (_, _)) (.copyN hs) h
    · cases h
  · split at h
    · cases h
    · obtain ⟨p, -, hp⟩ := Option.bind_eq_some_iff.mp h
      exact memWf_of_ite_none (.farParts hs) hp
  · split at h
    · exact memWf_of_ite_none (.gatherOne (.loadRun hs)) h
    · cases h
  · split at h
    · split at h
      · split at h
        · cases h; exact .noteDirty (.applyReduce hs)
        · cases h
      · cases h
    · cases h
  · split at h
    · split at h
      · cases h
      · split at h
        · cases h
        next t1 res heq =>
          have ht : t1.MemWf := .of_eq heq (.collBytes hs)
          obtain ⟨p, -, hp⟩ := Option.bind_eq_some_iff.mp h
          exact memWf_of_ite_none (.collStore ht) hp
    · cases h
  · cases h

theorem State.MemWf.opPiece {s : State} {id n : Nat} {data : List Byte} (hs : s.MemWf) : (s.opPiece id n data).MemWf := by
  unfold State.opPiece
  split
  next o _ =>
    split
    · exact hs
    · cases h : o.piece n data s with
      | none => exact hs
      | some t => exact .doPiece (piece_memWf hs h)
  · exact hs

theorem State.MemWf.modPort {s : State} {port : Nat} {f : Port → Port} (hs : s.MemWf) : (s.modPort port f).MemWf := .of_mem hs rfl

theorem State.MemWf.linkDown {s : State} {port : Nat} (hs : s.MemWf) : (s.linkDown port).MemWf := by
  unfold State.linkDown
  split
  · exact .of_mem hs rfl
  · exact hs

theorem State.MemWf.execFabricFlitReplay {s : State} {port : Nat} {ok : Bool} (hs : s.MemWf) : OutMemWf (execFabricFlitReplay port ok s) := by
  unfold Machine.execFabricFlitReplay
  show State.MemWf _
  split
  · exact hs
  · split
    · exact hs
    · split
      · exact .modPort hs
      · split
        · exact .linkDown hs
        · exact .modPort hs

theorem State.MemWf.execHaltNotice {chip : Nat} {freeze : Bool} {s : State} (hs : s.MemWf) : OutMemWf (execHaltNotice chip freeze s) := by
  unfold Machine.execHaltNotice
  cases freeze with
  | true =>
    extract_lets _ s1 s2
    have hs1 : s1.MemWf := .of_mem hs rfl
    have hs2 : s2.MemWf := .postHalt hs1
    clear_value s2
    exact State.MemWf.of_mem hs2 rfl
  | false => exact State.MemWf.of_mem hs rfl

theorem State.MemWf.execReleaseNotice {s : State} {chip : Nat} (hs : s.MemWf) : OutMemWf (execReleaseNotice chip s) := by
  unfold Machine.execReleaseNotice
  extract_lets froze __src s1
  have hs1 : s1.MemWf := .of_mem hs rfl
  show State.MemWf _
  split
  · exact .releaseHarts hs1
  · exact hs1

end Sys2Proof.Machine
end

section
/-! The canonical form of memory through the operations of Sys2Proof/Machine/HostLink.lean. -/
namespace Sys2Proof.Machine

theorem State.MemWf.respond {s : State} {r : Option (List Byte)} (hs : s.MemWf) : (s.respond r).MemWf := .of_mem hs rfl

theorem State.MemWf.execCxlMemRead {s : State} {pa : Nat} (hs : s.MemWf) : OutMemWf (execCxlMemRead pa s) := by
  unfold Machine.execCxlMemRead
  extract_lets p
  split
  · exact .respond hs
  · split
    · exact .respond (.logBad hs)
    · exact .respond (.afterLoad hs)

theorem State.MemWf.execCxlMemWrite {s : State} {pa : Nat} {data : List Byte} (hs : s.MemWf) : OutMemWf (execCxlMemWrite pa data s) := by
  unfold Machine.execCxlMemWrite
  split
  · exact .respond hs
  · extract_lets r
    have hr : r.1.MemWf := .homeWrite hs
    split
    · exact .respond (.afterStore hr)
    · exact .respond hr

theorem State.MemWf.execHostAtomic {s : State} {pa : Nat} {op : AtomicOp} {n : Nat} {operand : Word} (hs : s.MemWf) :
    OutMemWf (execHostAtomic pa op n operand s) := by
  unfold Machine.execHostAtomic
  split
  · exact .respond hs
  · split
    · exact .respond (.logBad hs)
    · exact .respond (.afterStore (.homeWrite (.markAt hs)))

theorem State.MemWf.execL2WriteBack {s : State} {core line : Nat} {evict : Bool} (hs : s.MemWf) : OutMemWf (execL2WriteBack core line evict s) := by
  unfold Machine.execL2WriteBack
  split
  · exact hs
  · show State.MemWf _
    split
    · exact .evict hs
    · exact .writeBack hs

theorem State.MemWf.execMscEviction {s : State} {line : Nat} (hs : s.MemWf) : OutMemWf (execMscEviction line s) := .of_mem hs rfl

theorem State.MemWf.execWideMarkExpire {s : State} {line : Nat} (hs : s.MemWf) : OutMemWf (execWideMarkExpire line s) := .of_mem hs rfl

theorem State.MemWf.ringDrop {s : State} {pa : Nat} (hs : s.MemWf) : (s.ringDrop pa).MemWf := by
  unfold State.ringDrop
  split
  · exact hs
  · exact .noteBad hs

theorem State.MemWf.ringTake {s : State} (hs : s.MemWf) : s.ringTake.MemWf := .of_mem hs rfl

theorem State.MemWf.ringWord {s : State} {cpl : Nat} {v : Word} (hs : s.MemWf) : (s.ringWord cpl v).MemWf := by
  unfold State.ringWord
  split
  · exact hs
  · exact .deviceStore hs

theorem State.MemWf.shootDown {s : State} {q : XRequest} (hs : s.MemWf) : (s.shootDown q).1.MemWf := .of_mem (.landAll hs) rfl

theorem State.MemWf.flushAll {s : State} (hs : s.MemWf) : s.flushAll.MemWf := .foldl (fun _ _ h => .flush h) hs

theorem State.MemWf.pteSwap {s : State} {pte : Nat} {old new : Word} (hs : s.MemWf) : (s.pteSwap pte old new).1.MemWf := by
  unfold State.pteSwap
  split
  · exact .fst (.logBad hs)
  · extract_lets s1
    have hs1 : s1.MemWf := .markAt hs
    split
    · exact .deviceStore hs1
    · exact .fst (.watch hs1)

theorem State.MemWf.execMigrate {s : State} (hs : s.MemWf) : OutMemWf (execMigrate s) := by
  unfold Machine.execMigrate
  show State.MemWf _
  split
  · exact hs
  · exact .ringTake (.ringDrop hs)
  · split
    · exact hs
    · extract_lets cpl s1 pte e q
      have hs1 : s1.MemWf := .ringWord (.ringTake hs)
      split
      · exact .ringWord hs1
      · split
        · exact .ringWord (.logBad hs1)
        · split
          · exact .ringWord hs1
          · split
            next heq => exact .ringWord (.of_eq heq (.pteSwap hs1))
            next s2 heq =>
              have hd : (s2.shootDown q).1.MemWf := .shootDown (.of_eq heq (.pteSwap hs1))
              exact .of_mem hd rfl

theorem State.MemWf.sendLine {s : State} {pa : Nat} {tag : Byte} {stored : List Byte} (hs : s.MemWf) : (s.sendLine pa tag stored).1.MemWf := by
  unfold State.sendLine
  split
  · exact hs
  · split
    · exact hs
    · exact .fst (.post (.homeWrite hs))

theorem State.MemWf.copyLines {s : State} {n old new : Nat} (hs : s.MemWf) : (copyLines n s old new).1.MemWf := by
  induction n generalizing s old new with
  | zero => exact hs
  | succ n ih =>
    unfold Machine.copyLines
    split
    · exact .fst (.logBad hs)
    · extract_lets s1 w r
      have hs1 : s1.MemWf := .afterLoad hs
      have hw : w.1.MemWf := .deviceStore hs1
      have hr : r.1.MemWf := by
        unfold r
        split
        · exact .sendLine hs1
        · exact hw
      split
      · exact ih hr
      · exact hr

theorem State.MemWf.execMigrateCopyDone {s : State} (hs : s.MemWf) : OutMemWf (execMigrateCopyDone s) := by
  unfold Machine.execMigrateCopyDone
  show State.MemWf _
  split
  · exact hs
  · extract_lets __src s1 old moving fail final
    have h__src : __src.MemWf := .flushAll hs
    have hs1 : s1.MemWf := .of_mem h__src rfl
    split
    · exact .ringWord (.pteSwap hs1)
    · split
      next heq =>
        split
        next heq1 => exact .ringWord (.of_eq heq1 (.pteSwap (.of_eq heq (.copyLines hs1))))
        next heq1 => exact .ringWord (.of_eq heq1 (.pteSwap (.of_eq heq (.copyLines hs1))))
      next heq => exact .ringWord (.pteSwap (.of_eq heq (.copyLines hs1)))

theorem State.MemWf.execShoot {s : State} (hs : s.MemWf) : OutMemWf (execShoot s) := by
  unfold Machine.execShoot
  show State.MemWf _
  split
  · exact hs
  · exact .ringTake (.ringDrop hs)
  · split
    · exact hs
    · extract_lets cpl s1 q __src
      have hs1 : s1.MemWf := .ringWord (.ringTake hs)
      have hq : q.1.MemWf := .shootDown hs1
      have h__src : __src.MemWf := hq
      split
      · exact .ringWord hs1
      · exact .of_mem hq rfl

theorem State.MemWf.execShootDrained {s : State} (hs : s.MemWf) : OutMemWf (execShootDrained s) := by
  unfold Machine.execShootDrained
  show State.MemWf _
  split
  · exact hs
  · exact .ringWord (.of_mem (.flushAll hs) rfl)

end Sys2Proof.Machine
end

section
/-! The canonical form of memory through the operations of Sys2Proof/Machine/Badger.lean. -/
namespace Sys2Proof.Machine

theorem State.MemWf.fold_ {s : State} {k : Kernel} {camps : List Nat} (hs : s.MemWf) : (s.fold_ k camps).MemWf := by
  unfold State.fold_
  extract_lets c kend hs1 d refused
  split
  · exact .foldl (fun _ _ h => .spoor h) hs
  · exact .foldl (fun _ _ h => .spoor h) (.setContext hs)

theorem State.MemWf.execDget {s : State} {d a : Reg} (hs : s.MemWf) : OutMemWf (execDget d a s) :=
  State.MemWf.held (fun _ h => State.MemWf.writeX h) hs

end Sys2Proof.Machine
end

section
/-! The canonical form of memory through the operations of Sys2Proof/Machine/Control.lean. -/
namespace Sys2Proof.Machine

theorem State.MemWf.jump {s : State} {t : Word} (hs : s.MemWf) : OutMemWf (jump s t) := .modH hs

theorem State.MemWf.branch {s : State} {a b : Reg} {o : BitVec 15} {rel : ℤ → ℤ → Bool} (hs : s.MemWf) : OutMemWf (branch s a b o rel) := by
  unfold Machine.branch
  split
  · exact State.MemWf.jump hs
  · exact State.MemWf.commit hs

theorem State.MemWf.execJal {s : State} {d : Reg} {o : BitVec 20} (hs : s.MemWf) : OutMemWf (execJal d o s) := .modH hs

theorem State.MemWf.execJalr {s : State} {d a : Reg} {i : BitVec 15} (hs : s.MemWf) : OutMemWf (execJalr d a i s) := by
  unfold Machine.execJalr
  extract_lets t
  split
  · exact State.MemWf.raise hs
  · exact .modH hs

theorem State.MemWf.execLoop {s : State} {a b : Reg} {o : BitVec 15} (hs : s.MemWf) : OutMemWf (execLoop a b o s) := by
  unfold Machine.execLoop
  split
  · exact State.MemWf.illegal hs
  · extract_lets fin
    split
    · exact State.MemWf.jump hs
    · exact State.MemWf.commit hs

end Sys2Proof.Machine
end

section
/-! The canonical form of memory through the operations of Sys2Proof/Machine/ControlRegs.lean. -/
namespace Sys2Proof.Machine

theorem State.MemWf.crAccess {s : State} {i : Instr} {d : Reg} {n : BitVec 12} {write : Bool} {v c : Word → Word} (hs : s.MemWf) :
    OutMemWf (crAccess s i d n write v c) := by
  unfold Machine.crAccess
  extract_lets num old
  split
  · exact State.MemWf.illegal hs
  · split
    · exact State.MemWf.raise hs
    · split
      · split
        · exact State.MemWf.illegal hs
        · exact State.MemWf.commit hs
      · exact State.MemWf.writeX hs

theorem State.MemWf.execCrr {s : State} {d : Reg} {n : BitVec 12} (hs : s.MemWf) : OutMemWf (execCrr d n s) := by
  unfold Machine.execCrr
  split
  · exact State.MemWf.crAccess hs
  · exact State.MemWf.held (fun _ h => State.MemWf.crAccess h) hs

theorem State.MemWf.execCrw {s : State} {d a : Reg} {n : BitVec 12} (hs : s.MemWf) : OutMemWf (execCrw d a n s) := by
  unfold Machine.execCrw
  extract_lets go
  split
  · exact State.MemWf.crAccess hs
  · exact State.MemWf.held (fun _ h => State.MemWf.crAccess h) hs

theorem State.MemWf.execCrs {s : State} {d a : Reg} {n : BitVec 12} (hs : s.MemWf) : OutMemWf (execCrs d a n s) :=
  State.MemWf.held (fun _ h => State.MemWf.crAccess h) hs

theorem State.MemWf.execCrc {s : State} {d a : Reg} {n : BitVec 12} (hs : s.MemWf) : OutMemWf (execCrc d a n s) :=
  State.MemWf.held (fun _ h => State.MemWf.crAccess h) hs

end Sys2Proof.Machine
end

section
/-! The canonical form of memory through the operations of Sys2Proof/Machine/Merge.lean. -/
namespace Sys2Proof.Machine

theorem State.MemWf.openChecks {s : State} {d : Reg} {h : Nat} {e : QEntry} (hs : s.MemWf) : (openChecks d s h e).1.MemWf := by
  unfold Machine.openChecks
  split
  next heq => exact .fst (.of_eq heq (.objCheck hs))
  next heq => split <;> exact .fst (.of_eq heq (.objCheck hs))

theorem State.MemWf.openRun {s : State} {d : Reg} {h : Nat} {e : QEntry} (hs : s.MemWf) : (openRun d s h e).state.MemWf := by
  unfold Machine.openRun
  split
  next heq => exact .accessTrap (.of_eq heq (.loadRun hs))
  next heq =>
    split
    · exact .of_eq heq (.loadRun hs)
    · split
      next heq1 => exact .of_eq heq1 (.objPending (.of_eq heq (.loadRun hs)))
      next heq1 => exact .writeObject (.writeTable (.modMerge (.of_eq heq1 (.objPending (.of_eq heq (.loadRun hs))))))

theorem State.MemWf.pushOne {s : State} {d a b : Reg} {k : KReg} {h i : Nat} (hs : s.MemWf) : (pushOne d a b k h s i).1.MemWf := by
  unfold Machine.pushOne
  extract_lets c x r
  clear_value r
  split
  · exact .fst (.logError hs)
  · exact .modHart (.present hs)

theorem opMgopen_keeps {d a} : (opMgopen d a).Keeps where
  post hs := .openChecks hs
  run hs := .openRun hs
  start := id; closing := id; leave := id; finish := id

theorem mergeCommand_keeps {d allowed f} : (mergeCommand d allowed f).Keeps where
  post hs := .withObj hs
  run hs := by
    unfold mergeCommand
    dsimp only
    split
    next s t heq => exact .of_eq heq (.objPending hs)
    next s pa heq => exact .modMerge (.of_eq heq (.objPending hs))
  start := id; closing := id; leave := id; finish := id

theorem opMgpush_keeps {d a b y x k} : (opMgpush d a b y x k).Keeps where
  run hs := .eachElem (fun _ _ hs => .pushOne hs) hs
  post := id; start := id; closing := id; leave := id; finish := id

theorem State.MemWf.execMergePassEnd {s : State} {camp : Nat} (hs : s.MemWf) : OutMemWf (execMergePassEnd camp s) := by
  unfold Machine.execMergePassEnd
  show State.MemWf _
  split
  · exact .mergeClosed hs
  · exact hs

theorem State.MemWf.execMergeDrainComplete {s : State} {camp : Nat} (hs : s.MemWf) : OutMemWf (execMergeDrainComplete camp s) := by
  unfold Machine.execMergeDrainComplete
  show State.MemWf _
  split
  · exact .mergeDrain hs
  · exact hs

end Sys2Proof.Machine
end

section
/-! The canonical form of memory through the operations of Sys2Proof/Machine/Vector.lean. -/
namespace Sys2Proof.Machine

theorem opVsel_keeps {d a b w y x k} : (opVsel d a b w y x k).Keeps := ⟨id, id, fun hs => .planeRun hs, id, id, id⟩
theorem opVcvtsn_keeps {d a b f x k} : (opVcvtsn d a b f x k).Keeps := ⟨id, id, fun hs => .narrowRun hs, id, id, id⟩
theorem opVscale_keeps {d a f x k} : (opVscale d a f x k).Keeps := ⟨id, id, fun hs => .narrowRun hs, id, id, id⟩
theorem opVcvtsw_keeps {d a b f y x k} : (opVcvtsw d a b f y x k).Keeps :=
  ⟨id, id, fun hs => .finishPieces (fun _ _ hs => .modCore hs) hs, id, id, id⟩

theorem opRed_keeps {op d a b t y x k} : (opRed op d a b t y x k).Keeps where
  run hs := by
    unfold opRed
    dsimp only
    split
    · exact hs
    · split
      · exact .logError hs
      · exact .modCore hs
  post := id; start := id; closing := id; leave := id; finish := id

theorem opVcompress_keeps {d a w x k} : (opVcompress d a w x k).Keeps := ⟨id, id, fun hs => .planeRun hs, id, id, id⟩
theorem opVexpand_keeps {d a w x k} : (opVexpand d a w x k).Keeps := ⟨id, id, fun hs => .planeRun hs, id, id, id⟩
theorem opVconfl_keeps {d a f x k} : (opVconfl d a f x k).Keeps := ⟨id, id, fun hs => .maskRun hs, id, id, id⟩
theorem opVslideup_keeps {d a b sh w x k} : (opVslideup d a b sh w x k).Keeps := ⟨id, id, fun hs => .planeRun hs, id, id, id⟩
theorem opVslidedn_keeps {d a b sh w x k} : (opVslidedn d a b sh w x k).Keeps := ⟨id, id, fun hs => .planeRun hs, id, id, id⟩
theorem opVbcast_keeps {d b w} : (opVbcast d b w).Keeps := ⟨id, id, fun hs => .planeRun hs, id, id, id⟩

theorem opVgetx_keeps {d a b w} : (opVgetx d a b w).Keeps where
  run hs := by
    unfold opVgetx
    dsimp only
    split
    · split
      · exact .logError hs
      · exact .modHart hs
    · exact .modHart hs
  post := id; start := id; closing := id; leave := id; finish := id

theorem opVputx_keeps {d a b w} : (opVputx d a b w).Keeps where
  run hs := by
    unfold opVputx
    dsimp only
    split
    · exact .modCore hs
    · exact hs
  post := id; start := id; closing := id; leave := id; finish := id

theorem opMask_keeps {d src f} : (opMask d src f).Keeps := ⟨id, id, fun hs => .maskRun hs, id, id, id⟩
theorem opKpop_keeps {d a} : (opKpop d a).Keeps := ⟨id, id, fun hs => .modHart hs, id, id, id⟩
theorem opKfirst_keeps {d a} : (opKfirst d a).Keeps := ⟨id, id, fun hs => .modHart hs, id, id, id⟩
theorem opVidx_keeps {d sh t f} : (opVidx d sh t f).Keeps := ⟨id, id, fun hs => .planeRun hs, id, id, id⟩
theorem opVdef_keeps {d a b} : (opVdef d a b).Keeps := ⟨id, id, fun hs => hs, id, id, id⟩

theorem State.MemWf.readDef {s : State} {d a : Reg} {f : Def → Word} (hs : s.MemWf) : OutMemWf (readDef d a f s) := by
  unfold Machine.readDef
  refine State.MemWf.held (fun s hs => ?_) hs
  split
  · exact State.MemWf.raise hs
  · exact State.MemWf.writeX hs

theorem State.MemWf.execSetvl {s : State} {d a : Reg} {g l : BitVec 2} {f : BitVec 5} (hs : s.MemWf) : OutMemWf (execSetvl d a g l f s) := by
  unfold Machine.execSetvl
  split
  · exact State.MemWf.raise hs
  · split
    · exact State.MemWf.illegal hs
    · exact State.MemWf.commit hs

end Sys2Proof.Machine
end

section
/-! The canonical form of memory through the operations of Sys2Proof/Machine/Vldz.lean. -/
namespace Sys2Proof.Machine

theorem Dec.Keeps.stop {α : Type} {r : DzStop} : (Dec.stop r : Dec α).Keeps := ⟨fun hs => hs⟩
theorem Dec.Keeps.pure {α : Type} {a : α} : (pure a : Dec α).Keeps := ⟨fun hs => hs⟩
theorem Dec.Keeps.bind {α β : Type} {m : Dec α} {f : α → Dec β} (hm : m.Keeps) (hf : ∀ a, (f a).Keeps) : (m >>= f).Keeps := by
  refine ⟨fun {q} hs => ?_⟩
  have hq := hm.run hs
  change DecMemWf (m q >>= fun p => f p.1 p.2)
  cases h : m q with
  | error r => rw [h] at hq; exact hq
  | ok p => rw [h] at hq; exact (hf p.1).run hq

theorem getBit_keeps {h limit : Nat} : (getBit h limit).Keeps := by
  refine ⟨fun {q} hs => ?_⟩
  unfold getBit
  extract_lets va
  split
  · exact hs
  · split
    next s bs heq => exact State.MemWf.of_eq heq (.hartLoad hs)
    next s er heq => exact State.MemWf.accessTrap (.of_eq heq (.hartLoad hs))

theorem getBits_keeps {h limit n : Nat} : (getBits h limit n).Keeps := by
  induction n with
  | zero => exact .pure
  | succ n ih => exact .bind getBit_keeps fun _ => .bind ih fun _ => .pure

theorem getSym_keeps {h limit : Nat} {ls : List Nat} {n len first code : Nat} : (getSym h limit ls n len first code).Keeps := by
  induction n generalizing len first code with
  | zero => exact .stop
  | succ n ih =>
    unfold getSym
    split
    · exact .stop
    · refine .bind getBit_keeps fun b => ?_
      dsimp only
      split
      · exact .pure
      · exact ih

theorem symbol_keeps {h limit : Nat} {ls : List Nat} : (symbol h limit ls).Keeps := getSym_keeps

theorem getLens_keeps {h limit : Nat} {cl : List Nat} {n f : Nat} {acc : List Nat} : (getLens h limit cl n f acc).Keeps := by
  induction f generalizing acc with
  | zero =>
    unfold getLens
    split
    · exact .pure
    · exact .stop
  | succ f ih =>
    unfold getLens
    split
    · exact .pure
    · split
      · exact .stop
      · refine .bind symbol_keeps fun y => ?_
        split
        · split
          · exact .stop
          · exact .bind getBits_keeps fun _ => ih
        · exact .bind getBits_keeps fun _ => ih
        · exact .bind getBits_keeps fun _ => ih
        · exact ih

theorem getThrees_keeps {h limit n : Nat} : (getThrees h limit n).Keeps := by
  induction n with
  | zero => exact .pure
  | succ n ih => exact .bind getBits_keeps fun _ => .bind ih fun _ => .pure

theorem dynHeader_keeps {h limit : Nat} : (dynHeader h limit).Keeps := by
  refine .bind getBits_keeps fun hlit => .bind getBits_keeps fun hdist => .bind getBits_keeps fun hclen => .bind getThrees_keeps fun c3 => ?_
  dsimp only
  split
  · exact .stop
  · refine .bind getLens_keeps fun ls => ?_
    split
    · exact .pure
    · exact .stop

theorem header_keeps {h : Nat} {d : Dz} : (header h d).Keeps := by
  refine .bind getBits_keeps fun fin => .bind getBits_keeps fun bt => ?_
  split
  · refine .bind ⟨fun hs => hs⟩ fun _ => .bind getBits_keeps fun n => .bind getBits_keeps fun m => ?_
    split
    · exact .stop
    · exact .pure
  · exact .pure
  · exact .bind dynHeader_keeps fun _ => .pure
  · exact .stop

theorem histByte_keeps {h : Nat} {rec_ : Word} {d : Dz} {dist : Nat} : (histByte h rec_ d dist).Keeps := by
  refine ⟨fun {q} hs => ?_⟩
  unfold histByte
  split
  · exact hs
  · extract_lets va
    split
    next s bs heq => exact State.MemWf.of_eq heq (.hartLoad hs)
    next s er heq => exact State.MemWf.accessTrap (.of_eq heq (.hartLoad hs))

theorem canStore_keeps {h : Nat} {rec_ : Word} {d : Dz} : (canStore h rec_ d).Keeps := by
  refine ⟨fun {q} hs => ?_⟩
  unfold canStore
  extract_lets va
  split
  next s t heq => exact State.MemWf.of_eq heq (.probeVa hs)
  next s pa heq =>
    have hs1 : s.MemWf := .of_eq heq (.probeVa hs)
    split
    · exact hs1
    · exact hs1

theorem emit_keeps {h : Nat} {rec_ : Word} {wb : Nat} {d : Dz} {b : Byte} : (emit h rec_ wb d b).Keeps := .bind canStore_keeps fun _ => .pure

theorem copyOut_keeps {h : Nat} {rec_ : Word} {wb n : Nat} {d : Dz} : (copyOut h rec_ wb n d).Keeps := by
  induction n generalizing d with
  | zero => exact .pure
  | succ n ih => exact .bind histByte_keeps fun _ => .bind emit_keeps fun _ => ih

theorem codedUnit_keeps {h : Nat} {rec_ : Word} {wb room : Nat} {d : Dz} : (codedUnit h rec_ wb room d).Keeps := by
  unfold codedUnit
  extract_lets lit dst
  refine .bind symbol_keeps fun y => ?_
  split
  · exact emit_keeps
  · split
    · exact .pure
    · split
      · exact .stop
      · refine .bind getBits_keeps fun lx => .bind symbol_keeps fun z => ?_
        split
        · exact .stop
        · refine .bind getBits_keeps fun dx => ?_
          dsimp only
          split
          · exact .stop
          · exact copyOut_keeps

theorem unit_keeps {h : Nat} {rec_ : Word} {wb room : Nat} {d : Dz} : (unit h rec_ wb room d).Keeps := by
  unfold unit
  split
  · exact header_keeps
  · split
    · exact .pure
    · exact .bind getBits_keeps fun _ => .bind emit_keeps fun _ => .pure
  · split
    · exact copyOut_keeps
    · exact codedUnit_keeps

theorem DecMemWf.of_ok {α : Type} {m : Except (State × DzStop) (α × State × Nat)} {a : α} {s : State} {p : Nat} (e : m = .ok (a, s, p))
    (hm : DecMemWf m) : s.MemWf := by
  subst e; exact hm

theorem DecMemWf.of_error {α : Type} {m : Except (State × DzStop) (α × State × Nat)} {s : State} {r : DzStop} (e : m = .error (s, r))
    (hm : DecMemWf m) : s.MemWf := by
  subst e; exact hm

theorem State.MemWf.units {h : Nat} {rec_ : Word} {wb n m f : Nat} {s : State} {d : Dz} (hs : s.MemWf) : (units h rec_ wb n m f s d).1.MemWf := by
  induction f generalizing s d with
  | zero => exact hs
  | succ f ih =>
    unfold Machine.units
    split
    · exact hs
    · split
      next heq => exact ih (DecMemWf.of_ok heq (unit_keeps.run hs))
      next heq => exact DecMemWf.of_error heq (unit_keeps.run hs)
      next heq => exact DecMemWf.of_error heq (unit_keeps.run hs)
      next heq => exact DecMemWf.of_error heq (unit_keeps.run hs)

theorem State.MemWf.storeEach {s : State} {h : Nat} {l : List (Word × List Byte)} (hs : s.MemWf) : (storeEach h l s).1.MemWf := by
  induction l generalizing s with
  | nil => exact hs
  | cons a l ih =>
    unfold Machine.storeEach
    split
    next heq => exact ih (.of_eq heq (.hartStore hs))
    next heq => exact .accessTrap (.of_eq heq (.hartStore hs))

theorem State.MemWf.dzBegin {s : State} {h : Nat} {e : QEntry} (hs : s.MemWf) : (dzBegin s h e).1.MemWf := by
  unfold Machine.dzBegin
  split
  next heq => exact .accessTrap (.of_eq heq (.loadRun hs))
  next heq => exact .of_eq heq (.loadRun hs)

theorem State.MemWf.dzNow {s : State} {h : Nat} {e : QEntry} (hs : s.MemWf) : (dzNow s h e).1.MemWf := by
  unfold Machine.dzNow
  split
  · exact hs
  · exact .dzBegin hs

theorem State.MemWf.dzRun {s : State} {h : Nat} {e : QEntry} {wb hi : Nat} {d : Dz} (hs : s.MemWf) : (dzRun h e wb hi s d).1.MemWf := by
  unfold Machine.dzRun
  split
  · exact hs
  · extract_lets n d1 r __src
    have hr : r.1.MemWf := .units hs
    split <;> exact hr

theorem State.MemWf.dzPut {s : State} {h : Nat} {p : Shape} {d : Dz} (hs : s.MemWf) : (s.dzPut h p d).MemWf := .modHart (.modCore hs)

theorem State.MemWf.dzCheck {s : State} {h : Nat} {e : QEntry} (hs : s.MemWf) : (dzCheck s h e).1.MemWf := by
  unfold Machine.dzCheck
  split
  · exact hs
  · extract_lets n spots
    refine foldl_memWf (fun r p hr => ?_) hs
    split
    · exact hr
    · split
      next s er heq => exact .accessTrap (.of_eq heq (.probe hr))
      next s pa heq =>
        have hs1 : s.MemWf := .of_eq heq (.probe hr)
        split
        · exact hs1
        · exact hs1

theorem opVldz_keeps {d a b f} : (opVldz d a b f).Keeps where
  post hs := .dzCheck hs
  start hs := .modHart hs
  run hs := by
    unfold opVldz
    dsimp only
    split
    · exact hs
    · split
      next s t heq => exact .of_eq heq (.dzNow hs)
      next s z heq => exact .dzPut (.dzRun (.of_eq heq (.dzNow hs)))
  closing hs := by
    unfold opVldz
    dsimp only
    split
    · exact hs
    · exact .storeEach hs
  leave hs := by
    unfold opVldz
    dsimp only
    split
    · exact hs
    · exact .storeEach hs
  finish hs := .modHart hs

end Sys2Proof.Machine
end

section
/-! The canonical form of memory through the operations of Sys2Proof/Machine/Waits.lean. -/
namespace Sys2Proof.Machine

theorem WaitOp.Keeps.expire {s : State} {op : WaitOp} {h : Nat} {w : Wait} (kop : op.Keeps) (hs : s.MemWf) : (op.expire s h w).MemWf := by
  unfold WaitOp.expire
  split
  next heq => exact .waitTrap (Try.MemWf.of_trap heq (kop.late hs))
  next heq => exact .finishWait (Try.MemWf.of_done heq (kop.late hs))
  next heq => exact Try.MemWf.of_finished heq (kop.late hs)
  next heq => exact .modHart (Try.MemWf.of_wait heq (kop.late hs))

theorem WaitOp.Keeps.again {s : State} {op : WaitOp} {h : Nat} {w : Wait} (kop : op.Keeps) (hs : s.MemWf) : (op.again s h w).MemWf := by
  unfold WaitOp.again
  split
  · exact .finishGiven hs
  · split
    next heq => exact .waitTrap (Try.MemWf.of_trap heq (kop.attempt (.modHart hs)))
    next heq => exact .finishWait (Try.MemWf.of_done heq (kop.attempt (.modHart hs)))
    next heq => exact Try.MemWf.of_finished heq (kop.attempt (.modHart hs))
    next heq =>
      extract_lets w2 s11
      have hs11 : s11.MemWf := .modHart (Try.MemWf.of_wait heq (kop.attempt (.modHart hs)))
      split
      · exact kop.expire hs11
      · exact hs11

theorem WaitOp.Keeps.exec {s : State} {op : WaitOp} {i : Instr} (kop : op.Keeps) (hs : s.MemWf) : OutMemWf (op.exec i s) := by
  unfold WaitOp.exec
  refine State.MemWf.held (fun s hs => ?_) hs
  split
  · exact kop.again hs
  · extract_lets w
    split
    next heq => exact State.MemWf.raiseIn hs (Try.MemWf.of_trap heq (kop.start (.of_mem hs rfl)))
    next heq => exact .finishWait (Try.MemWf.of_done heq (kop.start (.of_mem hs rfl)))
    next heq => exact Try.MemWf.of_finished heq (kop.start (.of_mem hs rfl))
    next heq => exact kop.again (Try.MemWf.of_wait heq (kop.start (.of_mem hs rfl)))

theorem Try.MemWf.finalTry {attempt : State → Nat → Wait → Try} {detail : Wait → Nat} {s : State} {h : Nat} {w : Wait}
    (ha : (attempt s h w).MemWf) : (finalTry attempt detail s h w).MemWf := by
  unfold Machine.finalTry
  split
  next s w heq => exact Try.MemWf.of_wait heq ha
  · exact ha

theorem Try.MemWf.objectAt {acc : Access} {n scope : Nat} {s : State} {h : Nat} {w : Wait} (hs : s.MemWf) : (objectAt acc n scope s h w).MemWf := by
  unfold Machine.objectAt
  split
  · exact hs
  · split
    next s t heq => exact State.MemWf.of_eq heq (.probeVa hs)
    next s pa heq =>
      have hs1 : s.MemWf := .of_eq heq (.probeVa hs)
      split
      · exact hs1
      · exact hs1

theorem State.MemWf.watchedWord {s : State} {h scope : Nat} {va : Word} (hs : s.MemWf) : (s.watchedWord h scope va).1.MemWf := by
  unfold State.watchedWord
  split
  next heq => exact .fst (.of_eq heq (.probeVa hs))
  next heq =>
    split
    next heq1 => exact .accessTrap (.of_eq heq1 (.homeLoad (.of_eq heq (.probeVa hs))))
    next heq1 => exact .fst (.acquire (.of_eq heq1 (.homeLoad (.of_eq heq (.probeVa hs)))))

theorem State.MemWf.fenceStep {s : State} {h scope : Nat} (hs : s.MemWf) : (s.fenceStep h scope).MemWf := by
  unfold State.fenceStep
  extract_lets k
  split
  · exact .performHeld hs
  · exact .writeBack hs
  · exact hs

theorem waitFence_keeps {d a b sc} : (waitFence d a b sc).Keeps where
  attempt {s _ _} hs := by
    unfold waitFence
    dsimp -zeta only
    extract_lets c s1
    have hs1 : s1.MemWf := by
      unfold s1
      split
      · split
        · exact hs
        · exact .fenceStep hs
      · split
        · exact .releaseAt hs
        · exact hs
    split
    · exact hs1
    · exact State.MemWf.acquire hs1
  late hs := by
    unfold waitFence
    dsimp only
    split
    · exact hs
    · exact State.MemWf.acquire hs
  start := id

theorem State.MemWf.execLsync {s : State} (hs : s.MemWf) : OutMemWf (execLsync s) := State.MemWf.held (fun _ h => State.MemWf.commit (.landOwn h)) hs

theorem Try.MemWf.barStart {sc : Nat} {s : State} {h : Nat} {w : Wait} (hs : s.MemWf) : (barStart sc s h w).MemWf := by
  unfold Machine.barStart
  split
  next s w heq =>
    have hs1 : s.MemWf := Try.MemWf.of_wait heq (.objectAt hs)
    split
    next s er heq => exact State.MemWf.accessTrap (.of_eq heq (.atomicAt (.releaseAt (.pin hs1))))
    next s v heq =>
      have hs2 : s.MemWf := .of_eq heq (.atomicAt (.releaseAt (.pin hs1)))
      split
      · exact hs2
      · exact hs2
  · exact .objectAt hs

theorem Try.MemWf.barAttempt {sc : Nat} {s : State} {h : Nat} {w : Wait} (hs : s.MemWf) : (barAttempt sc s h w).MemWf := by
  unfold Machine.barAttempt
  split
  next s t heq => exact State.MemWf.of_eq heq (.probeVa hs)
  next s pa heq =>
    have hs1 : s.MemWf := .of_eq heq (.probeVa hs)
    split
    next s er heq => exact State.MemWf.accessTrap (.of_eq heq (.homeLoad hs1))
    next s bs heq =>
      have hs2 : s.MemWf := .of_eq heq (.homeLoad hs1)
      split
      · exact State.MemWf.acquire hs2
      · exact State.MemWf.pin hs2

theorem Try.MemWf.barLate {sc : Nat} {s : State} {h : Nat} {w : Wait} (hs : s.MemWf) : (barLate sc s h w).MemWf := by
  unfold Machine.barLate
  split
  next s w heq => exact State.MemWf.barWithdraw (Try.MemWf.of_wait heq (.barAttempt hs))
  · exact .barAttempt hs

theorem waitBar_keeps {d a b sc} : (waitBar d a b sc).Keeps where
  start hs := .barStart hs
  attempt hs := .barAttempt hs
  late hs := .barLate hs

theorem State.MemWf.arm {s : State} {h scope line : Nat} (hs : s.MemWf) : (s.arm h scope line).1.MemWf := by
  unfold State.arm
  extract_lets c near
  split
  · exact hs
  · split
    · exact hs
    · exact .fst (.modCore hs)

theorem Try.MemWf.waitaAttempt {sc : Nat} {s : State} {h : Nat} {w : Wait} (hs : s.MemWf) : (waitaAttempt sc s h w).MemWf := by
  unfold Machine.waitaAttempt
  split
  next s t heq => exact State.MemWf.of_eq heq (.watchedWord hs)
  next s v heq =>
    have hs1 : s.MemWf := .of_eq heq (.watchedWord hs)
    split
    · exact hs1
    · split
      next s heq => exact State.MemWf.of_eq heq (.arm hs1)
      next s heq => exact State.MemWf.of_eq heq (.arm hs1)

theorem waitWaita_keeps {d a b sc} : (waitWaita d a b sc).Keeps where
  start hs := .objectAt hs
  attempt hs := .waitaAttempt hs
  late hs := .finalTry (.waitaAttempt hs)

theorem State.MemWf.readWords {s : State} {sc h : Nat} {w : Wait} {l : List Nat} (hs : s.MemWf) : (readWords sc h w l s).1.MemWf := by
  induction l generalizing s with
  | nil => exact hs
  | cons a l ih =>
    unfold Machine.readWords
    split
    next heq => exact .fst (.of_eq heq (.watchedWord hs))
    next heq =>
      split
      next heq1 => exact .fst (.of_eq heq1 (ih (.of_eq heq (.watchedWord hs))))
      · exact ih (.of_eq heq (.watchedWord hs))

theorem State.MemWf.armWords {s : State} {sc h : Nat} {w : Wait} {l : List Nat} (hs : s.MemWf) : (armWords sc h w l s).1.MemWf := by
  induction l generalizing s with
  | nil => exact hs
  | cons a l ih =>
    unfold Machine.armWords
    split
    · split
      next heq => exact ih (.of_eq heq (.arm hs))
      next heq => exact .fst (.of_eq heq (.arm hs))
    · exact hs

theorem Try.MemWf.wordChecks {sc h : Nat} {w : Wait} {l : List Nat} {s : State} (hs : s.MemWf) : (wordChecks sc h w l s).MemWf := by
  induction l generalizing s with
  | nil => exact hs
  | cons e l ih =>
    unfold Machine.wordChecks
    split
    next s t heq => exact State.MemWf.of_eq heq (.probeVa hs)
    next s pa heq =>
      have hl := ih (.of_eq heq (.probeVa hs))
      split
      next s w heq =>
        have hs2 : s.MemWf := Try.MemWf.of_wait heq hl
        split
        · exact hs2
        · exact hs2
      · exact hl

theorem Try.MemWf.vwaitaStart {d : Reg} {sc : Nat} {s : State} {h : Nat} {w : Wait} (hs : s.MemWf) : (vwaitaStart d sc s h w).MemWf := by
  unfold Machine.vwaitaStart
  extract_lets a
  split
  · exact hs
  · split
    · exact hs
    · exact .wordChecks hs

theorem Try.MemWf.vwaitaAttempt {sc : Nat} {s : State} {h : Nat} {w : Wait} (hs : s.MemWf) : (vwaitaAttempt sc s h w).MemWf := by
  unfold Machine.vwaitaAttempt
  split
  next s t heq => exact State.MemWf.of_eq heq (.readWords hs)
  next s e heq => exact State.MemWf.of_eq heq (.readWords hs)
  next s heq =>
    have hs1 : s.MemWf := .of_eq heq (.readWords hs)
    split
    · exact hs1
    · split
      next s heq => exact State.MemWf.of_eq heq (.armWords hs1)
      next s m _ heq => exact State.MemWf.of_eq heq (.armWords hs1)

theorem waitVwaita_keeps {d a b sc} : (waitVwaita d a b sc).Keeps where
  start hs := .vwaitaStart hs
  attempt hs := .vwaitaAttempt hs
  late hs := .finalTry (.vwaitaAttempt hs)

theorem State.MemWf.phaseLines {s : State} {h scope : Nat} (hs : s.MemWf) : (s.phaseLines h scope).MemWf := by
  unfold State.phaseLines
  extract_lets s1
  have hs1 : s1.MemWf := by
    unfold s1
    split
    · exact hs
    · exact .foldl (fun _ _ h' => .writeBack h') hs
  split
  · exact hs1
  · exact .modHart hs1

theorem Try.MemWf.phendAttempt {sc : Nat} {s : State} {h : Nat} {w : Wait} (hs : s.MemWf) : (phendAttempt sc s h w).MemWf := by
  unfold Machine.phendAttempt
  extract_lets a s1
  have hs1 : s1.MemWf := .phaseLines hs
  split
  · exact hs
  · split
    · exact hs1
    · exact State.MemWf.modHart hs1

theorem waitPhend_keeps {d b sc} : (waitPhend d b sc).Keeps where
  attempt hs := .phendAttempt hs
  start := id; late := id

theorem Try.MemWf.objectAttempt {s : State} {h : Nat} {w : Wait} (hs : s.MemWf) : (objectAttempt s h w).MemWf := by
  unfold Machine.objectAttempt
  split
  next s t heq => exact State.MemWf.of_eq heq (.watchedWord hs)
  next s v heq =>
    have hs1 : s.MemWf := .of_eq heq (.watchedWord hs)
    split
    · exact hs1
    · split
      · exact hs1
      · exact hs1

theorem waitObject_keeps {d a b} : (waitObject d a b).Keeps where
  start hs := by
    unfold waitObject
    dsimp only
    split
    · exact hs
    · split
      next s t heq => exact State.MemWf.of_eq heq (.probeVa hs)
      next s pa heq => exact State.MemWf.of_eq heq (.probeVa hs)
  attempt hs := .objectAttempt hs
  late := id

theorem Try.MemWf.takeAttempt {s : State} {h : Nat} {w : Wait} (hs : s.MemWf) : (takeAttempt s h w).MemWf := by
  unfold Machine.takeAttempt
  extract_lets camp s1
  have hs1 : s1.MemWf := .giveN hs
  split
  · exact hs1
  · split
    · exact hs1
    · exact hs1

theorem waitTake_keeps {d b} : (waitTake d b).Keeps where
  start hs := by
    unfold waitTake
    dsimp only
    split
    · exact hs
    · exact hs
  attempt hs := .takeAttempt hs
  late := id

theorem State.MemWf.queueStep {s : State} {h scope : Nat} {send : Bool} {w : Wait} (hs : s.MemWf) : (s.queueStep h scope send w).1.MemWf := by
  unfold State.queueStep
  split
  next heq => exact .fst (.of_eq heq (.probeVa hs))
  next heq =>
    extract_lets fail o
    split
    next heq1 => exact .accessTrap (.of_eq heq1 (.atomicAt (.of_eq heq (.probeVa hs))))
    next heq1 =>
      extract_lets q c off n
      split
      · exact .fst (.of_eq heq1 (.atomicAt (.of_eq heq (.probeVa hs))))
      · split
        · exact .fst (.of_eq heq1 (.atomicAt (.of_eq heq (.probeVa hs))))
        · split
          next heq2 => exact .accessTrap (.of_eq heq2 (.atomicAt (.of_eq heq1 (.atomicAt (.of_eq heq (.probeVa hs))))))
          next heq2 =>
            split
            next heq3 => exact .accessTrap (.of_eq heq3 (.atomicAt (.of_eq heq2 (.atomicAt (.of_eq heq1 (.atomicAt (.of_eq heq (.probeVa hs))))))))
            next heq3 => exact .fst (.of_eq heq3 (.atomicAt (.of_eq heq2 (.atomicAt (.of_eq heq1 (.atomicAt (.of_eq heq (.probeVa hs))))))))

theorem State.MemWf.queueFinish {s : State} {h scope : Nat} {send : Bool} {w : Wait} {st data : Word} (hs : s.MemWf) :
    (s.queueFinish h scope send w st data).MemWf := by
  unfold State.queueFinish
  split
  · exact .modHart hs
  · split
    · exact .finishWait hs
    · exact .finishWait (.acquire (.modHart hs))

theorem State.MemWf.serveQueue {s : State} {n c scope pa before : Nat} (hs : s.MemWf) : (serveQueue n s c scope pa before).MemWf := by
  induction n generalizing s c scope pa before with
  | zero => exact hs
  | succ n ih =>
    unfold Machine.serveQueue
    split
    · exact hs
    · split
      next heq => exact ih (.queueFinish (.of_eq heq (.queueStep hs)))
      · exact hs

theorem Try.MemWf.queueAttempt {sc : Nat} {send : Bool} {s : State} {h : Nat} {w : Wait} (hs : s.MemWf) :
    (queueAttempt sc send s h w).MemWf := by
  unfold Machine.queueAttempt
  extract_lets c s1
  have hs1 : s1.MemWf := .serveQueue hs
  split
  next s2 t heq => exact State.MemWf.of_eq heq (.queueStep hs1)
  next s2 heq => exact State.MemWf.of_eq heq (.queueStep hs1)
  next s2 q heq => exact State.MemWf.of_eq heq (.queueStep hs1)
  next s2 q st data heq => exact State.MemWf.serveQueue (.queueFinish (.of_eq heq (.queueStep hs1)))

theorem Try.MemWf.queueStart {sc : Nat} {send : Bool} {s : State} {h : Nat} {w : Wait} (hs : s.MemWf) : (queueStart sc send s h w).MemWf := by
  unfold Machine.queueStart
  split
  next s w heq =>
    have hs1 : s.MemWf := Try.MemWf.of_wait heq (.objectAt hs)
    split
    · exact State.MemWf.releaseAt hs1
    · exact hs1
  · exact .objectAt hs

theorem waitQueue_keeps {send d a b sc} : (waitQueue send d a b sc).Keeps where
  start hs := .queueStart hs
  attempt hs := .queueAttempt hs
  late hs := .finalTry (.queueAttempt hs)

theorem waitNawait_keeps {d a b} : (waitNawait d a b).Keeps where
  start hs := by
    unfold waitNawait
    dsimp only
    split
    · exact hs
    · exact hs
  attempt hs := by
    unfold waitNawait
    dsimp only
    split
    · exact hs
    · exact hs
  late := id

theorem waitTile_keeps {d a b c} : (waitTile d a b c).Keeps where
  start hs := by
    unfold waitTile
    dsimp only
    split
    · exact hs
    · exact hs
  attempt hs := by
    unfold waitTile
    dsimp only
    split
    · exact hs
    · exact hs
  late := id

theorem Try.MemWf.popStart {n : Reg} {s : State} {h : Nat} {w : Wait} (hs : s.MemWf) : (popStart n s h w).MemWf := by
  unfold Machine.popStart
  split
  · exact hs
  · split
    · exact hs
    · split
      · exact hs
      · exact hs

theorem Try.MemWf.popAttempt {i : Instr} {t : BitVec 1} {n : Reg} {s : State} {h : Nat} {w : Wait} (hs : s.MemWf) :
    (popAttempt i t n s h w).MemWf := by
  unfold Machine.popAttempt
  split
  · exact hs
  · dsimp only
    split
    · exact State.MemWf.modHart (.finishWait (.modHart hs))
    · split
      · exact hs
      · exact hs

theorem Try.MemWf.popLate {s : State} {h : Nat} {w : Wait} (hs : s.MemWf) : (popLate s h w).MemWf := by
  unfold Machine.popLate
  split
  · exact hs
  · exact hs

theorem waitPop_keeps {d a b t n} : (waitPop d a b t n).Keeps where
  start hs := .popStart hs
  attempt hs := .popAttempt hs
  late hs := .popLate hs

theorem waitOf_keeps {i : Instr} {op : WaitOp} (e : waitOf i = some op) : op.Keeps := by
  unfold waitOf at e
  split at e
  case h_1 => cases e; exact waitFence_keeps
  case h_2 => cases e; exact waitBar_keeps
  case h_3 => cases e; exact waitWaita_keeps
  case h_4 => cases e; exact waitVwaita_keeps
  case h_5 => cases e; exact waitPhend_keeps
  case h_6 => cases e; exact waitTake_keeps
  case h_7 | h_8 => cases e; exact waitObject_keeps
  case h_9 | h_10 => cases e; exact waitQueue_keeps
  case h_11 => cases e; exact waitNawait_keeps
  case h_12 => cases e; exact waitTile_keeps
  case h_13 => cases e; exact waitPop_keeps
  case h_14 => cases e

theorem State.MemWf.execTilewait {d a b : Reg} {c : BitVec 1} {s : State} (hs : s.MemWf) : OutMemWf (execTilewait d a b c s) := by
  unfold Machine.execTilewait
  extract_lets op
  split
  · exact State.MemWf.modH hs
  · split
    · exact waitTile_keeps.exec hs
    next t _ =>
      have kop : op.Keeps := waitTile_keeps
      have kt : { op with since := some t }.Keeps := ⟨kop.start, kop.attempt, id⟩
      exact kt.exec hs.modH

theorem State.MemWf.retryWait {s : State} {h : Nat} (hs : s.MemWf) : (s.retryWait h).MemWf := by
  unfold State.retryWait
  split
  · split
    · split
      next heq => exact WaitOp.Keeps.again (waitOf_keeps heq) hs
      · exact hs
    · exact hs
  · exact hs

theorem State.MemWf.execWaitDeadlineExpiry {s : State} {h : Nat} (hs : s.MemWf) : OutMemWf (execWaitDeadlineExpiry h s) := by
  unfold Machine.execWaitDeadlineExpiry
  show State.MemWf _
  split
  · split
    · exact .retryWait hs
    · exact hs
  · exact hs

end Sys2Proof.Machine
end

section
/-! The canonical form of memory through the operations of Sys2Proof/Machine/Entries.lean. -/
namespace Sys2Proof.Machine

/-- Every instruction of the queue keeps memory in canonical form. -/
theorem entryOp_keeps {i : Instr} {op : QOp} (e : entryOp i = some op) : op.Keeps := by
  cases i with
  | vaddVv | vsubVv | vmulVv | vmin | vmax | vdiv | vand | vor | vxor | vandn | vorn => cases e; exact opVV_keeps
  | vaddVx | vsubVx | vmulVx => cases e; exact opVX_keeps
  | vfmaVv | vclamp => cases e; exact opVVd_keeps
  | vfmaVx => cases e; exact opVXd_keeps
  | vsqrt | vcvt | vmv => cases e; exact opV1_keeps
  | vcmpeqVv | vcmpneVv | vcmpltVv | vcmpleVv => cases e; exact cmpVV_keeps
  | vcmpeqVx | vcmpneVx | vcmpltVx | vcmpleVx => cases e; exact cmpVX_keeps
  | vsll | vsrl | vsra => cases e; exact opShift_keeps
  | vsel => cases e; exact opVsel_keeps
  | vcvtsn => cases e; exact opVcvtsn_keeps
  | vcvtsw => cases e; exact opVcvtsw_keeps
  | vscale => cases e; exact opVscale_keeps
  | vredsum | vredmax | vredmin => cases e; exact opRed_keeps
  | vcompress => cases e; exact opVcompress_keeps
  | vexpand => cases e; exact opVexpand_keeps
  | vconfl => cases e; exact opVconfl_keeps
  | vslideup => cases e; exact opVslideup_keeps
  | vslidedn => cases e; exact opVslidedn_keeps
  | vbcast => cases e; exact opVbcast_keeps
  | vgetx => cases e; exact opVgetx_keeps
  | vputx => cases e; exact opVputx_keeps
  | kand | kor | kxor | kandn | knot => cases e; exact opMask_keeps
  | kpop => cases e; exact opKpop_keeps
  | kfirst => cases e; exact opKfirst_keeps
  | vidx => cases e; exact opVidx_keeps
  | vdef => cases e; exact opVdef_keeps
  | mma | mmas | mmag => cases e; exact opMmaKind_keeps
  | aczero => cases e; exact opAczero_keeps
  | acrd => cases e; exact opAcrd_keeps
  | acwr => cases e; exact opAcwr_keeps
  | tilerel => cases e; exact opTilerel_keeps
  | vld => cases e; exact opVld_keeps
  | vst => cases e; exact opVst_keeps
  | vldm => cases e; exact opVldm_keeps
  | vlds => cases e; exact opVlds_keeps
  | vldi | vldiw => cases e; exact indexedLoad_keeps
  | vldro => cases e; exact opVldro_keeps
  | vstm => cases e; exact opVstm_keeps
  | vsts => cases e; exact opVsts_keeps
  | vsti | vstiw => cases e; exact indexedStore_keeps
  | sqopen => cases e; exact opSqopen_keeps
  | sqclose => cases e; exact opSqclose_keeps
  | vldz => cases e; exact opVldz_keeps
  | tfetch => cases e; exact opTfetch_keeps
  | acopy => cases e; exact opAcopy_keeps
  | tdrain => cases e; exact opTdrain_keeps
  | bankopSplit | bankopJoin | bankopXp8 | bankopXp16 | bankopDenc | bankopDdec | bankopZsum => cases e; exact command_keeps
  | fread => cases e; exact opFread_keeps
  | vgl | vglw => cases e; exact gatherLinked_keeps
  | vsc | vscw => cases e; exact scatterConditional_keeps
  | vscadd => cases e; exact opVscadd_keeps
  | roinv => cases e; exact opRoinv_keeps
  | mgopen => cases e; exact opMgopen_keeps
  | mgclose | mgdrain => cases e; exact mergeCommand_keeps
  | mgpush => cases e; exact opMgpush_keeps
  | fgather => cases e; exact opFgather_keeps
  | freduce => cases e; exact opFreduce_keeps
  | fflag => cases e; exact opFflag_keeps
  | fcoll => cases e; exact opFcoll_keeps
  | sqpop => cases e; exact popWrite_keeps
  | _ => cases e

theorem State.MemWf.commitEntry {i : Instr} {op : QOp} {s : State} (e : entryOp i = some op) (hs : s.MemWf) : OutMemWf (Machine.commitQueued i op s) :=
  State.MemWf.commitQueued (entryOp_keeps e) hs

end Sys2Proof.Machine
end

section
/-! The canonical form of memory through the operations of Sys2Proof/Machine/QueueEvents.lean. -/
namespace Sys2Proof.Machine

theorem State.MemWf.execIllegalWord {s : State} {w : W32} (hs : s.MemWf) : OutMemWf (execIllegalWord w s) := State.MemWf.raise hs

theorem State.MemWf.openChain {s : State} {h seq : Nat} (hs : s.MemWf) : (s.openChain h seq).MemWf := .modCore hs

theorem QOp.Keeps.probe {s : State} {op : QOp} {h : Nat} {e : QEntry} (kop : op.Keeps) (hs : s.MemWf) : (op.probe s h e).MemWf := by
  unfold QOp.probe
  extract_lets seq r n s1
  have hr : r.1.MemWf := .under (fun _ h' => kop.post h') hs
  have hs1 : s1.MemWf := by
    unfold s1
    split
    · exact .openChain hr
    · exact hr
  split
  · exact .modEntry hr
  · exact State.MemWf.endIfDone (.modEntry hs1)

theorem firstIssued_mem {l : List (Nat × QEntry × QOp × Nat × Nat)} {c : Nat × QEntry × QOp × Nat × Nat} (h : firstIssued l = some c) :
    c ∈ l := by
  suffices hm : ∀ (l : List (Nat × QEntry × QOp × Nat × Nat)) (m : Option (Nat × QEntry × QOp × Nat × Nat)),
      l.foldl (fun m x => match m with
        | none => some x
        | some y => if x.2.2.2.1 < y.2.2.2.1 then some x else some y) m = some c → c ∈ l ∨ m = some c by
    simpa using hm l none h
  intro l
  induction l with
  | nil => exact fun m hc => .inr hc
  | cons x l ih =>
    intro m hc
    obtain hl | hx := ih _ hc
    · exact .inl (.tail _ hl)
    · dsimp only at hx
      split at hx
      · exact .inl (by simp_all)
      · split at hx
        · exact .inl (by simp_all)
        · exact .inr hx

theorem readyOn_keeps {s : State} {h lane : Nat} {before : List QEntry} {e : QEntry} {r : QOp × Nat × Nat} (hr : s.readyOn h lane before e = some r) :
    r.1.Keeps := by
  unfold State.readyOn at hr
  split at hr
  next seq op _ heq =>
    have kop := entryOp_keeps heq
    split at hr
    · extract_lets ok at hr
      split at hr
      · cases hr; exact kop
      · cases hr
    · cases hr
  · cases hr

theorem laneCands_keeps {s : State} {core lane : Nat} {c : Nat × QEntry × QOp × Nat × Nat} (hc : c ∈ s.laneCands core lane) :
    c.2.2.1.Keeps := by
  obtain ⟨h, -, hc⟩ := List.mem_flatMap.mp hc
  split at hc
  · obtain ⟨p, -, hp⟩ := List.mem_filterMap.mp hc
    obtain ⟨r, hr, rfl⟩ := Option.map_eq_some_iff.mp hp
    exact readyOn_keeps hr
  · cases hc

theorem State.MemWf.laneStep {s : State} {lane : Nat} {c : Nat × QEntry × QOp × Nat × Nat} (kop : c.2.2.1.Keeps) (hs : s.MemWf) :
    (s.laneStep lane c).MemWf := by
  unfold State.laneStep
  split
  split
  · exact kop.probe hs
  · split
    · exact .modEntry hs
    · exact kop.perform hs

theorem State.MemWf.laneStart {s : State} {core lane : Nat} (hs : s.MemWf) : (s.laneStart core lane).MemWf := by
  unfold State.laneStart
  split
  · exact hs
  next c heq => exact .laneStep (laneCands_keeps (firstIssued_mem heq)) hs

theorem State.MemWf.laneDrainN {n : Nat} {s : State} {core lane seq : Nat} (hs : s.MemWf) : (laneDrainN n s core lane seq).MemWf := by
  induction n generalizing s with
  | zero => exact hs
  | succ n ih =>
    unfold Machine.laneDrainN
    split
    · exact hs
    next c heq => exact ih (.laneStep (laneCands_keeps (List.mem_of_mem_filter (firstIssued_mem heq))) hs)

theorem State.MemWf.before {s : State} {op : QOp} {h : Nat} {e : QEntry} {j : Nat} (hs : s.MemWf) : (op.before s h e j).MemWf := by
  unfold QOp.before
  split
  · exact .laneDrainN hs
  · exact hs

theorem arrivalOf_keeps {s : State} {h : Nat} {before : List QEntry} {e : QEntry} {r : QOp × Nat} (hr : s.arrivalOf h before e = some r) :
    r.1.Keeps := by
  unfold State.arrivalOf at hr
  split at hr
  next op heq =>
    obtain ⟨j, -, rfl⟩ := Option.map_eq_some_iff.mp hr
    exact entryOp_keeps heq
  · cases hr

theorem State.MemWf.dataArrives {s : State} {h : Nat} (hs : s.MemWf) : (s.dataArrives h).MemWf := by
  unfold State.dataArrives
  split
  · exact hs
  · split
    next e op j heq =>
      obtain ⟨p, -, hp⟩ := List.exists_of_findSome?_eq_some heq
      obtain ⟨r, hr, hq⟩ := Option.map_eq_some_iff.mp hp
      cases hq
      exact (arrivalOf_keeps hr).perform hs
    · exact hs

theorem nthEntry_keeps {s : State} {h n : Nat} {before : List QEntry} {e : QEntry} {op : QOp} (hr : s.nthEntry h n = some (before, e, op)) :
    op.Keeps := by
  unfold State.nthEntry at hr
  split at hr
  · cases hr
  · split at hr
    · split at hr
      · obtain ⟨o, ho, hq⟩ := Option.map_eq_some_iff.mp hr
        cases hq
        exact entryOp_keeps ho
      · cases hr
    · cases hr

theorem State.MemWf.dataOf {s : State} {h n j : Nat} (hs : s.MemWf) : (s.dataOf h n j).MemWf := by
  unfold State.dataOf
  split
  next before e op heq =>
    split
    · exact (nthEntry_keeps heq).perform hs
    · exact hs
  · exact hs

theorem State.MemWf.performElement {s : State} {h n i : Nat} (hs : s.MemWf) : (s.performElement h n i).MemWf := by
  unfold State.performElement
  split
  next before e op heq =>
    extract_lets j b hi any next lanes starts
    split
    · exact (nthEntry_keeps heq).performPart hs
    · exact hs
  · exact hs

theorem State.MemWf.matrixStep {s : State} {core : Nat} (hs : s.MemWf) : (s.matrixStep core).MemWf := by
  unfold State.matrixStep
  extract_lets hit
  have kop : ∀ {h e op j}, hit = some (h, e, op, j) → op.Keeps := fun hhit => by
    obtain ⟨g, -, hg⟩ := List.exists_of_findSome?_eq_some hhit
    split at hg
    · obtain ⟨p, -, hp⟩ := List.exists_of_findSome?_eq_some hg
      split at hp
      next oq heq =>
        split at hp
        · obtain ⟨k, -, hk⟩ := Option.map_eq_some_iff.mp hp
          cases hk
          exact entryOp_keeps heq
        · cases hp
      · cases hp
    · cases hg
  clear_value hit
  split
  · exact (kop rfl).perform hs
  · exact hs

theorem State.MemWf.performLeft {s : State} {op : QOp} {n h : Nat} (kop : op.Keeps) (hs : s.MemWf) : (performLeft op n s h).MemWf := by
  induction n generalizing s h with
  | zero => exact hs
  | succ n ih =>
    unfold Machine.performLeft
    split
    · exact hs
    · split
      · exact hs
      · split
        · exact ih (kop.probe hs)
        · split
          · exact hs
          · exact ih (kop.perform (.before hs))

theorem State.MemWf.completeEntry {s : State} {h : Nat} (hs : s.MemWf) : (s.completeEntry h).MemWf := by
  unfold State.completeEntry
  split
  · exact hs
  · split
    next seq op _ heq =>
      have kop := entryOp_keeps heq
      split
      · exact hs
      · extract_lets s1
        have hs1 : s1.MemWf := .performLeft kop hs
        split
        · exact hs1
        next e1 _ _ =>
          have hc : (op.under s1 h e1 fun s => op.closing s h e1).1.MemWf := .under (fun _ hs => kop.closing hs) hs1
          split
          · exact hs1
          · split
            next s2 t heq => exact .modEntry (.of_eq heq hc)
            next s2 heq => exact kop.retireOldest (.of_eq heq hc)
    · exact hs

theorem State.MemWf.performBelow {s : State} {op : QOp} {n k h : Nat} (kop : op.Keeps) (hs : s.MemWf) : (performBelow op n k s h).MemWf := by
  induction k generalizing s h with
  | zero => exact hs
  | succ k ih =>
    unfold Machine.performBelow
    split
    · exact hs
    · split
      · exact hs
      · split
        · exact ih (kop.probe hs)
        · split
          · exact hs
          · split
            · exact ih (kop.perform (.before hs))
            · split
              · exact ih (kop.performPart (.before hs))
              · exact hs

theorem State.MemWf.unwindAll {s : State} {h : Nat} (hs : s.MemWf) : (s.unwindAll h).MemWf := by
  unfold State.unwindAll
  split
  · exact hs
  · split
    next op heq => exact (entryOp_keeps heq).unwind hs
    · exact hs

theorem State.MemWf.unitStop {s : State} {h i : Nat} {exact mark : Bool} (hs : s.MemWf) : (s.unitStop h i exact mark).MemWf := by
  unfold State.unitStop
  split
  · exact hs
  · refine .freeze ?_
    split
    · exact .modHart hs
    · exact hs

theorem State.MemWf.fireQueued {s : State} {h : Nat} {e : QEntry} {i : Nat} {u : StopUnit} (hs : s.MemWf) : (s.fireQueued h e i u).MemWf := by
  unfold State.fireQueued
  split
  · exact hs
  next op heq =>
    have kop := entryOp_keeps heq
    extract_lets done hi s1
    have hdone : ∀ {s : State}, s.MemWf → (done s).MemWf := fun hs => by
      unfold done
      dsimp only
      split
      · exact .unitStop (.unwindAll (.completeEntry hs))
      · exact .completeEntry hs
    have hs1 : s1.MemWf := .performBelow kop hs
    split
    · exact .unitStop (kop.unwind hs)
    · split
      · exact hdone hs
      · split
        · exact hs1
        · split
          · exact hs1
          · split
            · exact hdone hs1
            · exact .unitStop (kop.unwind hs1)

theorem State.MemWf.completeOldest {s : State} {h : Nat} (hs : s.MemWf) : (s.completeOldest h).MemWf := by
  unfold State.completeOldest
  split
  · exact hs
  · split
    · split
      · exact .fireQueued hs
      · exact hs
    · exact .completeEntry hs

theorem State.MemWf.execEntryComplete {s : State} {h : Nat} (hs : s.MemWf) : OutMemWf (execEntryComplete h s) := by
  unfold Machine.execEntryComplete
  show State.MemWf _
  split
  · exact .completeOldest hs
  · exact hs

/-- The state that the test of a head leaves has its memory in canonical form. -/
def HeadTest.MemWf : HeadTest → Prop
  | .wait => True
  | .trap s _ => s.MemWf
  | .go s _ _ _ => s.MemWf

/-- The instruction of a head keeps memory in canonical form, and so did its test. -/
structure Head.Keeps (x : Head) : Prop where
  op : x.op.Keeps
  test : x.test.MemWf

theorem HeadTest.MemWf.of_trap {s : State} {t : Trap} {r : HeadTest} (e : r = .trap s t) (hr : r.MemWf) : s.MemWf := by
  subst e; exact hr

theorem HeadTest.MemWf.of_go {s : State} {l f : List Nat} {b : Bool} {r : HeadTest} (e : r = .go s l f b) (hr : r.MemWf) : s.MemWf := by
  subst e; exact hr

theorem head_keeps {s : State} {h : Nat} {x : Head} (hs : s.MemWf) (hx : s.head h = some x) : x.Keeps := by
  unfold State.head at hx
  extract_lets a before at hx
  split at hx
  · cases hx
  · split at hx
    · cases hx
    next e0 _ =>
      split at hx
      · cases hx
      next op heq =>
        have kop := entryOp_keeps heq
        extract_lets e late checked t at hx
        have hc : checked.1.MemWf := by
          unfold checked
          split
          · exact hs
          · exact kop.check hs
        clear_value checked
        have ht : t.MemWf := by
          unfold t
          split
          · trivial
          · split
            next s1 u => exact hc
            next s1 =>
              split
              · trivial
              · exact hc
              · exact hc
        cases hx
        exact ⟨kop, ht⟩

theorem State.MemWf.headIssue {x : Head} {s : State} (kx : x.Keeps) (hs : s.MemWf) : (x.issue s).MemWf := by
  unfold Head.issue
  extract_lets enter
  split
  · exact hs
  next s1 t heq => exact .modHart (HeadTest.MemWf.of_trap heq kx.test)
  next s1 chain follow late heq =>
    extract_lets r seq s2 empty
    have hs1 : s1.MemWf := HeadTest.MemWf.of_go heq kx.test
    have hr : r.1.MemWf := by
      unfold r
      split
      · exact hs1
      · exact State.MemWf.noteIssue hs1
    have hs2 : s2.MemWf := kx.op.issue (.modHart hr)
    split
    · split
      · exact .foldl (fun _ _ hs => kx.op.perform hs) hs2
      · exact hs2
    · exact hs2

theorem State.MemWf.joinHeads {s : State} {core : Nat} {ready : List Nat} (hs : s.MemWf) : (s.joinHeads core ready).MemWf :=
  .modCore (.foldl (fun _ _ h => .modHart h) hs)

theorem State.MemWf.chargeHead {s : State} {core : Nat} {ready : List Nat} {h cost : Nat} (hs : s.MemWf) :
    (s.chargeHead core ready h cost).MemWf :=
  .modCore (.foldl (fun _ _ h' => .modHart h') (.modHart hs))

theorem State.MemWf.leaveHeads {s : State} {core : Nat} (hs : s.MemWf) : (s.leaveHeads core).MemWf := .foldl (fun _ _ h => .modHart h) hs

theorem State.MemWf.issueOne {s : State} {core : Nat} (hs : s.MemWf) : (s.issueOne core).MemWf := by
  unfold State.issueOne
  extract_lets l ready s1
  have hs1 : s1.MemWf := .joinHeads hs
  split
  · split
    next y heq => exact .leaveHeads (.chargeHead (.modCore (.headIssue (head_keeps hs1 heq) hs1)))
    · exact hs1
  · split
    · split
      next y heq => exact .leaveHeads (.chargeHead (.headIssue (head_keeps hs1 heq) hs1))
      · exact hs1
    · exact hs1

theorem State.MemWf.execEntryIssue {h : State} {s : Nat} (hh : h.MemWf) : OutMemWf (execEntryIssue s h) := .issueOne hh

theorem State.MemWf.fillBelow {s : State} {op : QOp} {j n h : Nat} (kop : op.Keeps) (hs : s.MemWf) : (fillBelow op j n s h).MemWf := by
  induction n generalizing s h with
  | zero => exact hs
  | succ n ih =>
    unfold Machine.fillBelow
    split
    · exact hs
    · split
      · exact hs
      · split
        · exact ih (kop.perform (.before hs))
        · exact hs

theorem State.MemWf.trapOldest {s : State} {h : Nat} (hs : s.MemWf) : (s.trapOldest h).MemWf := by
  unfold State.trapOldest
  split
  · exact hs
  · split
    next t op _ heq =>
      have kop := entryOp_keeps heq
      extract_lets at_ s1
      have hs1 : s1.MemWf := by
        unfold s1
        split
        · exact .fillBelow kop hs
        · exact hs
      split
      · exact hs1
      · exact .takeTrap (kop.unwind hs1)
    · exact hs

theorem State.MemWf.execTrapEntry {s : State} {h : Nat} (hs : s.MemWf) : OutMemWf (execTrapEntry h s) := by
  unfold Machine.execTrapEntry
  show State.MemWf _
  split
  · exact .trapOldest hs
  · exact hs

theorem QOp.Keeps.toGrain {s : State} {op : QOp} {h : Nat} {e : QEntry} (kop : op.Keeps) (hs : s.MemWf) : (op.toGrain s h e).MemWf := by
  unfold QOp.toGrain
  extract_lets n hi
  split
  · exact hs
  · exact State.MemWf.endIfDone (kop.performPart hs)

theorem State.MemWf.retireEnded {s : State} {n h : Nat} (hs : s.MemWf) : (retireEnded n s h).MemWf := by
  induction n generalizing s h with
  | zero => exact hs
  | succ n ih =>
    unfold Machine.retireEnded
    split
    · exact hs
    · split
      · exact ih (.completeEntry hs)
      · exact hs

theorem stopN_memWf {n : Nat} {s : State} {h : Nat} (hs : s.MemWf) : (stopN n s h).state.MemWf := by
  induction n generalizing s with
  | zero => exact hs
  | succ n ih =>
    unfold stopN
    extract_lets a
    split
    · exact hs
    next e rest _ =>
      split
      · exact hs
      next op heq =>
        have kop := entryOp_keeps heq
        extract_lets s1 s2
        have hs1 : s1.MemWf := by
          unfold s1
          split
          · exact hs
          · exact .fillBelow kop hs
        have hs2 : s2.MemWf := by
          unfold s2
          split
          · split
            · exact hs1
            · exact kop.toGrain hs1
          · exact hs1
        split
        · exact .trapOldest hs
        · split
          · exact ih (.completeEntry hs)
          · split
            · exact .completeOldest hs
            · split
              · exact kop.unwind hs
              · split
                · exact ih (.completeOldest hs)
                · split
                  · exact kop.unwind hs
                  · split
                    · exact hs2
                    · split
                      · exact .trapOldest hs2
                      · split
                        · exact ih (.completeOldest hs2)
                        · exact kop.unwind hs2

theorem bringToStop_memWf {s : State} {h : Nat} (hs : s.MemWf) : (s.bringToStop h).state.MemWf := stopN_memWf (.retireEnded hs)

theorem State.MemWf.preemptStop {s : State} {h : Nat} (hs : s.MemWf) : (s.preemptStop h).MemWf := by
  unfold State.preemptStop
  extract_lets a s1 r b
  have hs1 : s1.MemWf := by
    unfold s1
    split
    · exact .abandonWait hs
    · exact hs
  have hr : r.state.MemWf := bringToStop_memWf hs1
  split
  · exact hs
  · split
    · exact hs
    · split
      · exact hr
      · exact .takeTrap (.modHart hr)

end Sys2Proof.Machine
end

section
/-! The canonical form of memory through the operations of Sys2Proof/Machine/Start.lean. -/
namespace Sys2Proof.Machine

theorem State.MemWf.execEngineRecordDiscard {s : State} {h i : Nat} (hs : s.MemWf) : OutMemWf (execEngineRecordDiscard h i s) := by
  unfold Machine.execEngineRecordDiscard
  show State.MemWf _
  split
  · exact .discardRecord hs
  · exact hs

theorem State.MemWf.execSatpWrite {s : State} {h field : Nat} {v : Word} (hs : s.MemWf) : OutMemWf (execSatpWrite h field v s) := by
  unfold Machine.execSatpWrite
  show State.MemWf _
  split
  · exact .modHart (.landOwn hs)
  · exact hs

theorem State.MemWf.execRidgepoleGrantTick {power : PowerEstimate} {limit : Bool} {s : State} (hs : s.MemWf) :
    OutMemWf (execRidgepoleGrantTick power limit s) := by
  unfold Machine.execRidgepoleGrantTick
  split
  · exact hs
  · extract_lets zero grants s1 s2
    have hs1 : s1.MemWf := .foldl (fun _ _ hs => .modCamp hs) hs
    clear_value s1
    have hs2 : s2.MemWf := .of_mem hs1 rfl
    show State.MemWf _
    split
    · exact .of_mem hs2 rfl
    · exact hs2

theorem State.MemWf.unpowered {s : State} (hs : s.MemWf) : s.unpowered.MemWf := Memory.wf_filter _ _ hs

theorem State.MemWf.logSpares {s : State} {old new : StartRecord} (hs : s.MemWf) : (s.logSpares old new).MemWf := .foldl (fun _ _ h => .logError h) hs

theorem State.MemWf.startUp {s : State} {trials : List StepTrial} {ports : List Nat} {failed : Failing} {images : List Firmware} (hs : s.MemWf) :
    (s.startUp trials ports failed images).MemWf :=
  .logSpares (.of_mem hs rfl)

theorem State.MemWf.execPowerOnStart {s : State} {trials : List StepTrial} {ports : List Nat} {failed : Failing} {images : List Firmware}
    (hs : s.MemWf) :
    OutMemWf (execPowerOnStart trials ports failed images s) := by
  unfold Machine.execPowerOnStart
  show State.MemWf _
  split
  · exact hs
  · exact .startUp hs

theorem State.MemWf.startCut {s : State} {trials : List StepTrial} {ports : List Nat} {failed : Failing} {images : List Firmware} (hs : s.MemWf) :
    (s.startCut trials ports failed images).MemWf := by
  unfold State.startCut
  extract_lets t cut
  have ht : t.MemWf := .unpowered (.startUp hs)
  split <;> exact .of_mem ht rfl

theorem State.MemWf.execAttestationReportRequest {s : State} {nonce : List Byte} (hs : s.MemWf) :
    OutMemWf (execAttestationReportRequest nonce s) := by
  unfold Machine.execAttestationReportRequest
  split
  · exact hs
  · exact .of_mem hs rfl

end Sys2Proof.Machine
end

section
/-! The canonical form of memory through the operations of Sys2Proof/Machine/Debug.lean. -/
namespace Sys2Proof.Machine

theorem State.MemWf.arrive {s : State} {h : Nat} (hs : s.MemWf) : (s.arrive h).MemWf := by
  unfold State.arrive
  extract_lets a
  split
  · exact hs
  · exact .modHart (.retireEnded hs)

theorem State.MemWf.haltArrives {s : State} {h : Nat} (hs : s.MemWf) : (s.haltArrives h).MemWf := by
  unfold State.haltArrives
  split
  · exact hs
  next o _ =>
    have hs1 : { s.arrive h with halts := dropHalts h (haltsAt h s.halts) s.halts }.MemWf := .of_mem hs.arrive rfl
    dsimp only
    split
    · exact hs1
    · split
      · exact bringToStop_memWf hs1
      · exact .freeze (bringToStop_memWf hs1)

theorem State.MemWf.execDebugHaltRequest {s : State} {w : Word} (hs : s.MemWf) : OutMemWf (execDebugHaltRequest w s) := by
  unfold Machine.execDebugHaltRequest
  show State.MemWf _
  split
  · exact .dreqPost hs
  · exact hs

theorem State.MemWf.execDebugReleaseRequest {s : State} {w : Word} (hs : s.MemWf) : OutMemWf (execDebugReleaseRequest w s) := by
  unfold Machine.execDebugReleaseRequest
  show State.MemWf _
  split
  · exact .dreqPost hs
  · exact hs

theorem State.MemWf.execDebugStepRequest {s : State} {w : Word} (hs : s.MemWf) : OutMemWf (execDebugStepRequest w s) := by
  unfold Machine.execDebugStepRequest
  show State.MemWf _
  split
  · exact .dreqPost hs
  · exact hs

theorem State.MemWf.execDebugInject {s : State} {h : Nat} {w : W32} (hs : s.MemWf) : OutMemWf (execDebugInject h w s) := by
  unfold Machine.execDebugInject
  show State.MemWf _
  split
  · exact .hubWrite hs
  · exact hs

theorem QOp.Keeps.stopInside {s : State} {op : QOp} {e : QEntry} {i n hi : Nat} (kop : op.Keeps) (hs : s.MemWf) :
    (op.stopInside s e i n hi).MemWf := by
  unfold QOp.stopInside
  extract_lets r s1
  have hr : r.state.MemWf := kop.run (kop.start hs)
  have hs1 : s1.MemWf := .modH (.dropUses hr)
  split
  · exact kop.trapWhole hr
  · split
    · exact kop.retire hr
    · exact .freeze hs1

theorem QOp.Keeps.stopAfter {s : State} {op : QOp} {e : QEntry} {i : Nat} (kop : op.Keeps) (hs : s.MemWf) : (op.stopAfter s e i).MemWf := by
  unfold QOp.stopAfter
  extract_lets s1
  have hs1 : s1.MemWf := kop.whole hs
  split
  · exact hs1
  · exact .freeze hs1

theorem State.MemWf.fire {s t : State} {i : Nat} {u : StopUnit} (hs : s.MemWf) (ht : s.fire i u = some t) : t.MemWf := by
  unfold State.fire at ht
  extract_lets a at_ at ht
  split at ht
  · cases ht
  next s1 w heq =>
    have hs1 : s1.MemWf := .of_eq heq (.fetch hs)
    have hat : (at_ s1).MemWf := .freeze (.modH hs1)
    split at ht
    · split at ht
      · cases ht; exact hat
      · cases ht
    next ins op hop =>
      have kop : op.Keeps := by
        obtain ⟨j, -, hj⟩ := Option.bind_eq_some_iff.mp hop
        obtain ⟨o, ho, hq⟩ := Option.map_eq_some_iff.mp hj
        cases hq
        exact entryOp_keeps ho
      split at ht
      · split at ht
        · cases ht
        · cases ht; exact hat
      · split at ht
        · cases ht
        · extract_lets e at ht
          split at ht
          · cases ht
          next s2 hck =>
            have hs2 : s2.MemWf := .of_eq hck (kop.check hs1)
            split at ht
            · cases ht
            · cases ht; exact hs
            · extract_lets r e1 s3 hi at ht
              split at ht
              · cases ht
              · split at ht
                · cases ht; exact kop.stopAfter (.noteIssue hs2)
                · cases ht; exact kop.stopInside (.noteIssue hs2)

theorem State.MemWf.unitFires {s : State} {h u : Nat} (hs : s.MemWf) : (s.unitFires h u).MemWf := by
  unfold State.unitFires
  extract_lets a
  split
  · exact hs
  · split
    · split
      · split
        · exact .fireQueued hs
        · exact hs
      · exact hs
    · split
      · exact hs
      · split
        · split
          next t heq =>
            have ht : t.MemWf := .fire (s := { s with cur := h }) hs heq
            exact ht
          · exact hs
        · exact hs

theorem State.MemWf.stepReports {s : State} {h : Nat} (hs : s.MemWf) : (s.stepReports h).MemWf := by
  unfold State.stepReports
  extract_lets a
  split
  · split
    · exact .freeze hs
    · exact hs
  · exact hs

theorem State.MemWf.trigRecord {s : State} {t : Nat} {opened closed : Bool} (hs : s.MemWf) : (s.trigRecord t opened closed).MemWf :=
  .foldl (fun _ _ h => .spoor h) hs

theorem State.MemWf.triggerHalt {s : State} {g : Trigger} {t : Nat} (hs : s.MemWf) : (g.halt t s).MemWf := by
  unfold Trigger.halt
  extract_lets c
  split
  · exact .postHalt hs
  · exact hs

theorem State.MemWf.setTrigger {s : State} {t : Nat} {g : Trigger} (hs : s.MemWf) : (s.setTrigger t g).MemWf := .of_mem hs rfl

theorem State.MemWf.trigTick {s : State} {t : Nat} (hs : s.MemWf) : (s.trigTick t).MemWf := by
  unfold State.trigTick
  split
  · exact hs
  · extract_lets c start stop g1
    split
    · exact hs
    · split
      · split
        · exact .trigRecord (.setTrigger hs)
        · exact hs
      · split
        · exact .triggerHalt (.trigRecord (.setTrigger hs))
        · exact hs

theorem State.MemWf.evalTriggers {s : State} (hs : s.MemWf) : s.evalTriggers.MemWf := by
  unfold State.evalTriggers
  generalize State.liveKinds = liveKinds
  extract_lets t live
  have ht : t.MemWf := .foldl (fun _ _ hs => .trigTick hs) hs
  clear_value live t
  have hg : (t.closeGates (live.getLsbD 8)).MemWf := .closeGates ht
  exact .of_mem hg rfl

theorem State.MemWf.execTriggerTick {s : State} (hs : s.MemWf) : OutMemWf (execTriggerTick s) := by
  unfold Machine.execTriggerTick
  show State.MemWf _
  split
  · exact hs
  · exact .evalTriggers hs

theorem State.MemWf.execBrk {s : State} {n : BitVec 10} (hs : s.MemWf) : OutMemWf (execBrk n s) := by
  unfold Machine.execBrk
  refine State.MemWf.held (fun s hs => ?_) hs
  extract_lets s1
  have hs1 : s1.MemWf := .trigEvent hs
  split
  · exact .freeze (.modH hs1)
  · split
    · exact State.MemWf.commit hs1
    · exact .takeTrap hs1

theorem State.MemWf.execTrec {s : State} {a b : Reg} (hs : s.MemWf) : OutMemWf (execTrec a b s) :=
  State.MemWf.held (fun _ h => State.MemWf.commit (.spoor h)) hs

end Sys2Proof.Machine
end

section
/-! The canonical form of memory through the operations of Sys2Proof/Machine/HartEnd.lean. -/
namespace Sys2Proof.Machine

theorem State.MemWf.modKernel {s : State} {k : Nat} {f : Kernel → Kernel} (hs : s.MemWf) : (s.modKernel k f).MemWf := .of_mem hs rfl

theorem State.MemWf.campEnd {s : State} {camp k : Nat} (hs : s.MemWf) : (s.campEnd camp k).MemWf := .mergeRelease (.withdrawAll hs)

theorem State.MemWf.closeStreams {s : State} {h : Nat} (hs : s.MemWf) : (s.closeStreams h).MemWf := by
  unfold State.closeStreams
  refine .foldl (fun s _ hs => ?_) hs
  split
  · exact .streamClose hs
  · exact hs

theorem State.MemWf.endLeftover {s : State} {k : Nat} {l : Leftover} (hs : s.MemWf) : (s.endLeftover k l).MemWf := by
  unfold State.endLeftover
  extract_lets s1
  have hs1 : s1.MemWf := by
    unfold s1
    refine .foldl (fun s _ hs => ?_) hs
    split
    · exact hs
    · exact .writeObject hs
  split
  · exact .withdrawTask hs1
  · exact hs1

theorem State.MemWf.deviceEnd {s : State} {k : Nat} (hs : s.MemWf) : (s.deviceEnd k).MemWf :=
  .foldl (fun _ _ h => .endOp h) (.foldl (fun _ _ h => .saveWrite (.endOp h)) (.foldl (fun _ _ h => .endLeftover h) (.modKernel (.foldl (fun _ _ h => .closeStreams (.discardAll h)) hs))))

theorem State.MemWf.endHart {s : State} {h : Nat} {bySup : Bool} (hs : s.MemWf) : (s.endHart h bySup).MemWf := by
  unfold State.endHart
  extract_lets s1 a t s11 s2
  have hs1 : s1.MemWf := .landOwn hs
  have ht : t.MemWf := by
    unfold t
    split
    · exact .withdrawTask hs1
    · exact hs1
  have hs11 : s11.MemWf := by
    unfold s11
    split
    · exact .discardAll ht
    · split
      · exact .taskDone hs1
      · exact hs1
  have hs2 : s2.MemWf := .modHart hs11
  split
  · exact hs2
  · extract_lets s3
    have hs3 : s3.MemWf := .modKernel hs2
    split
    · exact hs3
    · extract_lets s4
      have hs4 : s4.MemWf := by
        unfold s4
        split
        · exact hs3
        · exact .campEnd hs3
      split
      · exact .deviceEnd hs4
      · exact hs4

end Sys2Proof.Machine
end

section
/-! The canonical form of memory through the operations of Sys2Proof/Machine/Launch.lean. -/
namespace Sys2Proof.Machine

theorem State.MemWf.noteVirt {s : State} {f : Nat} {x : XCtx} {va : Word} {n : Nat} (hs : s.MemWf) : (noteVirt f s x va n).MemWf := by
  induction f generalizing s x va n with
  | zero => exact hs
  | succ f ih =>
    unfold Machine.noteVirt
    split
    · exact hs
    · extract_lets k
      split
      · split
        · exact .noteBad hs
        · exact ih hs
      · exact .logBad hs
      · exact hs

theorem State.MemWf.noteLaunch {s : State} {l : Launch} (hs : s.MemWf) : (s.noteLaunch l).MemWf := by
  unfold State.noteLaunch
  extract_lets note img h s1 s2 s3
  have hs1 : s1.MemWf := by
    unfold s1
    refine .foldl (fun s _ hs => ?_) hs
    split
    · exact .noteBad hs
    · exact hs
  have hs2 : s2.MemWf := by
    unfold s2
    split
    · exact .noteVirt hs1
    · exact hs1
  have hs3 : s3.MemWf := by
    unfold s3
    split
    · exact .noteVirt hs2
    · exact hs2
  split
  · exact .noteVirt hs3
  · exact hs3

theorem State.MemWf.launchWord {s : State} {n : Nat} {cpl : Option Nat} {v : Word} (hs : s.MemWf) : (s.launchWord n cpl v).MemWf := by
  unfold State.launchWord
  split
  · exact hs
  · extract_lets r __src
    have hr : r.1.MemWf := .deviceStore hs
    split
    · exact hr
    · exact .setQueue hr

theorem State.MemWf.takeRecord {s : State} {n : Nat} {q : HostQueue} (hs : s.MemWf) : (s.takeRecord n q).MemWf := by
  unfold State.takeRecord
  extract_lets pa p rest l badCpl q1 reason s1 __src s2 __src1
  have hs1 : s1.MemWf := .launchWord (.setQueue (.noteLaunch hs))
  have hs2 : s2.MemWf := .launchWord hs1
  split
  · refine .setQueue ?_
    split
    · exact hs
    · exact .noteBad hs
  · split
    · exact .setQueue hs1
    · exact .setQueue hs2

theorem State.MemWf.execStartRecordTake {s : State} {q : Nat} (hs : s.MemWf) : OutMemWf (execStartRecordTake q s) := by
  unfold Machine.execStartRecordTake
  extract_lets v
  split
  · exact .takeRecord hs
  · exact hs

theorem State.MemWf.leaveSlot {s : State} {h : Nat} (hs : s.MemWf) : (s.leaveSlot h).MemWf := by
  unfold State.leaveSlot
  extract_lets a l
  split
  · split
    · exact hs
    · exact .modKernel hs
  · exact hs

theorem State.MemWf.startHart {s : State} {k : Nat} {r : WaitingRecord} {place : List Nat} {h : Nat} (hs : s.MemWf) :
    (s.startHart k r place h).MemWf := by
  unfold State.startHart
  extract_lets c w s1 s2
  have hs1 : s1.MemWf := .modCore (.acquire (.leaveSlot hs))
  have hs2 : s2.MemWf := .modHart hs1
  split
  · exact .freeze hs2
  · exact hs2

theorem State.MemWf.grant {s : State} {n : Nat} {r : WaitingRecord} {place : List Nat} (hs : s.MemWf) : (s.grant n r place).MemWf :=
  .foldl (fun _ _ h => .spoor h) (.foldl (fun _ _ h => .startHart h) (.setQueue (.setContext (.of_mem hs rfl))))

theorem State.MemWf.execLaunchGrant {s : State} {q : Nat} {place : List Nat} (hs : s.MemWf) : OutMemWf (execLaunchGrant q place s) := by
  unfold Machine.execLaunchGrant
  show State.MemWf _
  split
  · split
    · exact .grant hs
    · exact hs
  · exact hs

theorem State.MemWf.execRecordAged {s : State} {q : Nat} (hs : s.MemWf) : OutMemWf (execRecordAged q s) := by
  unfold Machine.execRecordAged
  show State.MemWf _
  split
  · split
    · exact .setQueue hs
    · exact hs
  · exact hs

theorem State.MemWf.releaseMarks {s : State} {k : Nat} (hs : s.MemWf) : (s.releaseMarks k).MemWf := .of_mem hs rfl

theorem State.MemWf.finalWord {s : State} {k : Kernel} {v : Word} (hs : s.MemWf) : (s.finalWord k v).MemWf := by
  unfold State.finalWord
  split
  · exact .launchWord hs
  · split
    · exact hs
    · exact .setQueue hs

theorem State.MemWf.endKernel {s : State} {k : Kernel} (hs : s.MemWf) : (s.endKernel k).MemWf :=
  .of_mem (.finalWord (.fold_ (.flushAll (.releaseMarks hs)))) rfl

theorem State.MemWf.dgctlLate {s : State} {ctx : Nat} (hs : s.MemWf) : (s.dgctlLate ctx).MemWf := by
  unfold State.dgctlLate
  split
  · split
    · exact hs
    · exact .setContext hs
  · exact hs

theorem State.MemWf.execKernelEnd {s : State} {k : Nat} (hs : s.MemWf) : OutMemWf (execKernelEnd k s) := by
  unfold Machine.execKernelEnd
  show State.MemWf _
  split
  · split
    · exact .dgctlLate (.endKernel hs)
    · exact hs
  · exact hs

end Sys2Proof.Machine
end

section
/-! The canonical form of memory through the operations of Sys2Proof/Machine/ScalarFloat.lean. -/
namespace Sys2Proof.Machine

theorem State.MemWf.writeF {s : State} {d : Reg} {r : FRes} (hs : s.MemWf) : OutMemWf (writeF s d r) := State.MemWf.commit hs

theorem State.MemWf.fbin {s : State} {f : FFmt} {op : RMode → FFmt → FVal → FVal → FRes} {d a b : Reg} {r : BitVec 5} (hs : s.MemWf) :
    OutMemWf (fbin f op s d a b r) :=
  State.MemWf.writeF hs

theorem State.MemWf.fsqrtOp {s : State} {f : FFmt} {d a : Reg} {r : BitVec 5} (hs : s.MemWf) : OutMemWf (fsqrtOp f s d a r) := State.MemWf.writeF hs

theorem State.MemWf.fminmaxOp {s : State} {mx : Bool} {f : FFmt} {d a b : Reg} (hs : s.MemWf) : OutMemWf (fminmaxOp mx f s d a b) :=
  State.MemWf.writeF hs

theorem State.MemWf.fcmp {s : State} {f : FFmt} {rel : FVal → FVal → Bool} {quiet : Bool} {d a b : Reg} (hs : s.MemWf) :
    OutMemWf (fcmp f rel quiet s d a b) :=
  State.MemWf.writeF hs

theorem State.MemWf.fcvtToOp {s : State} {f : FFmt} {lo hi : ℤ} {d a : Reg} {r : BitVec 5} (hs : s.MemWf) :
    OutMemWf (fcvtToOp f lo hi s d a r) :=
  State.MemWf.writeF hs

theorem State.MemWf.fcvtFromOp {s : State} {f : FFmt} {signed : Bool} {d a : Reg} {r : BitVec 5} (hs : s.MemWf) :
    OutMemWf (fcvtFromOp f signed s d a r) :=
  State.MemWf.writeF hs

theorem State.MemWf.fcvtFloatOp {s : State} {own : Nat} {i : Instr} {d a : Reg} {r src : BitVec 5} (hs : s.MemWf) :
    OutMemWf (fcvtFloatOp own i s d a r src) := by
  unfold Machine.fcvtFloatOp
  split
  · exact State.MemWf.illegal hs
  · exact State.MemWf.writeF hs

theorem State.MemWf.execFmadd {s : State} {d a b c : Reg} {f : BitVec 2} {r : BitVec 3} (hs : s.MemWf) : OutMemWf (execFmadd d a b c f r s) := by
  unfold Machine.execFmadd
  split
  · exact State.MemWf.illegal hs
  · exact State.MemWf.writeF hs

end Sys2Proof.Machine
end

section
/-! The canonical form of memory through the operations of Sys2Proof/Machine/System.lean. -/
namespace Sys2Proof.Machine

theorem State.MemWf.execExit {s : State} (hs : s.MemWf) : OutMemWf (execExit s) := State.MemWf.held (fun _ h => .endHart h) hs

theorem State.MemWf.execScall {s : State} {a : Reg} (hs : s.MemWf) : OutMemWf (execScall a s) :=
  State.MemWf.held (fun _ h => .takeTrap (.landOwn h)) hs

theorem State.MemWf.execTret {s : State} (hs : s.MemWf) : OutMemWf (execTret s) := by
  unfold Machine.execTret
  refine State.MemWf.held (fun s hs => ?_) hs
  split
  · exact .returnTrap hs
  · exact State.MemWf.illegal hs

theorem State.MemWf.execIcinv {s : State} {a b : Reg} (hs : s.MemWf) : OutMemWf (execIcinv a b s) :=
  State.MemWf.held (fun _ h => State.MemWf.commit (.icacheInvalidate (.landOwn h))) hs

theorem State.MemWf.execYieldP {s : State} (hs : s.MemWf) : OutMemWf (execYieldP s) := by
  unfold Machine.execYieldP
  refine State.MemWf.held (fun s hs => ?_) hs
  split
  · exact State.MemWf.commit hs
  · exact .takeTrap (.landOwn hs)

theorem State.MemWf.execXlinv {s : State} {a b : Reg} (hs : s.MemWf) : OutMemWf (execXlinv a b s) := by
  unfold Machine.execXlinv
  refine State.MemWf.held (fun s hs => ?_) hs
  split
  · exact State.MemWf.commit (.tlbDrop hs)
  · exact State.MemWf.illegal hs

end Sys2Proof.Machine
end

section
/-! The canonical form of memory through the operations of Sys2Proof/Machine/Tasks.lean. -/
namespace Sys2Proof.Machine

theorem State.MemWf.acceptTask {s : State} {h : Nat} {t : TaskDesc} {g0 g1 obj : Word} {pa k : Nat} (hs : s.MemWf) :
    (s.acceptTask h t g0 g1 obj pa k).MemWf := by
  unfold State.acceptTask
  extract_lets camp t0 s1 ps s2 s3
  have hs2 : s2.MemWf := .modCamp (.modCamp hs)
  have hs3 : s3.MemWf := .taskObject (.of_mem hs2 rfl)
  exact .unitSettle hs3

theorem State.MemWf.submit {s : State} {h : Nat} {t : TaskDesc} {g0 g1 obj : Word} {pa : Nat} (hs : s.MemWf) :
    (s.submit h t g0 g1 obj pa).MemWf := by
  unfold State.submit
  extract_lets s1 free
  have hs1 : s1.MemWf := .evict (.pin hs)
  split
  · exact .unitStore hs1
  · split
    · exact .noteDirty (.unitStore hs1)
    · exact .acceptTask hs1

theorem State.MemWf.probeSumas {s : State} {h : Nat} {l : List Nat} (hs : s.MemWf) : (probeSumas h l s).1.MemWf := by
  induction l generalizing s with
  | nil => exact hs
  | cons a l ih =>
    unfold Machine.probeSumas
    split
    · exact ih hs
    · split
      next heq => exact .fst (.of_eq heq (.probeVa hs))
      next heq => exact ih (.of_eq heq (.probeVa hs))

theorem State.MemWf.execTsub {s : State} {d a b c : Reg} (hs : s.MemWf) : OutMemWf (execTsub d a b c s) := by
  unfold Machine.execTsub
  refine State.MemWf.held (fun s hs => ?_) hs
  extract_lets o p
  split
  · exact State.MemWf.raise hs
  · split
    next heq => exact State.MemWf.raiseIn hs (.of_eq heq (.objCheck hs))
    next heq =>
      split
      · exact State.MemWf.raiseIn hs (.of_eq heq (.objCheck hs))
      · split
        next heq1 => exact State.MemWf.raiseIn hs (.accessTrap (.of_eq heq1 (.loadRun (.of_eq heq (.objCheck hs)))))
        next heq1 =>
          extract_lets t
          split
          · exact State.MemWf.raiseIn hs (.of_eq heq1 (.loadRun (.of_eq heq (.objCheck hs))))
          · split
            next heq2 => exact State.MemWf.raiseIn hs (.of_eq heq2 (.probeSumas (.of_eq heq1 (.loadRun (.of_eq heq (.objCheck hs))))))
            next heq2 =>
              split
              next heq3 =>
                exact State.MemWf.raiseIn hs (.of_eq heq3 (.probeVa (.of_eq heq2 (.probeSumas (.of_eq heq1 (.loadRun (.of_eq heq (.objCheck hs))))))))
              next heq3 =>
                exact State.MemWf.commit (.submit (.releaseAt (.of_eq heq3 (.probeVa (.of_eq heq2 (.probeSumas (.of_eq heq1 (.loadRun (.of_eq heq (.objCheck hs))))))))))

theorem State.MemWf.execTchk {s : State} {d : Reg} (hs : s.MemWf) : OutMemWf (execTchk d s) := by
  unfold Machine.execTchk
  refine State.MemWf.held (fun s hs => ?_) hs
  extract_lets v
  split
  · exact State.MemWf.writeX hs
  · split
    · exact .modH (.modCamp hs)
    · exact State.MemWf.writeX hs

theorem State.MemWf.execTdone {s : State} {d : Reg} (hs : s.MemWf) : OutMemWf (execTdone d s) := by
  unfold Machine.execTdone
  refine State.MemWf.held (fun s hs => ?_) hs
  split
  · exact State.MemWf.raise hs
  · exact State.MemWf.writeX (.taskDone hs)

theorem State.MemWf.execTaskSummaryRetest {s : State} {camp : Nat} (hs : s.MemWf) : OutMemWf (execTaskSummaryRetest camp s) :=
  .unitSettle (.of_mem hs rfl)

end Sys2Proof.Machine
end

section
/-! The canonical form of memory through the operations of Sys2Proof/Machine/Dispatch.lean. -/
namespace Sys2Proof.Machine

theorem State.MemWf.exec {s : State} {i : Instr} (hs : s.MemWf) : OutMemWf (exec i s) := by
  unfold Machine.exec
  cases i with
  | add | sub | and | or | xor | sll | srl | sra | slt | sltu | min | max | minu | maxu | mul | mulh | mulhu | div | divu | rem | remu
      => dsimp only; exact State.MemWf.alu hs
  | clz | ctz | cpop | slli | srli | srai => dsimp only; exact State.MemWf.alu1 hs
  | sel | lui | auipc => dsimp only; exact State.MemWf.writeX hs
  | addi | andi | ori | xori | slti | sltiu => dsimp only; exact State.MemWf.aluI hs
  | faddF32 | fsubF32 | fmulF32 | fdivF32 | faddF16 | fsubF16 | fmulF16 | fdivF16 | faddBf16 | fsubBf16 | fmulBf16 | fdivBf16
      => dsimp only; exact State.MemWf.fbin hs
  | fsqrtF32 | fsqrtF16 | fsqrtBf16 => dsimp only; exact State.MemWf.fsqrtOp hs
  | fminF32 | fmaxF32 | fminF16 | fmaxF16 | fminBf16 | fmaxBf16 => dsimp only; exact State.MemWf.fminmaxOp hs
  | feqF32 | fltF32 | fleF32 | feqF16 | fltF16 | fleF16 | feqBf16 | fltBf16 | fleBf16 => dsimp only; exact State.MemWf.fcmp hs
  | fcvtToI64F32 | fcvtToN64F32 | fcvtToI64F16 | fcvtToN64F16 | fcvtToI64Bf16 | fcvtToN64Bf16 => dsimp only; exact State.MemWf.fcvtToOp hs
  | fcvtFromI64F32 | fcvtFromN64F32 | fcvtFromI64F16 | fcvtFromN64F16 | fcvtFromI64Bf16 | fcvtFromN64Bf16
      => dsimp only; exact State.MemWf.fcvtFromOp hs
  | fcvtFromFloatF32 | fcvtFromFloatF16 | fcvtFromFloatBf16 => dsimp only; exact State.MemWf.fcvtFloatOp hs
  | fmadd => dsimp only; exact State.MemWf.execFmadd hs
  | lb | lh | lw | ld | lbu | lhu => dsimp only; exact State.MemWf.scalarLoad hs
  | sb | sh | sw | sd => dsimp only; exact State.MemWf.scalarStore hs
  | beq | bne | blt | bge => dsimp only; exact State.MemWf.branch hs
  | jal => dsimp only; exact State.MemWf.execJal hs
  | jalr => dsimp only; exact State.MemWf.execJalr hs
  | crr => dsimp only; exact State.MemWf.execCrr hs
  | crw => dsimp only; exact State.MemWf.execCrw hs
  | crs => dsimp only; exact State.MemWf.execCrs hs
  | crc => dsimp only; exact State.MemWf.execCrc hs
  | exit => dsimp only; exact State.MemWf.execExit hs
  | scall => dsimp only; exact State.MemWf.execScall hs
  | tret => dsimp only; exact State.MemWf.execTret hs
  | icinv => dsimp only; exact State.MemWf.execIcinv hs
  | yieldP => dsimp only; exact State.MemWf.execYieldP hs
  | xlinv => dsimp only; exact State.MemWf.execXlinv hs
  | loop => dsimp only; exact State.MemWf.execLoop hs
  | vaddVv | vaddVx | vsubVv | vsubVx | vmulVv | vmulVx | vfmaVv | vfmaVx | vmin | vmax | vdiv | vsqrt | vcmpeqVv | vcmpneVv | vcmpltVv | vcmpleVv
  | vcmpeqVx | vcmpneVx | vcmpltVx | vcmpleVx | vand | vor | vxor | vandn | vorn | vsll | vsrl | vsra | vsel | vclamp | vcvt | vcvtsn | vcvtsw
  | vscale | vredsum | vredmax | vredmin | vcompress | vexpand | vconfl | vslideup | vslidedn | vmv | vbcast | vgetx | vputx | kand | kor | kxor
  | kandn | knot | kpop | kfirst | vidx | vdef | mma | mmas | mmag | aczero | acrd | acwr | tilerel | vld | vst | vldm | vlds | vldi | vldiw | vldro
  | vstm | vsts | vsti | vstiw | sqopen | sqclose | vldz | tfetch | acopy | tdrain | bankopSplit | bankopJoin | bankopXp8 | bankopXp16 | bankopDenc
  | bankopDdec | bankopZsum | fread | vgl | vglw | vsc | vscw | vscadd | roinv | mgopen | mgclose | mgdrain | mgpush | fgather | freduce | fflag
  | fcoll => dsimp only; exact State.MemWf.commitEntry rfl hs
  | nawait => dsimp only; exact waitNawait_keeps.exec hs
  | setvl => dsimp only; exact State.MemWf.execSetvl hs
  | vdgeta | vdgetb => dsimp only; exact State.MemWf.readDef hs
  | tilewait => dsimp only; exact State.MemWf.execTilewait hs
  | sqpop => dsimp only; exact waitPop_keeps.exec hs
  | aadd | aand | aor | axor | amin | amax | aminu | amaxu | aswap => dsimp only; exact State.MemWf.atomicOp hs
  | acas => dsimp only; exact State.MemWf.atomic hs
  | fence => dsimp only; exact waitFence_keeps.exec hs
  | bar => dsimp only; exact waitBar_keeps.exec hs
  | waita => dsimp only; exact waitWaita_keeps.exec hs
  | vwaita => dsimp only; exact waitVwaita_keeps.exec hs
  | phend => dsimp only; exact waitPhend_keeps.exec hs
  | twaitTake => dsimp only; exact waitTake_keeps.exec hs
  | twait | mgwait => dsimp only; exact waitObject_keeps.exec hs
  | qsend | qrecv => dsimp only; exact waitQueue_keeps.exec hs
  | lsync => dsimp only; exact State.MemWf.execLsync hs
  | cmread => dsimp only; exact State.MemWf.execCmread hs
  | tsub => dsimp only; exact State.MemWf.execTsub hs
  | tchk => dsimp only; exact State.MemWf.execTchk hs
  | tdone => dsimp only; exact State.MemWf.execTdone hs
  | brk => dsimp only; exact State.MemWf.execBrk hs
  | trec => dsimp only; exact State.MemWf.execTrec hs
  | dget => dsimp only; exact State.MemWf.execDget hs
  | illegalWord => dsimp only; exact State.MemWf.execIllegalWord hs
  | entryIssue => dsimp only; exact State.MemWf.execEntryIssue hs
  | laneGroupStart => dsimp only; exact State.MemWf.laneStart hs
  | entryComplete => dsimp only; exact State.MemWf.execEntryComplete hs
  | trapEntry => dsimp only; exact State.MemWf.execTrapEntry hs
  | asyncStop => dsimp only; exact State.MemWf.preemptStop hs
  | waitWake => dsimp only; exact State.MemWf.retryWait hs
  | waitDeadlineExpiry => dsimp only; exact State.MemWf.execWaitDeadlineExpiry hs
  | streamEntryFetched => dsimp only; exact State.MemWf.streamFetch hs
  | tileFillComplete | tileFillFault => dsimp only; exact State.MemWf.endFill hs
  | tileDrainComplete | tileDrainFault => dsimp only; exact State.MemWf.endDrain hs
  | acopyComplete => dsimp only; exact State.MemWf.execAcopyComplete hs
  | bankopLineOperation => dsimp only; exact State.MemWf.bankLine hs
  | bankopComplete => dsimp only; exact State.MemWf.execBankopComplete hs
  | freadComplete => dsimp only; exact State.MemWf.execFreadComplete hs
  | nvmeCompletion => dsimp only; exact State.MemWf.execNvmeCompletion hs
  | scatterAddPerform => dsimp only; exact State.MemWf.performFirst hs
  | mergePassEnd => dsimp only; exact State.MemWf.execMergePassEnd hs
  | mergeDrainComplete => dsimp only; exact State.MemWf.execMergeDrainComplete hs
  | l2WriteBack => dsimp only; exact State.MemWf.execL2WriteBack hs
  | mscEviction => dsimp only; exact State.MemWf.execMscEviction hs
  | wideMarkExpire => dsimp only; exact State.MemWf.execWideMarkExpire hs
  | taskSummaryRetest => dsimp only; exact State.MemWf.execTaskSummaryRetest hs
  | doorbellWrite => dsimp only; exact State.MemWf.doorbell hs
  | startRecordTake => dsimp only; exact State.MemWf.execStartRecordTake hs
  | launchGrant => dsimp only; exact State.MemWf.execLaunchGrant hs
  | recordAged => dsimp only; exact State.MemWf.execRecordAged hs
  | kernelEnd => dsimp only; exact State.MemWf.execKernelEnd hs
  | cxlMemRead => dsimp only; exact State.MemWf.execCxlMemRead hs
  | cxlMemWrite => dsimp only; exact State.MemWf.execCxlMemWrite hs
  | migrate => dsimp only; exact State.MemWf.execMigrate hs
  | migrateCopyDone => dsimp only; exact State.MemWf.execMigrateCopyDone hs
  | shoot => dsimp only; exact State.MemWf.execShoot hs
  | shootDrained => dsimp only; exact State.MemWf.execShootDrained hs
  | fabricFlitReplay => dsimp only; exact State.MemWf.execFabricFlitReplay hs
  | fabricLinkDown => dsimp only; exact State.MemWf.linkDown hs
  | fabricWritePacket => dsimp only; exact State.MemWf.execFabricWritePacket hs
  | fabricReadRequest => dsimp only; exact State.MemWf.execFabricReadRequest hs
  | fabricFlagApply => dsimp only; exact State.MemWf.execFabricFlagApply hs
  | fgatherComplete => dsimp only; exact State.MemWf.execFgatherComplete hs
  | freduceComplete => dsimp only; exact State.MemWf.execFreduceComplete hs
  | fcollComplete => dsimp only; exact State.MemWf.execFcollComplete hs
  | haltNotice => dsimp only; exact State.MemWf.execHaltNotice hs
  | releaseNotice => dsimp only; exact State.MemWf.execReleaseNotice hs
  | debugHaltRequest => dsimp only; exact State.MemWf.execDebugHaltRequest hs
  | debugReleaseRequest => dsimp only; exact State.MemWf.execDebugReleaseRequest hs
  | debugStepRequest => dsimp only; exact State.MemWf.execDebugStepRequest hs
  | haltArrival => dsimp only; exact State.MemWf.haltArrives hs
  | stepReport => dsimp only; exact State.MemWf.stepReports hs
  | debugInject => dsimp only; exact State.MemWf.execDebugInject hs
  | stopUnitFire => dsimp only; exact State.MemWf.unitFires hs
  | triggerTick => dsimp only; exact State.MemWf.execTriggerTick hs
  | ridgepoleGrantTick => dsimp only; exact State.MemWf.execRidgepoleGrantTick hs
  | powerOnStart => dsimp only; exact State.MemWf.execPowerOnStart hs
  | keyctlOpen | keyctlClose => dsimp only; exact State.MemWf.keyctl hs
  | mergeAssignWrite => dsimp only; exact State.MemWf.mergeAssign hs
  | hostQueueCtlWrite => dsimp only; exact State.MemWf.hostQueueWrite hs
  | preemptRequestPost => dsimp only; exact State.MemWf.postPreempt hs
  | engineRecordDiscard => dsimp only; exact State.MemWf.execEngineRecordDiscard hs
  | satpWrite => dsimp only; exact State.MemWf.execSatpWrite hs
  | badgerEnable => dsimp only; exact State.MemWf.dgctl hs
  | registerWrite => dsimp only; exact State.MemWf.mgmtWrite hs
  | hostAtomic => dsimp only; exact State.MemWf.execHostAtomic hs
  | fabricAcknowledgement => dsimp only; exact State.MemWf.execFabricAcknowledgement hs
  | attestationReportRequest => dsimp only; exact State.MemWf.execAttestationReportRequest hs
  | powerLoss => dsimp only; exact State.MemWf.unpowered hs
  | loadDataArrival => dsimp only; exact State.MemWf.dataArrives hs

end Sys2Proof.Machine
end

section
/-! The canonical form of memory through the operations of Sys2Proof/Machine/Events.lean. -/
namespace Sys2Proof.Machine

theorem State.MemWf.eventPerform {s : State} {e : Event} (hs : s.MemWf) : OutMemWf (e.perform s) := by
  cases e with
  | entryIssue => exact State.MemWf.execEntryIssue hs
  | laneGroupStart => exact State.MemWf.laneStart hs
  | entryComplete => exact State.MemWf.execEntryComplete hs
  | trapEntry => exact State.MemWf.execTrapEntry hs
  | asyncStop => exact State.MemWf.preemptStop hs
  | waitWake => exact State.MemWf.retryWait hs
  | waitDeadlineExpiry => exact State.MemWf.execWaitDeadlineExpiry hs
  | streamEntryFetched => exact State.MemWf.streamFetch hs
  | tileFillComplete | tileFillFault => exact State.MemWf.endFill hs
  | tileDrainComplete | tileDrainFault => exact State.MemWf.endDrain hs
  | acopyComplete => exact State.MemWf.execAcopyComplete hs
  | bankopLineOperation => exact State.MemWf.bankLine hs
  | bankopComplete => exact State.MemWf.execBankopComplete hs
  | freadComplete => exact State.MemWf.execFreadComplete hs
  | nvmeCompletion => exact State.MemWf.execNvmeCompletion hs
  | scatterAddPerform => exact State.MemWf.performFirst hs
  | mergePassEnd => exact State.MemWf.execMergePassEnd hs
  | mergeDrainComplete => exact State.MemWf.execMergeDrainComplete hs
  | l2WriteBack => exact State.MemWf.execL2WriteBack hs
  | mscEviction => exact State.MemWf.execMscEviction hs
  | wideMarkExpire => exact State.MemWf.execWideMarkExpire hs
  | taskSummaryRetest => exact State.MemWf.execTaskSummaryRetest hs
  | doorbellWrite => exact State.MemWf.doorbell hs
  | startRecordTake => exact State.MemWf.execStartRecordTake hs
  | launchGrant => exact State.MemWf.execLaunchGrant hs
  | recordAged => exact State.MemWf.execRecordAged hs
  | kernelEnd => exact State.MemWf.execKernelEnd hs
  | cxlMemRead => exact State.MemWf.execCxlMemRead hs
  | cxlMemWrite => exact State.MemWf.execCxlMemWrite hs
  | migrate => exact State.MemWf.execMigrate hs
  | migrateCopyDone => exact State.MemWf.execMigrateCopyDone hs
  | shoot => exact State.MemWf.execShoot hs
  | shootDrained => exact State.MemWf.execShootDrained hs
  | fabricFlitReplay => exact State.MemWf.execFabricFlitReplay hs
  | fabricLinkDown => exact State.MemWf.linkDown hs
  | fabricWritePacket => exact State.MemWf.execFabricWritePacket hs
  | fabricReadRequest => exact State.MemWf.execFabricReadRequest hs
  | fabricFlagApply => exact State.MemWf.execFabricFlagApply hs
  | fgatherComplete => exact State.MemWf.execFgatherComplete hs
  | freduceComplete => exact State.MemWf.execFreduceComplete hs
  | fcollComplete => exact State.MemWf.execFcollComplete hs
  | haltNotice => exact State.MemWf.execHaltNotice hs
  | releaseNotice => exact State.MemWf.execReleaseNotice hs
  | debugHaltRequest => exact State.MemWf.execDebugHaltRequest hs
  | debugReleaseRequest => exact State.MemWf.execDebugReleaseRequest hs
  | debugStepRequest => exact State.MemWf.execDebugStepRequest hs
  | haltArrival => exact State.MemWf.haltArrives hs
  | stepReport => exact State.MemWf.stepReports hs
  | debugInject => exact State.MemWf.execDebugInject hs
  | stopUnitFire => exact State.MemWf.unitFires hs
  | triggerTick => exact State.MemWf.execTriggerTick hs
  | ridgepoleGrantTick => exact State.MemWf.execRidgepoleGrantTick hs
  | powerOnStart => exact State.MemWf.execPowerOnStart hs
  | keyctlOpen | keyctlClose => exact State.MemWf.keyctl hs
  | mergeAssignWrite => exact State.MemWf.mergeAssign hs
  | hostQueueCtlWrite => exact State.MemWf.hostQueueWrite hs
  | preemptRequestPost => exact State.MemWf.postPreempt hs
  | engineRecordDiscard => exact State.MemWf.execEngineRecordDiscard hs
  | satpWrite => exact State.MemWf.execSatpWrite hs
  | badgerEnable => exact State.MemWf.dgctl hs
  | registerWrite => exact State.MemWf.mgmtWrite hs
  | hostAtomic => exact State.MemWf.execHostAtomic hs
  | fabricAcknowledgement => exact State.MemWf.execFabricAcknowledgement hs
  | attestationReportRequest => exact State.MemWf.execAttestationReportRequest hs
  | powerLoss => exact State.MemWf.unpowered hs
  | loadDataArrival => exact State.MemWf.dataArrives hs

end Sys2Proof.Machine
end

section
/-! The canonical form of memory through the operations of Sys2Proof/Machine/Run.lean. -/
namespace Sys2Proof.Machine

theorem State.MemWf.holdCamps {s : State} {ns : Nat} (hs : s.MemWf) : (s.holdCamps ns).MemWf := by
  unfold State.holdCamps
  extract_lets l here from_ upto
  split <;> exact .of_mem hs rfl

theorem State.MemWf.pass {s : State} {ns : Nat} (hs : s.MemWf) : (s.pass ns).MemWf := .of_mem (.holdCamps hs) rfl

theorem State.MemWf.endTick {s : State} (hs : s.MemWf) : s.endTick.MemWf := by
  unfold State.endTick
  split
  · exact hs
  · extract_lets t __src
    have ht : t.MemWf := by
      unfold t
      split
      · exact hs
      · exact .evalTriggers hs
    have h__src : __src.MemWf := .recordAll ht
    exact .of_mem h__src rfl

theorem State.MemWf.ticksN {s : State} {n : Nat} (hs : s.MemWf) : (ticksN n s).MemWf := by
  induction n generalizing s with
  | zero => exact hs
  | succ n ih =>
    unfold Machine.ticksN
    exact ih (.pass (.endTick hs))

theorem State.MemWf.elapse {s : State} {ns : Nat} (hs : s.MemWf) : (s.elapse ns).MemWf := by
  unfold State.elapse
  split
  · exact hs
  · split
    · exact .ticksN hs
    · exact .pass (.endTick hs)

theorem State.MemWf.trimL2N {s : State} {n c : Nat} (hs : s.MemWf) : (trimL2N n s c).MemWf := by
  induction n generalizing s c with
  | zero => exact hs
  | succ n ih =>
    unfold Machine.trimL2N
    extract_lets l
    split
    · exact ih (.evict hs)
    · exact hs

theorem State.MemWf.trimIcacheN {s : State} {n c : Nat} (hs : s.MemWf) : (trimIcacheN n s c).MemWf := by
  induction n generalizing s c with
  | zero => exact hs
  | succ n ih =>
    unfold Machine.trimIcacheN
    extract_lets l
    split
    · exact ih (.modCore hs)
    · exact hs

theorem State.MemWf.trimCore {s : State} {c : Nat} (hs : s.MemWf) : (s.trimCore c).MemWf := by
  unfold State.trimCore
  extract_lets k s1
  have hs1 : s1.MemWf := by
    unfold s1
    split
    · exact hs
    · exact .trimL2N hs
  split
  · exact hs1
  · exact .trimIcacheN hs1

theorem State.MemWf.trim {s : State} (hs : s.MemWf) : s.trim.MemWf := .foldl (fun _ _ h => .trimCore h) hs

theorem State.MemWf.unstalled {s : State} (hs : s.MemWf) : s.unstalled.MemWf := by
  unfold State.unstalled
  split
  · exact .of_mem hs rfl
  · exact hs

theorem State.MemWf.settle {s : State} (hs : s.MemWf) : s.settle.MemWf := .unstalled (.elapse (.forgetQueues (.trim hs)))

theorem State.MemWf.completeOthers {s : State} {h : Nat} (hs : s.MemWf) : (s.completeOthers h).MemWf := by
  unfold State.completeOthers
  refine .foldl (fun s _ hs => ?_) hs
  split
  · exact hs
  · exact .completeOldest hs

theorem State.MemWf.endInject {before t : State} {h : Nat} {w : W32} (hbefore : before.MemWf) (ht : t.MemWf) :
    (before.endInject t h w).MemWf := by
  unfold State.endInject
  split
  · exact .modHart hbefore
  · split
    · exact .completeOthers (.of_mem hbefore rfl)
    · exact .of_mem ht rfl

theorem State.MemWf.passTurn {s : State} (hs : s.MemWf) : s.passTurn.MemWf := .of_mem hs rfl

theorem State.MemWf.setSlow {s : State} {on : Bool} (hs : s.MemWf) : (s.setSlow on).MemWf := by
  unfold State.setSlow
  extract_lets s1
  have hs1 : s1.MemWf := by
    unfold s1
    split
    · exact .foldl (fun _ _ h => .flush h) hs
    · exact .landAll hs
  exact .of_mem hs1 rfl

theorem State.MemWf.agendaApply {s : State} {g : Agenda} (hs : s.MemWf) : (g.apply s).MemWf := by
  unfold Agenda.apply
  split
  case h_1 => exact .elapse hs
  case h_3 =>
    split
    · exact .prefetch hs
    · exact hs
  case h_5 => exact .icacheRefresh hs
  case h_6 => exact .modHart hs
  case h_7 => exact .arrive hs
  case h_8 => exact .performElement hs
  case h_9 => exact .dataOf hs
  case h_10 => exact .setSlow hs
  case h_11 => exact .landNth hs
  case h_12 => exact .matrixStep hs
  case h_15 =>
    split
    · exact .copyAdvance hs
    · exact hs
  case h_21 | h_22 | h_23 => exact .logError hs
  case h_24 =>
    split
    · exact hs
    · exact .startCut hs
  case h_25 => exact .performAdd hs
  case h_26 => exact .mergePiece hs
  case h_28 => exact .opPiece hs
  case h_30 =>
    split
    · exact Memory.wf_write _ _ _ hs
    · exact Memory.wf_write _ _ _ hs
    · exact hs
  case h_4 | h_13 | h_14 | h_17 | h_18 | h_19 | h_27 => exact .modCore hs
  case h_2 | h_16 | h_20 | h_29 | h_31 => exact hs

theorem State.MemWf.committed {t : State} {h : Nat} {i : Instr} {pc : Word} {sup : Bool} {loops : Vector (Option LoopLevel) 6} (ht : t.MemWf) :
    (t.committed h i pc sup loops).MemWf := by
  unfold State.committed
  extract_lets a t1
  have ht1 : t1.MemWf := by
    unfold t1
    split
    · exact .modHart ht
    · exact ht
  exact .passTurn ht1

/-- The state that an injected word goes back to has its memory in canonical form. -/
def After.MemWf : After → Prop
  | .commit .. => True
  | .inject _ _ before => before.MemWf

theorem State.MemWf.afterFinish {k : After} {t : State} (hk : k.MemWf) (ht : t.MemWf) : (k.finish t).MemWf := by
  cases k with
  | commit => exact .settle (.committed ht)
  | inject => exact .settle (.endInject hk ht)

theorem State.MemWf.afterStall {k : After} {s : State} (hk : k.MemWf) (hs : s.MemWf) : (k.stall s).MemWf := by
  cases k with
  | commit => exact .settle hs.passTurn
  | inject => exact .settle hk

theorem State.MemWf.afterClose {k : After} {s t : State} (hk : k.MemWf) (hs : s.MemWf) (ht : t.MemWf) : (k.close s t).MemWf := by
  unfold After.close
  split
  · exact .afterStall hk hs
  · exact .afterFinish hk ht

theorem State.MemWf.closeEvent {s t : State} (hs : s.MemWf) (ht : t.MemWf) : (s.closeEvent t).MemWf := by
  unfold State.closeEvent
  split
  · exact .settle hs
  · exact .settle ht

end Sys2Proof.Machine
end

section
/-! The canonical form of memory through the operations of Sys2Proof/Machine/Step.lean. -/
namespace Sys2Proof.Machine

/-- The states that a plan leads to or acts in have their memory in canonical form. -/
def Plan.MemWf : Plan → Prop
  | .done o => OutMemWf o
  | .event _ s => s.MemWf
  | .illegal _ s k => s.MemWf ∧ k.MemWf
  | .go _ s k => s.MemWf ∧ k.MemWf

theorem Plan.MemWf.over {s : State} (hs : s.MemWf) : (Plan.over s).MemWf := hs.settle

theorem Plan.MemWf.planInject {s : State} {h : Nat} {w : W32} (hs : s.MemWf) : (s.planInject h w).MemWf := by
  unfold State.planInject
  extract_lets s0
  have hs0 : s0.MemWf := hs
  split
  · exact .over hs0
  · split
    · exact .over hs0.modHart
    · split
      · exact .over hs0.modHart
      · exact ⟨State.MemWf.modHart hs0, hs0⟩

theorem Plan.MemWf.planQueue {s : State} {e : QEntry} (hs : s.MemWf) : (s.planQueue e).MemWf := by
  unfold State.planQueue
  split
  · exact hs
  · split
    · exact hs
    · split
      · exact hs
      · exact hs

theorem Plan.MemWf.planFetch {s : State} (hs : s.MemWf) : s.planFetch.MemWf := by
  unfold State.planFetch
  extract_lets a
  split
  next s1 t heq =>
    split
    · exact .over (.passTurn (.modHart (.takeTrap (.of_eq heq (.fetch hs)))))
    · exact .over hs.passTurn
  next s1 w heq =>
    have hs1 : s1.MemWf := .of_eq heq (.fetch hs)
    split
    · exact ⟨hs1, trivial⟩
    · exact ⟨hs1, trivial⟩

theorem Plan.MemWf.planCommit {s : State} (hs : s.MemWf) : s.planCommit.MemWf := by
  unfold State.planCommit
  extract_lets a
  split
  · split
    · exact .planQueue hs
    · exact hs
  · split
    · exact ⟨hs, trivial⟩
    · split
      · split
        · exact .planQueue hs
        · exact .planFetch hs
      · exact .planQueue hs
      · split
        next t heq =>
          obtain ⟨u, -, hu⟩ := List.exists_of_findSome?_eq_some heq
          exact .over (.passTurn (.fire hs hu))
        · exact .planFetch hs

theorem Plan.MemWf.planHart {s : State} (hs : s.MemWf) : s.planHart.MemWf := by
  unfold State.planHart
  split
  · exact .planCommit hs
  · exact .over hs

theorem Plan.MemWf.planActing {s : State} (hs : s.MemWf) : s.planActing.MemWf := by
  unfold State.planActing
  extract_lets a
  split
  · exact .over hs.passTurn
  · split
    · exact hs
    · split
      · exact .planQueue hs
      · exact .planCommit hs

theorem Plan.MemWf.planDefault {s : State} (hs : s.MemWf) : s.planDefault.MemWf := by
  unfold State.planDefault
  split
  · exact hs
  · split
    · exact hs
    · extract_lets l
      split
      · exact hs
      · exact .planActing hs

theorem Plan.MemWf.agendaPlan {g : Agenda} {s : State} (hs : s.MemWf) : (g.plan s).MemWf := by
  unfold Agenda.plan
  split
  · exact .planHart hs
  · exact .planHart hs
  · exact hs
  · extract_lets t
    have ht : t.MemWf := .agendaApply hs
    show State.MemWf _
    split
    · exact hs
    · exact .forgetQueues (.trim ht)

theorem Plan.MemWf.plan {s : State} (hs : s.MemWf) : s.plan.MemWf := by
  unfold State.plan
  split
  · trivial
  · split
    · split
      · exact .planDefault hs
      · exact .planInject hs
    · exact hs
    · exact .agendaPlan hs
    · exact .planDefault hs

theorem State.MemWf.step {s : State} (hs : s.MemWf) : OutMemWf (step s) := by
  have hp := Plan.MemWf.plan hs
  unfold Machine.step
  generalize s.plan = p at hp
  cases p with
  | done o => exact hp
  | event e t =>
    have hu := State.MemWf.eventPerform (e := e) hp
    dsimp only
    generalize e.perform t = o at hu
    cases o with
    | next u => exact State.MemWf.closeEvent hp hu
    | fault | refused => trivial
  | illegal w t k =>
    obtain ⟨ht, hk⟩ := hp
    have hu := State.MemWf.execIllegalWord (w := w) ht
    dsimp only
    generalize Machine.execIllegalWord w t = o at hu
    cases o with
    | next u => exact State.MemWf.afterClose hk ht hu
    | fault | refused => trivial
  | go i t k =>
    obtain ⟨ht, hk⟩ := hp
    have hu := State.MemWf.exec (i := i) ht
    dsimp only
    generalize Machine.exec i t = o at hu
    cases o with
    | next u => exact State.MemWf.afterClose hk ht hu
    | fault | refused => trivial

end Sys2Proof.Machine
end

section
/-! The canonical form of memory through every step (O60). -/

/-- Settles O60: every operation that a step is made of keeps the form, since it changes memory through `Memory.write` alone. -/
theorem stepKeepsMemory : Obligations.StepKeepsMemory := by
  intro s t hs ht
  have hstep : Sys2Proof.Machine.OutMemWf (Sys2Proof.Machine.step s) := Sys2Proof.Machine.State.MemWf.step hs
  rw [ht] at hstep
  exact hstep

end

section
/-! How a scalar instruction ends: its commit, its trap and its hold (R329, R335). -/
namespace Sys2Proof.Machine

theorem State.sameButHarts_setHart (s : State) (h : Nat) (v : Hart) : (s.setHart h v).SameButHarts s := rfl

theorem completes_setHart {i : Instr} {s : State} {v : Hart} (h : exec i s = .next (s.setHart s.cur v)) : Completes i s v :=
  ⟨_, h, State.hart_setHart_same _ _ _, fun _ hg => by simp [State.hart_setHart, hg], State.sameButHarts_setHart _ _ _⟩

theorem completes_commit {i : Instr} {s : State} {f : Hart → Hart} (h : exec i s = commit s f) : Completes i s (f s.h).advance :=
  completes_setHart h

theorem traps_illegal {i : Instr} {s : State} (hq : s.h.queue = []) (h : exec i s = illegal s i) :
    Traps i s 1 ((encode i).setWidth 64) s.h.pc := by
  have hempty : s.h.queue.isEmpty = true := by simp [hq]
  exact completes_setHart (h.trans (if_pos hempty))

theorem held_of_queue_nil {s : State} (hq : s.h.queue = []) (k : State → Out) : held s k = k s := by simp [held, hq]

end Sys2Proof.Machine
end

section
/-! The 64-bit words of a mask register. -/
namespace Sys2Proof.Machine

theorem ofNat_toNat_div_eq_maskWord (m : BitVec 8192) (j : Nat) : BitVec.ofNat 64 (m.toNat / 2 ^ (64 * j)) = maskWord m j := by
  apply BitVec.eq_of_toNat_eq
  simp [maskWord, BitVec.toNat_ushiftRight, Nat.shiftRight_eq_div_pow]

theorem getLsbD_maskWord (m : BitVec 8192) (j i : Nat) (hi : i < 64) : (maskWord m j).getLsbD i = m.getLsbD (64 * j + i) := by
  simp [maskWord, hi]

theorem getLsbD_setMaskWord (m : BitVec 8192) (j i : Nat) (v : Word) (hi : i < 8192) :
    (setMaskWord m j v).getLsbD i = if 64 * j ≤ i ∧ i < 64 * j + 64 then v.getLsbD (i - 64 * j) else m.getLsbD i := by
  have ones : (0xFFFFFFFFFFFFFFFF : BitVec 8192) = (BitVec.allOnes 64).setWidth 8192 := by decide +kernel
  simp only [setMaskWord, ones, BitVec.getLsbD_or, BitVec.getLsbD_and, BitVec.getLsbD_not, BitVec.getLsbD_shiftLeft, BitVec.getLsbD_setWidth,
    BitVec.getLsbD_allOnes]
  by_cases h1 : i < 64 * j
  · simp [hi, h1, show ¬64 * j ≤ i by omega]
  · by_cases h2 : i - 64 * j < 64
    · simp [hi, h1, h2, show 64 * j ≤ i ∧ i < 64 * j + 64 by omega, show i - 64 * j < 8192 by omega]
    · simp [hi, h1, h2, show ¬i < 64 * j + 64 by omega, BitVec.getLsbD_of_ge v (i - 64 * j) (by omega)]

theorem maskWord_setMaskWord_same (m : BitVec 8192) {j : Nat} (hj : j < 128) (v : Word) : maskWord (setMaskWord m j v) j = v := by
  apply BitVec.eq_of_getLsbD_eq
  intro i hi
  rw [getLsbD_maskWord _ _ _ hi, getLsbD_setMaskWord _ _ _ _ (by omega), if_pos (by omega), Nat.add_sub_cancel_left]

theorem maskWord_setMaskWord_ne (m : BitVec 8192) {j k : Nat} (hk : k < 128) (hne : k ≠ j) (v : Word) :
    maskWord (setMaskWord m j v) k = maskWord m k := by
  apply BitVec.eq_of_getLsbD_eq
  intro i hi
  rw [getLsbD_maskWord _ _ _ hi, getLsbD_maskWord _ _ _ hi, getLsbD_setMaskWord _ _ _ _ (by omega), if_neg (by omega)]

end Sys2Proof.Machine
end

section
/-! Control registers by number: what a read returns and what a privilege may write (R22). -/
namespace Sys2Proof.Machine

/-- The numbers of R22 below the mask words. -/
def crNamed : List Nat :=
  [0, 1, 2, 3, 4, 5, 6, 7, 8, 0x10, 0x11, 0x12, 0x13, 0x14, 0x18, 0x19, 0x1A, 0x1B, 0x1C]

/-- The numbers of R22 that a supervisor may read: those of named registers, and the words of EDONE, FMASK and SMISS. -/
theorem crMayRead_sup {n : Nat} (h : crMayRead true n = true) :
    n ∈ crNamed ∨ 0x100 ≤ n ∧ n < 0x280 := by
  simp [crMayRead, crNamed] at h ⊢
  omega

theorem crMayRead_of_crMayWrite {sup : Bool} {n : Nat} (h : crMayWrite sup n = true) : crMayRead true n = true := by
  simp [crMayRead, crMayWrite] at h ⊢
  omega

/-- A word of EDONE, FMASK or SMISS by its number. -/
def Hart.maskReg (a : Hart) (n : Nat) : Word :=
  if n < 0x180 then maskWord a.edone (n - 0x100) else if n < 0x200 then maskWord a.fmask (n - 0x180) else maskWord a.smiss (n - 0x200)

theorem crRead_of_le {s : State} {h n : Nat} (hn : 0x100 ≤ n) : s.crRead h n = (s.hart h).maskReg n := by
  unfold State.crRead
  split
  case h_20 => rfl
  all_goals omega

theorem crValue_of_le {s : State} {h n : Nat} (hn : 0x100 ≤ n) : crValue s h n = (s.hart h).maskReg n := by
  have named : ∀ k < 0x100, n ≠ k := fun k hk => by omega
  simp only [crValue, ofNat_toNat_div_eq_maskWord, named, Nat.reduceLT, if_false, Hart.maskReg]

theorem crRead_eq_crValue {s : State} {h n : Nat} (hn : crMayRead true n = true) : s.crRead h n = crValue s h n := by
  rcases crMayRead_sup hn with hname | ⟨hle, -⟩
  · fin_cases hname <;> rfl
  · rw [crRead_of_le hle, crValue_of_le hle]

theorem crTable_of_le {n : Nat} (hle : 0x100 ≤ n) (hlt : n < 0x280) :
    crTable n = some (if n < 0x180 then CrAccess.ro else CrAccess.rw, CrAccess.rw) := by
  unfold crTable
  split
  case h_20 =>
    split
    · rw [if_pos (by omega)]
    · rw [if_pos (by omega), if_neg (by omega)]
  all_goals omega

theorem crPermitted_of_crMayWrite {sup : Bool} {n : Nat} (h : crMayWrite sup n = true) : crPermitted n sup true = true := by
  rcases crMayRead_sup (crMayRead_of_crMayWrite h) with hname | ⟨hle, hlt⟩
  · have named : ∀ k ∈ crNamed, ∀ sup : Bool,
        crMayWrite sup k = true → crPermitted k sup true = true := by decide
    exact named n hname sup h
  · have hsup : sup = true ∨ 0x180 ≤ n := by
      cases sup
      · right
        simp [crMayWrite] at h
        omega
      · exact .inl rfl
    rcases hsup with rfl | hwords
    · simp [crPermitted, crTable_of_le hle hlt, show n ≠ 7 by omega]
    · simp [crPermitted, crTable_of_le hle hlt, show n ≠ 7 by omega, show ¬n < 0x180 by omega]

theorem crPlane_eq_crOfPlane {n : Nat} (h : crMayRead true n = true) : crPlane n = crOfPlane n := by
  rcases crMayRead_sup h with hname | ⟨hle, hlt⟩
  · fin_cases hname <;> rfl
  · simp [crPlane, crOfPlane, hle, Nat.le_of_lt_succ hlt]

end Sys2Proof.Machine
end

section
/-! Control registers: the model's write of each agrees with the rule of its field table (R19, R26 to R38, R118). -/
namespace Sys2Proof.Machine

/-- What is true of the hart `b` that a write leaves in place of `s.h`: register `n` then reads as `w`, and the others as before; only VL may fall
with a write of VTYPE. -/
structure CrWritten (s : State) (n : Nat) (w : Word) (b : Hart) : Prop where
  value : crValue (s.setH b) s.cur n = w
  others : ∀ m, crMayRead true m = true → m ≠ n → ¬(n = 0 ∧ m = 1) → crValue (s.setH b) s.cur m = crValue s s.cur m
  vl : n = 0 → b.vl.toNat = Nat.min s.h.vl.toNat (vlmax w)
  x : b.x = s.h.x
  k : b.k = s.h.k
  pc : b.pc = s.h.pc
  loops : b.loops = s.h.loops

/-- The model's write of a register agrees with the rule of its field table. -/
def CrWriteAgrees (s : State) (n : Nat) (v c : Word) : Prop :=
  match crAfterWrite s s.cur n v with
  | none => s.h.crWrite n v c = none
  | some w => ∃ b, s.h.crWrite n v c = some b ∧ CrWritten s n w b

/-- A register that takes every value. -/
theorem crWriteAgrees_plain {s : State} {n : Nat} {v c : Word}
    (hn : n ∈ [2, 4, 6, 8, 0x10, 0x11, 0x12, 0x14, 0x18, 0x19, 0x1A, 0x1B, 0x1C]) : CrWriteAgrees s n v c := by
  unfold CrWriteAgrees
  fin_cases hn
  all_goals
    refine ⟨_, rfl, ?value, fun m _ hne _ => ?others, nofun, rfl, rfl, rfl, rfl⟩
    case value => simp [crValue, State.setH, State.h]
    case others => simp [crValue, State.setH, State.h, hne]

/-- PWLEN holds at most 256 (R36). -/
theorem crWriteAgrees_pwlen {s : State} {v c : Word} : CrWriteAgrees s 0x13 v c := by
  have hlen : w64 (Nat.min (v.toNat % 512) 256) = if v.toNat % 512 < 256 then v &&& 0x1FF else 256 := by
    have hand : (v &&& 0x1FF).toNat = v.toNat % 512 := Nat.and_two_pow_sub_one_eq_mod v.toNat 9
    split
    case isTrue h =>
      apply BitVec.eq_of_toNat_eq
      rw [hand, w64, BitVec.toNat_ofNat, show Nat.min (v.toNat % 512) 256 = v.toNat % 512 from Nat.min_eq_left (by omega)]
      omega
    case isFalse h => rw [show Nat.min (v.toNat % 512) 256 = 256 from Nat.min_eq_right (by omega)]; rfl
  refine ⟨_, rfl, ?value, fun m _ hne _ => ?others, nofun, rfl, rfl, rfl, rfl⟩
  case value => simp [crValue, State.setH, hlen]
  case others => simp [crValue, State.setH, State.h, hne]

theorem CrWriteAgrees.of_none {s : State} {n : Nat} {v c : Word} (hrule : crAfterWrite s s.cur n v = none) (hmodel : s.h.crWrite n v c = none) :
    CrWriteAgrees s n v c := by
  rw [CrWriteAgrees, hrule]
  exact hmodel

theorem CrWriteAgrees.of_some {s : State} {n : Nat} {v c w : Word} {b : Hart} (hrule : crAfterWrite s s.cur n v = some w)
    (hmodel : s.h.crWrite n v c = some b) (hb : CrWritten s n w b) : CrWriteAgrees s n v c := by
  rw [CrWriteAgrees, hrule]
  exact ⟨b, hmodel, hb⟩

/-- A rounding mode above 3 is ILLEGAL (R31). -/
theorem crWriteAgrees_fctl {s : State} {v c : Word} : CrWriteAgrees s 3 v c := by
  by_cases hrm : v.toNat % 8 < 4
  · refine .of_some (if_pos hrm) (if_neg (by omega)) ⟨?value, fun m _ hne _ => ?others, nofun, rfl, rfl, rfl, rfl⟩
    case value => simp [crValue, State.setH]
    case others => simp [crValue, State.setH, State.h, hne]
  · exact .of_none (if_neg hrm) (if_pos (by omega))

/-- A VL above VLMAX is ILLEGAL (R28). -/
theorem crWriteAgrees_vl {s : State} {v c : Word} : CrWriteAgrees s 1 v c := by
  by_cases hmax : v.toNat % 16384 ≤ vlmax s.h.vtype
  · refine .of_some (if_pos hmax) (if_neg (by omega)) ⟨?value, fun m _ hne _ => ?others, nofun, rfl, rfl, rfl, rfl⟩
    case value => simp [crValue, State.setH]
    case others => simp [crValue, State.setH, State.h, hne]
  · exact .of_none (if_neg hmax) (if_pos (by omega))

theorem vlmax_le (t : Word) : vlmax t ≤ 8192 := Nat.min_le_right _ _

theorem toNat_and_vtype (v : Word) : (v &&& 0xFF80).toNat = v.toNat / 2 ^ 7 % 2 ^ 9 * 2 ^ 7 := by
  have hmask : (0xFF80 : Word).toNat = (2 ^ 9 - 1) * 2 ^ 7 := rfl
  rw [BitVec.toNat_and, hmask]
  apply Nat.eq_of_testBit_eq
  intro i
  simp only [Nat.testBit_and, Nat.testBit_mul_two_pow, Nat.testBit_two_pow_sub_one, Nat.testBit_mod_two_pow, Nat.testBit_div_two_pow]
  by_cases hi : 7 ≤ i
  · simp [hi, Bool.and_comm]
  · simp [hi]

/-- The format and the group that a write of VTYPE is checked for are those of the value written. -/
theorem bits_vtype (v : Word) : bits (v &&& 0xFF80).toNat 15 11 = v.toNat / 2048 % 32 ∧ bits (v &&& 0xFF80).toNat 10 9 = v.toNat / 512 % 4 := by
  simp only [bits, toNat_and_vtype]
  omega

/-- What a write of VTYPE requires (R26, R27, R118). -/
def VtypeOk (a : Hart) (v : Word) : Prop :=
  (v.toNat / 2048 % 32 ≤ 14 ∨ 16 ≤ v.toNat / 2048 % 32 ∧ v.toNat / 2048 % 32 ≤ 22) ∧ (a.sup = true ∨ v.toNat / 512 % 4 ≤ a.grpCeil)

theorem writeVtype_refused_iff (a : Hart) (v : Word) :
    (!fmtOk (bits (v &&& 0xFF80).toNat 15 11) || (!a.sup && decide (a.grpCeil < bits (v &&& 0xFF80).toNat 10 9))) = true ↔ ¬VtypeOk a v := by
  obtain ⟨hfmt, hgrp⟩ := bits_vtype v
  rw [hfmt, hgrp]
  cases hsup : a.sup <;> simp [fmtOk, VtypeOk, hsup] <;> omega

theorem writeVtype_of_ok {a : Hart} {v : Word} (hok : VtypeOk a v) : a.writeVtype v =
    some { a with vtype := v &&& 0xFF80, vl := if vlmax (v &&& 0xFF80) < a.vl.toNat then w64 (vlmax (v &&& 0xFF80)) else a.vl } :=
  if_neg fun h => (writeVtype_refused_iff a v).mp h hok

theorem writeVtype_of_not_ok {a : Hart} {v : Word} (hbad : ¬VtypeOk a v) : a.writeVtype v = none :=
  if_pos ((writeVtype_refused_iff a v).mpr hbad)

/-- VL falls to VLMAX where it was above. -/
theorem toNat_ite_vlmax (t vl : Word) : (if vlmax t < vl.toNat then w64 (vlmax t) else vl).toNat = Nat.min vl.toNat (vlmax t) := by
  have hle := vlmax_le t
  split
  case isTrue h =>
    rw [w64, BitVec.toNat_ofNat, Nat.mod_eq_of_lt (by omega)]
    exact (Nat.min_eq_right (Nat.le_of_lt h)).symm
  case isFalse h => exact (Nat.min_eq_left (Nat.le_of_not_lt h)).symm

theorem crWriteAgrees_vtype {s : State} {v c : Word} : CrWriteAgrees s 0 v c := by
  by_cases hok : VtypeOk s.h v
  · refine .of_some (if_pos hok) (writeVtype_of_ok hok) ⟨?value, fun m _ hne hvl => ?others, fun _ => ?vl, rfl, rfl, rfl, rfl⟩
    case value => simp [crValue, State.setH]
    case others =>
      have hm : m ≠ 1 := fun e => hvl ⟨rfl, e⟩
      simp [crValue, State.setH, State.h, hne, hm]
    case vl => exact toNat_ite_vlmax _ _
  · exact .of_none (if_neg hok) (writeVtype_of_not_ok hok)

/-- A hart with that word replaced. -/
def Hart.setMaskReg (a : Hart) (n : Nat) (v : Word) : Hart :=
  { a with
    edone := if n < 0x180 then setMaskWord a.edone (n - 0x100) v else a.edone
    fmask := if 0x180 ≤ n ∧ n < 0x200 then setMaskWord a.fmask (n - 0x180) v else a.fmask
    smiss := if 0x200 ≤ n then setMaskWord a.smiss (n - 0x200) v else a.smiss }

theorem maskWord_ite_same {p : Prop} [Decidable p] {m : BitVec 8192} {j : Nat} {v : Word} (hp : p) (hj : j < 128) :
    maskWord (if p then setMaskWord m j v else m) j = v := by
  rw [if_pos hp, maskWord_setMaskWord_same m hj]

theorem maskWord_ite_ne {p : Prop} [Decidable p] {m : BitVec 8192} {j k : Nat} {v : Word} (hk : k < 128) (hne : p → k ≠ j) :
    maskWord (if p then setMaskWord m j v else m) k = maskWord m k := by
  split
  case isTrue hp => exact maskWord_setMaskWord_ne m hk (hne hp) v
  case isFalse => rfl

theorem maskReg_setMaskReg_same {a : Hart} {n : Nat} {v : Word} (hle : 0x100 ≤ n) (hlt : n < 0x280) : (a.setMaskReg n v).maskReg n = v := by
  unfold Hart.maskReg
  split
  · exact maskWord_ite_same (by omega) (by omega)
  · split
    · exact maskWord_ite_same (by omega) (by omega)
    · exact maskWord_ite_same (by omega) (by omega)

theorem maskReg_setMaskReg_ne {a : Hart} {n m : Nat} {v : Word} (hn : 0x100 ≤ n) (hm : 0x100 ≤ m) (hlt : m < 0x280) (hne : m ≠ n) :
    (a.setMaskReg n v).maskReg m = a.maskReg m := by
  unfold Hart.maskReg
  split
  · exact maskWord_ite_ne (by omega) (by omega)
  · split
    · exact maskWord_ite_ne (by omega) (by omega)
    · exact maskWord_ite_ne (by omega) (by omega)

theorem crWrite_of_le {a : Hart} {n : Nat} {v c : Word} (hn : 0x100 ≤ n) : a.crWrite n v c = some (a.setMaskReg n v) := by
  unfold Hart.crWrite
  split
  case h_18 =>
    rw [if_neg (by omega)]
    unfold Hart.setMaskReg
    split
    · rw [if_neg (by omega), if_neg (by omega)]
    · split
      · rw [if_pos (by omega), if_neg (by omega)]
      · rw [if_neg (by omega), if_pos (by omega)]
  all_goals omega

theorem crAfterWrite_of_le {s : State} {h n : Nat} {v : Word} (hn : 0x100 ≤ n) : crAfterWrite s h n v = some v := by
  have named : ∀ k < 0x100, n ≠ k := fun k hk => by omega
  simp only [crAfterWrite, named, Nat.reduceLT, if_false]

theorem crWriteAgrees_mask {s : State} {n : Nat} {v c : Word} (hle : 0x100 ≤ n) (hlt : n < 0x280) : CrWriteAgrees s n v c := by
  refine .of_some (crAfterWrite_of_le hle) (crWrite_of_le hle) ⟨?value, fun m hm hne _ => ?others, fun h0 => ?vl, rfl, rfl, rfl, rfl⟩
  case value => simp [crValue_of_le hle, State.setH, maskReg_setMaskReg_same hle hlt]
  case others =>
    rcases crMayRead_sup hm with hname | ⟨hmle, hmlt⟩
    · fin_cases hname <;> simp [crValue, State.setH, State.h, Hart.setMaskReg]
    · simp [crValue_of_le hmle, State.setH, State.h, maskReg_setMaskReg_ne hle hmle hmlt hne]
  case vl => omega

/-- Every register that may be written, but DLSTAT, whose CAPHIT a write does not replace (R34). -/
theorem crWriteAgrees {s : State} {sup : Bool} {n : Nat} {v c : Word} (hn : crMayWrite sup n = true) (h5 : n ≠ 5) : CrWriteAgrees s n v c := by
  have h7 : n ≠ 7 := by
    rintro rfl
    cases sup <;> cases hn
  rcases crMayRead_sup (crMayRead_of_crMayWrite hn) with hname | ⟨hle, hlt⟩
  · have hcases : n = 0 ∨ n = 1 ∨ n = 3 ∨ n = 0x13 ∨ n ∈ [2, 4, 6, 8, 0x10, 0x11, 0x12, 0x14, 0x18, 0x19, 0x1A, 0x1B, 0x1C] := by
      simp [crNamed] at hname ⊢
      omega
    rcases hcases with rfl | rfl | rfl | rfl | hplain
    · exact crWriteAgrees_vtype
    · exact crWriteAgrees_vl
    · exact crWriteAgrees_fctl
    · exact crWriteAgrees_pwlen
    · exact crWriteAgrees_plain hplain
  · exact crWriteAgrees_mask hle hlt

end Sys2Proof.Machine
end

section
/-! The instructions that write a control register (R117). -/
namespace Sys2Proof.Machine

section
variable {s : State} {n : BitVec 12} (hn : crMayWrite s.h.sup n.toNat = true) (howns : crOfPlane n.toNat = true → s.h.owns = true)
include hn howns

theorem crPlane_and_not_owns : (crPlane n.toNat && !s.h.owns) = false := by
  rw [crPlane_eq_crOfPlane (crMayRead_of_crMayWrite hn)]
  cases hplane : crOfPlane n.toNat
  · rfl
  · simp [howns hplane]

theorem crAccess_of_none {i : Instr} {d : Reg} {v c : Word → Word}
    (hw : s.h.crWrite n.toNat (v (crValue s s.cur n.toNat)) (c (crValue s s.cur n.toNat)) = none) : crAccess s i d n true v c = illegal s i := by
  simp [crAccess, crPermitted_of_crMayWrite hn, crPlane_and_not_owns hn howns, crRead_eq_crValue (crMayRead_of_crMayWrite hn), hw]

theorem crAccess_of_some {i : Instr} {d : Reg} {v c : Word → Word} {b : Hart}
    (hw : s.h.crWrite n.toNat (v (crValue s s.cur n.toNat)) (c (crValue s s.cur n.toNat)) = some b) :
    crAccess s i d n true v c = commit s fun _ => b.setX d (crValue s s.cur n.toNat) := by
  simp [crAccess, crPermitted_of_crMayWrite hn, crPlane_and_not_owns hn howns, crRead_eq_crValue (crMayRead_of_crMayWrite hn), hw]

end

/-- The three instructions that write a register, with the value that its RW fields are given: CRW that of x[a], CRS and CRC the old one with the
bits of x[a] set and cleared (R117). -/
def CrWriteOf (s : State) (d a : Reg) (n : BitVec 12) (i : Instr) (v : Word) : Prop :=
  i = .crw d a n ∧ v = s.h.getX a ∨ i = .crs d a n ∧ a ≠ 0 ∧ v = crValue s s.cur n.toNat ||| s.h.getX a ∨
    i = .crc d a n ∧ a ≠ 0 ∧ v = crValue s s.cur n.toNat &&& ~~~s.h.getX a

/-- With its queue empty a hart performs such an instruction as one access. -/
theorem CrWriteOf.exec_eq {s : State} {d a : Reg} {n : BitVec 12} {i : Instr} {v : Word} (h : CrWriteOf s d a n i v) (hq : s.h.queue = []) :
    ∃ f c : Word → Word, f (crValue s s.cur n.toNat) = v ∧ exec i s = crAccess s i d n true f c := by
  rcases h with ⟨rfl, rfl⟩ | ⟨rfl, ha, rfl⟩ | ⟨rfl, ha, rfl⟩
  · refine ⟨fun _ => s.h.getX a, fun _ => s.h.getX a, rfl, ?_⟩
    change execCrw d a n s = _
    simp [execCrw, held_of_queue_nil hq]
  · refine ⟨fun old => old ||| s.h.getX a, fun _ => s.h.getX a, rfl, ?_⟩
    change execCrs d a n s = _
    rw [execCrs, held_of_queue_nil hq, bne_iff_ne.mpr ha]
  · refine ⟨fun old => old &&& ~~~s.h.getX a, fun _ => 0, rfl, ?_⟩
    change execCrc d a n s = _
    rw [execCrc, held_of_queue_nil hq, bne_iff_ne.mpr ha]

end Sys2Proof.Machine
end

section
/-! Writes of control registers (O20). -/
open Sys2Proof Sys2Proof.Machine

/-- Settles O20: the model's write of each register agrees with the rule of its field table, and the three instructions are one permitted access. -/
theorem controlRegisterWrites : Obligations.ControlRegisterWrites := by
  intro s d a n i v old hi h5 hn howns hq
  obtain ⟨f, c, rfl, hexec⟩ := CrWriteOf.exec_eq hi hq
  have hagrees : CrWriteAgrees s n.toNat (f old) (c old) := crWriteAgrees hn fun e => h5 (BitVec.eq_of_toNat_eq e)
  unfold CrWriteAgrees at hagrees
  split at hagrees
  case h_1 hrule =>
    rw [hrule]
    exact traps_illegal hq (hexec.trans (crAccess_of_none hn howns hagrees))
  case h_2 w hrule =>
    rw [hrule]
    obtain ⟨b, hwrite, hvalue, hothers, hvl, hx, hk, hpc, hloops⟩ := hagrees
    refine ⟨b, completes_commit (hexec.trans (crAccess_of_some hn howns hwrite)), hvalue, fun m hm hne hnot => ?_, ?_, hx, hk, hpc, hloops⟩
    · exact hothers m hm hne fun ⟨h0, h1⟩ => hnot ⟨BitVec.eq_of_toNat_eq h0, h1⟩
    · rintro rfl
      exact hvl rfl

end

section
/-! An access of a control register is permitted exactly where the columns of R22 say so. -/
namespace Sys2Proof.Machine

theorem crTable_of_lt {n : Nat} (hlt : n < 0x100) (hname : n ∉ crNamed) : crTable n = none := by
  unfold crTable
  split
  case h_20 => rw [if_neg (by omega), if_neg (by omega)]
  all_goals exact absurd (by decide) hname

theorem crTable_of_ge {n : Nat} (hge : 0x280 ≤ n) : crTable n = none := by
  unfold crTable
  split
  case h_20 => rw [if_neg (by omega), if_neg (by omega)]
  all_goals omega

/-- A number outside the table of R22 permits no access. -/
theorem crPermitted_of_none {n : Nat} {sup write : Bool} (h : crTable n = none) : crPermitted n sup write = false := by
  rw [crPermitted, h]

/-- A supervisor may read whatever either privilege may. -/
theorem crMayRead_sup_of_crMayRead {sup : Bool} {n : Nat} (h : crMayRead sup n = true) : crMayRead true n = true := by
  simp [crMayRead] at h ⊢
  omega

/-- Every number is that of a named register, that of a mask word, or outside the table. -/
theorem crNumber_cases (n : Nat) : n ∈ crNamed ∨ (0x100 ≤ n ∧ n < 0x280) ∨ crTable n = none ∧ ∀ sup, crMayRead sup n = false := by
  by_cases hname : n ∈ crNamed
  · exact .inl hname
  by_cases hmask : 0x100 ≤ n ∧ n < 0x280
  · exact .inr (.inl hmask)
  refine .inr (.inr ⟨?_, fun sup => ?_⟩)
  · by_cases hlt : n < 0x100
    · exact crTable_of_lt hlt hname
    · exact crTable_of_ge (by omega)
  · exact Bool.eq_false_iff.mpr fun h => (crMayRead_sup (crMayRead_sup_of_crMayRead h)).elim hname hmask

theorem crPermitted_read (n : Nat) (sup : Bool) : crPermitted n sup false = crMayRead sup n := by
  rcases crNumber_cases n with hname | ⟨hle, hlt⟩ | ⟨hnone, hread⟩
  · have named : ∀ k ∈ crNamed, ∀ sup : Bool, crPermitted k sup false = crMayRead sup k := by decide
    exact named n hname sup
  · rw [crPermitted, crTable_of_le hle hlt]
    by_cases hro : n < 0x180 <;> simp [crMayRead, hro, hle, Nat.le_of_lt_succ hlt]
  · rw [crPermitted_of_none hnone, hread]

theorem crPermitted_write (n : Nat) (sup : Bool) : crPermitted n sup true = crMayWrite sup n := by
  cases hmay : crMayWrite sup n
  case true => exact crPermitted_of_crMayWrite hmay
  case false =>
    rcases crNumber_cases n with hname | ⟨hle, hlt⟩ | ⟨hnone, -⟩
    · have named : ∀ k ∈ crNamed, ∀ sup : Bool, crMayWrite sup k = false → crPermitted k sup true = false := by decide
      exact named n hname sup hmay
    · obtain ⟨rfl, hro⟩ : sup = false ∧ n < 0x180 := by
        cases sup <;> simp [crMayWrite, crMayRead] at hmay ⊢ <;> omega
      simp [crPermitted, crTable_of_le hle hlt, hro]
    · exact crPermitted_of_none hnone

/-- An access that R22 does not permit is ILLEGAL. -/
theorem crAccess_of_not_permitted {s : State} {i : Instr} {d : Reg} {n : BitVec 12} {write : Bool} {v c : Word → Word}
    (h : crPermitted n.toNat s.h.sup write = false) : crAccess s i d n write v c = illegal s i := by
  simp [crAccess, h]

/-- A permitted read, of a register of the plane side by an owner, writes the destination. -/
theorem crAccess_read {s : State} {i : Instr} {d : Reg} {n : BitVec 12} {v c : Word → Word} (hn : crMayRead s.h.sup n.toNat = true)
    (howns : crOfPlane n.toNat = true → s.h.owns = true) :
    crAccess s i d n false v c = commit s fun a => a.setX d (crValue s s.cur n.toNat) := by
  have hsup : crMayRead true n.toNat = true := crMayRead_sup_of_crMayRead hn
  have hplane : (crPlane n.toNat && !s.h.owns) = false := by
    rw [crPlane_eq_crOfPlane hsup]
    cases hp : crOfPlane n.toNat
    · rfl
    · simp [howns hp]
  simp [crAccess, crPermitted_read, hn, hplane, crRead_eq_crValue hsup, writeX]

end Sys2Proof.Machine
end

section
/-! With its queue empty a hart performs each of the four instructions of R117 as one access. -/
namespace Sys2Proof.Machine
variable {s : State} {d a : Reg} {n : BitVec 12}

theorem exec_crr (hq : s.h.queue = []) : exec (.crr d n) s = crAccess s (.crr d n) d n false id id := by
  change execCrr d n s = _
  rw [execCrr, held_of_queue_nil hq, ite_self]

theorem exec_crw (hq : s.h.queue = []) :
    exec (.crw d a n) s = crAccess s (.crw d a n) d n true (fun _ => s.h.getX a) (fun _ => s.h.getX a) := by
  change execCrw d a n s = _
  simp [execCrw, held_of_queue_nil hq]

theorem exec_crs {write : Bool} (hq : s.h.queue = []) (ha : (a != 0) = write) :
    exec (.crs d a n) s = crAccess s (.crs d a n) d n write (fun old => old ||| s.h.getX a) (fun _ => s.h.getX a) := by
  change execCrs d a n s = _
  rw [execCrs, held_of_queue_nil hq, ha]

theorem exec_crc {write : Bool} (hq : s.h.queue = []) (ha : (a != 0) = write) :
    exec (.crc d a n) s = crAccess s (.crc d a n) d n write (fun old => old &&& ~~~s.h.getX a) (fun _ => 0) := by
  change execCrc d a n s = _
  rw [execCrc, held_of_queue_nil hq, ha]

end Sys2Proof.Machine
end

section
/-! Reads of control registers, and accesses that are ILLEGAL (O19, O22). -/
open Sys2Proof Sys2Proof.Machine

/-- Settles O19: each of the three is one permitted read. -/
theorem controlRegisterReads : Obligations.ControlRegisterReads := by
  intro s d n hn howns hq
  have hzero : ((0 : Reg) != 0) = false := rfl
  refine ⟨?crr, ?crs, ?crc⟩
  case crr => exact completes_commit ((exec_crr hq).trans (crAccess_read hn howns))
  case crs => exact completes_commit ((exec_crs hq hzero).trans (crAccess_read hn howns))
  case crc => exact completes_commit ((exec_crc hq hzero).trans (crAccess_read hn howns))

/-- Settles O22: an access is refused before anything else where R22 does not permit it. -/
theorem controlRegisterIllegal : Obligations.ControlRegisterIllegal := by
  intro s d a n hq
  refine ⟨fun hn => ?crr, fun hn => ?writes⟩
  case crr => exact traps_illegal hq ((exec_crr hq).trans (crAccess_of_not_permitted ((crPermitted_read _ _).trans hn)))
  case writes =>
    have hwrite : crPermitted n.toNat s.h.sup true = false := (crPermitted_write _ _).trans hn
    refine ⟨traps_illegal hq ((exec_crw hq).trans (crAccess_of_not_permitted hwrite)), fun ha => ?_⟩
    have hset : (a != 0) = true := bne_iff_ne.mpr ha
    exact ⟨traps_illegal hq ((exec_crs hq hset).trans (crAccess_of_not_permitted hwrite)),
      traps_illegal hq ((exec_crc hq hset).trans (crAccess_of_not_permitted hwrite))⟩

end

section
/-! The model's write of DLSTAT (R34). -/
namespace Sys2Proof.Machine

/-- A supervisor's write of DLSTAT replaces LAST and CNT, and keeps CAPHIT but where its bit is written with 1. -/
theorem crAccess_dlstat {s : State} (i : Instr) {d : Reg} (v c : Word → Word) (hsup : s.h.sup = true) :
    crAccess s i d 5 true v c = commit s fun _ => Hart.setX { s.h with
      dlstat := (v s.h.dlstat &&& 0xFFFF) ||| (s.h.dlstat &&& 0x10000 &&& ~~~c s.h.dlstat) } d s.h.dlstat := by
  have hmay : crMayWrite s.h.sup (5 : BitVec 12).toNat = true := by rw [hsup]; rfl
  have hcaphit : s.h.dlstat &&& 0x10000 &&& ~~~c s.h.dlstat = s.h.dlstat &&& ~~~c s.h.dlstat &&& 0x10000 := by ac_rfl
  rw [hcaphit]
  exact crAccess_of_some hmay nofun rfl

end Sys2Proof.Machine
end

section
/-! Writes of DLSTAT (O21). -/
open Sys2Proof Sys2Proof.Machine

/-- Settles O21: the three are that write; CRS and CRC write since their register is not x0. -/
theorem deadlineStatusWrites : Obligations.DeadlineStatusWrites := by
  intro s d a hsup hq ha old x is
  have hset : (a != 0) = true := bne_iff_ne.mpr ha
  refine ⟨?crw, ?crs, ?crc⟩
  case crw => exact completes_commit ((exec_crw hq).trans (crAccess_dlstat _ _ _ hsup))
  case crs => exact completes_commit ((exec_crs hq hset).trans (crAccess_dlstat _ _ _ hsup))
  case crc =>
    have hkeep : old &&& 0x10000 = old &&& 0x10000 &&& ~~~(0 : Word) := (BitVec.and_allOnes).symm
    rw [hkeep]
    exact completes_commit ((exec_crc hq hset).trans (crAccess_dlstat _ _ _ hsup))

end

section
/-! What a reset device holds, and what a write of a register leaves (R22, R99). -/
namespace Sys2Proof.Machine

/-- A device that has been reset lists no hart: each is as before its first start. -/
theorem State.hart_reset (h : Nat) : State.reset.hart h = Hart.reset h := rfl

theorem State.tile_reset (c t : Nat) : (State.reset.core c).tile t = Tile.reset t := rfl

theorem Hart.setX_zero (a : Hart) (v : Word) : a.setX 0 v = a := if_pos rfl

theorem Hart.setX_frame (a : Hart) (r : Reg) (v : Word) : { a.setX r v with x := a.x } = a := by
  unfold Hart.setX
  split <;> rfl

end Sys2Proof.Machine
end

section
/-! The values at reset and the scalar registers (O9, O10). -/
open Sys2Proof Sys2Proof.Machine

/-- Settles O9: the fields of `Hart.reset` and `Tile.reset`, and the empty tables of `State.reset`. -/
theorem resetValues : Obligations.ResetValues := by
  refine ⟨fun h _ => ?harts, fun c t _ _ => ?tiles, rfl, rfl, rfl⟩
  case harts =>
    rw [State.hart_reset]
    exact ⟨rfl, rfl, rfl, rfl, rfl, rfl, rfl, rfl, rfl, rfl, rfl, rfl, rfl, rfl, rfl⟩
  case tiles => rw [State.tile_reset]; rfl

/-- Settles O10, by the law of `getX` and `setX` and the frame of `setX`. -/
theorem registerWrites : Obligations.RegisterWrites := fun a r q v =>
  ⟨a.getX_zero, a.setX_zero v, a.getX_setX r q v, a.setX_frame r v⟩

end

section
/-! PLANE_OWNER as a trap of the acting hart, and what stands before it (R335, R339). -/
namespace Sys2Proof.Machine

/-- The step takes PLANE_OWNER on the acting hart of `s` at its own PC, and nothing but that hart's trap state differs that R339 speaks of. -/
def OwnerTraps (s : State) (o : Out) : Prop :=
  ∃ t, o = .next t ∧ (t.hart s.cur).tcause = 9 ∧ (t.hart s.cur).tval = 0 ∧ (t.hart s.cur).trappc = canonical s.h.pc &&& ~~~3 ∧
    (t.hart s.cur).pc = (s.camp (campOf s.cur)).entrypc ∧ (t.hart s.cur).x = s.h.x ∧ (t.hart s.cur).k = s.h.k ∧
    (t.hart s.cur).estart = s.h.estart ∧ (t.hart s.cur).vl = s.h.vl ∧ (t.hart s.cur).vtype = s.h.vtype ∧ (t.hart s.cur).defs = s.h.defs ∧
    (∀ h, h ≠ s.cur → t.hart h = s.hart h) ∧ (∀ c, t.core c = s.core c) ∧ t.mem = s.mem ∧ t.ops = s.ops

/-- A state `u` on the way from `s` to a trap: of the acting hart only FCTL and the moment of a TILEWAIT may differ, and of the rest only the
number of waits begun and how the cores are listed. -/
structure BeforeTrap (s u : State) : Prop where
  hart : ∃ f m, u.hart s.cur = { s.h with fctl := f, tileSince := m }
  harts : ∀ h, h ≠ s.cur → u.hart h = s.hart h
  cores : ∀ c, u.core c = s.core c
  camps : u.camps = s.camps
  mem : u.mem = s.mem
  ops : u.ops = s.ops
  cur : u.cur = s.cur

theorem BeforeTrap.refl (s : State) : BeforeTrap s s := ⟨⟨_, _, rfl⟩, fun _ _ => rfl, fun _ => rfl, rfl, rfl, rfl, rfl⟩

/-- The acting hart written. -/
theorem BeforeTrap.modH {s u : State} {g : Hart → Hart} (hu : BeforeTrap s u) (hg : ∃ f m, g u.h = { s.h with fctl := f, tileSince := m }) :
    BeforeTrap s (u.modH g) := by
  obtain ⟨-, harts, cores, camps, mem, ops, cur⟩ := hu
  refine ⟨?_, fun h hne => ?_, cores, camps, mem, ops, cur⟩
  · rwa [State.modH, cur, State.hart_setHart_same]
  · rw [State.modH, cur, State.hart_setHart, if_neg hne, harts h hne]

/-- The acting hart of such a state. -/
theorem BeforeTrap.h_eq {s u : State} (hu : BeforeTrap s u) : ∃ f m, u.h = { s.h with fctl := f, tileSince := m } := by
  rw [State.h, hu.cur]
  exact hu.hart

theorem BeforeTrap.owns {s u : State} (hu : BeforeTrap s u) : u.h.owns = s.h.owns := by
  obtain ⟨f, m, hh⟩ := hu.h_eq
  rw [hh]
  rfl

/-- A wait begun is counted. -/
theorem BeforeTrap.arrival {s u : State} (hu : BeforeTrap s u) : BeforeTrap s { u with arrivals := u.arrivals + 1 } :=
  ⟨hu.hart, hu.harts, hu.cores, hu.camps, hu.mem, hu.ops, hu.cur⟩

/-- The trap itself, with an element in TRAPEI or none. -/
theorem BeforeTrap.ownerTraps {s u : State} (hu : BeforeTrap s u) (e : Option Nat) :
    OwnerTraps s (.next (u.takeTrap s.cur ⟨causePlaneOwner, 0, e⟩ s.h.pc)) := by
  obtain ⟨⟨f, m, hart⟩, harts, cores, camps, mem, ops, -⟩ := hu
  have htrap : u.takeTrap s.cur ⟨causePlaneOwner, 0, e⟩ s.h.pc =
      u.modHart s.cur fun a => a.trapTo (u.camp (campOf s.cur)).entrypc ⟨causePlaneOwner, 0, e⟩ s.h.pc := rfl
  have hcamp : u.camp (campOf s.cur) = s.camp (campOf s.cur) := by rw [State.camp, camps, State.camp]
  refine ⟨_, rfl, ?_⟩
  rw [htrap, hcamp, State.hart_modHart_same, hart]
  refine ⟨rfl, rfl, rfl, rfl, rfl, rfl, rfl, rfl, rfl, rfl, fun h hne => ?others, cores, mem, ops⟩
  case others => rw [State.hart_modHart_ne u _ hne, harts h hne]

theorem BeforeTrap.raiseIn {s u u1 : State} (hu : BeforeTrap s u) (hu1 : BeforeTrap s u1) (hq : s.h.queue = []) :
    OwnerTraps s (raiseIn u u1 ownerTrap) := by
  obtain ⟨f, m, hh⟩ := hu.h_eq
  have hraise : Machine.raiseIn u u1 ownerTrap = .next (u1.takeTrap s.cur ownerTrap s.h.pc) := by
    have hempty : u.h.queue.isEmpty = true := by rw [hh]; exact List.isEmpty_iff.mpr hq
    rw [Machine.raiseIn, if_pos hempty, hu.cur, hh]
  rw [hraise]
  exact hu1.ownerTraps none

end Sys2Proof.Machine
end

section
/-! The owner check of the queue's instructions, of waits and of the scalar reads of the plane side (R37, R339). -/
namespace Sys2Proof.Machine

theorem checkOwner_of_not_owns {a : Hart} (h : a.owns = false) : checkOwner a = some ownerTrap := by
  simp [checkOwner, h]

theorem quietCore_of_queues_nil {s : State} {h : Nat} (hq : ∀ g, coreOf g = coreOf h → (s.hart g).queue = []) :
    s.quietCore (coreOf h) = true := by
  have hcore : ∀ g ∈ hartsOf (coreOf h), coreOf g = coreOf h := by
    intro g hg
    simp only [hartsOf, coreOf, List.mem_cons, List.not_mem_nil, or_false] at hg ⊢
    omega
  exact List.all_eq_true.mpr fun g hg => List.isEmpty_iff.mpr (hq g (hcore g hg))

theorem QOp.check_of_not_owns {op : QOp} {s : State} {h : Nat} {e : QEntry} (howner : op.owner = true) (hnot : (s.hart h).owns = false) :
    op.check s h e = (s, some ownerTrap) := by
  have hearly : op.early (s.hart h) e = some ownerTrap := by
    rw [QOp.early, howner, if_pos rfl, checkOwner_of_not_owns hnot]
    rfl
  rw [QOp.check, hearly]

theorem Core.dropUses_of_not_issued (c : Core) {e : QEntry} (he : e.issued = none) : c.dropUses [e] = c := by
  have huse : e.tileUse = none := by
    unfold QEntry.tileUse
    split <;> simp [he]
  simp [Core.dropUses, huse]

theorem QOp.trapAt_trapOf_owner (op : QOp) (e : QEntry) (a : Hart) :
    ∃ x, op.trapAt a (op.trapOf e ownerTrap) = ⟨causePlaneOwner, 0, x⟩ := by
  unfold QOp.trapAt
  split
  · exact ⟨_, rfl⟩
  · exact ⟨_, rfl⟩

theorem QOp.stop_of_not_issued {op : QOp} {e : QEntry} {a : Hart} {n : Nat} (he : e.issued = none) : op.stop e a n = a := by
  simp [QOp.stop, he]

theorem BeforeTrap.dropUses {s : State} {e : QEntry} (he : e.issued = none) : BeforeTrap s (s.dropUses s.cur [e]) := by
  refine ⟨⟨_, _, rfl⟩, fun _ _ => rfl, fun c => ?_, rfl, rfl, rfl, rfl⟩
  rw [State.dropUses, State.core_modCore, Core.dropUses_of_not_issued _ he]
  split
  case isTrue h => rw [h]
  case isFalse => rfl

/-- A trap of an instruction that has not issued: before it, FCTL alone is written. -/
theorem QOp.trapWhole_owner {op : QOp} {s : State} {e : QEntry} (he : e.issued = none) (hpc : e.pc = s.h.pc) :
    OwnerTraps s (.next (op.trapWhole s e 0 ownerTrap)) := by
  unfold QOp.trapWhole
  extract_lets t s1
  have hs1 : BeforeTrap s s1 := by
    unfold s1
    rw [he, Option.isSome_none, if_neg Bool.false_ne_true]
    exact (BeforeTrap.dropUses he).modH ⟨_, _, QOp.stop_of_not_issued he⟩
  obtain ⟨x, hx⟩ := op.trapAt_trapOf_owner e s1.h
  rw [hx, hpc]
  exact hs1.ownerTraps x

/-- R339 comes first of an instruction's checks (R37): with nothing in the queues of its core, it traps at its commit. -/
theorem commitQueued_owner {i : Instr} {op : QOp} {s : State} (howner : op.owner = true) (hdefer : s.defer = false)
    (hq : ∀ g, coreOf g = coreOf s.cur → (s.hart g).queue = []) (hnot : s.h.owns = false) : OwnerTraps s (commitQueued i op s) := by
  have hroom : ¬64 ≤ s.h.queue.length := by simp [show s.h.queue = [] from hq s.cur rfl]
  have hquiet : (s.defer || !s.quietCore (coreOf s.cur)) = false := by simp [hdefer, quietCore_of_queues_nil hq]
  have hcommit : commitQueued i op s = .next (op.trapWhole s (newEntry i op s.h) 0 ownerTrap) := by
    simp only [commitQueued, if_neg hroom, hquiet, QOp.check_of_not_owns howner hnot, Bool.false_eq_true, if_false]
  rw [hcommit]
  exact QOp.trapWhole_owner rfl rfl

/-- A wait whose begin checks the owner first. -/
theorem WaitOp.exec_owner {op : WaitOp} {i : Instr} {s u : State} (hu : BeforeTrap s u) (hq : s.h.queue = []) (hwait : s.h.wait = none)
    (hstart : ∀ w, w.obj = s.h.getX op.a →
      op.start { u with arrivals := u.arrivals + 1 } u.cur w = .trap { u with arrivals := u.arrivals + 1 } ownerTrap) :
    OwnerTraps s (op.exec i u) := by
  obtain ⟨f, m, hh⟩ := hu.h_eq
  have hqueue : u.h.queue = [] := by rw [hh]; exact hq
  have hnone : u.h.wait = none := by rw [hh]; exact hwait
  have hobj : (op.new i u u.cur).obj = s.h.getX op.a := by
    change u.h.getX op.a = _
    rw [hh]
    rfl
  rw [WaitOp.exec, held_of_queue_nil hqueue, hnone]
  dsimp only
  rw [hstart _ hobj]
  exact hu.raiseIn hu.arrival hq

theorem readDef_owner {d a : Reg} {f : Def → Word} {s : State} (hq : s.h.queue = []) (hnot : s.h.owns = false) :
    OwnerTraps s (readDef d a f s) := by
  rw [readDef, held_of_queue_nil hq, checkOwner_of_not_owns hnot]
  exact (BeforeTrap.refl s).raiseIn (.refl s) hq

theorem execSetvl_owner {d a : Reg} {g l : BitVec 2} {f : BitVec 5} {s : State} (hq : s.h.queue = []) (hnot : s.h.owns = false) :
    OwnerTraps s (execSetvl d a g l f s) := by
  rw [execSetvl, checkOwner_of_not_owns hnot]
  exact (BeforeTrap.refl s).raiseIn (.refl s) hq

theorem waitNawait_start {d a b : Reg} {s : State} {h : Nat} {w : Wait} (hnot : (s.hart h).owns = false) :
    (waitNawait d a b).start s h w = .trap s ownerTrap := by
  simp [waitNawait, checkOwner_of_not_owns hnot]

theorem waitTile_start {d a b : Reg} {c : BitVec 1} {s : State} {h : Nat} {w : Wait} (hnot : (s.hart h).owns = false) :
    (waitTile d a b c).start s h w = .trap s ownerTrap := by
  simp [waitTile, checkOwner_of_not_owns hnot]

/-- The begin of SQPOP checks the owner once it has found its queue open. -/
theorem popStart_owner {n : Reg} {s : State} {h : Nat} {w : Wait} {v : Stream} (hnot : (s.hart h).owns = false)
    (hopen : s.stream h (w.obj.toNat % 2) = some v) (hparked : v.parked = false) : popStart n s h w = .trap s ownerTrap := by
  have hqueue : s.popQueue h w.obj = some v := by rw [State.popQueue, hopen]; simp [hparked]
  simp [popStart, hqueue, popCheck, checkOwner_of_not_owns hnot]

section
variable {s : State} (hq : s.h.queue = []) (hnot : s.h.owns = false) (hwait : s.h.wait = none)
include hq hnot hwait

theorem execNawait_owner {d a b : Reg} : OwnerTraps s (execNawait d a b s) :=
  WaitOp.exec_owner (.refl s) hq hwait fun _ _ => waitNawait_start hnot

/-- With the hart's queue empty, TILEWAIT forgets the moment its clock began and is a wait like the others (R158). -/
theorem execTilewait_owner {d a b : Reg} {c : BitVec 1} : OwnerTraps s (execTilewait d a b c s) := by
  have hempty : ¬(!s.h.queue.isEmpty) = true := by simp [hq]
  rw [execTilewait, if_neg hempty]
  split
  case h_1 => exact WaitOp.exec_owner (.refl s) hq hwait fun _ _ => waitTile_start hnot
  case h_2 =>
    have hu : BeforeTrap s (s.modH fun x => { x with tileSince := none }) := (BeforeTrap.refl s).modH ⟨_, _, rfl⟩
    exact WaitOp.exec_owner hu hq hwait fun _ _ => waitTile_start (d := d) (a := a) (b := b) (c := c) (hu.owns.trans hnot)

/-- SQPOP with its queue open and not parked. -/
theorem execSqpop_owner {d a b : Reg} {t : BitVec 1} {n : Reg} {v : Stream}
    (hopen : s.stream s.cur ((s.h.getX a).toNat % 2) = some v) (hparked : v.parked = false) : OwnerTraps s (execSqpop d a b t n s) :=
  WaitOp.exec_owner (.refl s) hq hwait fun w hobj => popStart_owner hnot (by rw [hobj]; exact hopen) hparked

end

end Sys2Proof.Machine
end

section
/-! The instructions of R339's list (O37). -/
open Sys2Proof Sys2Proof.Machine

/-- Settles O37: an instruction of the list enters the queue under the owner check, is a wait that begins with it, or reads and writes
registers of the plane side behind it. -/
theorem planeOwner : Obligations.PlaneOwner := by
  intro s i hplane hdefer hqueues hnot hwait hpop
  have hq : s.h.queue = [] := hqueues s.cur rfl
  change OwnerTraps s (exec i s)
  cases i with
  | setvl => exact execSetvl_owner hq hnot
  | vdgeta | vdgetb => exact readDef_owner hq hnot
  | nawait => exact execNawait_owner hq hnot hwait
  | tilewait => exact execTilewait_owner hq hnot hwait
  | sqpop d a b t n =>
    obtain ⟨v, hopen, hparked⟩ := hpop d a b t n rfl
    exact execSqpop_owner hq hnot hwait hopen hparked
  | vaddVv | vaddVx | vsubVv | vsubVx | vmulVv | vmulVx | vfmaVv | vfmaVx | vmin | vmax | vdiv | vsqrt
  | vcmpeqVv | vcmpneVv | vcmpltVv | vcmpleVv | vcmpeqVx | vcmpneVx | vcmpltVx | vcmpleVx
  | vand | vor | vxor | vandn | vorn | vsll | vsrl | vsra | vsel | vclamp
  | vcvt | vcvtsn | vcvtsw | vscale | vredsum | vredmax | vredmin | vcompress | vexpand | vconfl | vslideup | vslidedn
  | vmv | vbcast | vgetx | vputx | kand | kor | kxor | kandn | knot | kpop | kfirst | vidx | vdef
  | mma | mmas | mmag | aczero | acrd | acwr | tilerel
  | vld | vst | vldm | vlds | vldi | vldiw | vldro | vstm | vsts | vsti | vstiw | sqopen | sqclose | vldz
  | vgl | vglw | vsc | vscw | vscadd | mgpush => exact commitQueued_owner rfl hdefer hqueues hnot
  | _ => cases hplane

end

section
/-! The plane's elements: the bit field of a cell that one fills, and where those of a placed shape lie (R41, R44). -/
namespace Sys2Proof.Machine

/-! ### A bit field replaced -/

/-- A number with its field of w bits from bit i on replaced: what a write of part of a cell makes of the cell. -/
def putField (x i w v : Nat) : Nat := x - x / 2 ^ i % 2 ^ w * 2 ^ i + v % 2 ^ w * 2 ^ i

section
variable (x i w v : Nat)

theorem putField_eq : putField x i w v = (x / 2 ^ i / 2 ^ w * 2 ^ w + v % 2 ^ w) * 2 ^ i + x % 2 ^ i := by
  have hx : (x / 2 ^ i / 2 ^ w * 2 ^ w + x / 2 ^ i % 2 ^ w) * 2 ^ i + x % 2 ^ i = x := by
    rw [Nat.div_add_mod', Nat.div_add_mod']
  unfold putField
  conv_lhs => enter [1, 1]; rw [← hx]
  rw [Nat.add_mul, Nat.add_mul]
  omega

theorem putField_mod : putField x i w v % 2 ^ i = x % 2 ^ i := by
  rw [putField_eq, Nat.mul_add_mod_self_right, Nat.mod_mod]

theorem putField_div : putField x i w v / 2 ^ i = x / 2 ^ i / 2 ^ w * 2 ^ w + v % 2 ^ w := by
  rw [putField_eq, Nat.mul_comm, Nat.mul_add_div (Nat.two_pow_pos i), Nat.div_eq_of_lt (Nat.mod_lt _ (Nat.two_pow_pos i)), Nat.add_zero]

theorem putField_same : putField x i w v / 2 ^ i % 2 ^ w = v % 2 ^ w := by
  rw [putField_div, Nat.mul_add_mod_self_right, Nat.mod_mod]

theorem putField_top : putField x i w v / 2 ^ (i + w) = x / 2 ^ (i + w) := by
  rw [Nat.pow_add, ← Nat.div_div_eq_div_mul, ← Nat.div_div_eq_div_mul, putField_div, Nat.mul_comm,
    Nat.mul_add_div (Nat.two_pow_pos w), Nat.div_eq_of_lt (Nat.mod_lt _ (Nat.two_pow_pos w)), Nat.add_zero]

/-- A field that shares no bit with the one replaced stands. -/
theorem putField_apart {k : Nat} (h : k + w ≤ i ∨ i + w ≤ k) : putField x i w v / 2 ^ k % 2 ^ w = x / 2 ^ k % 2 ^ w := by
  rcases h with h | h
  case inl =>
    have hlow (y : Nat) : y / 2 ^ k % 2 ^ w = y % 2 ^ i % 2 ^ (k + w) / 2 ^ k := by
      rw [Nat.mod_mod_of_dvd _ (Nat.pow_dvd_pow 2 h), Nat.pow_add, Nat.mod_mul_right_div_self]
    rw [hlow, hlow, putField_mod]
  case inr =>
    have hhigh (y : Nat) : y / 2 ^ k = y / 2 ^ (i + w) / 2 ^ (k - (i + w)) := by
      rw [Nat.div_div_eq_div_mul, ← Nat.pow_add, Nat.add_sub_cancel' h]
    rw [hhigh, hhigh, putField_top]

theorem putField_lt {n : Nat} (hfit : i + w ≤ n) (hx : x < 2 ^ n) : putField x i w v < 2 ^ n := by
  have hn : 2 ^ n = 2 ^ (n - (i + w)) * 2 ^ (i + w) := by rw [← Nat.pow_add, Nat.sub_add_cancel hfit]
  rw [hn] at hx ⊢
  rw [← Nat.div_lt_iff_lt_mul (Nat.two_pow_pos _)] at hx ⊢
  rwa [putField_top]

end

/-! ### Cells -/

namespace Core
variable (c : Core) (k q v : Nat)

theorem cell_lt : c.cell k < 2 ^ 32 := BitVec.isLt _

theorem cell_putCell : (c.putCell k v).cell q = if q = k then v % 2 ^ 32 else c.cell q := by
  unfold Core.cell Core.putCell
  rw [FMap.get_set]
  split
  · exact BitVec.toNat_ofNat _ _
  · rfl

theorem cell_setCell : (c.setCell k v).cell q = if q = k then v % 2 ^ 32 else c.cell q := cell_putCell c k q v

end Core

/-! ### Where an element lies -/

/-- The widths of the formats (R27). -/
theorem fmtWidth_cases (f : Nat) : fmtWidth f = 1 ∨ fmtWidth f = 4 ∨ fmtWidth f = 8 ∨ fmtWidth f = 16 ∨ fmtWidth f = 32 ∨ fmtWidth f = 64 := by
  unfold fmtWidth
  split <;> simp

/-- A shape lies on the plane's columns: no element of it is left of column 0 or right of the last, and none above row 0. -/
structure Shape.Placed (p : Shape) : Prop where
  width : ∃ f, p.w = fmtWidth f
  row : ∀ e, e < p.count → 0 ≤ (p.pos e).1
  col : ∀ e, e < p.count → 0 ≤ (p.pos e).2 ∧ (p.pos e).2 < columns p.w

theorem Def.shape_w (d : Def) (base : Nat) : (d.shape base).w = d.width := by
  unfold Def.shape
  split <;> rfl

/-- The diagonals have one column. -/
theorem Def.shape_step (d : Def) (base : Nat) :
    (d.shape base).step = 0 ∨ ((d.shape base).cols = 1 ∧ ((d.shape base).step = 1 ∨ (d.shape base).step = -1)) := by
  unfold Def.shape
  split <;> simp

/-- Elements at one position are one element. -/
theorem Shape.pos_inj (p : Shape) {e j : Nat} (h : p.pos e = p.pos j) : e = j := by
  unfold Shape.pos at h
  split at h
  · obtain ⟨hrow, hcol⟩ := Prod.mk.inj h
    have hdiv : e / p.cols = j / p.cols := by omega
    have hmod : e % p.cols = j % p.cols := by omega
    rw [← Nat.div_add_mod e p.cols, hdiv, hmod, Nat.div_add_mod]
  · have := (Prod.mk.inj h).1
    omega

/-- A shape of which R46 finds no element outside its window lies on the plane. -/
theorem Shape.placed {p : Shape} {rows : Nat} (hw : ∃ f, p.w = fmtWidth f)
    (hstep : p.step = 0 ∨ (p.cols = 1 ∧ (p.step = 1 ∨ p.step = -1))) (h : p.firstOutside rows = none) : p.Placed := by
  have hplace (e : Nat) (he : e < p.count) : 0 ≤ (p.pos e).1 ∧ 0 ≤ (p.pos e).2 ∧ (p.pos e).2 < columns p.w := by
    unfold Shape.count at he
    unfold Shape.firstOutside at h
    unfold Shape.pos
    by_cases horigin : p.row0 < 0 ∨ (rows : Int) ≤ p.row0 ∨ p.col0 < 0 ∨ (columns p.w : Int) ≤ p.col0
    · rw [if_pos horigin] at h
      cases h
    simp only [if_neg horigin] at h
    rcases hstep with hstep | ⟨hcols, hstep | hstep⟩
    · have hpos : 0 < p.cols := Nat.pos_of_ne_zero fun h0 => by simp [h0] at he
      have hcol := Nat.mod_lt e hpos
      have hrow := Int.natCast_nonneg (e / p.cols)
      simp only [hstep, if_true] at h ⊢
      split at h
      · cases h
      · omega
    all_goals
      rw [hcols, Nat.mul_one] at he
      simp [hstep] at h ⊢
      omega
  exact ⟨hw, fun e he => (hplace e he).1, fun e he => (hplace e he).2⟩

theorem Usable.placed {s : State} {r : Reg} {w n : Nat} (h : Usable s r w n) : (s.h.shapeOf r).Placed :=
  Shape.placed ⟨_, Def.shape_w _ _⟩ (Def.shape_step _ _) h.inside

namespace Shape.Placed
variable {p : Shape} (h : p.Placed) {e j : Nat}
include h

theorem widths : p.w = 1 ∨ p.w = 4 ∨ p.w = 8 ∨ p.w = 16 ∨ p.w = 32 ∨ p.w = 64 := by
  obtain ⟨f, hf⟩ := h.width
  exact hf ▸ fmtWidth_cases f

/-- The cell of an element and its lowest bit there, by its row and its column on the plane. -/
theorem cellOf_eq (he : e < p.count) : ∃ r c : Nat, p.pos e = ((r : Int), (c : Int)) ∧ c < columns p.w ∧
    p.cellOf e = (256 * (p.base + r) + c * p.w / 32, c * p.w % 32) := by
  obtain ⟨r, hr⟩ := Int.eq_ofNat_of_zero_le (h.row e he)
  obtain ⟨c, hc⟩ := Int.eq_ofNat_of_zero_le (h.col e he).1
  have hlt := (h.col e he).2
  refine ⟨r, c, Prod.ext hr hc, by omega, ?_⟩
  simp only [Shape.cellOf, cellKey, hr, hc, Int.toNat_natCast]

/-- An element of at most 32 bits lies in one cell. -/
theorem fits (he : e < p.count) (hw : p.w ≠ 64) : (p.cellOf e).2 + p.w ≤ 32 := by
  obtain ⟨r, c, -, -, hcell⟩ := h.cellOf_eq he
  rw [hcell]
  rcases h.widths with w | w | w | w | w | w <;> simp only [w] at hw ⊢ <;> omega

/-- Two elements of at most 32 bits share no bit. -/
theorem apart (he : e < p.count) (hj : j < p.count) (hne : j ≠ e) (hw : p.w ≠ 64) (hcell : (p.cellOf j).1 = (p.cellOf e).1) :
    (p.cellOf j).2 + p.w ≤ (p.cellOf e).2 ∨ (p.cellOf e).2 + p.w ≤ (p.cellOf j).2 := by
  obtain ⟨r, c, hpos, hc, hcell⟩ := h.cellOf_eq he
  obtain ⟨r', c', hpos', hc', hcell'⟩ := h.cellOf_eq hj
  have hother : ¬(r' = r ∧ c' = c) := fun ⟨hr, hc⟩ => hne (p.pos_inj (by rw [hpos, hpos', hr, hc]))
  simp only [hcell, hcell'] at *
  rcases h.widths with w | w | w | w | w | w <;> simp only [w, columns] at * <;> omega

/-- Two elements of 64 bits share no cell. -/
theorem apart_wide (he : e < p.count) (hj : j < p.count) (hne : j ≠ e) (hw : p.w = 64) :
    (p.cellOf j).1 + 1 < (p.cellOf e).1 ∨ (p.cellOf e).1 + 1 < (p.cellOf j).1 := by
  obtain ⟨r, c, hpos, hc, hcell⟩ := h.cellOf_eq he
  obtain ⟨r', c', hpos', hc', hcell'⟩ := h.cellOf_eq hj
  have hother : ¬(r' = r ∧ c' = c) := fun ⟨hr, hc⟩ => hne (p.pos_inj (by rw [hpos, hpos', hr, hc]))
  simp only [hcell, hcell', hw, columns] at *
  omega

end Shape.Placed

/-! ### An element written (R41) -/

namespace Core
variable (c : Core) {p : Shape} {e : Nat} (v : Nat)

/-- The two cells of an element of 64 bits. -/
theorem cell_setElem_wide (hw : p.w = 64) (k : Nat) : (c.setElem p e v).cell k =
    if k = (p.cellOf e).1 + 1 then v / 2 ^ 32 % 2 ^ 32 else if k = (p.cellOf e).1 then v % 2 ^ 32 else c.cell k := by
  simp only [Core.setElem, hw, if_true, cell_setCell, Nat.mod_mod]

/-- The cell of an element of at most 32 bits keeps its other bits. -/
theorem cell_setElem (hw : p.w ≠ 64) (hfit : (p.cellOf e).2 + p.w ≤ 32) (k : Nat) : (c.setElem p e v).cell k =
    if k = (p.cellOf e).1 then putField (c.cell (p.cellOf e).1) (p.cellOf e).2 p.w v else c.cell k := by
  simp only [Core.setElem, if_neg hw]
  split
  case isTrue h32 =>
    have hbit : (p.cellOf e).2 = 0 := by omega
    have hfield (x : Nat) (hx : x < 2 ^ 32) : putField x 0 32 v = v % 2 ^ 32 := by
      rw [putField, Nat.pow_zero, Nat.div_one, Nat.mul_one, Nat.mod_eq_of_lt hx, Nat.sub_self, Nat.zero_add, Nat.mul_one]
    rw [cell_setCell, Nat.mod_mod, hbit, h32, hfield _ (c.cell_lt _)]
  case isFalse =>
    change (c.putCell _ (putField _ _ _ v)).cell k = _
    rw [cell_putCell, Nat.mod_eq_of_lt (putField_lt _ _ _ _ hfit (c.cell_lt _))]

theorem elem_wide (hw : p.w = 64) (j : Nat) : c.elem p j = c.cell (p.cellOf j).1 + c.cell ((p.cellOf j).1 + 1) * 2 ^ 32 := if_pos hw

theorem elem_narrow (hw : p.w ≠ 64) (j : Nat) : c.elem p j = c.cell (p.cellOf j).1 / 2 ^ (p.cellOf j).2 % 2 ^ p.w := if_neg hw

/-- An element written reads back modulo its width. -/
theorem elem_setElem_same (h : p.Placed) (he : e < p.count) : (c.setElem p e v).elem p e = v % 2 ^ p.w := by
  by_cases hw : p.w = 64
  · rw [elem_wide _ hw, cell_setElem_wide _ _ hw, cell_setElem_wide _ _ hw, hw]
    simp only [if_true, Nat.left_eq_add, Nat.one_ne_zero, if_false]
    omega
  · rw [elem_narrow _ hw, cell_setElem _ _ hw (h.fits he hw), if_pos rfl, putField_same]

/-- Every other element of the name stands. -/
theorem elem_setElem_ne (h : p.Placed) (he : e < p.count) {j : Nat} (hj : j < p.count) (hne : j ≠ e) :
    (c.setElem p e v).elem p j = c.elem p j := by
  by_cases hw : p.w = 64
  · have hapart := h.apart_wide he hj hne hw
    rw [elem_wide _ hw, elem_wide _ hw, cell_setElem_wide _ _ hw, cell_setElem_wide _ _ hw, if_neg (by omega), if_neg (by omega),
      if_neg (by omega), if_neg (by omega)]
  · rw [elem_narrow _ hw, elem_narrow _ hw, cell_setElem _ _ hw (h.fits he hw)]
    split
    case isTrue hcell => rw [putField_apart _ _ _ _ (h.apart he hj hne hw hcell), hcell]
    case isFalse => rfl

/-- Every cell that is not the element's stands. -/
theorem cell_setElem_ne (h : p.Placed) (he : e < p.count) {k : Nat} (hk : k ≠ (p.cellOf e).1)
    (hsecond : ¬(p.w = 64 ∧ k = (p.cellOf e).1 + 1)) : (c.setElem p e v).cell k = c.cell k := by
  by_cases hw : p.w = 64
  · rw [cell_setElem_wide _ _ hw, if_neg fun t => hsecond ⟨hw, t⟩, if_neg hk]
  · rw [cell_setElem _ _ hw (h.fits he hw), if_neg hk]

/-- What a write of an element changes of its core: cells of the plane and their states of error. -/
theorem setElem_frame : ∃ m l, c.setElem p e v = { c with plane := m, badPlane := l } := by
  unfold Core.setElem
  split
  · exact ⟨_, _, rfl⟩
  · split <;> exact ⟨_, _, rfl⟩

end Core

end Sys2Proof.Machine
end

section
/-! Elements of a usable name (O36). -/
open Sys2Proof Sys2Proof.Machine

/-- Settles O36: the bits of two elements of a name that lies in its window are apart, and a write replaces those of its own. -/
theorem planeElements : Obligations.PlaneElements := by
  intro s r w n e j v husable he hj p c c'
  have hplaced : p.Placed := husable.placed
  have hw : p.w = w := (Def.shape_w _ _).trans husable.width
  have hcount : n ≤ p.count := husable.holds
  have he := Nat.lt_of_lt_of_le he hcount
  have hj := Nat.lt_of_lt_of_le hj hcount
  obtain ⟨m, l, hframe⟩ := c.setElem_frame (p := p) (e := e) v
  refine ⟨hw ▸ c.elem_setElem_same v hplaced he, fun hne => c.elem_setElem_ne v hplaced he hj hne, fun q hq hsecond => ?_, ?_, ?_⟩
  · exact c.cell_setElem_ne v hplaced he hq (hw ▸ hsecond)
  · rw [show c' = _ from hframe]
  · rw [show c' = _ from hframe]

end

section
/-! A load across the lower end of a misplaced HDM range (R364): the counterexample to the arrival clause of O56. -/
namespace Sys2Proof.Machine

/-- Hart 0 at kernel privilege; every name is a row of 16-bit elements (R43). -/
def loadingHart : Hart :=
  { Hart.reset 0 with
    run := .running
    hstat := 0
    defs := Vector.replicate 32 ⟨BitVec.ofNat 64 (2 ^ 61 + 2 ^ 56 + 2 ^ 22), 0⟩ }

/-- The page at virtual address 0, mapped to the first of a local store. -/
def storeFrame : Frame := ⟨0, 0, Config.apertureBase, 0, false, 0⟩

/-- A VLD of one 16-bit element at virtual address 0 that has issued, with its page known. -/
def straddlingLoad : QEntry :=
  { newEntry (.vld 1 2 0 1) (opVld 1 2 0 1) loadingHart with
    issued := some 0
    len := 1
    whole := true
    frames := [storeFrame] }

/-- The HDM range begins one byte above the aperture, so the element's two bytes lie in different ranges. Memory holds 1 at the second, which is no
stored sector: its line has the ZERO tag. -/
def straddled : State :=
  { State.reset.setHart 0 { loadingHart with queue := [straddlingLoad] } with
    hdm := Config.apertureBase + 1
    mem := [(Config.apertureBase + 1, 1)] }

theorem straddled_alone : Alone straddled 0 straddlingLoad where
  runs := rfl
  free := rfl
  queue := rfl
  trap := rfl
  going := ⟨rfl, rfl, rfl⟩
  units := by decide +kernel
  skid := rfl
  others g _ hg := by
    change (State.hart (State.reset.setHart 0 _) g).queue = []
    rw [State.hart_setHart, if_neg hg]
    rfl

theorem straddled_unwatched : straddled.unwatched := fun _ he => nomatch he

/-- Both bytes are folded and sound. -/
theorem straddled_sound : ∀ i, i < 2 → straddled.fold (Config.apertureBase + i) = Config.apertureBase + i ∧ straddled.badHeld 0 (Config.apertureBase + i) = none := by
  decide +kernel

/-- The load takes both bytes as the local store has them. -/
theorem straddled_loads : ((straddled.dataArrives 0).core 0).plane = [(0, 256)] := by decide +kernel

/-- The core sees 0 at both, and an element of 0 leaves the plane as it was at reset. -/
theorem straddled_sees : ((straddled.core 0).setElem (loadingHart.shapeOf 1) 0
    (leNat ((List.range 2).map fun j => straddled.seen 0 (Config.apertureBase + j)))).plane = [] := by decide +kernel

end Sys2Proof.Machine
end

section
/-! Events of the vector queue and of waits (O56). -/
open Sys2Proof Sys2Proof.Machine

/-- Refutes O56. Its clause on the arrival of load data asks each byte of the element to be folded and sound, but not that they lie in one range of
R364. Where the HDM range begins between two of them, above a local store, the load takes both bytes from the store (256), while its core sees
the second at its home in device memory (0). R364 keeps the HDM range below every local store, but no hypothesis of the clause does. -/
theorem not_queueEvents : ¬ Obligations.QueueEvents := by
  intro h
  obtain ⟨-, -, -, harrival, -⟩ := h straddled 0
  obtain ⟨t, -, hexec, -, -, -, -, hplane, -⟩ := harrival straddlingLoad 1 2 1 storeFrame straddled_alone rfl (by decide) rfl rfl rfl rfl rfl rfl
    (by decide +kernel) rfl rfl straddled_unwatched rfl (by decide +kernel) (.inr ⟨0, 0, by decide +kernel⟩) straddled_sound
  have ht : straddled.dataArrives 0 = t := Host.Outcome.next.inj hexec
  rw [← ht] at hplane
  exact absurd (straddled_loads.symm.trans (hplane.trans straddled_sees)) (by decide)

end

section
/-! The reduction tree, for any relation of a value to the list of values it stands for (R75). -/
namespace Sys2Proof.Machine

/-- The present nodes of a level stand, from left to right, for the parts of one list of values; an absent node stands for no value. -/
inductive Spans (R : Nat → List Nat → Prop) : List (Option Nat) → List Nat → Prop
  | nil : Spans R [] []
  | absent {l vs} : Spans R l vs → Spans R (none :: l) vs
  | present {u us l vs} : R u us → Spans R l vs → Spans R (some u :: l) (us ++ vs)

/-- Each element of level 0 stands for itself. -/
theorem Spans.leaves {R : Nat → List Nat → Prop} {l : List (Option Nat)} (h : ∀ u, some u ∈ l → R u [u]) : Spans R l (l.filterMap id) := by
  induction l with
  | nil => exact .nil
  | cons x l ih =>
    have hl := ih fun u hu => h u (List.mem_cons_of_mem x hu)
    cases x with
    | none => exact hl.absent
    | some u => exact .present (h u List.mem_cons_self) hl

theorem treeLevel_length (op : Nat → Nat → FRes) (l : List (Option Nat)) : (treeLevel op l).1.length = (l.length + 1) / 2 := by
  induction l using treeLevel.induct op with
  | case1 => rfl
  | case2 => simp [treeLevel]
  | case3 | case4 | case5 =>
    simp only [treeLevel, List.length_cons, *]
    omega

section
variable {R : Nat → List Nat → Prop} {op : Nat → Nat → FRes} (hop : ∀ {u us v vs}, R u us → R v vs → R (op u v).1 (us ++ vs))
include hop

/-- A level stands for the values that the level below stands for. -/
theorem Spans.treeLevel {l : List (Option Nat)} {vs : List Nat} (h : Spans R l vs) : Spans R (treeLevel op l).1 vs := by
  induction l using treeLevel.induct op generalizing vs with
  | case1 | case2 => exact h
  | case3 l u v ih =>
    obtain _ | _ | ⟨hu, _ | _ | ⟨hv, hl⟩⟩ := h
    rw [← List.append_assoc]
    exact .present (hop hu hv) (ih hl)
  | case4 l u ih =>
    obtain _ | _ | ⟨hu, _ | hl | _⟩ := h
    exact .present hu (ih hl)
  | case5 l y ih =>
    obtain _ | hyl | _ := h
    obtain _ | hl | ⟨hv, hl⟩ := hyl
    · exact .absent (ih hl)
    · exact .present hv (ih hl)

/-- So does the root, where the levels suffice for the elements. -/
theorem Spans.treeRoot {n : Nat} {l : List (Option Nat)} {vs : List Nat} (hlen : l.length ≤ 2 ^ n) (h : Spans R l vs) :
    Spans R [(treeRoot op n l).1] vs := by
  have hshort {l : List (Option Nat)} (hle : l.length ≤ 1) (h : Spans R l vs) : Spans R [l.headD none] vs := by
    match l, h with
    | [], .nil => exact .absent .nil
    | [_], h => exact h
  induction n generalizing l with
  | zero => exact hshort hlen h
  | succ n ih =>
    unfold Machine.treeRoot
    split
    case isTrue hle => exact hshort hle h
    case isFalse =>
      refine ih ?_ (h.treeLevel hop)
      rw [treeLevel_length]
      omega

end

section
variable {op : Nat → Nat → FRes} (hflags : ∀ u v, (op u v).2 = 0)
include hflags

theorem treeLevel_flags (l : List (Option Nat)) : (treeLevel op l).2 = 0 := by
  induction l using treeLevel.induct op with
  | case1 | case2 => rfl
  | case3 | case4 | case5 => simp [treeLevel, *]

theorem treeRoot_flags (n : Nat) (l : List (Option Nat)) : (treeRoot op n l).2 = 0 := by
  induction n generalizing l with
  | zero => rfl
  | succ n ih =>
    unfold treeRoot
    split
    · rfl
    · simp [treeLevel_flags hflags, ih]

/-- The result of a tree whose operation raises no flag stands for the initial value and the elements present. -/
theorem exists_treeFrom_eq {R : Nat → List Nat → Prop} (hop : ∀ {u us v vs}, R u us → R v vs → R (op u v).1 (us ++ vs)) {init : Nat}
    {l : List (Option Nat)} (hlen : l.length ≤ 8192) (hone : ∀ u, u = init ∨ some u ∈ l → R u [u]) :
    ∃ r, treeFrom op init l = (r, 0) ∧ R r (init :: l.filterMap id) := by
  have hinit : R init [init] := hone init (.inl rfl)
  have hroot : Spans R [(treeRoot op 14 l).1] (l.filterMap id) :=
    (Spans.leaves fun u hu => hone u (.inr hu)).treeRoot hop (by omega)
  unfold treeFrom
  generalize l.filterMap id = vs at hroot
  rcases hq : treeRoot op 14 l with ⟨_ | u, f⟩
  all_goals
    rw [hq] at hroot
    obtain rfl : f = 0 := (congrArg Prod.snd hq).symm.trans (treeRoot_flags hflags 14 l)
  case none =>
    obtain _ | ⟨⟨⟩⟩ | _ := hroot
    exact ⟨init, rfl, hinit⟩
  case some =>
    obtain _ | _ | ⟨hu, ⟨⟩⟩ := hroot
    refine ⟨(op init u).1, by simp [hflags], hop hinit ?_⟩
    rwa [List.append_eq, List.append_nil]

end

end Sys2Proof.Machine
end

section
/-! Integer nodes of the tree: sums modulo the width, and the greatest or least value (R59, R144). -/
namespace Sys2Proof.Machine

theorem codeVal_eq_intOf (f u : Nat) : codeVal f u = intOf f u := by
  simp [codeVal, intOf, codeSigned, sxi]

/-- The value of an integer pattern is the pattern modulo 2^width. -/
theorem intOf_emod (f u : Nat) : intOf f u % 2 ^ fmtWidth f = (u : Int) % 2 ^ fmtWidth f := by
  unfold intOf
  split
  · split
    · simp
    · simp
  · simp

/-- A pattern stands for values as their sum modulo 2^width. -/
def IsSum (f u : Nat) (vs : List Nat) : Prop := u = ((vs.map (intOf f)).sum % 2 ^ fmtWidth f).toNat

/-- An integer node of a sum: the value wraps (R59). -/
def sumInt (f u v : Nat) : FRes := (wrapN (fmtWidth f) (codeVal f u + codeVal f v), 0)

theorem IsSum.singleton {f u : Nat} (h : u < 2 ^ fmtWidth f) : IsSum f u [u] := by
  have hmod : (u : Int) % 2 ^ fmtWidth f = u := Int.emod_eq_of_lt (Int.natCast_nonneg u) (by exact_mod_cast h)
  simp [IsSum, intOf_emod, hmod]

theorem IsSum.intOf_emod {f u : Nat} {vs : List Nat} (h : IsSum f u vs) :
    intOf f u % 2 ^ fmtWidth f = (vs.map (intOf f)).sum % 2 ^ fmtWidth f := by
  rw [Machine.intOf_emod, h, Int.toNat_of_nonneg (Int.emod_nonneg _ (by positivity)), Int.emod_emod]

theorem IsSum.sumInt {f u v : Nat} {us vs : List Nat} (hu : IsSum f u us) (hv : IsSum f v vs) : IsSum f (sumInt f u v).1 (us ++ vs) := by
  have hsum : (intOf f u + intOf f v) % 2 ^ fmtWidth f = (((us ++ vs).map (intOf f)).sum) % 2 ^ fmtWidth f := by
    rw [List.map_append, List.sum_append, Int.add_emod, hu.intOf_emod, hv.intOf_emod, ← Int.add_emod]
  simp [IsSum, Machine.sumInt, wrapN, codeVal_eq_intOf, hsum]

/-- What a maximum, or else a minimum, compares: the value of a pattern, or the value negated. -/
def orderKey : Bool → Nat → Nat → Int
  | true, f, u => intOf f u
  | false, f, u => -intOf f u

/-- A pattern stands for values as one of them whose key no other's exceeds. -/
def IsTop (mx : Bool) (f u : Nat) (vs : List Nat) : Prop := u ∈ vs ∧ ∀ v ∈ vs, orderKey mx f v ≤ orderKey mx f u

/-- On integers the greater or the lesser pattern is one of the two, with a key that neither exceeds. -/
theorem arithMinMax_int {f : Nat} (hf : f < 8) (mx : Bool) (u v : Nat) : ∃ w, arithMinMax mx f u v = (w, 0) ∧ (w = u ∨ w = v) ∧
    orderKey mx f u ≤ orderKey mx f w ∧ orderKey mx f v ≤ orderKey mx f w := by
  have hint : codeInt f = true := decide_eq_true hf
  simp only [arithMinMax, hint, if_true, codeVal_eq_intOf]
  by_cases hlt : intOf f u < intOf f v <;> cases mx
  · exact ⟨u, by simp [hlt], .inl rfl, by dsimp only [orderKey]; omega⟩
  · exact ⟨v, by simp [hlt], .inr rfl, by dsimp only [orderKey]; omega⟩
  · exact ⟨v, by simp [hlt], .inr rfl, by dsimp only [orderKey]; omega⟩
  · exact ⟨u, by simp [hlt], .inl rfl, by dsimp only [orderKey]; omega⟩

theorem IsTop.arithMinMax {f : Nat} (hf : f < 8) {mx : Bool} {u v : Nat} {us vs : List Nat} (hu : IsTop mx f u us) (hv : IsTop mx f v vs) :
    IsTop mx f (arithMinMax mx f u v).1 (us ++ vs) := by
  obtain ⟨w, hw, hone, hule, hvle⟩ := arithMinMax_int hf mx u v
  rw [hw]
  refine ⟨?mem, fun x hx => ?top⟩
  case mem =>
    rcases hone with rfl | rfl
    · exact List.mem_append_left _ hu.1
    · exact List.mem_append_right _ hv.1
  case top =>
    rcases List.mem_append.mp hx with hx | hx
    · exact (hu.2 x hx).trans hule
    · exact (hv.2 x hx).trans hvle

/-- A reduction to the greatest or the least value of integers. -/
theorem exists_treeFrom_minMax {f init : Nat} {l : List (Option Nat)} (hf : f < 8) (hlen : l.length ≤ 8192) (mx : Bool) :
    ∃ r, treeFrom (arithMinMax mx f) init l = (r, 0) ∧ IsTop mx f r (init :: l.filterMap id) := by
  refine exists_treeFrom_eq (fun u v => ?flags) (.arithMinMax hf) hlen fun u _ => ⟨List.mem_singleton_self u, ?top⟩
  case flags =>
    obtain ⟨w, hw, -⟩ := arithMinMax_int hf mx u v
    rw [hw]
  case top =>
    intro v hv
    rw [List.mem_singleton.mp hv]

end Sys2Proof.Machine
end

section
/-! Integer reductions (O40). -/
open Sys2Proof Sys2Proof.Machine

/-- Settles O40: the values that the nodes of the tree stand for are those of the elements present, in order, at every level. -/
theorem integerReductions : Obligations.IntegerReductions := by
  intro f init l hf hlen hinit hl vs
  have hint : codeInt f = true := decide_eq_true hf
  have hminMax (op : Nat) (hop : op ≠ 0) : reduceVal op f init l = treeFrom (arithMinMax (op == 1) f) init l := by
    simp [reduceVal, hop, hint]
  refine ⟨?sum, ?max, ?min⟩
  case sum =>
    have hfit (u : Nat) (hu : u = init ∨ some u ∈ l) : IsSum f u [u] := .singleton (hu.elim (fun e => e ▸ hinit) (hl u))
    obtain ⟨r, hr, hsum⟩ := exists_treeFrom_eq (op := sumInt f) (fun _ _ => rfl) IsSum.sumInt hlen hfit
    have hreduce : reduceVal 0 f init l = treeFrom (sumInt f) init l := by
      simp only [reduceVal, hint, if_true]
      rfl
    rw [hreduce, hr, hsum]
  case max =>
    obtain ⟨r, hr, hmem, htop⟩ := exists_treeFrom_minMax (init := init) hf hlen true
    exact ⟨r, hmem, (hminMax 1 (by decide)).trans hr, htop⟩
  case min =>
    obtain ⟨r, hr, hmem, htop⟩ := exists_treeFrom_minMax (init := init) hf hlen false
    exact ⟨r, hmem, (hminMax 2 (by decide)).trans hr, fun v hv => Int.neg_le_neg_iff.mp (htop v hv)⟩

end

section
/-! What the charge of an issue changes: the counters of the core's sequencer (R309, R313, R315). -/
namespace Sys2Proof.Machine

theorem State.SameButUnits.cur_eq {t u : State} (h : t.SameButUnits u) : t.cur = u.cur := by
  have hsame : { t with harts := u.harts, cores := u.cores } = u := h
  rw [← hsame]

/-- Of `s` nothing differs in `u` but what the sequencer chooses by: the counts of harts and whether they may issue, and of cores the virtual
time and the hart that the matrix engine served last. -/
structure ChargeOnly (s u : State) : Prop where
  hart : ∀ g, ∃ v b, u.hart g = { s.hart g with vcount := v, issuable := b }
  core : ∀ c, ∃ m l, u.core c = { s.core c with arbM := m, lastMatrix := l }
  same : u.SameButUnits s

theorem ChargeOnly.refl (s : State) : ChargeOnly s s := ⟨fun _ => ⟨_, _, rfl⟩, fun _ => ⟨_, _, rfl⟩, rfl⟩

theorem ChargeOnly.modHart {s u : State} (hu : ChargeOnly s u) {h : Nat} {f : Hart → Hart}
    (hf : ∀ a, ∃ v b, f a = { a with vcount := v, issuable := b }) : ChargeOnly s (u.modHart h f) := by
  refine ⟨fun g => ?_, hu.core, hu.same⟩
  obtain ⟨v, b, hg⟩ := hu.hart g
  obtain ⟨v', b', hf⟩ := hf (u.hart h)
  rw [State.hart_modHart]
  split
  case isTrue e => exact ⟨v', b', by rw [hf, ← e, hg]⟩
  case isFalse => exact ⟨v, b, hg⟩

theorem ChargeOnly.modCore {s u : State} (hu : ChargeOnly s u) {c : Nat} {f : Core → Core}
    (hf : ∀ k, ∃ m l, f k = { k with arbM := m, lastMatrix := l }) : ChargeOnly s (u.modCore c f) := by
  refine ⟨hu.hart, fun d => ?_, hu.same⟩
  obtain ⟨m, l, hd⟩ := hu.core d
  obtain ⟨m', l', hf⟩ := hf (u.core c)
  rw [State.core_modCore]
  split
  case isTrue e => exact ⟨m', l', by rw [hf, ← e, hd]⟩
  case isFalse => exact ⟨m, l, hd⟩

theorem ChargeOnly.foldl {s u : State} {α : Type} {f : State → α → State} (hf : ∀ {v : State} (x : α), ChargeOnly s v → ChargeOnly s (f v x))
    (hu : ChargeOnly s u) (l : List α) : ChargeOnly s (l.foldl f u) := by
  induction l generalizing u with
  | nil => exact hu
  | cons x l ih => exact ih (hf x hu)

theorem chargeOnly_charged (s : State) (h cost : Nat) (matrix : Bool) : ChargeOnly s (s.charged h cost matrix) := by
  refine .foldl (fun g hv => ?cap) (((ChargeOnly.refl s).modHart fun _ => ⟨_, _, rfl⟩).modCore fun _ => ⟨_, _, rfl⟩) _
  case cap => exact iteInduction (motive := ChargeOnly s) (fun _ => hv.modHart fun _ => ⟨_, _, rfl⟩) fun _ => hv

section
variable {s u : State} (hu : ChargeOnly s u)
include hu

/-- Names mean what they meant. -/
theorem ChargeOnly.shapeOf (g : Nat) (r : Reg) : (u.hart g).shapeOf r = (s.hart g).shapeOf r := by
  obtain ⟨v, b, hg⟩ := hu.hart g
  rw [hg]
  rfl

theorem ChargeOnly.active (g : Nat) (k : KReg) (e : Nat) : (u.hart g).active k e = (s.hart g).active k e := by
  obtain ⟨v, b, hg⟩ := hu.hart g
  rw [hg]
  rfl

theorem ChargeOnly.fctl : u.h.fctl = s.h.fctl := by
  obtain ⟨v, b, hg⟩ := hu.hart s.cur
  rw [State.h, hu.same.cur_eq, hg, State.h]

theorem ChargeOnly.elem (c : Nat) (p : Shape) (e : Nat) : (u.core c).elem p e = (s.core c).elem p e := by
  obtain ⟨m, l, hc⟩ := hu.core c
  rw [hc]
  rfl

theorem ChargeOnly.badPlane (c : Nat) : (u.core c).badPlane = (s.core c).badPlane := by
  obtain ⟨m, l, hc⟩ := hu.core c
  rw [hc]

end

theorem chargeOnly_issues (s : State) (i : Instr) : ChargeOnly s (s.issues i) := by
  unfold State.issues
  split
  · exact chargeOnly_charged _ _ _ _
  · exact .refl s

end Sys2Proof.Machine
end

section
/-! The commit of an instruction of the plane that nothing keeps from running whole (R37, R128, R307). -/
namespace Sys2Proof.Machine

/-- What is usual of an instruction of the plane: it has no checks but those of R339 and of its names, issues on its names alone, is no access of memory,
and does nothing before or after its elements but set the flags and ESTART. -/
structure QOp.Plain (op : QOp) : Prop where
  kind : op.kind = .plane
  pre : ∀ a e, op.pre a e = none
  post : ∀ s h e, op.post s h e = (s, none)
  ready : ∀ s h e, op.ready s h e = true
  trace : ∀ s h e, op.trace s h e = none
  start : ∀ s h e, op.start s h e = s
  redefine : ∀ e a, op.redefine e a = a
  closing : ∀ s h e, op.closing s h e = (s, none)
  finish : ∀ s h e, op.finish s h e = s
  atEnd : ∀ a, op.atEnd a = a

/-- A name that can be used passes R46 and R125. -/
theorem Usable.checks {s : State} {n : Name} (h : Usable s n.entry n.w n.need) : n.bounds s.h = none ∧ n.widthCheck s.h = none := by
  obtain ⟨hwf, hwidth, hinside, hholds⟩ := h
  exact ⟨by simp [Name.bounds, hwf, hinside, hholds], by simp [Name.widthCheck, hwidth]⟩

theorem checkNames_of_usable {s : State} {ns : List Name} (h : ∀ n ∈ ns, Usable s n.entry n.w n.need) : checkNames s.h ns = none := by
  have hbounds : ns.findSome? (Name.bounds s.h) = none := List.findSome?_eq_none_iff.mpr fun n hn => (h n hn).checks.1
  have hwidth : ns.findSome? (Name.widthCheck s.h) = none := List.findSome?_eq_none_iff.mpr fun n hn => (h n hn).checks.2
  rw [checkNames, hbounds, hwidth]
  rfl

/-- With no write pending nothing is met: the instruction may issue and chains on nothing (R52, R53). -/
theorem Core.issueTest_of_pend_nil {c : Core} (hc : c.pend = []) (h : Nat) (a : Hart) (ns : List Name) : c.issueTest h a ns = .go [] [] := by
  have hmeets (u : Use) (dest : Bool) : c.meets u dest = [] := by simp [Core.meets, hc]
  have hchain (n : Name) : c.chainOn h a n = none := by simp [Core.chainOn, hmeets]
  simp [Core.issueTest, hmeets, List.filterMap_eq_nil_iff.mpr fun n _ => hchain n]

/-! ### A state of which one core is given -/

theorem State.hart_modH (s : State) (f : Hart → Hart) (h : Nat) : (s.modH f).hart h = if h = s.cur then f s.h else s.hart h :=
  State.hart_setHart _ _ _ _

@[simp] theorem State.h_modH (s : State) (f : Hart → Hart) : (s.modH f).h = f s.h := State.hart_setHart_same _ _ _

@[simp] theorem State.cur_modH (s : State) (f : Hart → Hart) : (s.modH f).cur = s.cur := rfl

theorem State.SameButUnits.modH {t u : State} (h : t.SameButUnits u) (f : Hart → Hart) : (t.modH f).SameButUnits u := h

/-- Core `c` of `v` is `k`, and nothing else differs from `u`. -/
structure State.CoreIs (v u : State) (c : Nat) (k : Core) : Prop where
  hart : ∀ h, v.hart h = u.hart h
  core : v.core c = k
  others : ∀ d, d ≠ c → v.core d = u.core d
  same : v.SameButUnits u

theorem State.CoreIs.refl (u : State) (c : Nat) : u.CoreIs u c (u.core c) := ⟨fun _ => rfl, rfl, fun _ _ => rfl, rfl⟩

theorem State.CoreIs.modCore {v u : State} {c : Nat} {k : Core} (h : v.CoreIs u c k) (g : Core → Core) : (v.modCore c g).CoreIs u c (g k) :=
  ⟨h.hart, by rw [State.core_modCore_same, h.core], fun d hne => by rw [State.core_modCore_ne _ _ hne, h.others d hne], h.same⟩

theorem State.CoreIs.h_eq {v u : State} {c : Nat} {k : Core} (h : v.CoreIs u c k) : v.h = u.h := by
  rw [State.h, h.same.cur_eq]
  exact h.hart _

theorem Core.dropUses_of_tileUse_none {e : QEntry} (h : e.tileUse = none) (c : Core) : c.dropUses [e] = c := by
  simp [Core.dropUses, h]

namespace QOp.Plain
variable {op : QOp} (hop : op.Plain) {s : State}
include hop

theorem vector : op.vector = true := by simp [QOp.vector, hop.kind]

section
variable (hs : Idle s)
include hs

theorem check_eq {e : QEntry} (hnames : ∀ n ∈ op.names s.h e, Usable s n.entry n.w n.need) : op.check s s.cur e = (s, none) := by
  have howner : (if op.owner then checkOwner s.h else none) = none := by simp [checkOwner, hs.owns]
  have hearly : op.early s.h e = none := by
    rw [QOp.early, howner, hop.pre, checkNames_of_usable hnames]
    rfl
  unfold QOp.check
  rw [show op.early (s.hart s.cur) e = none from hearly]
  exact hop.post s s.cur e

theorem issueTest_eq (e : QEntry) : s.issueTest s.cur op e = .go [] [] := by
  simp [State.issueTest, Core.issueTest_of_pend_nil hs.pending, State.unitsFree, hs.pending, hop.kind, hop.ready]

/-- It runs whole, on the state that its charge left. -/
theorem commitQueued_eq {i : Instr} (hentry : entryOp i = some op)
    (hnames : ∀ n ∈ op.names s.h (newEntry i op s.h), Usable s n.entry n.w n.need) :
    commitQueued i op s = .next (op.whole (s.issues i) (op.issuedAlone s (newEntry i op s.h) none)) := by
  have hroom : ¬64 ≤ s.h.queue.length := by simp [show s.h.queue = [] from hs.queues s.cur rfl]
  have hquiet : (s.defer || !s.quietCore (coreOf s.cur)) = false := by simp [hs.runs, quietCore_of_queues_nil hs.queues]
  simp only [commitQueued, if_neg hroom, hquiet, Bool.false_eq_true, if_false, hop.check_eq hs hnames, hop.issueTest_eq hs, QOp.noteIssue,
    hop.trace, State.issues, hentry]

end

/-- Where its elements meet no trap, its flags are set, ESTART is 0 and the scalar side goes on. -/
theorem whole_eq {u v : State} {e : QEntry} {f : Flags} (hsampled : e.sampled = none)
    (hrun : op.run u u.cur e e.startsAt e.len = { state := v, flags := f }) :
    op.whole u e = ((v.dropUses v.cur [e]).modH (op.completed f)).modH Hart.advance := by
  have hkind : ¬op.kind = .engine := by simp [hop.kind]
  have hbegin : op.begin_ u u.cur e = u := by rw [QOp.begin_, if_neg hkind, hop.start]
  simp only [QOp.whole, hbegin, hrun, hop.closing, QOp.retire, hop.redefine, hop.atEnd, hop.finish, State.emitSample, hsampled]

/-- It completes where its elements, performed on the state that its charge left, raise flags and give its core alone. -/
theorem completesOn {i : Instr} (hs : Idle s) (hexec : exec i s = commitQueued i op s) (hentry : entryOp i = some op)
    (hnames : ∀ n ∈ op.names s.h (newEntry i op s.h), Usable s n.entry n.w n.need) {e : QEntry}
    (he : op.issuedAlone s (newEntry i op s.h) none = e) (huse : e.tileUse = none) {v : State} {f : Flags} {k : Core}
    (hrun : op.run (s.issues i) s.cur e e.startsAt e.len = { state := v, flags := f }) (hv : v.CoreIs (s.issues i) (coreOf s.cur) k) :
    CompletesOn i s (s.issues i) (Hart.advance { (s.issues i).h with estart := 0, fctl := fctlSet s.h.fctl f }) k := by
  have hu : ChargeOnly s (s.issues i) := chargeOnly_issues s i
  have hcommit := hexec.trans (hop.commitQueued_eq hs hentry hnames)
  generalize s.issues i = u at *
  rw [he] at hcommit
  have hucur : u.cur = s.cur := hu.same.cur_eq
  have hvcur : v.cur = s.cur := hv.same.cur_eq.trans hucur
  have hwhole : op.whole u e = ((v.dropUses s.cur [e]).modH (op.completed f)).modH Hart.advance := by
    rw [← hvcur]
    refine hop.whole_eq (by rw [← he]; rfl) ?_
    rwa [hucur]
  have hdrop : (v.dropUses s.cur [e]).CoreIs u (coreOf s.cur) k := by
    have hmod := hv.modCore fun c => c.dropUses [e]
    rwa [Core.dropUses_of_tileUse_none huse] at hmod
  generalize v.dropUses s.cur [e] = w at hwhole hdrop
  have hwcur : w.cur = s.cur := hdrop.same.cur_eq.trans hucur
  have hcompleted : op.completed f w.h = { u.h with estart := 0, fctl := fctlSet s.h.fctl f } := by
    simp [QOp.completed, hop.vector, hdrop.h_eq, hu.fctl]
  refine ⟨_, hcommit.trans (congrArg _ hwhole), ?hart, hdrop.core, fun h hne => ?harts, hdrop.others, (hdrop.same.modH _).modH _⟩
  case hart => rw [State.hart_modH, State.cur_modH, if_pos hwcur.symm, State.h_modH, hcompleted]
  case harts => simp [State.hart_modH, hwcur, hne, hdrop.hart h]

end QOp.Plain

end Sys2Proof.Machine
end

section
/-! What the run of a reduction gives (R144). -/
namespace Sys2Proof.Machine

/-- With no cell uncorrectable an element reads its bits. -/
theorem Core.readElem_of_sound {c : Core} (hc : c.badPlane = []) (p : Shape) (e : Nat) : c.readElem p e = .ok (c.elem p e) := by
  simp [Core.readElem, Core.badElem, hc]

theorem redCode_eq {t : BitVec 3} (ht : t.toNat ≤ 6) : redCode t = reductionCode t.toNat := by
  have hcodes : ∀ n ≤ 6, [8, 9, 10, 2, 6, 3, 7].getD n 8 = reductionCode n := by decide
  exact hcodes _ ht

section
variable {op : Nat} {d a b : Reg} {t : BitVec 3} {y x : BitVec 1} {k : KReg}

theorem opRed_plain : (opRed op d a b t y x k).Plain :=
  ⟨rfl, fun _ _ => rfl, fun _ _ _ => rfl, fun _ _ _ => rfl, fun _ _ _ => rfl, fun _ _ _ => rfl, fun _ _ => rfl, fun _ _ _ => rfl,
    fun _ _ _ => rfl, fun _ => rfl⟩

/-- The elements of the source present, as nodes of level 0 (R75). -/
def State.nodes (s : State) (a : Reg) (k : KReg) : List (Option Nat) :=
  (List.range s.h.vl.toNat).map fun e => if k = 0 ∨ (s.h.getK k).getLsbD e then some (s.el a e) else none

/-- The value and the flags of a reduction; it performs nothing where ESTART is not below VL. -/
def State.reduction (s : State) (op : Nat) (a b : Reg) (t : BitVec 3) (k : KReg) : FRes :=
  if s.h.vl.toNat ≤ s.h.estart.toNat then (0, 0) else reduceVal op (reductionCode t.toNat) (s.el b 0) (s.nodes a k)

/-- The core that a reduction leaves. -/
def State.reduced (s : State) (c : Core) (op : Nat) (d a b : Reg) (t : BitVec 3) (k : KReg) : Core :=
  if s.h.vl.toNat ≤ s.h.estart.toNat then c else c.setElem (s.h.shapeOf d) 0 (s.reduction op a b t k).1

section
variable {s u : State} (hs : Idle s) (hu : ChargeOnly s u)
include hs hu

theorem readElem_charged (p : Shape) (e : Nat) : (u.core (coreOf s.cur)).readElem p e = .ok ((s.core (coreOf s.cur)).elem p e) := by
  rw [Core.readElem_of_sound ((hu.badPlane _).trans hs.sound), hu.elem]

theorem redNodes_charged : redNodes (u.core (coreOf s.cur)) (u.hart s.cur) a k s.h.vl.toNat = .ok (s.nodes a k) := by
  have hnode (e : Nat) : (if (u.hart s.cur).active k e then do
        let v ← (u.core (coreOf s.cur)).readElem ((u.hart s.cur).shapeOf a) e
        return some v
      else .ok none) = (pure (if k = 0 ∨ (s.h.getK k).getLsbD e then some (s.el a e) else none) : Except Nat (Option Nat)) := by
    have hactive : ((u.hart s.cur).active k e = true) = (k = 0 ∨ (s.h.getK k).getLsbD e) := by
      rw [hu.active]
      simp [Hart.active, State.h]
    rw [readElem_charged hs hu, hu.shapeOf]
    simp only [hactive]
    split <;> rfl
  unfold redNodes
  simp only [hnode]
  exact List.mapM_pure

/-- The run of a reduction on the state that its charge left. -/
theorem opRed_run (ht : t.toNat ≤ 6) {e : QEntry} (hvl : e.vl = s.h.vl.toNat) :
    ∃ v, (opRed op d a b t y x k).run u s.cur e s.h.estart.toNat s.h.vl.toNat = { state := v, flags := (s.reduction op a b t k).2 } ∧
      v.CoreIs u (coreOf s.cur) (s.reduced (u.core (coreOf s.cur)) op d a b t k) := by
  by_cases hnone : s.h.vl.toNat ≤ s.h.estart.toNat
  case pos =>
    refine ⟨u, ?_, ?_⟩
    · simp [opRed, State.reduction, hnone]
    · rw [State.reduced, if_pos hnone]
      exact .refl u _
  case neg =>
    rw [State.reduced, State.reduction, if_neg hnone, if_neg hnone]
    refine ⟨_, ?_, (State.CoreIs.refl u _).modCore fun c => c.setElem (s.h.shapeOf d) 0 _⟩
    simp only [opRed, if_neg hnone, hvl, readElem_charged hs hu, redNodes_charged hs hu, redCode_eq ht, hu.shapeOf]
    rfl

end

theorem opRed_names_usable {s : State} (ht : t.toNat ≤ 6) (hd : Usable s d (fmtWidth (reductionCode t.toNat)) 1)
    (ha : Usable s a (fmtWidth (reductionCode t.toNat)) s.h.vl.toNat) (hb : Usable s b (fmtWidth (reductionCode t.toNat)) 1) (i : Instr) :
    ∀ n ∈ (opRed op d a b t y x k).names s.h (newEntry i (opRed op d a b t y x k) s.h), Usable s n.entry n.w n.need := by
  rw [← redCode_eq ht] at hd ha hb
  simpa [opRed] using ⟨hd, ha, hb⟩

/-- A reduction that nothing keeps from running at its commit. -/
theorem completesOn_opRed {s : State} {i : Instr} (hs : Idle s) (ht : t.toNat ≤ 6) (hd : Usable s d (fmtWidth (reductionCode t.toNat)) 1)
    (ha : Usable s a (fmtWidth (reductionCode t.toNat)) s.h.vl.toNat) (hb : Usable s b (fmtWidth (reductionCode t.toNat)) 1)
    (hexec : exec i s = commitQueued i (opRed op d a b t y x k) s) (hentry : entryOp i = some (opRed op d a b t y x k))
    (huse : ((opRed op d a b t y x k).issuedAlone s (newEntry i (opRed op d a b t y x k) s.h) none).tileUse = none) :
    CompletesOn i s (s.issues i)
      (Hart.advance { (s.issues i).h with estart := 0, fctl := fctlSet s.h.fctl (s.reduction op a b t k).2 })
      (s.reduced ((s.issues i).core (coreOf s.cur)) op d a b t k) := by
  obtain ⟨v, hrun, hv⟩ := opRed_run (op := op) (d := d) (a := a) (b := b) (y := y) (x := x) (k := k) hs (chargeOnly_issues s i) ht
    (e := (opRed op d a b t y x k).issuedAlone s (newEntry i (opRed op d a b t y x k) s.h) none) rfl
  exact opRed_plain.completesOn hs hexec hentry (opRed_names_usable ht hd ha hb i) rfl huse hrun hv

end

end Sys2Proof.Machine
end

section
/-! Reductions (O39). -/
open Sys2Proof Sys2Proof.Machine

/-- Settles O39: the three run whole at their commit, and read and write what they would have before the charge of their issue. -/
theorem vectorReductions : Obligations.VectorReductions := by
  intro s d a b t y x k ht hs _ _ hd ha hb _ _
  refine ⟨?sum, ?max, ?min⟩
  all_goals exact completesOn_opRed hs ht hd ha hb rfl rfl rfl

end

section
/-! The columns of a word (R79, R80): `pack` and `unpack` undo each other, and a decoded word is one whose columns the map of R84 to R91 takes. -/
namespace Sys2Proof

/-- Columns that each keep to their bits of a word. -/
structure Slots.Fits (s : Slots) : Prop where
  fn : s.fn < 32
  c : s.c < 32
  b : s.b < 32
  a : s.a < 32
  d : s.d < 32
  op : s.op < 128

/-- The word of the columns. -/
def Slots.word (s : Slots) : W32 := pack s.fn s.c s.b s.a s.d s.op

theorem unpack_fits (w : W32) : (unpack w).Fits := by
  constructor <;> exact Nat.mod_lt _ (by decide)

theorem word_unpack (w : W32) : (unpack w).word = w := by
  apply BitVec.eq_of_toNat_eq
  simp only [Slots.word, unpack, pack, BitVec.toNat_ofNat]
  omega

theorem Slots.Fits.unpack_word {s : Slots} (hs : s.Fits) : unpack s.word = s := by
  obtain ⟨fn, c, b, a, d, op⟩ := s
  obtain ⟨hfn, hc, hb, ha, hd, hop⟩ := hs
  simp only at hfn hc hb ha hd hop
  have hword : (pack fn c b a d op).toNat = fn * 134217728 + c * 4194304 + b * 131072 + a * 4096 + d * 128 + op := by
    rw [pack, BitVec.toNat_ofNat, Nat.mod_eq_of_lt]
    omega
  simp only [Slots.word, unpack, hword, Slots.mk.injEq]
  omega

theorem decode_eq_ok {w : W32} {i : Instr} : decode w = .ok i ↔ w ≠ 0 ∧ decodeSlots (unpack w) = .ok i ∧ i.wf = true := by
  unfold decode
  by_cases hw : w = 0
  case pos => simp [hw]
  case neg =>
    simp only [hw, if_false, ne_eq, not_false_eq_true, true_and]
    cases decodeSlots (unpack w) with
    | error e => simp
    | ok j =>
      by_cases hj : j.wf = true
      · have hi : j = i → i.wf = true := fun h => h ▸ hj
        simpa [hj] using hi
      · have hi : j = i → ¬ i.wf = true := fun h => h ▸ hj
        simpa [hj] using hi

theorem allZero_eq_ok {l : List Nat} {i j : Instr} : allZero l i = .ok j ↔ (∀ n ∈ l, n = 0) ∧ i = j := by
  simp [allZero, ite_eq_iff]

@[simp] theorem allZero_nil (i : Instr) : allZero [] i = .ok i := rfl

@[simp] theorem allZero_cons_zero (l : List Nat) (i : Instr) : allZero (0 :: l) i = allZero l i := rfl

theorem ofNat_eq_of_eq_toNat {n m : Nat} {x : BitVec n} (h : m = x.toNat) : BitVec.ofNat n m = x := by
  rw [h, BitVec.ofNat_toNat, BitVec.setWidth_eq]

end Sys2Proof
end

section
/-! Every bit of a word that decodes is one that its instruction writes (R92). -/
namespace Sys2Proof

/-! ### What the fields of R80 and R81 say of the columns that they are read from -/
namespace Slots.Fits
variable {s : Slots} (hs : s.Fits)
include hs

theorem toNat_rd : s.rd.toNat = s.d := Nat.mod_eq_of_lt hs.d
theorem toNat_ra : s.ra.toNat = s.a := Nat.mod_eq_of_lt hs.a
theorem toNat_rb : s.rb.toNat = s.b := Nat.mod_eq_of_lt hs.b
theorem toNat_rc : s.rc.toNat = s.c := Nat.mod_eq_of_lt hs.c
theorem toNat_rf : s.rf.toNat = s.fn := Nat.mod_eq_of_lt hs.fn

theorem packI_i15 (a d op : Nat) : packI s.i15 a d op = pack s.fn s.c s.b a d op := by
  obtain ⟨hfn, hc, hb, -, -, -⟩ := hs
  simp only [packI, i15, BitVec.toNat_ofNat]
  congr 1 <;> omega

theorem packU_i20 (d op : Nat) : packU s.i20 d op = pack s.fn s.c s.b s.a d op := by
  obtain ⟨hfn, hc, hb, ha, -, -⟩ := hs
  simp only [packU, i20, BitVec.toNat_ofNat]
  congr 1 <;> omega

theorem toNat_i12 : s.i12.toNat = s.fn % 4 * 1024 + s.c * 32 + s.b := by
  obtain ⟨-, hc, hb, -, -, -⟩ := hs
  simp only [i12, BitVec.toNat_ofNat]
  omega

theorem i12_high : s.i12.toNat / 1024 = s.fn % 4 := by
  have hc := hs.c
  have hb := hs.b
  rw [hs.toNat_i12]
  omega

theorem i12_middle : s.i12.toNat / 32 % 32 = s.c := by
  have hc := hs.c
  have hb := hs.b
  rw [hs.toNat_i12]
  omega

theorem i12_low : s.i12.toNat % 32 = s.b := by
  have hb := hs.b
  rw [hs.toNat_i12]
  omega

theorem eb_ea_k : s.eb.toNat * 16 + s.ea.toNat * 8 + s.k.toNat = s.c := by
  have hc := hs.c
  simp only [eb, ea, k, BitVec.toNat_ofNat]
  omega

end Slots.Fits

theorem Slots.ea_k (s : Slots) : s.ea.toNat * 8 + s.k.toNat = s.c % 16 := by
  simp only [ea, k, BitVec.toNat_ofNat]
  omega

/-! ### The leaves of the map -/

/-- What the decoder answers for the columns, where it is an instruction, has their word. -/
def Slots.WrittenBack (s : Slots) (r : Except Reject Instr) : Prop := ∀ i, r = .ok i → encode i = s.word

theorem Slots.writtenBack_error {s : Slots} {e : Reject} : s.WrittenBack (.error e) := nofun

theorem Slots.writtenBack_ok {s : Slots} {i : Instr} : s.WrittenBack (.ok i) ↔ encode i = s.word := by simp [WrittenBack]

theorem Slots.writtenBack_allZero {s : Slots} {l : List Nat} {i : Instr} :
    s.WrittenBack (allZero l i) ↔ ((∀ n ∈ l, n = 0) → encode i = s.word) := by simp [WrittenBack, allZero_eq_ok]

/-- At each leaf of the map the encoder puts every field where it was read: whole columns at once, and columns in parts by their quotient and
remainder. -/
theorem Slots.Fits.writtenBack {s : Slots} (hs : s.Fits) : s.WrittenBack (decodeSlots s) := by
  fun_cases decodeSlots s
  all_goals
    simp only [writtenBack_error, writtenBack_ok, writtenBack_allZero, List.forall_mem_cons, List.not_mem_nil, false_implies, implies_true, and_true]
  all_goals
    intros
    simp only [encode, word, hs.packI_i15, hs.packU_i20, hs.i12_high, hs.i12_middle, hs.i12_low, ↓hs.eb_ea_k, ↓ea_k, eb, k,
      hs.toNat_rd, hs.toNat_ra, hs.toNat_rb, hs.toNat_rc, hs.toNat_rf, BitVec.toNat_ofNat, *]
  all_goals
    obtain ⟨hfn, hc, hb, ha, hd, -⟩ := hs
    congr 1 <;> omega

end Sys2Proof
end

section
/-! The decoder reads back what the encoder writes (R80 to R92). -/
namespace Sys2Proof

/-! ### Fields read from a column that holds them -/
namespace Slots
variable (fn c b a d op : Nat)

@[simp] theorem rd_mk (r : Reg) : rd ⟨fn, c, b, a, r.toNat, op⟩ = r := ofNat_eq_of_eq_toNat rfl
@[simp] theorem ra_mk (r : Reg) : ra ⟨fn, c, b, r.toNat, d, op⟩ = r := ofNat_eq_of_eq_toNat rfl
@[simp] theorem rb_mk (r : Reg) : rb ⟨fn, c, r.toNat, a, d, op⟩ = r := ofNat_eq_of_eq_toNat rfl
@[simp] theorem rc_mk (r : Reg) : rc ⟨fn, r.toNat, b, a, d, op⟩ = r := ofNat_eq_of_eq_toNat rfl
@[simp] theorem rf_mk (r : Reg) : rf ⟨r.toNat, c, b, a, d, op⟩ = r := ofNat_eq_of_eq_toNat rfl

@[simp] theorem i15_mk (i : BitVec 15) : i15 ⟨i.toNat / 1024, i.toNat / 32 % 32, i.toNat % 32, a, d, op⟩ = i :=
  ofNat_eq_of_eq_toNat (by dsimp only; omega)
@[simp] theorem i20_mk (i : BitVec 20) : i20 ⟨i.toNat / 32768, i.toNat / 1024 % 32, i.toNat / 32 % 32, i.toNat % 32, d, op⟩ = i :=
  ofNat_eq_of_eq_toNat (by dsimp only; omega)
@[simp] theorem i12_mk (i : BitVec 12) : i12 ⟨i.toNat / 1024, i.toNat / 32 % 32, i.toNat % 32, a, d, op⟩ = i :=
  ofNat_eq_of_eq_toNat (by dsimp only; omega)
@[simp] theorem i12_mk_add {n : Nat} (i : BitVec 12) (h : n % 4 = 0) :
    i12 ⟨i.toNat / 1024 + n, i.toNat / 32 % 32, i.toNat % 32, a, d, op⟩ = i := ofNat_eq_of_eq_toNat (by dsimp only; omega)

section
variable (x y : BitVec 1) (m : KReg)

@[simp] theorem eb_mk : eb ⟨fn, y.toNat * 16 + x.toNat * 8 + m.toNat, b, a, d, op⟩ = y := ofNat_eq_of_eq_toNat (by dsimp only; omega)
@[simp] theorem ea_mk : ea ⟨fn, y.toNat * 16 + x.toNat * 8 + m.toNat, b, a, d, op⟩ = x := ofNat_eq_of_eq_toNat (by dsimp only; omega)
@[simp] theorem k_mk : k ⟨fn, y.toNat * 16 + x.toNat * 8 + m.toNat, b, a, d, op⟩ = m := ofNat_eq_of_eq_toNat (by dsimp only; omega)
@[simp] theorem ea_mk_ea_k : ea ⟨fn, x.toNat * 8 + m.toNat, b, a, d, op⟩ = x := ofNat_eq_of_eq_toNat (by dsimp only; omega)
@[simp] theorem k_mk_ea_k : k ⟨fn, x.toNat * 8 + m.toNat, b, a, d, op⟩ = m := ofNat_eq_of_eq_toNat (by dsimp only; omega)
@[simp] theorem eb_mk_eb_k : eb ⟨fn, y.toNat * 16 + m.toNat, b, a, d, op⟩ = y := ofNat_eq_of_eq_toNat (by dsimp only; omega)
@[simp] theorem k_mk_eb_k : k ⟨fn, y.toNat * 16 + m.toNat, b, a, d, op⟩ = m := ofNat_eq_of_eq_toNat (by dsimp only; omega)
@[simp] theorem k_mk_k : k ⟨fn, m.toNat, b, a, d, op⟩ = m := ofNat_eq_of_eq_toNat (by dsimp only; omega)
end

end Slots

/-! ### Parts of a column -/
section
variable {n : Nat} (x : BitVec 1) (u w : BitVec 2) (k : BitVec 3)

theorem div_two : x.toNat / 2 = 0 := by omega
theorem ofNat_mod_two : BitVec.ofNat 1 (x.toNat % 2) = x := ofNat_eq_of_eq_toNat (by omega)
theorem div_four : w.toNat / 4 = 0 := by omega
theorem ofNat_mod_four : BitVec.ofNat 2 (w.toNat % 4) = w := ofNat_eq_of_eq_toNat (by omega)
theorem div_eight : k.toNat / 8 = 0 := by omega
theorem ofNat_mod_eight : BitVec.ofNat 3 (k.toNat % 8) = k := ofNat_eq_of_eq_toNat (by omega)

/-! A part at the bottom of a column under the number that tells its instruction from the others of its opcode. -/
theorem ofNat_add_mod_four (h : n % 4 = 0) : BitVec.ofNat 2 ((w.toNat + n) % 4) = w := ofNat_eq_of_eq_toNat (by omega)
theorem add_div_four (h : n % 4 = 0) : (w.toNat + n) / 4 = n / 4 := by omega
theorem add_div_eight (h : n % 8 = 0) : (k.toNat + n) / 8 = n / 8 := by omega
theorem ofNat_add_mod_eight (h : n % 8 = 0) : BitVec.ofNat 3 ((k.toNat + n) % 8) = k := ofNat_eq_of_eq_toNat (by omega)

/-! A part at the top of a column. -/
theorem mul_add_div_of_lt {q m : Nat} (h : n < m) : (q * m + n) / m = q := by
  rw [Nat.add_comm, Nat.add_mul_div_right _ _ (by omega), Nat.div_eq_of_lt h, Nat.zero_add]
theorem mul_add_div_four (q : Nat) : (q * 4 + w.toNat) / 4 = q := mul_add_div_of_lt w.isLt
theorem mul_add_div_eight (q : Nat) : (q * 8 + k.toNat) / 8 = q := mul_add_div_of_lt k.isLt

/-! The element bits and the mask of format V, the two lengths of SETVL, the slide of a shift, the order of a linked access, and the immediates in
parts. -/
theorem ea_k_div : (x.toNat * 8 + k.toNat) / 16 = 0 := by omega
theorem eb_k_mod : (x.toNat * 16 + k.toNat) / 8 % 2 = 0 := by omega
theorem lengths_div : (u.toNat * 4 + w.toNat) / 16 = 0 := by omega
theorem shift_div : (x.toNat * 4 + w.toNat) / 8 = 0 := by omega
theorem shift_add_div (h : n % 8 = 0) : (x.toNat * 4 + w.toNat + n) / 8 = n / 8 := by omega
theorem ofNat_shift_add_mid (h : n % 8 = 0) : BitVec.ofNat 1 ((x.toNat * 4 + w.toNat + n) / 4 % 2) = x := ofNat_eq_of_eq_toNat (by omega)
theorem ofNat_shift_add_low (h : n % 8 = 0) : BitVec.ofNat 2 ((x.toNat * 4 + w.toNat + n) % 4) = w := ofNat_eq_of_eq_toNat (by omega)
theorem linked_lt : x.toNat * 2 < 4 := by omega
theorem linked_add_div (h : n % 4 < 2) : (x.toNat * 2 + n) / 4 = n / 4 := by omega
theorem ofNat_linked_mid (h : n % 4 < 2) : BitVec.ofNat 1 ((x.toNat * 2 + n) / 2 % 2) = x := ofNat_eq_of_eq_toNat (by omega)
theorem shamt_le (i : BitVec 6) : i.toNat / 32 ≤ 1 := by omega
theorem shamt_add_div (i : BitVec 6) (h : n % 2 = 0) : (i.toNat / 32 + n) / 2 = n / 2 := by omega
theorem ofNat_shamt (i : BitVec 6) : BitVec.ofNat 6 (i.toNat / 32 % 2 * 32 + i.toNat % 32) = i := ofNat_eq_of_eq_toNat (by omega)
theorem ofNat_shamt_add (i : BitVec 6) (h : n % 2 = 0) : BitVec.ofNat 6 ((i.toNat / 32 + n) % 2 * 32 + i.toNat % 32) = i :=
  ofNat_eq_of_eq_toNat (by omega)
theorem ofNat_ten (i : BitVec 10) : BitVec.ofNat 10 (i.toNat / 32 * 32 + i.toNat % 32) = i := ofNat_eq_of_eq_toNat (by omega)
theorem number_div (i : BitVec 12) : i.toNat / 1024 / 4 = 0 := by omega
theorem number_add_div (i : BitVec 12) (h : n % 4 = 0) : (i.toNat / 1024 + n) / 4 = n / 4 := by omega

end

/-! ### Instructions -/

/-- The map takes the columns of the instruction's word to the instruction. -/
def Instr.ReadBack (i : Instr) : Prop := decodeSlots (unpack (encode i)) = .ok i

/-- An instruction is read back where the leaf that its columns lead to is the instruction. -/
theorem readBack_of_leaf {i : Instr} {leaf : Except Reject Instr} {fn c b a d op : Nat} (hencode : encode i = pack fn c b a d op)
    (hdecode : decodeSlots ⟨fn, c, b, a, d, op⟩ = leaf) (hfits : fn < 32 ∧ c < 32 ∧ b < 32 ∧ a < 32 ∧ d < 32 ∧ op < 128)
    (hleaf : leaf = .ok i) : i.ReadBack := by
  obtain ⟨hfn, hc, hb, ha, hd, hop⟩ := hfits
  have hcolumns : Slots.Fits ⟨fn, c, b, a, d, op⟩ := ⟨hfn, hc, hb, ha, hd, hop⟩
  have hword : encode i = Slots.word ⟨fn, c, b, a, d, op⟩ := hencode
  rw [Instr.ReadBack, hword, hcolumns.unpack_word, hdecode, hleaf]

/-- Every well-formed instruction that has a word is read back. The cases are its leaf in the map: an instruction at once, one whose unused
fields must be zero, or a choice by a part of a column. -/
theorem readBack_of_wf (i : Instr) (hword : encode i ≠ 0) (hwf : i.wf = true) : i.ReadBack := by
  cases i
  case sel | faddF32 | fsubF32 | fmulF32 | fdivF32 | fcvtFromFloatF32 | faddF16 | fsubF16 | fmulF16 | fdivF16 | fcvtFromFloatF16
      | faddBf16 | fsubBf16 | fmulBf16 | fdivBf16 | fcvtFromFloatBf16 | sqopen | tfetch | acopy | tdrain | bankopSplit | bankopJoin
      | bankopXp8 | bankopXp16 | bankopDenc | bankopDdec | bankopZsum | qsend | qrecv | fgather | freduce | fflag | phend | twaitTake
      | addi | andi | ori | xori | slti | sltiu | lb | lh | lw | ld | lbu | lhu | sb | sh | sw | sd | beq | bne | blt | bge | jalr | loop
      | lui | auipc | jal | vaddVv | vsubVv | vmulVv | vfmaVv | vmin | vmax | vdiv | vclamp | vcvtsw =>
    exact readBack_of_leaf (leaf := .ok _) rfl rfl (by omega) (by simp)
  case acas | fmadd | vidx =>
    exact readBack_of_leaf (leaf := .ok _) rfl rfl (by omega)
      (by simp [mul_add_div_four, ofNat_mod_four, mul_add_div_eight, ofNat_mod_eight, ofNat_ten])
  case add | sub | and | or | xor | sll | srl | sra | slt | sltu | min | max | minu | maxu | mul | mulh | mulhu | div | divu | rem | remu
      | clz | ctz | cpop | fminF32 | fmaxF32 | feqF32 | fltF32 | fleF32 | fminF16 | fmaxF16 | feqF16 | fltF16 | fleF16 | fminBf16 | fmaxBf16
      | feqBf16 | fltBf16 | fleBf16 | fsqrtF32 | fsqrtF16 | fsqrtBf16 | fcvtToI64F32 | fcvtToN64F32 | fcvtFromI64F32 | fcvtFromN64F32
      | fcvtToI64F16 | fcvtToN64F16 | fcvtFromI64F16 | fcvtFromN64F16 | fcvtToI64Bf16 | fcvtToN64Bf16 | fcvtFromI64Bf16 | fcvtFromN64Bf16
      | exit | scall | tret | icinv | yieldP | xlinv | nawait | vdef | vdgeta | vdgetb | aczero | acrd | acwr | tilerel | sqclose | sqpop
      | vldz | fread | lsync | roinv | cmread | tsub | tchk | tdone | mgopen | mgclose | mgdrain | mgpush | fcoll | trec | dget =>
    exact readBack_of_leaf (leaf := allZero _ _) rfl rfl (by omega) (by simp)
  case vaddVx | vsubVx | vmulVx | vfmaVx | vsqrt | vcvt | vcvtsn | vscale | vconfl | vscadd | vsel | kand | kor | kxor | kandn | knot | kpop
      | kfirst | setvl | tilewait | brk =>
    exact readBack_of_leaf (leaf := allZero _ _) rfl rfl (by omega)
      (by simp [ea_k_div, eb_k_mod, lengths_div, mul_add_div_four, div_two, ofNat_mod_two, div_four, ofNat_mod_four, div_eight, ofNat_mod_eight, ofNat_ten])
  case crr | crw | crs | crc => exact readBack_of_leaf (leaf := ite _ _ _) rfl rfl (by omega) (by simp [number_div, number_add_div])
  case slli | srli | srai =>
    exact readBack_of_leaf (leaf := ite _ _ _) rfl rfl (by omega) (by simp [shamt_le, shamt_add_div, ofNat_shamt, ofNat_shamt_add])
  case vsll | vsrl | vsra | vslideup | vslidedn =>
    exact readBack_of_leaf (leaf := ite _ _ _) rfl rfl (by omega)
      (by simp [shift_div, shift_add_div, mul_add_div_four, ofNat_mod_two, ofNat_mod_four, ofNat_shift_add_mid, ofNat_shift_add_low, ea_k_div])
  case vand | vor | vxor | vandn | vorn | vcompress | vexpand | vmv | vbcast | vgetx | vputx =>
    exact readBack_of_leaf (leaf := ite _ _ _) rfl rfl (by omega) (by simp [div_four, ofNat_mod_four, add_div_four, ofNat_add_mod_four, ea_k_div])
  case vredsum | vredmax | vredmin | vcmpeqVv | vcmpneVv | vcmpltVv | vcmpleVv | vcmpeqVx | vcmpneVx | vcmpltVx | vcmpleVx =>
    exact readBack_of_leaf (leaf := ite _ _ _) rfl rfl (by omega)
      (by simp [div_eight, ofNat_mod_eight, add_div_eight, ofNat_add_mod_eight, ea_k_div])
  case mma | mmas | mmag | vldm | vlds | vldro | vstm | vsts | vldi | vldiw | vsti | vstiw | aadd | aand | aor | axor | amin | amax | aminu
      | amaxu | aswap =>
    exact readBack_of_leaf (leaf := ite _ _ _) rfl rfl (by omega)
      (by simp [mul_add_div_of_lt, mul_add_div_four, ofNat_mod_four, div_eight, eb_k_mod])
  case vgl | vglw | vsc | vscw =>
    exact readBack_of_leaf (leaf := ite _ _ _) rfl rfl (by omega) (by simp [linked_lt, linked_add_div, ofNat_linked_mid, eb_k_mod])
  case fence | bar | waita | vwaita | mgwait => exact readBack_of_leaf (leaf := ite _ _ _) rfl rfl (by omega) (by simp)
  case twait a _ =>
    have ha : a.toNat ≠ 0 := by simpa [Instr.wf, BitVec.toNat_eq] using hwf
    exact readBack_of_leaf (leaf := ite _ _ _) rfl rfl (by omega) (by simp [ha])
  case vld w | vst w =>
    obtain rfl | rfl | rfl | rfl : w = 0 ∨ w = 1 ∨ w = 2 ∨ w = 3 := by bv_omega
    all_goals exact readBack_of_leaf (leaf := .ok _) rfl rfl (by omega) (by simp)
  -- An event of the device has no word.
  all_goals exact absurd rfl hword

end Sys2Proof
end

section
/-! The decoder and the encoder (O3 to O5). -/
open Sys2Proof Sys2Proof.Machine

/-- Settles O3: the ten words are decoded. -/
theorem decodeWords : Obligations.DecodeWords := by
  unfold Obligations.DecodeWords
  decide +kernel

/-- Settles O4: the columns that the encoder writes stay apart, and lead the map to the instruction they were written for. -/
theorem decodeEncode : Obligations.DecodeEncode := by
  intro i hisWord hwf
  have hword : encode i ≠ 0 := of_decide_eq_true hisWord
  exact decode_eq_ok.2 ⟨hword, readBack_of_wf i hword hwf, hwf⟩

/-- Settles O5: the encoder puts each field where the decoder read it, and the fields left out are those that must be zero. -/
theorem encodeDecode : Obligations.EncodeDecode := by
  intro w i h
  obtain ⟨-, hslots, hwf⟩ := decode_eq_ok.1 h
  exact ⟨hwf, ((unpack_fits w).writtenBack i hslots).trans (word_unpack w)⟩

end

section
/-! A word that is no instruction, and the step at the word that a running hart fetches (R92, R307, R381). -/
namespace Sys2Proof.Machine

theorem traps_illegalWord {s : State} (w : W32) (hq : s.h.queue = []) : Traps (.illegalWord w) s 1 (w.setWidth 64) s.h.pc := by
  have hempty : s.h.queue.isEmpty = true := by simp [hq]
  exact completes_setHart (if_pos hempty)

/-- A hart none of whose stop units is enabled (bit 0 of its first word) is stopped by none of them. -/
theorem Hart.stopUnits_of_disabled {a : Hart} (hoff : ∀ u ∈ a.stops.toList, u.w0.getLsbD 0 = false) : a.stopUnits = [] := by
  have hnone : (a.stops.toList.zipIdx.filter fun u => u.1.on a a.pc && (!u.1.fired || a.queue.any fun e => e.pc == a.pc)) = [] := by
    refine List.filter_eq_nil_iff.mpr fun u hu => ?_
    have hdisabled : u.1.w0.getLsbD 0 = false := hoff u.1 (List.fst_mem_of_mem_zipIdx hu)
    rw [StopUnit.on, hdisabled]
    simp
  rw [Hart.stopUnits, hnone, List.foldl_nil]

/-- With nothing in its queue, no wait, no step request and no enabled stop unit, a hart's commit is the instruction at its PC. -/
theorem State.planCommit_eq_planFetch {s : State} (hstepping : s.h.stepping = none) (hwait : s.h.wait = none) (hstops : s.h.stopUnits = [])
    (hqueue : s.h.queue = []) : s.planCommit = s.planFetch := by
  simp [State.planCommit, hstepping, hwait, hstops, hqueue]

theorem Hart.active?_of_running {a : Hart} (hrun : a.run = .running) (hfrozen : a.frozen = false) (hskid : a.skid = none) : a.active? = true := by
  simp [Hart.active?, hrun, hfrozen, hskid]

theorem State.planHart_of_active {s : State} (hactive : s.h.active? = true) : s.planHart = s.planCommit := if_pos hactive

theorem State.plan_of_run {s : State} {h : Nat} {l : List Agenda} (hpower : s.power = true) (hinject : s.inject = none)
    (hretests : s.retests = []) (hagenda : s.agenda = .run h :: l) :
    s.plan = State.planHart { s with agenda := l, cur := h, defer := false } := by
  simp [State.plan, hpower, hinject, hretests, hagenda, Agenda.plan]

theorem State.planFetch_of_decodes {s s1 : State} {w : W32} {i : Instr} (hfetch : s.fetch s.cur = (s1, .word w)) (hdecode : decode w = .ok i) :
    s.planFetch = .go i s1 (.commit s.cur i s.h.pc s.h.sup s.h.loops) := by
  simp [State.planFetch, hfetch, hdecode]

theorem State.planFetch_of_refused {s s1 : State} {w : W32} {e : Reject} (hfetch : s.fetch s.cur = (s1, .word w)) (hdecode : decode w = .error e) :
    s.planFetch = .illegal w s1 (.commit s.cur .exit s.h.pc s.h.sup s.h.loops) := by
  simp [State.planFetch, hfetch, hdecode]

theorem step_of_plan_go {s s1 t : State} {i : Instr} {k : After} (hplan : s.plan = .go i s1 k) (hexec : exec i s1 = .next t) :
    step s = .next (k.close s1 t) := by
  simp [step, hplan, hexec]

theorem step_of_plan_illegal {s s1 t : State} {w : W32} {k : After} (hplan : s.plan = .illegal w s1 k)
    (hexec : exec (.illegalWord w) s1 = .next t) : step s = .next (k.close s1 t) := by
  have hillegal : execIllegalWord w s1 = .next t := hexec
  simp [step, hplan, hillegal]

/-- A commit's end: its bookkeeping, or only the next turn where a write packet had no place. -/
theorem After.close_commit (s1 t : State) (h : Nat) (c : Instr) (pc : Word) (sup : Bool) (loops : Vector (Option LoopLevel) 6) :
    (t.fabric.stalled = false → (After.commit h c pc sup loops).close s1 t = (t.committed h c pc sup loops).settle) ∧
    (t.fabric.stalled = true → (After.commit h c pc sup loops).close s1 t = s1.passTurn.settle) := by
  constructor <;> intro hstalled <;> simp [After.close, After.finish, After.stall, hstalled]

end Sys2Proof.Machine
end

section
/-! Words that are no instructions, and the step that runs a decoded one (O6, O7). -/
open Sys2Proof Sys2Proof.Machine

/-- Settles O6: the instruction of such a word raises ILLEGAL, as `illegal` does for a word of the table. -/
theorem illegalWords : Obligations.IllegalWords := fun w _ hq => traps_illegalWord w hq

/-- Settles O7: the plan of the step is the fetch, since nothing stops the hart, and then the word's instruction or its ILLEGAL trap. -/
theorem stepRunsDecoded : Obligations.StepRunsDecoded := by
  intro s s1 t h l w i c hword hpower hinject hretests hagenda hrun hfrozen hskid hwait hstepping hstops hqueue hfetch hexec
  have hplan : s.plan = State.planFetch { s with agenda := l, cur := h, defer := false } := by
    rw [State.plan_of_run hpower hinject hretests hagenda, State.planHart_of_active]
    · exact State.planCommit_eq_planFetch hstepping hwait (Hart.stopUnits_of_disabled hstops) hqueue
    · exact Hart.active?_of_running hrun hfrozen hskid
  have hstep : step s = .next ((After.commit h c (s.hart h).pc (s.hart h).sup (s.hart h).loops).close s1 t) := by
    obtain ⟨hdecode, rfl⟩ | ⟨⟨e, hdecode⟩, rfl, rfl⟩ := hword
    · exact step_of_plan_go (hplan.trans (State.planFetch_of_decodes hfetch hdecode)) hexec
    · exact step_of_plan_illegal (hplan.trans (State.planFetch_of_refused hfetch hdecode)) hexec
  obtain ⟨hgoes, hstalls⟩ := After.close_commit s1 t h c (s.hart h).pc (s.hart h).sup (s.hart h).loops
  rw [hstep]
  exact ⟨fun hstalled => by rw [hgoes hstalled], fun hstalled => by rw [hstalls hstalled]⟩

end

section
/-! Words taken out of a run of bytes (R79, R95). -/
namespace Sys2Proof.Machine

theorem wordOfBytes_eq_leNat (b0 b1 b2 b3 : Byte) : wordOfBytes b0 b1 b2 b3 = .ofNat 32 (leNat [b0, b1, b2, b3]) := by
  simp only [wordOfBytes, leNat]
  congr 1
  omega

theorem getElem?_chunks (n k i : Nat) (l : List Byte) (hi : i < k) : (chunks n k l)[i]? = some (leNat ((l.drop (n * i)).take n)) := by
  induction k generalizing l i with
  | zero => omega
  | succ k ih =>
    cases i with
    | zero => simp [chunks]
    | succ i => simp [chunks, ih i (l.drop n) (by omega), List.drop_drop, Nat.mul_succ, Nat.add_comm]

theorem length_chunks (n k : Nat) (l : List Byte) : (chunks n k l).length = k := by
  induction k generalizing l with
  | zero => rfl
  | succ k ih => simp [chunks, ih]

theorem mem_wordsAt {q k : Nat} {w : W32} {l : List Nat} : (k, w) ∈ wordsAt q l ↔ ∃ i n, l[i]? = some n ∧ k = q + 4 * i ∧ w = .ofNat 32 n := by
  induction l generalizing q with
  | nil => simp [wordsAt]
  | cons v l ih =>
    simp only [wordsAt, List.mem_cons, Prod.mk.injEq, ih]
    constructor
    · rintro (⟨rfl, rfl⟩ | ⟨i, n, hn, rfl, rfl⟩)
      · exact ⟨0, v, rfl, rfl, rfl⟩
      · exact ⟨i + 1, n, hn, by omega, rfl⟩
    · rintro ⟨i, n, hn, rfl, rfl⟩
      cases i with
      | zero =>
        obtain rfl : v = n := by simpa using hn
        exact .inl ⟨rfl, rfl⟩
      | succ i => exact .inr ⟨i, n, hn, by omega, rfl⟩

/-- Four consecutive entries of a table of 64 bytes. -/
theorem take_four_of_table (f : Nat → Byte) {i : Nat} (hi : i < 16) :
    (((List.range 64).map f).drop (4 * i)).take 4 = [f (4 * i), f (4 * i + 1), f (4 * i + 2), f (4 * i + 3)] := by
  rw [← List.map_drop, List.range_eq_range', List.drop_range', show 64 - 4 * i = 60 - 4 * i + 4 by omega]
  simp [List.range'_succ]

/-- The words of a sector that lies at `q`, from its bytes. -/
theorem mem_wordsAt_sector {q k : Nat} {w : W32} (f : Nat → Byte) : (k, w) ∈ wordsAt q (chunks 4 16 ((List.range 64).map fun j => f (q + j))) ↔
    ∃ i, i < 16 ∧ k = q + 4 * i ∧ w = wordOfBytes (f k) (f (k + 1)) (f (k + 2)) (f (k + 3)) := by
  have hword (i : Nat) (hi : i < 16) : (chunks 4 16 ((List.range 64).map fun j => f (q + j)))[i]? =
      some (leNat [f (q + 4 * i), f (q + 4 * i + 1), f (q + 4 * i + 2), f (q + 4 * i + 3)]) := by
    rw [getElem?_chunks _ _ _ _ hi, take_four_of_table _ hi]
    simp only [Nat.add_assoc]
  rw [mem_wordsAt]
  constructor
  · rintro ⟨i, n, hn, rfl, rfl⟩
    have hi : i < 16 := by simpa [length_chunks] using (List.getElem?_eq_some_iff.mp hn).1
    rw [hword i hi, Option.some.injEq] at hn
    exact ⟨i, hi, rfl, by rw [wordOfBytes_eq_leNat, hn]⟩
  · rintro ⟨i, hi, rfl, rfl⟩
    exact ⟨i, _, hword i hi, rfl, wordOfBytes_eq_leNat _ _ _ _⟩

/-- Entries put one after another leave a key that none of them names. -/
theorem FMap.find?_foldl_put_ne {β : Type} {ws : List (Nat × β)} {k : Nat} (hne : ∀ w ∈ ws, w.1 ≠ k) (m : FMap β) :
    FMap.find? (ws.foldl (fun m w => FMap.put m w.1 w.2) m) k = FMap.find? m k := by
  induction ws generalizing m with
  | nil => rfl
  | cons w ws ih =>
    rw [List.foldl_cons, ih (fun x hx => hne x (List.mem_cons_of_mem _ hx)), FMap.find?_put_ne _ _ (hne w List.mem_cons_self).symm]

/-- Entries put one after another give a key the value that all those give it which name it. -/
theorem FMap.find?_foldl_put_same {β : Type} {ws : List (Nat × β)} {k : Nat} {v : β} (hall : ∀ w ∈ ws, w.1 = k → w.2 = v) (m : FMap β)
    (hsome : FMap.find? m k = some v ∨ (k, v) ∈ ws) : FMap.find? (ws.foldl (fun m w => FMap.put m w.1 w.2) m) k = some v := by
  induction ws generalizing m with
  | nil => simpa using hsome
  | cons w ws ih =>
    rw [List.foldl_cons]
    refine ih (fun x hx => hall x (List.mem_cons_of_mem _ hx)) _ ?_
    by_cases hkey : w.1 = k
    · left
      rw [← hkey, FMap.find?_put_same, hall w List.mem_cons_self hkey]
    · rw [FMap.find?_put_ne _ _ (Ne.symm hkey)]
      refine hsome.imp_right fun hmem => ?_
      rcases List.mem_cons.mp hmem with rfl | hmem
      · exact absurd rfl hkey
      · exact hmem

end Sys2Proof.Machine
end

section
/-! Filling a sector of an L2, and the instruction-cache line that a fetch fills from it (R95, R178, R364). -/
namespace Sys2Proof.Machine

/-! ### The places of a line (R363, R364) -/

/-- A byte whose L2 copy is kept under the address itself. -/
def State.Direct (s : State) (p : Nat) : Prop := (s.place p).cached = true ∧ s.fold p = p

/-- Device memory, the host, or a peer's window other than the module's own, which is folded (R363). -/
theorem State.direct_iff {s : State} {p : Nat} : s.Direct p ↔ (s.hdm ≤ p ∧ p < s.hdm + Config.hdmLen) ∨ p < Config.peerBase ∨
    p < Config.peerTop ∧ ¬((p - Config.peerBase) / Config.peerLen = s.fabric.chip ∧ (p - Config.peerBase) % Config.peerLen < Config.hdmLen) := by
  unfold State.Direct State.fold State.place
  by_cases hdevice : s.hdm ≤ p ∧ p < s.hdm + Config.hdmLen
  · simp only [hdevice, and_self, if_true, Place.cached, true_or, iff_true, true_and]
    omega
  by_cases hhost : p < Config.peerBase
  · simp [hdevice, hhost, Place.cached]
  by_cases hpeer : p < Config.peerTop
  · by_cases hown : (p - Config.peerBase) / Config.peerLen = s.fabric.chip ∧ (p - Config.peerBase) % Config.peerLen < Config.hdmLen
    · simp only [hdevice, hhost, hpeer, hown, if_false, if_true, and_self, not_true, and_false, or_self, iff_false, beq_self_eq_true, decide_true,
        Bool.and_self]
      omega
    · simp [hdevice, hhost, hpeer, hown, Place.cached]
  · simp only [hdevice, hhost, hpeer, if_false, or_self, false_and, iff_false]
    split_ifs <;> simp [Place.cached]

/-- The ranges of R364 begin and end at lines: where the first byte of one is kept under its own address, so is each. -/
theorem State.Direct.of_line {s : State} {n p : Nat} (hbase : s.Direct (n * 256)) (haligned : s.hdm % 256 = 0) (hline : p / 256 = n) : s.Direct p := by
  rw [State.direct_iff] at hbase ⊢
  have hchip : Config.peerBase ≤ n * 256 → (p - Config.peerBase) / Config.peerLen = (n * 256 - Config.peerBase) / Config.peerLen := by
    simp only [Config.peerBase, Config.peerLen]; omega
  have hoffset : Config.peerBase ≤ n * 256 → ((p - Config.peerBase) % Config.peerLen < Config.hdmLen ↔
      (n * 256 - Config.peerBase) % Config.peerLen < Config.hdmLen) := by
    simp only [Config.peerBase, Config.peerLen, Config.hdmLen]; omega
  by_cases hhost : n * 256 < Config.peerBase
  · refine .inr (.inl ?_)
    simp only [Config.peerBase] at hhost ⊢
    omega
  · rw [hchip (by omega), hoffset (by omega)]
    refine hbase.imp ?_ fun hrest => hrest.imp ?_ (And.imp_left ?_)
    all_goals simp only [Config.peerBase, Config.peerTop, Config.hdmLen]; omega

/-! ### One sector filled (R178) -/

@[simp] theorem State.place_l2Fill (s : State) (c sec p : Nat) : (s.l2Fill c sec).place p = s.place p := by
  unfold State.l2Fill; split <;> rfl

@[simp] theorem State.fold_l2Fill (s : State) (c sec p : Nat) : (s.l2Fill c sec).fold p = s.fold p := by
  unfold State.l2Fill; split <;> rfl

@[simp] theorem State.badAt_l2Fill (s : State) (c sec p : Nat) : (s.l2Fill c sec).badAt p = s.badAt p := by
  unfold State.l2Fill; split <;> rfl

@[simp] theorem State.homeByte_l2Fill (s : State) (c sec p : Nat) : (s.l2Fill c sec).homeByte p = s.homeByte p := by
  unfold State.l2Fill; split <;> rfl

@[simp] theorem State.icache_l2Fill (s : State) (c sec : Nat) : ((s.l2Fill c sec).core c).icache = (s.core c).icache := by
  unfold State.l2Fill; split <;> simp

theorem State.find?_l2Fill_ne (s : State) (c : Nat) {sec x : Nat} (hne : x ≠ sec) :
    FMap.find? ((s.l2Fill c sec).core c).l2 x = FMap.find? (s.core c).l2 x := by
  unfold State.l2Fill; split
  · rfl
  · simp [FMap.find?_put_ne _ _ hne]

/-- A fill takes the bytes that the core saw before. -/
@[simp] theorem State.l2Byte_l2Fill (s : State) (c sec p : Nat) : (s.l2Fill c sec).l2Byte c p = s.l2Byte c p := by
  by_cases hsec : p / 64 = sec
  · subst hsec
    cases hheld : FMap.find? (s.core c).l2 (p / 64) with
    | some v => simp [State.l2Fill, hheld]
    | none =>
      have hp : 64 * (p / 64) + p % 64 = p := by omega
      simp [State.l2Fill, State.l2Byte, hheld, FMap.find?_put_same, hp]
  · simp [State.l2Byte, State.find?_l2Fill_ne s c hsec]

/-- A fill leaves what is uncorrectable in the other sectors. -/
theorem State.badHeld_l2Fill_ne {s : State} {c sec p : Nat} (hp : s.fold p = p) (hne : p / 64 ≠ sec) :
    (s.l2Fill c sec).badHeld c p = s.badHeld c p := by
  have hbad : ((s.l2Fill c sec).core c).badL2.contains (p / 4) = (s.core c).badL2.contains (p / 4) := by
    unfold State.l2Fill; split
    · rfl
    · have hword : p / 4 / 16 ≠ sec := by omega
      simp [List.contains_eq_mem, List.mem_filter, hword]
  simp only [State.badHeld, State.fold_l2Fill, State.place_l2Fill, State.badAt_l2Fill, hp, State.find?_l2Fill_ne s c hne, hbad]

theorem State.l2FillRange_sector (s : State) (c : Nat) {q : Nat} (hq : q % 64 = 0) : s.l2FillRange c q 64 = s.l2Fill c (q / 64) := by
  have hone : (q + 64 - 1) / 64 - q / 64 + 1 = 1 := by omega
  simp only [State.l2FillRange, hone]
  simp

/-- A whole sector read through a core. -/
theorem State.coreRead_sector {s : State} {q : Nat} (c : Nat) (hdirect : s.Direct q) (hq : q % 64 = 0) :
    s.coreRead c q 64 = (s.l2Fill c (q / 64), (List.range 64).map fun j => s.l2Byte c (q + j)) := by
  obtain ⟨hcached, hfold⟩ := hdirect
  simp [State.coreRead, hfold, hcached, State.l2FillRange_sector s c hq]

/-! ### One sector taken by an instruction cache (R95) -/

/-- The word at an address as a core sees its bytes. -/
def State.l2Word (s : State) (c p : Nat) : W32 :=
  wordOfBytes (s.l2Byte c p) (s.l2Byte c (p + 1)) (s.l2Byte c (p + 2)) (s.l2Byte c (p + 3))

/-- The words of a sector that an instruction cache lacks and that are sound. -/
def State.newWords (s : State) (c q : Nat) : List (Nat × W32) :=
  (wordsAt q (chunks 4 16 ((List.range 64).map fun j => s.l2Byte c (q + j)))).filter fun w =>
    (FMap.find? (s.core c).icache w.1).isNone && (s.badHeld c w.1).isNone

theorem State.mem_newWords {s : State} {c q k : Nat} {w : W32} : (k, w) ∈ s.newWords c q ↔
    (∃ i, i < 16 ∧ k = q + 4 * i) ∧ w = s.l2Word c k ∧ FMap.find? (s.core c).icache k = none ∧ s.badHeld c k = none := by
  simp only [State.newWords, List.mem_filter, mem_wordsAt_sector (s.l2Byte c), Bool.and_eq_true, Option.isNone_iff_eq_none, State.l2Word]
  constructor
  · rintro ⟨⟨i, hi, hk, hw⟩, hnew⟩
    exact ⟨⟨i, hi, hk⟩, hw, hnew⟩
  · rintro ⟨⟨i, hi, hk⟩, hw, hnew⟩
    exact ⟨⟨i, hi, hk, hw⟩, hnew⟩

/-- Words put into an instruction cache. -/
def Core.takeWords (ws : List (Nat × W32)) (k : Core) : Core :=
  { k with
    icache := ws.foldl (fun m w => FMap.put m w.1 w.2) k.icache
    badFetch := k.badFetch.filter fun b => !ws.any (·.1 == b) }

theorem State.icacheSector_of_good {s : State} {c q : Nat} (hdirect : s.Direct q) (hq : q % 64 = 0)
    (hgood : ((List.range 16).map fun i => q + 4 * i).any (fun p => (s.badHeld c p).isNone) = true) :
    s.icacheSector c q = (s.l2Fill c (q / 64)).modCore c (Core.takeWords (s.newWords c q)) := by
  simp only [State.icacheSector, hgood, State.coreRead_sector c hdirect hq]
  rfl

theorem State.icacheSector_of_bad {s : State} {c q : Nat}
    (hbad : ((List.range 16).map fun i => q + 4 * i).any (fun p => (s.badHeld c p).isNone) = false) : s.icacheSector c q = s := by
  simp only [State.icacheSector, hbad]
  rfl


@[simp] theorem State.badHeld_takeWords (s : State) (c p : Nat) (ws : List (Nat × W32)) :
    (s.modCore c (Core.takeWords ws)).badHeld c p = s.badHeld c p := by
  unfold State.badHeld
  rw [State.core_modCore_same]
  rfl

@[simp] theorem State.l2Byte_takeWords (s : State) (c p : Nat) (ws : List (Nat × W32)) :
    (s.modCore c (Core.takeWords ws)).l2Byte c p = s.l2Byte c p := by
  unfold State.l2Byte
  rw [State.core_modCore_same]
  rfl

@[simp] theorem State.l2Word_takeWords (s : State) (c p : Nat) (ws : List (Nat × W32)) :
    (s.modCore c (Core.takeWords ws)).l2Word c p = s.l2Word c p := by simp [State.l2Word]

@[simp] theorem State.l2Word_l2Fill (s : State) (c sec p : Nat) : (s.l2Fill c sec).l2Word c p = s.l2Word c p := by simp [State.l2Word]

theorem State.Direct.icacheSector {s : State} {q p : Nat} (c : Nat) (hq : s.Direct q) (haligned : q % 64 = 0) (hp : s.Direct p) :
    (s.icacheSector c q).Direct p := by
  cases hgood : ((List.range 16).map fun i => q + 4 * i).any (fun p => (s.badHeld c p).isNone) with
  | false => rwa [State.icacheSector_of_bad hgood]
  | true =>
    rw [State.icacheSector_of_good hq haligned hgood]
    exact ⟨(congrArg Place.cached (State.place_l2Fill s c _ p)).trans hp.1, (State.fold_l2Fill s c _ p).trans hp.2⟩

/-- The core's instruction cache holds a word at an address, or lacks it and takes it when it fills the sector. -/
def State.GivesWord (s : State) (c p : Nat) (w : W32) : Prop :=
  FMap.find? (s.core c).icache p = some w ∨ (FMap.find? (s.core c).icache p = none ∧ s.badHeld c p = none ∧ s.l2Word c p = w)

/-- A sector taken leaves what the cache gives at an address; the cache holds it then where it held it before or the address is the sector's. -/
theorem State.GivesWord.icacheSector {s : State} {c p q : Nat} {w : W32} (hgives : s.GivesWord c p w) (hp : s.Direct p) (hpw : p % 4 = 0)
    (hq : s.Direct q) (haligned : q % 64 = 0) :
    (s.icacheSector c q).GivesWord c p w ∧ (FMap.find? (s.core c).icache p = some w ∨ p / 64 = q / 64 →
      FMap.find? ((s.icacheSector c q).core c).icache p = some w) := by
  have hin (hsec : p / 64 = q / 64) : ∃ i, i < 16 ∧ p = q + 4 * i := ⟨(p - q) / 4, by omega, by omega⟩
  cases hgood : ((List.range 16).map fun i => q + 4 * i).any (fun p => (s.badHeld c p).isNone) with
  | false =>
    rw [State.icacheSector_of_bad hgood]
    refine ⟨hgives, fun hsome => hsome.elim id fun hsec => hgives.resolve_right ?_⟩
    rintro ⟨-, hsound, -⟩
    obtain ⟨i, hi, rfl⟩ := hin hsec
    have hbad := (List.any_eq_false.mp hgood) _ (List.mem_map_of_mem (List.mem_range.mpr hi))
    simp [hsound] at hbad
  | true =>
    have hall : ∀ x ∈ s.newWords c q, x.1 = p → x.2 = w ∧ FMap.find? (s.core c).icache p = none := by
      rintro ⟨k, v⟩ hx rfl
      obtain ⟨-, hv, hlacks, -⟩ := State.mem_newWords.mp hx
      refine ⟨?_, hlacks⟩
      obtain hheld | ⟨-, -, hw⟩ := hgives
      · rw [hlacks] at hheld; cases hheld
      · exact hv.trans hw
    have hicache : ((s.icacheSector c q).core c).icache = (s.newWords c q).foldl (fun m w => FMap.put m w.1 w.2) (s.core c).icache := by
      rw [State.icacheSector_of_good hq haligned hgood, State.core_modCore_same, Core.takeWords, State.icache_l2Fill]
    by_cases hsome : FMap.find? (s.core c).icache p = some w ∨ (p, w) ∈ s.newWords c q
    · have hheld : FMap.find? ((s.icacheSector c q).core c).icache p = some w := by
        rw [hicache]
        exact FMap.find?_foldl_put_same (fun x hx hxp => (hall x hx hxp).1) _ hsome
      exact ⟨.inl hheld, fun _ => hheld⟩
    · obtain ⟨hnot, hnotNew⟩ := not_or.mp hsome
      obtain ⟨hlacks, hsound, hw⟩ := hgives.resolve_left hnot
      have hsec : p / 64 ≠ q / 64 := fun hsec => hnotNew (State.mem_newWords.mpr ⟨hin hsec, hw.symm, hlacks, hsound⟩)
      refine ⟨.inr ⟨?_, ?_, ?_⟩, fun h => absurd h (not_or.mpr ⟨hnot, hsec⟩)⟩
      · rw [hicache, FMap.find?_foldl_put_ne _ _, hlacks]
        rintro ⟨k, v⟩ hx rfl
        exact hnotNew ((hall _ hx rfl).1 ▸ hx)
      · rw [State.icacheSector_of_good hq haligned hgood, State.badHeld_takeWords, State.badHeld_l2Fill_ne hp.2 hsec, hsound]
      · rw [State.icacheSector_of_good hq haligned hgood, State.l2Word_takeWords, State.l2Word_l2Fill, hw]

/-- Sectors taken in turn, one of which is the address's. -/
theorem State.GivesWord.foldl_icacheSector {c p : Nat} {w : W32} {qs : List Nat} {s : State} (hgives : s.GivesWord c p w) (hp : s.Direct p)
    (hpw : p % 4 = 0) (hqs : ∀ q ∈ qs, s.Direct q ∧ q % 64 = 0)
    (hsome : FMap.find? (s.core c).icache p = some w ∨ ∃ q ∈ qs, p / 64 = q / 64) :
    FMap.find? ((qs.foldl (fun s q => s.icacheSector c q) s).core c).icache p = some w := by
  induction qs generalizing s with
  | nil => simpa using hsome
  | cons q qs ih =>
    obtain ⟨hq, haligned⟩ := hqs q List.mem_cons_self
    obtain ⟨hgives', hown⟩ := hgives.icacheSector hp hpw hq haligned
    have hnext : FMap.find? ((s.icacheSector c q).core c).icache p = some w ∨ ∃ x ∈ qs, p / 64 = x / 64 := by
      obtain hheld | ⟨x, hx, hsec⟩ := hsome
      · exact .inl (hown (.inl hheld))
      · obtain rfl | hx := List.mem_cons.mp hx
        · exact .inl (hown (.inr hsec))
        · exact .inr ⟨x, hx, hsec⟩
    refine ih hgives' (hq.icacheSector c haligned hp)
      (fun x hx => ⟨hq.icacheSector c haligned (hqs x (List.mem_cons_of_mem _ hx)).1, (hqs x (List.mem_cons_of_mem _ hx)).2⟩) hnext

/-- A fill of the line gives the word that the core sees there. -/
theorem State.find?_icacheFill {s : State} {c p : Nat} (hbase : s.Direct (p / 256 * 256)) (haligned : s.hdm % 256 = 0) (hpw : p % 4 = 0)
    (hlacks : FMap.find? (s.core c).icache p = none) (hsound : s.badHeld c p = none) :
    FMap.find? ((s.icacheFill c p).core c).icache p = some (s.l2Word c p) := by
  have hfill : s.icacheFill c p = ([0, 64, 128, 192].map fun o => p / 256 * 256 + o).foldl (fun s q => s.icacheSector c q) s := by
    rw [List.foldl_map]; rfl
  rw [hfill]
  refine State.GivesWord.foldl_icacheSector (.inr ⟨hlacks, hsound, rfl⟩) (hbase.of_line haligned rfl) hpw ?_ (.inr ⟨p / 64 * 64, ?_, by omega⟩)
  · intro q hq
    obtain ⟨o, ho, rfl⟩ := List.mem_map.mp hq
    have hsector : o % 64 = 0 ∧ o < 256 := by simp at ho; omega
    exact ⟨hbase.of_line haligned (by omega), by omega⟩
  · have hoffset : p % 256 / 64 = 0 ∨ p % 256 / 64 = 1 ∨ p % 256 / 64 = 2 ∨ p % 256 / 64 = 3 := by omega
    simp only [List.map_cons, List.map_nil, List.mem_cons, List.not_mem_nil, or_false]
    omega

end Sys2Proof.Machine
end

section
/-! A fetch past the copies of its hart and its core (R94, R95). -/
namespace Sys2Proof.Machine

theorem State.place_walkAcquire (s : State) (x : XCtx) (va : Word) (acc : Access) : (s.walkAcquire x va acc).place = s.place := by
  unfold State.walkAcquire State.acquire
  split_ifs <;> rfl

theorem State.hdm_walkAcquire (s : State) (x : XCtx) (va : Word) (acc : Access) : (s.walkAcquire x va acc).hdm = s.hdm := by
  unfold State.walkAcquire State.acquire
  split_ifs <;> rfl

theorem State.place_keep (s : State) (h : Nat) (t : Option TlbEntry) : (s.keep h t).place = s.place := by
  cases t <;> rfl

theorem State.hdm_keep (s : State) (h : Nat) (t : Option TlbEntry) : (s.keep h t).hdm = s.hdm := by
  cases t <;> rfl

/-- Where bytes lie does not depend on what a translation leaves in the caches. -/
theorem State.Direct.translated {s : State} {p : Nat} (hp : s.Direct p) (x : XCtx) (va : Word) (acc : Access) (h : Nat) (t : Option TlbEntry) :
    ((s.walkAcquire x va acc).keep h t).Direct p := by
  obtain ⟨hcached, hfold⟩ := hp
  unfold State.fold at hfold
  unfold State.Direct State.fold
  rw [State.place_keep, State.hdm_keep, State.place_walkAcquire, State.hdm_walkAcquire]
  exact ⟨hcached, hfold⟩

theorem State.probe_of_translate {s : State} {x : XCtx} {va : Word} {acc : Access} {pa : Nat} (hpa : (s.translate x va acc).1 = .ok pa) :
    s.probe x va acc = ((s.walkAcquire x va acc).keep x.h (s.translate x va acc).2, .ok pa) := by
  rcases hr : s.translate x va acc with ⟨r, t⟩
  rw [hr] at hpa
  subst hpa
  simp [State.probe, hr]

/-- A fetch that the instruction cache does not serve and that meets no uncorrectable word fills its line. -/
theorem State.fetchAt_of_fill {s u : State} {h pa : Nat} {va : Word} (hprobe : s.probe (s.xctx h) va .fetch = (u, .ok pa))
    (hlacks : FMap.find? (u.core (coreOf h)).icache pa = none) (hsound : u.badHeld (coreOf h) pa = none) {w : W32}
    (hfill : FMap.find? ((u.icacheFill (coreOf h) pa).core (coreOf h)).icache pa = some w) :
    s.fetchAt h va = (u.icacheFill (coreOf h) pa, .word w) := by
  have hgood : u.badWord (coreOf h) pa = false := by simp [State.badWord, hlacks, hsound]
  simp [State.fetchAt, hprobe, hgood, State.icacheWord, hlacks, FMap.get, hfill]

theorem State.fetch_of_fetchAt {s t : State} {h : Nat} {w : W32} (hown : (s.hart h).ownWord (s.hart h).pc = none)
    (hfetch : s.fetchAt h (s.hart h).pc = (t, .word w)) : s.fetch h = (t.keepWord h (s.hart h).pc (.word w), .word w) := by
  simp [State.fetch, hown, hfetch]

end Sys2Proof.Machine
end

section
/-! A fetch that no copy holds (O8). -/
open Sys2Proof Sys2Proof.Machine

/-- Settles O8: the fetch fills the line from the L2, and the word's own sector gives it as the core sees it. -/
theorem fetchReadsMemory : Obligations.FetchReadsMemory := by
  intro s u h pa hown hpa hword hu haligned hlacks hsound hcached hfold
  have hbase : u.Direct (pa / 256 * 256) := hu ▸ State.Direct.translated ⟨hcached, hfold⟩ ..
  have hhdm : u.hdm % 256 = 0 := by rw [hu, State.hdm_keep, State.hdm_walkAcquire, haligned]
  have hfill := State.find?_icacheFill hbase hhdm hword hlacks hsound
  have hprobe : s.probe (s.xctx h) (s.hart h).pc .fetch = (u, .ok pa) := by rw [State.probe_of_translate hpa, hu]; rfl
  exact ⟨_, State.fetch_of_fetchAt hown (State.fetchAt_of_fill hprobe hlacks hsound hfill)⟩

end

section
/-! Invalidations of the instruction cache and of the cached translations (R97, R124, R353). -/
namespace Sys2Proof.Machine

/-- A commit in a state that differs from the one before in the acting hart and its core. -/
theorem completesOn_commit {i : Instr} {s v : State} (hexec : exec i s = commit v id) (hharts : ∀ h, h ≠ s.cur → v.hart h = s.hart h)
    (hcores : ∀ c, c ≠ coreOf s.cur → v.core c = s.core c) (hsame : v.SameButUnits s) :
    CompletesOn i s s (v.hart s.cur).advance (v.core (coreOf s.cur)) := by
  refine ⟨_, hexec, ?_, rfl, fun h hne => ?_, hcores, hsame.modH _⟩
  · rw [State.hart_modH, State.h, hsame.cur_eq, if_pos rfl, id]
  · rw [State.hart_modH, hsame.cur_eq, if_neg hne, hharts h hne]

theorem State.landOwn_of_stores_nil {s : State} {h : Nat} (hstores : (s.core (coreOf h)).stores = []) : s.landOwn h = s := by
  simp [State.landOwn, State.landIf, hstores]

/-! ### What a translation gives and what an invalidation names (R97, R350, R353) -/

/-- A leaf that R350 lets an access use gives the address it names. -/
theorem State.leafCheck_ok {s : State} {x : XCtx} {acc : Access} {va level pa : Nat} {pte : Word} (h : s.leafCheck x acc va level (pteOf pte) = .ok pa) :
    (pteOf pte).malformed level = false ∧ s.leafPa va level pte = pa := by
  unfold State.leafCheck at h
  dsimp only at h
  split_ifs at h with hmalformed
  exact ⟨by simpa using hmalformed, Xlat.ok.inj h⟩

/-- A walk that gives an address ends at a leaf entry that gives it. -/
theorem State.walk_ok {s : State} {x : XCtx} {acc : Access} {va pa n table : Nat} {r : Option (Nat × Word)} (h : s.walk x acc va n table = (.ok pa, r)) :
    ∃ level pte, r = some (level, pte) ∧ s.leafCheck x acc va level (pteOf pte) = .ok pa := by
  induction n generalizing table with
  | zero =>
    unfold State.walk at h
    dsimp only at h
    split_ifs at h
    · simp at h
    · simp at h
    · obtain ⟨hcheck, rfl⟩ := Prod.mk.inj h
      exact ⟨_, _, rfl, hcheck⟩
  | succ n ih =>
    unfold State.walk at h
    dsimp only at h
    split_ifs at h
    · simp at h
    · simp at h
    · simp at h
    · obtain ⟨hcheck, rfl⟩ := Prod.mk.inj h
      exact ⟨_, _, rfl, hcheck⟩
    · exact ih h

/-- A held translation that grants an access covers the address and gives what it names. -/
theorem State.tlbHit_some {s : State} {x : XCtx} {acc : Access} {va pa : Nat} (h : s.tlbHit x acc va = some pa) :
    ∃ t ∈ (s.core (coreOf x.h)).tlb.filter (·.covers va (asidOf x.root)), s.leafPa va t.level t.pte = pa := by
  obtain ⟨t, ht, hgrants⟩ := List.exists_of_findSome?_eq_some h
  refine ⟨t, ht, ?_⟩
  split at hgrants
  · rename_i hcheck
    exact (State.leafCheck_ok hcheck).2.trans (Option.some.inj hgrants)
  · cases hgrants

/-- An address that translates outside the save page meets a held translation that grants the access, or a walk's leaf that gives it. -/
theorem State.translate_ok {s : State} {x : XCtx} {va : Word} {acc : Access} {pa : Nat} {r : Option TlbEntry}
    (hsave : ¬(x.sup && decide (va.toNat < Config.savePage)) = true) (h : s.translate x va acc = (.ok pa, r)) :
    s.tlbHit x acc va.toNat = some pa ∨ ∃ level pte, (s.walk x acc va.toNat 4 (bits x.root.toNat 43 0)).2 = some (level, pte) ∧
      s.leafCheck x acc va.toNat level (pteOf pte) = .ok pa := by
  unfold State.translate at h
  rw [if_neg hsave] at h
  split_ifs at h
  · simp at h
  · simp at h
  · cases hhit : s.tlbHit x acc va.toNat with
    | some q =>
      simp only [hhit, Prod.mk.injEq, Xlat.ok.injEq] at h
      exact .inl (congrArg some h.1)
    | none =>
      right
      rcases hwalk : s.walk x acc va.toNat 4 (bits x.root.toNat 43 0) with ⟨o, leaf⟩
      have ho : o = .ok pa := by
        rw [hhit, hwalk] at h
        dsimp only at h
        split at h <;> simp_all
      obtain ⟨level, pte, rfl, hcheck⟩ := State.walk_ok (ho ▸ hwalk)
      exact ⟨level, pte, rfl, hcheck⟩

/-- Where an address translates for a fetch, what it may have been fetched from is unknown or holds that place. -/
theorem State.mem_framesOf {s : State} {x : XCtx} {va : Word} {pa : Nat} {r : Option TlbEntry} {l : List Nat}
    (htranslates : s.translate x va .fetch = (.ok pa, r)) (hframes : s.framesOf x va.toNat = some l) : pa ∈ l := by
  unfold State.framesOf at hframes
  by_cases hsave : (x.sup && decide (va.toNat < Config.savePage)) = true
  · rw [State.translate, if_pos hsave, Prod.mk.injEq, Xlat.ok.injEq] at htranslates
    rw [if_pos hsave, Option.some.injEq] at hframes
    rw [← hframes, htranslates.1]
    exact List.mem_singleton_self pa
  · rw [if_neg hsave] at hframes
    dsimp only at hframes
    split at hframes
    · rename_i level pte hleaf
      split_ifs at hframes
      obtain rfl := Option.some.inj hframes
      obtain hhit | ⟨level', pte', hleaf', hcheck⟩ := State.translate_ok hsave htranslates
      · obtain ⟨t, ht, rfl⟩ := State.tlbHit_some hhit
        exact List.mem_cons_of_mem _ (List.mem_map.mpr ⟨t, ht, rfl⟩)
      · rw [hleaf, Option.some.injEq, Prod.mk.injEq] at hleaf'
        obtain ⟨rfl, rfl⟩ := hleaf'
        exact (State.leafCheck_ok hcheck).2 ▸ List.mem_cons_self
    · cases hframes

/-! ### The words that ICINV drops (R97) -/

/-- The byte ranges that an invalidation of [va, va + n) names, a page of it after another; `none` stands for every byte. -/
def State.namedRanges (s : State) (h : Nat) (va : Word) (n : Nat) : List (Option (List (Nat × Nat))) :=
  if n = 0 ∨ 1048576 < n then [none] else (List.range ((va.toNat % 4096 + n - 1) / 4096 + 1)).map fun i => s.linesOfPage h va.toNat n i

/-- Whether byte ranges hold an address. -/
def rangesHold (pa : Nat) (r : Option (List (Nat × Nat))) : Bool :=
  match r with
  | none => true
  | some l => l.any fun f => decide (f.1 ≤ pa) && decide (pa < f.2)

/-- Whether an invalidation names the word at a physical address. -/
def State.named (s : State) (h : Nat) (va : Word) (n pa : Nat) : Bool := (s.namedRanges h va n).any (rangesHold pa)

/-- A hart without its own copies of words. -/
def Hart.dropWords (a : Hart) : Hart := { a with fetchBuf := [], loopBuf := [] }

theorem State.icacheInvalidate_eq (s : State) (h : Nat) (va : Word) (n : Nat) :
    s.icacheInvalidate h va n = (s.modHart h Hart.dropWords).modCore (coreOf h) fun k =>
      { k with icache := k.icache.filter fun e => !s.named h va n e.1 } := rfl

theorem State.named_zero (s : State) (h : Nat) (va : Word) (pa : Nat) : s.named h va 0 pa = true := rfl

/-- Each line of the range is named at the place that its page translates to. -/
theorem State.named_of_translate {s : State} {h o n pa q : Nat} {va : Word} {r : Option TlbEntry} (ho : o < n) (hend : va.toNat + n ≤ 2 ^ 64)
    (htranslates : s.translate (s.xctx h) (BitVec.ofNat 64 ((va.toNat + o) / 4096 * 4096)) .fetch = (.ok pa, r)) (hpage : pa % 4096 = 0)
    (hline : q / 256 = (pa + (va.toNat + o) % 4096) / 256) : s.named h va n q = true := by
  unfold State.named State.namedRanges
  split_ifs with hall
  · rfl
  · obtain ⟨i, hi⟩ : ∃ i, i = (va.toNat + o) / 4096 - va.toNat / 4096 := ⟨_, rfl⟩
    have hbase : (va.toNat / 4096 + i) * 4096 = (va.toNat + o) / 4096 * 4096 := by omega
    have hnat : (BitVec.ofNat 64 ((va.toNat + o) / 4096 * 4096)).toNat = (va.toNat + o) / 4096 * 4096 :=
      Nat.mod_eq_of_lt (by omega)
    refine List.any_eq_true.mpr ⟨_, List.mem_map_of_mem (List.mem_range.mpr (show i < _ by omega)), ?_⟩
    rw [State.linesOfPage, hbase]
    cases hframes : s.framesOf (s.xctx h) ((va.toNat + o) / 4096 * 4096) with
    | none => rfl
    | some l =>
      have hmem : pa ∈ l := State.mem_framesOf htranslates (hnat.symm ▸ hframes)
      refine List.any_eq_true.mpr ⟨_, List.mem_map_of_mem hmem, ?_⟩
      have hfirst : Nat.max va.toNat ((va.toNat + o) / 4096 * 4096) - (va.toNat + o) / 4096 * 4096 ≤ (va.toNat + o) % 4096 := by
        change max _ _ - _ ≤ _
        omega
      have hlast : (va.toNat + o) % 4096 < Nat.min (va.toNat + n) ((va.toNat + o) / 4096 * 4096 + 4096) - (va.toNat + o) / 4096 * 4096 := by
        change _ < min _ _ - _
        omega
      simp only [Bool.and_eq_true, decide_eq_true_eq]
      omega

theorem exec_icinv (a b : Reg) (s : State) : exec (.icinv a b) s = execIcinv a b s := rfl

theorem exec_xlinv (a b : Reg) (s : State) : exec (.xlinv a b) s = execXlinv a b s := rfl

/-- ICINV with no store held by its core. -/
theorem completesOn_icinv {s : State} (a b : Reg) (hqueue : s.h.queue = []) (hstores : (s.core (coreOf s.cur)).stores = []) :
    CompletesOn (.icinv a b) s s s.h.dropWords.advance { s.core (coreOf s.cur) with
      icache := (s.core (coreOf s.cur)).icache.filter fun e => !s.named s.cur (s.h.getX a) (s.h.getX b).toNat e.1 } := by
  have hheld : exec (.icinv a b) s = commit ((s.landOwn s.cur).icacheInvalidate s.cur (s.h.getX a) (s.h.getX b).toNat) id :=
    (exec_icinv a b s).trans (held_of_queue_nil hqueue _)
  rw [State.landOwn_of_stores_nil hstores, State.icacheInvalidate_eq] at hheld
  have hcompletes := completesOn_commit hheld (fun h hne => (State.hart_modHart_ne s Hart.dropWords hne :)) (fun c hne => State.core_modCore_ne _ _ hne) rfl
  rw [State.core_modCore_same] at hcompletes
  exact (State.hart_modHart_same s s.cur Hart.dropWords) ▸ hcompletes

/-- XLINV at supervisor privilege. -/
theorem completesOn_xlinv {s : State} (a b : Reg) (hqueue : s.h.queue = []) (hsup : s.h.sup = true) :
    CompletesOn (.xlinv a b) s s s.h.advance { s.core (coreOf s.cur) with
      tlb := (s.core (coreOf s.cur)).tlb.filter fun t => !(t.vpn == (s.h.getX a).toNat % 2 ^ 57 / 2 ^ (12 + 9 * t.level) &&
        (false || t.asid == (s.h.getX b).toNat % 65536 || bit t.pte.toNat 5)) } := by
  have hheld : exec (.xlinv a b) s = commit (s.tlbDrop (coreOf s.cur) (s.h.getX a).toNat ((s.h.getX b).toNat % 65536) false) id :=
    (exec_xlinv a b s).trans ((held_of_queue_nil hqueue _).trans (if_pos hsup))
  have hcompletes := completesOn_commit hheld (fun _ _ => rfl) (fun c hne => State.core_modCore_ne _ _ hne) rfl
  rw [State.tlbDrop, State.core_modCore_same] at hcompletes
  exact hcompletes

theorem bit_toNat (w : Word) (i : Nat) : bit w.toNat i = w.getLsbD i := by
  simp [bit, BitVec.getLsbD, Nat.testBit_eq_decide_div_mod_eq, beq_eq_decide]

end Sys2Proof.Machine
end

section
/-! ICINV and XLINV (O25). -/
open Sys2Proof Sys2Proof.Machine

/-- Settles O25: ICINV drops the words of the lines that it names, among them every line at the place that its page translates to, and names every
word where its length is 0; XLINV drops translations at supervisor privilege alone. -/
theorem invalidations : Obligations.Invalidations := by
  intro s a b hqueue hstores
  dsimp only
  refine ⟨fun hzero => ?_, ⟨_, completesOn_icinv a b hqueue hstores, ?_, ?_⟩, fun hsup => ?_, fun hsup => ?_⟩
  · simpa [hzero, State.named_zero, Hart.dropWords] using completesOn_icinv a b hqueue hstores
  · exact fun e he => List.mem_of_mem_filter he
  · intro o pa x ho hend htranslates hpage e he hline
    have hnamed := State.named_of_translate ho hend htranslates hpage hline
    simpa [hnamed] using List.of_mem_filter he
  · simpa only [Bool.false_or, bit_toNat] using completesOn_xlinv a b hqueue hsup
  · exact traps_illegal hqueue ((exec_xlinv a b s).trans ((held_of_queue_nil hqueue _).trans (if_neg (by simp [hsup]))))

end

section
/-! The integer instructions as numbers (R101 to R105): each operation of the model on words is the integer of the rule's table, modulo 2^64. -/
namespace Sys2Proof.Machine

theorem ofInt_natCast (n : Nat) : BitVec.ofInt 64 (n : Int) = w64 n := by simp [w64]

theorem ofInt_toNat (v : Word) : BitVec.ofInt 64 (v.toNat : Int) = v := by simp

theorem truth_eq_ofInt (p : Prop) [Decidable p] : truth (decide p) = BitVec.ofInt 64 (if p then 1 else 0) := by
  by_cases h : p <;> simp [truth, h]

theorem toInt_simm (i : BitVec 15) : (simm i).toInt = i.toInt := BitVec.toInt_signExtend_of_le (by decide)

theorem toNat_simm (i : BitVec 15) : ((simm i).toNat : Int) = i.toInt % 2 ^ 64 := by
  rw [← toInt_simm, BitVec.toInt_eq_toNat_bmod]
  exact ((Int.bmod_emod (m := 2 ^ 64)).trans (Int.emod_eq_of_lt (by omega) (by omega))).symm

theorem add_eq_ofInt (v w : Word) : v + w = BitVec.ofInt 64 (v.toInt + w.toInt) := by simp [BitVec.ofInt_add]
theorem sub_eq_ofInt (v w : Word) : v - w = BitVec.ofInt 64 (v.toInt - w.toInt) := by
  apply BitVec.eq_of_toInt_eq; simp [BitVec.toInt_sub]
theorem mul_eq_ofInt (v w : Word) : v * w = BitVec.ofInt 64 (v.toInt * w.toInt) := by simp [BitVec.ofInt_mul]
theorem shl_eq_ofInt (v : Word) (n : Nat) : v <<< n = BitVec.ofInt 64 ((v.toNat : Int) * 2 ^ n) := by
  rw [show ((v.toNat : Int) * 2 ^ n) = ((v.toNat * 2 ^ n : Nat) : Int) by push_cast; rfl, ofInt_natCast]
  apply BitVec.eq_of_toNat_eq
  simp [w64, Nat.shiftLeft_eq]
theorem shr_eq_ofInt (v : Word) (n : Nat) : v >>> n = BitVec.ofInt 64 ((v.toNat : Int) / 2 ^ n) := by
  rw [show ((v.toNat : Int) / 2 ^ n) = ((v.toNat / 2 ^ n : Nat) : Int) by push_cast; rfl, ofInt_natCast]
  apply BitVec.eq_of_toNat_eq
  have hle : v.toNat / 2 ^ n ≤ v.toNat := Nat.div_le_self _ _
  rw [w64, BitVec.toNat_ofNat, Nat.mod_eq_of_lt (hle.trans_lt v.isLt), BitVec.toNat_ushiftRight, Nat.shiftRight_eq_div_pow]
theorem sshr_eq_ofInt (v : Word) (n : Nat) : v.sshiftRight n = BitVec.ofInt 64 (v.toInt / 2 ^ n) := by
  simp [BitVec.sshiftRight, Int.shiftRight_eq_div_pow]
theorem bitand_eq_ofInt (v w : Word) : v &&& w = BitVec.ofInt 64 ((v.toNat &&& w.toNat : Nat) : Int) := by
  rw [← BitVec.toNat_and, ofInt_toNat]
theorem bitor_eq_ofInt (v w : Word) : v ||| w = BitVec.ofInt 64 ((v.toNat ||| w.toNat : Nat) : Int) := by
  rw [← BitVec.toNat_or, ofInt_toNat]
theorem bitxor_eq_ofInt (v w : Word) : v ^^^ w = BitVec.ofInt 64 ((v.toNat ^^^ w.toNat : Nat) : Int) := by
  rw [← BitVec.toNat_xor, ofInt_toNat]
theorem min_eq_ofInt (v w : Word) : (if v.toInt < w.toInt then v else w) = BitVec.ofInt 64 (min v.toInt w.toInt) := by
  split
  · rw [min_eq_left (by omega), BitVec.ofInt_toInt]
  · rw [min_eq_right (by omega), BitVec.ofInt_toInt]
theorem max_eq_ofInt (v w : Word) : (if v.toInt < w.toInt then w else v) = BitVec.ofInt 64 (max v.toInt w.toInt) := by
  split
  · rw [max_eq_right (by omega), BitVec.ofInt_toInt]
  · rw [max_eq_left (by omega), BitVec.ofInt_toInt]
theorem minu_eq_ofInt (v w : Word) : (if v.toNat < w.toNat then v else w) = BitVec.ofInt 64 (min (v.toNat : Int) w.toNat) := by
  split
  · rw [min_eq_left (by omega), ofInt_toNat]
  · rw [min_eq_right (by omega), ofInt_toNat]
theorem maxu_eq_ofInt (v w : Word) : (if v.toNat < w.toNat then w else v) = BitVec.ofInt 64 (max (v.toNat : Int) w.toNat) := by
  split
  · rw [max_eq_right (by omega), ofInt_toNat]
  · rw [max_eq_left (by omega), ofInt_toNat]
theorem mulHighU_eq_ofInt (v w : Word) : mulHighU v w = BitVec.ofInt 64 ((v.toNat : Int) * w.toNat / 2 ^ 64) := by
  rw [show ((v.toNat : Int) * w.toNat / 2 ^ 64) = ((v.toNat * w.toNat / 2 ^ 64 : Nat) : Int) by push_cast; rfl, ofInt_natCast, mulHighU]
theorem toInt_eq_zero (v : Word) : v.toInt = 0 ↔ v = 0 := by
  rw [← BitVec.toInt_inj]; simp
theorem natCast_toNat_eq_zero (v : Word) : (v.toNat : Int) = 0 ↔ v = 0 := by
  rw [← BitVec.toNat_inj]; simp
theorem divS_eq_ofInt (v w : Word) : divS v w = BitVec.ofInt 64 (if w.toInt = 0 then -1 else v.toInt.tdiv w.toInt) := by
  simp only [divS, toInt_eq_zero]
  split <;> rfl
theorem divU_eq_ofInt (v w : Word) : divU v w = BitVec.ofInt 64 (if (w.toNat : Int) = 0 then 2 ^ 64 - 1 else (v.toNat : Int) / w.toNat) := by
  simp only [divU, natCast_toNat_eq_zero]
  split
  · rfl
  · rw [← Int.natCast_ediv, ofInt_natCast]
theorem remS_eq_ofInt (v w : Word) :
    remS v w = BitVec.ofInt 64 (if w.toInt = 0 then v.toInt else v.toInt - w.toInt * v.toInt.tdiv w.toInt) := by
  simp only [remS, toInt_eq_zero]
  split
  · rw [BitVec.ofInt_toInt]
  · rw [Int.tmod_def]
theorem remU_eq_ofInt (v w : Word) :
    remU v w = BitVec.ofInt 64 (if (w.toNat : Int) = 0 then (v.toNat : Int) else v.toNat - w.toNat * (v.toNat / w.toNat)) := by
  simp only [remU, natCast_toNat_eq_zero]
  split
  · rw [ofInt_toNat]
  · rw [← Int.emod_def, ← Int.natCast_emod, ofInt_natCast]
theorem sel_eq_ofInt (c v w : Word) : (if c ≠ 0 then v else w) = BitVec.ofInt 64 (if (c.toNat : Int) ≠ 0 then (v.toNat : Int) else w.toNat) := by
  simp only [ne_eq, natCast_toNat_eq_zero]
  split <;> rw [ofInt_toNat]
theorem slti_eq_ofInt (v : Word) (i : BitVec 15) :
    truth (decide (v.toInt < (simm i).toInt)) = BitVec.ofInt 64 (if v.toInt < i.toInt then 1 else 0) := by
  rw [truth_eq_ofInt, toInt_simm]
theorem sltu_eq_ofInt (v w : Word) : truth (decide (v.toNat < w.toNat)) = BitVec.ofInt 64 (if (v.toNat : Int) < w.toNat then 1 else 0) := by
  simp only [truth_eq_ofInt, Int.ofNat_lt]
theorem addi_eq_ofInt (v : Word) (i : BitVec 15) : v + simm i = BitVec.ofInt 64 (v.toInt + i.toInt) := by rw [add_eq_ofInt, toInt_simm]
theorem sltiu_eq_ofInt (v : Word) (i : BitVec 15) :
    truth (decide (v.toNat < (simm i).toNat)) = BitVec.ofInt 64 (if (v.toNat : Int) < i.toInt % 2 ^ 64 then 1 else 0) := by
  simp only [truth_eq_ofInt, ← toNat_simm, Int.ofNat_lt]
theorem upper_eq_ofInt (i : BitVec 20) : upper i = BitVec.ofInt 64 (i.toInt * 4096) := by
  apply BitVec.eq_of_toInt_eq
  have h := BitVec.toInt_signExtend_of_le (x := i) (v := 64) (by decide)
  rw [upper, BitVec.shiftLeft_eq_mul_twoPow, BitVec.toInt_mul, h]
  simp [BitVec.toInt_twoPow]
theorem pc_add_upper_eq_ofInt (pc : Word) (i : BitVec 20) : pc + upper i = BitVec.ofInt 64 (pc.toNat + i.toInt * 4096) := by
  rw [BitVec.ofInt_add, ofInt_toNat, upper_eq_ofInt]

/-- The low k bits of a number, bit 0 first. -/
def lowBits (k n : Nat) : List Bool := (List.range k).map n.testBit

theorem bitList_eq (w : Word) : bitList w = lowBits 64 w.toNat := rfl

theorem lowBits_succ (k n : Nat) : lowBits (k + 1) n = (n % 2 == 1) :: lowBits k (n / 2) := by
  simp [lowBits, List.range_succ_eq_map, Nat.testBit_zero, Nat.testBit_succ, Function.comp_def, beq_eq_decide]

theorem popN_eq_count (k n : Nat) : popN k n = (lowBits k n).count true := by
  induction k generalizing n with
  | zero => rfl
  | succ k ih =>
    rw [lowBits_succ, popN, ih, List.count_cons]
    rcases Nat.mod_two_eq_zero_or_one n with h | h <;> simp [h, Nat.add_comm]

theorem trailingZerosN_eq_length (k n : Nat) : trailingZerosN k n = ((lowBits k n).takeWhile (!·)).length := by
  induction k generalizing n with
  | zero => rfl
  | succ k ih =>
    rw [lowBits_succ, trailingZerosN, ih]
    rcases Nat.mod_two_eq_zero_or_one n with h | h <;> simp [h]

theorem lowBits_succ_reverse (k n : Nat) : (lowBits (k + 1) n).reverse = n.testBit k :: (lowBits k n).reverse := by
  simp [lowBits, List.range_succ]

/-- The zeros above the highest one bit of a number below 2^k. -/
theorem length_takeWhile_reverse_lowBits {k n : Nat} (hn : n < 2 ^ k) :
    ((lowBits k n).reverse.takeWhile (!·)).length = if n = 0 then k else k - 1 - n.log2 := by
  induction k with
  | zero => simp [lowBits]
  | succ k ih =>
    rw [lowBits_succ_reverse]
    by_cases hlt : n < 2 ^ k
    · rw [Nat.testBit_eq_false_of_lt hlt, List.takeWhile_cons_of_pos rfl, List.length_cons, ih hlt]
      split
      · rfl
      · next hne => have := (Nat.log2_lt hne).mpr hlt; omega
    · have hne : n ≠ 0 := by rintro rfl; exact hlt (Nat.two_pow_pos k)
      have hlog : n.log2 = k := (Nat.log2_eq_iff hne).mpr ⟨Nat.le_of_not_lt hlt, hn⟩
      have hbit : n.testBit k = true := Nat.testBit_of_two_pow_le_and_two_pow_add_one_gt (Nat.le_of_not_lt hlt) hn
      simp [hbit, hne, hlog]

theorem leadingZeros_eq_length (v : Word) : leadingZeros v = ((bitList v).reverse.takeWhile (!·)).length := by
  rw [bitList_eq, length_takeWhile_reverse_lowBits v.isLt, leadingZeros]
  simp only [← BitVec.toNat_inj]
  rfl

theorem clz_eq_ofInt (v : Word) : w64 (leadingZeros v) = BitVec.ofInt 64 (((bitList v).reverse.takeWhile (!·)).length : Nat) := by
  rw [ofInt_natCast, leadingZeros_eq_length]
theorem ctz_eq_ofInt (v : Word) : w64 (trailingZeros v) = BitVec.ofInt 64 (((bitList v).takeWhile (!·)).length : Nat) := by
  rw [ofInt_natCast, trailingZeros, trailingZerosN_eq_length, bitList_eq]
theorem cpop_eq_ofInt (v : Word) : w64 (popCount v) = BitVec.ofInt 64 ((bitList v).count true : Nat) := by
  rw [ofInt_natCast, popCount, popN_eq_count, bitList_eq]

theorem completes_writeX {i : Instr} {s : State} {d : Reg} {v w : Word} (hexec : exec i s = writeX s d v) (hv : v = w) :
    Completes i s (s.h.setX d w).advance := hv ▸ completes_commit hexec

end Sys2Proof.Machine
end

section
/-! The integer instructions (O1). -/
open Sys2Proof Sys2Proof.Machine

/-- Settles O1: each is a write of its word, and that word is the integer of the rule's table modulo 2^64. -/
theorem integerResults : Obligations.IntegerResults := by
  intro i s d r h
  dsimp only [intResult] at h
  split at h <;> cases h
  · exact completes_writeX rfl (add_eq_ofInt _ _)
  · exact completes_writeX rfl (sub_eq_ofInt _ _)
  · exact completes_writeX rfl (bitand_eq_ofInt _ _)
  · exact completes_writeX rfl (bitor_eq_ofInt _ _)
  · exact completes_writeX rfl (bitxor_eq_ofInt _ _)
  · exact completes_writeX rfl (shl_eq_ofInt _ _)
  · exact completes_writeX rfl (shr_eq_ofInt _ _)
  · exact completes_writeX rfl (sshr_eq_ofInt _ _)
  · exact completes_writeX rfl (truth_eq_ofInt _)
  · exact completes_writeX rfl (sltu_eq_ofInt _ _)
  · exact completes_writeX rfl (min_eq_ofInt _ _)
  · exact completes_writeX rfl (max_eq_ofInt _ _)
  · exact completes_writeX rfl (minu_eq_ofInt _ _)
  · exact completes_writeX rfl (maxu_eq_ofInt _ _)
  · exact completes_writeX rfl (mul_eq_ofInt _ _)
  · exact completes_writeX rfl rfl
  · exact completes_writeX rfl (mulHighU_eq_ofInt _ _)
  · exact completes_writeX rfl (divS_eq_ofInt _ _)
  · exact completes_writeX rfl (divU_eq_ofInt _ _)
  · exact completes_writeX rfl (remS_eq_ofInt _ _)
  · exact completes_writeX rfl (remU_eq_ofInt _ _)
  · exact completes_writeX rfl (clz_eq_ofInt _)
  · exact completes_writeX rfl (ctz_eq_ofInt _)
  · exact completes_writeX rfl (cpop_eq_ofInt _)
  · exact completes_writeX rfl (sel_eq_ofInt _ _ _)
  · exact completes_writeX rfl (addi_eq_ofInt _ _)
  · exact completes_writeX rfl (bitand_eq_ofInt _ _)
  · exact completes_writeX rfl (bitor_eq_ofInt _ _)
  · exact completes_writeX rfl (bitxor_eq_ofInt _ _)
  · exact completes_writeX rfl (slti_eq_ofInt _ _)
  · exact completes_writeX rfl (sltiu_eq_ofInt _ _)
  · exact completes_writeX rfl (shl_eq_ofInt _ _)
  · exact completes_writeX rfl (shr_eq_ofInt _ _)
  · exact completes_writeX rfl (sshr_eq_ofInt _ _)
  · exact completes_writeX rfl (upper_eq_ofInt _)
  · exact completes_writeX rfl (pc_add_upper_eq_ofInt _ _)

end

section
/-! The boundary cases of division (O14). -/
open Sys2Proof Sys2Proof.Machine

/-- Settles O14: the four operations on words are computed at the boundary. -/
theorem divisionBoundaries : Obligations.DivisionBoundaries := by
  intro s d a b
  refine ⟨fun hzero => ⟨?_, ?_, ?_, ?_⟩, fun hleast hminus => ⟨?_, ?_⟩⟩
  · exact completes_writeX rfl (if_pos hzero)
  · exact completes_writeX rfl (if_pos hzero)
  · exact completes_writeX rfl (if_pos hzero)
  · exact completes_writeX rfl (if_pos hzero)
  · exact completes_writeX rfl (by rw [hleast, hminus]; decide)
  · exact completes_writeX rfl (by rw [hleast, hminus]; decide)

end

section
/-! The scalar floating-point instructions as writes of one result with its flags (R106 to R108, R31). -/
namespace Sys2Proof.Machine
section
variable {i : Instr} {s : State} {d d' a b c : Reg} {q q' : FRes}

/-- What a floating-point instruction leaves of the acting hart: its result in the destination and its flags in FCTL (R24, R31). -/
def Hart.afterFloat (h : Hart) (d : Reg) (q : FRes) : Hart :=
  ({ h with fctl := h.fctl ||| (q.2 &&& 0xF8).setWidth 64 }.setX d (BitVec.ofNat 64 q.1)).advance

theorem completes_writeF (hexec : exec i s = writeF s d q) (hq : some (d, q) = some (d', q')) : Completes i s (s.h.afterFloat d' q') := by
  cases hq
  exact completes_commit hexec

theorem toNat_truth {p : Prop} [Decidable p] {t : Bool} (h : t = true ↔ p) : (truth t).toNat = if p then 1 else 0 := by
  by_cases hp : p <;> simp [truth, h, hp]

/-- A comparison: its truth value as a number and, unless it is quiet, the flags of signalling operands (R106, R107). -/
theorem completes_fcmp {f : FFmt} {rel : FVal → FVal → Bool} {quiet : Bool} {n : Nat} {fl : Flags} (hexec : exec i s = fcmp f rel quiet s d a b)
    (hq : some (d, n, fl) = some (d', q')) (hn : (truth (rel (fval f (s.h.getX a)) (fval f (s.h.getX b)))).toNat = n)
    (hfl : (if quiet then 0 else fsnan (fval f (s.h.getX a)) ||| fsnan (fval f (s.h.getX b))) = fl) : Completes i s (s.h.afterFloat d' q') :=
  completes_writeF (hexec.trans (by rw [fcmp, hn, hfl])) hq

/-- FCVT between floating-point formats, where the code of the source names one of the other two (R106). -/
theorem completes_fcvtFloatOp {own : Nat} {r src : BitVec 5} (hexec : exec i s = fcvtFloatOp own i s d a r src)
    (hq : (if 8 ≤ src.toNat ∧ src.toNat ≤ 10 ∧ src.toNat ≠ own then
      some (d, fconvert (rmOfSelection s.h.fctl r.toNat) (ffmtOf own) (fval (ffmtOf src.toNat) (s.h.getX a))) else none) = some (d', q')) :
    Completes i s (s.h.afterFloat d' q') := by
  by_cases hsrc : 8 ≤ src.toNat ∧ src.toNat ≤ 10 ∧ src.toNat ≠ own
  · rw [if_pos hsrc] at hq
    exact completes_writeF (hexec.trans (if_neg (by omega))) hq
  · rw [if_neg hsrc] at hq
    cases hq

/-- FMADD in the format that its f names (R108). -/
theorem completes_fmadd {f : BitVec 2} {r : BitVec 3} (hf : f ≠ 3)
    (hq : some (d, ffma (rmOfSelection s.h.fctl r.toNat) (ffmtOf (8 + f.toNat)) (fval (ffmtOf (8 + f.toNat)) (s.h.getX a))
      (fval (ffmtOf (8 + f.toNat)) (s.h.getX b)) (fval (ffmtOf (8 + f.toNat)) (s.h.getX c))) = some (d', q')) :
    Completes (.fmadd d a b c f r) s (s.h.afterFloat d' q') :=
  completes_writeF (if_neg hf) hq

end
end Sys2Proof.Machine
end

section
/-! The scalar floating-point instructions (O2). -/
open Sys2Proof Sys2Proof.Machine

/-- Settles O2: an operation writes what its rule computes; a comparison its truth value; a conversion between formats and FMADD where their
codes name formats. -/
theorem floatResults : Obligations.FloatResults := by
  intro i s d r h
  change Completes i s (s.h.afterFloat d r)
  dsimp only [floatResult] at h
  split at h
  case h_1 | h_2 | h_3 | h_4 | h_5 | h_6 | h_7 | h_11 | h_12 | h_13 | h_14 => exact completes_writeF rfl h
  case h_16 | h_17 | h_18 | h_19 | h_20 | h_21 | h_22 | h_26 | h_27 | h_28 | h_29 => exact completes_writeF rfl h
  case h_31 | h_32 | h_33 | h_34 | h_35 | h_36 | h_37 | h_41 | h_42 | h_43 | h_44 => exact completes_writeF rfl h
  case h_8 | h_9 | h_23 | h_24 | h_38 | h_39 => exact completes_fcmp rfl h (toNat_truth Iff.rfl) rfl
  case h_10 | h_25 | h_40 => exact completes_fcmp (rel := fun x y => fltv x y || feqv x y) rfl h (toNat_truth Bool.or_eq_true_iff) rfl
  case h_15 | h_30 | h_45 => exact completes_fcvtFloatOp rfl h
  case h_46 d' a b c f m =>
    have hf : ∀ n : Nat, n < 3 → f.toNat = n → f ≠ 3 := by rintro n hn hfn rfl; subst hfn; exact absurd hn (by decide)
    split at h
    · next h0 => exact completes_fmadd (hf 0 (by decide) h0) (by rw [h0]; exact h)
    · next h1 => exact completes_fmadd (hf 1 (by decide) h1) (by rw [h1]; exact h)
    · next h2 => exact completes_fmadd (hf 2 (by decide) h2) (by rw [h2]; exact h)
    · cases h
  case h_47 => cases h

end

section
/-! The end check of the loop levels (R114). -/
namespace Sys2Proof.Machine
section
variable {a : Hart} {n : Nat} {l : LoopLevel}

theorem Hart.join_loops (a : Hart) (hn : n < 6) : a.loops.toList[n]?.join = a.loops[n] := by simp [hn]

/-- The end check of an idle level, and of one that ends at another word. -/
theorem Hart.endCheck_succ_of_not_endsHere (hn : n < 6) (h : ∀ l, ¬a.endsHere ⟨n, hn⟩ l) : a.endCheck (n + 1) = a.endCheck n := by
  rw [Hart.endCheck, Hart.join_loops a hn]
  cases hl : a.loops[n] with
  | none => rfl
  | some l => exact if_pos fun hfin => h l ⟨hl, hfin⟩

/-- The end check of a level that ends here with a zero counter. -/
theorem Hart.endCheck_succ_of_zero (hn : n < 6) (h : a.endsHere ⟨n, hn⟩ l) (hzero : a.getX l.counter = 0) :
    a.endCheck (n + 1) = Hart.endCheck n { a with loops := a.loops.set! n none } := by
  have hl : a.loops[n] = some l := h.1
  rw [Hart.endCheck, Hart.join_loops a hn, hl]
  exact (if_neg (not_not.mpr h.2)).trans (if_neg (not_not.mpr hzero))

/-- The end check of a level that ends here with a nonzero counter: its back edge. -/
theorem Hart.endCheck_succ_of_ne_zero (hn : n < 6) (h : a.endsHere ⟨n, hn⟩ l) (hne : a.getX l.counter ≠ 0) :
    a.endCheck (n + 1) = { a.setX l.counter (a.getX l.counter - 1) with pc := l.start } := by
  have hl : a.loops[n] = some l := h.1
  rw [Hart.endCheck, Hart.join_loops a hn, hl]
  exact (if_neg (not_not.mpr h.2)).trans (if_pos hne)

theorem Hart.getElem_idledLoops_of_not_endsHere {p : Fin 6 → Bool} (hn : n < 6) (h : ∀ l, ¬a.endsHere ⟨n, hn⟩ l) :
    (a.idledLoops p)[n] = a.loops[n] := by
  rw [Hart.idledLoops, Vector.getElem_ofFn]
  dsimp only [Fin.getElem_fin]
  cases hl : a.loops[n] with
  | none => rfl
  | some l => exact if_neg fun hends => h l ⟨hl, hends.1⟩

theorem Hart.getElem_idledLoops_of_endsHere {p : Fin 6 → Bool} (hn : n < 6) (h : a.endsHere ⟨n, hn⟩ l) :
    (a.idledLoops p)[n] = if p ⟨n, hn⟩ then none else a.loops[n] := by
  have hl : a.loops[n] = some l := h.1
  rw [Hart.idledLoops, Vector.getElem_ofFn]
  dsimp only [Fin.getElem_fin]
  rw [hl]
  simp [h.2]

/-- Levels are idled alike where the sets agree on the levels that end here. -/
theorem Hart.idledLoops_congr {p q : Fin 6 → Bool} (h : ∀ n l, a.endsHere n l → p n = q n) : a.idledLoops p = a.idledLoops q := by
  refine Vector.ext fun i hi => ?_
  by_cases hends : ∃ l, a.endsHere ⟨i, hi⟩ l
  · obtain ⟨l, hl⟩ := hends
    rw [Hart.getElem_idledLoops_of_endsHere hi hl, Hart.getElem_idledLoops_of_endsHere hi hl, h _ l hl]
  · rw [Hart.getElem_idledLoops_of_not_endsHere hi (not_exists.mp hends), Hart.getElem_idledLoops_of_not_endsHere hi (not_exists.mp hends)]

theorem Hart.idledLoops_of_forall_false {p : Fin 6 → Bool} (h : ∀ n l, a.endsHere n l → p n = false) : a.idledLoops p = a.loops := by
  refine Vector.ext fun i hi => ?_
  by_cases hends : ∃ l, a.endsHere ⟨i, hi⟩ l
  · obtain ⟨l, hl⟩ := hends
    rw [Hart.getElem_idledLoops_of_endsHere hi hl, h _ l hl, if_neg (by decide)]
  · exact Hart.getElem_idledLoops_of_not_endsHere hi (not_exists.mp hends)

/-- Levels k to n - 1. -/
def levelsFrom (k n : Nat) (m : Fin 6) : Bool := decide (k ≤ m.val ∧ m.val < n)

/-- Idling level n first and then those below it that end here is idling them together. -/
theorem Hart.idledLoops_set {k : Nat} (hn : n < 6) (hk : k ≤ n) (h : a.endsHere ⟨n, hn⟩ l) :
    Hart.idledLoops { a with loops := a.loops.set! n none } (levelsFrom k n) = a.idledLoops (levelsFrom k (n + 1)) := by
  refine Vector.ext fun i hi => ?_
  by_cases hin : i = n
  · subst hin
    rw [Hart.getElem_idledLoops_of_endsHere hi h, if_pos (by simp [levelsFrom, hk]),
      Hart.getElem_idledLoops_of_not_endsHere hi (by simp [Hart.endsHere])]
    simp
  · have hloop : (a.loops.set! n none)[i] = a.loops[i] := by
      rw [Vector.set!_eq_setIfInBounds, Vector.getElem_setIfInBounds_ne hi (Ne.symm hin)]
    have hends : ∀ l, Hart.endsHere { a with loops := a.loops.set! n none } ⟨i, hi⟩ l ↔ a.endsHere ⟨i, hi⟩ l := by
      simp only [Hart.endsHere, Fin.getElem_fin, hloop, implies_true]
    by_cases hex : ∃ l, a.endsHere ⟨i, hi⟩ l
    · obtain ⟨l', hl'⟩ := hex
      have hlevels : levelsFrom k n ⟨i, hi⟩ = levelsFrom k (n + 1) ⟨i, hi⟩ := by simp only [levelsFrom]; congr 1; apply propext; omega
      rw [Hart.getElem_idledLoops_of_endsHere hi hl', Hart.getElem_idledLoops_of_endsHere hi ((hends l').mpr hl'), hlevels]
      exact congrArg _ hloop
    · have hno := not_exists.mp hex
      rw [Hart.getElem_idledLoops_of_not_endsHere hi hno, Hart.getElem_idledLoops_of_not_endsHere hi fun l' hl' => hno l' ((hends l').mp hl')]
      exact hloop

/-- The end check passes over the levels from n - 1 down to k where every one of them that ends here has a zero counter, and makes them idle. -/
theorem Hart.endCheck_skip {k : Nat} (hk : k ≤ n) (hn : n ≤ 6)
    (hzero : ∀ (m : Fin 6) l, k ≤ m.val → m.val < n → a.endsHere m l → a.getX l.counter = 0) :
    a.endCheck n = Hart.endCheck k { a with loops := a.idledLoops (levelsFrom k n) } := by
  induction n generalizing a with
  | zero =>
    obtain rfl := Nat.le_zero.mp hk
    rw [Hart.idledLoops_of_forall_false (by simp [levelsFrom])]
  | succ n ih =>
    rcases Nat.lt_or_eq_of_le hk with hlt | rfl
    · have hkn : k ≤ n := Nat.le_of_lt_succ hlt
      by_cases hex : ∃ l, a.endsHere ⟨n, hn⟩ l
      · obtain ⟨l, hl⟩ := hex
        rw [Hart.endCheck_succ_of_zero hn hl (hzero _ l hkn (Nat.lt_succ_self n) hl), ih hkn (Nat.le_of_lt hn), Hart.idledLoops_set hn hkn hl]
        intro m l' hkm hmn hends
        have hne : n ≠ m.val := Nat.ne_of_gt hmn
        have hloop : (a.loops.set! n none)[m.val] = a.loops[m.val] := by
          rw [Vector.set!_eq_setIfInBounds, Vector.getElem_setIfInBounds_ne m.isLt hne]
        exact hzero m l' hkm (Nat.lt_succ_of_lt hmn) ⟨hloop ▸ hends.1, hends.2⟩
      · have hno := not_exists.mp hex
        rw [Hart.endCheck_succ_of_not_endsHere hn hno,
          ih hkn (Nat.le_of_lt hn) fun m l' hkm hmn => hzero m l' hkm (Nat.lt_succ_of_lt hmn)]
        rw [Hart.idledLoops_congr (a := a) (p := levelsFrom k n) (q := levelsFrom k (n + 1))]
        intro m l' hends
        have hne : m.val ≠ n := by rintro rfl; exact hno l' hends
        simp only [levelsFrom]; congr 1; apply propext; omega
    · rw [Hart.idledLoops_of_forall_false fun m l _ => by simp [levelsFrom]]

theorem Hart.setX_with_loops (a : Hart) (v : Vector (Option LoopLevel) 6) (r : Reg) (w : Word) :
    Hart.setX { a with loops := v } r w = { a.setX r w with loops := v } := by
  unfold Hart.setX
  split <;> rfl

/-- Going on is the end check, also where no level is armed. -/
theorem Hart.advance_eq_endCheck (a : Hart) : a.advance = a.endCheck 6 := by
  unfold Hart.advance
  split
  · next hidle =>
    have hnone : ∀ (m : Fin 6) l, ¬a.endsHere m l := by
      intro m l hends
      have := Vector.all_eq_true.mp hidle m.val m.isLt
      rw [show a.loops[m.val] = some l from hends.1] at this
      cases this
    rw [Hart.endCheck_skip (Nat.zero_le 6) le_rfl fun m l _ _ hends => absurd hends (hnone m l),
      Hart.idledLoops_of_forall_false fun m l hends => absurd hends (hnone m l)]
    rfl
  · rfl

end
end Sys2Proof.Machine
end

section
/-! The end check (O11). -/
open Sys2Proof Sys2Proof.Machine

/-- Settles O11: the check passes over the levels with zero counters, and stops at the first with a nonzero one. -/
theorem endCheck : Obligations.EndCheck := by
  refine fun a => ⟨fun hzero => ?_, fun n l hends hne hzero => ?_⟩
  · rw [Hart.advance_eq_endCheck, Hart.endCheck_skip (Nat.zero_le 6) le_rfl fun m l _ _ => hzero m l,
      Hart.idledLoops_congr (p := levelsFrom 0 6) (q := fun _ => true) fun m _ _ => by simp [levelsFrom]]
    rfl
  · have hloops : a.idledLoops (levelsFrom (n.val + 1) 6) = a.idledLoops fun m => decide (n < m) :=
      Hart.idledLoops_congr fun m _ _ => by simp [levelsFrom]
    rw [Hart.advance_eq_endCheck, Hart.endCheck_skip n.isLt le_rfl fun m k hm _ => hzero m k hm, hloops]
    have hstill : Hart.endsHere { a with loops := a.idledLoops fun m => decide (n < m) } n l :=
      ⟨(Hart.getElem_idledLoops_of_endsHere n.isLt hends).trans ((if_neg (by simp)).trans hends.1), hends.2⟩
    rw [Hart.endCheck_succ_of_ne_zero n.isLt hstill hne]
    exact congrArg (fun b : Hart => { b with pc := l.start }) (Hart.setX_with_loops a _ _ _)

end

section
/-! Redirects, branches, jumps and LOOP (R112, R113, R115). -/
namespace Sys2Proof.Machine
section
variable {i : Instr} {s : State}

theorem completes_jump {t u : Word} (hexec : exec i s = jump s t) (ht : t = u) : Completes i s (s.h.redirect u) :=
  ht ▸ completes_setHart hexec

theorem completes_branch {a b : Reg} {o : BitVec 15} {rel : Int → Int → Bool} (hexec : exec i s = branch s a b o rel) :
    (rel (s.h.getX a).toInt (s.h.getX b).toInt = true → Completes i s (s.h.redirect (s.h.pc + off15 o))) ∧
    (rel (s.h.getX a).toInt (s.h.getX b).toInt = false → Completes i s s.h.advance) :=
  ⟨fun h => completes_jump (hexec.trans (if_pos h)) rfl, fun h => completes_commit (f := id) (hexec.trans (if_neg (by simp [h])))⟩

/-- An offset of words added to an address is the sum of the numbers modulo 2^64. -/
theorem pc_add_words (pc v : Word) : pc + 4 * v = BitVec.ofInt 64 (pc.toNat + 4 * v.toInt) := by
  rw [BitVec.ofInt_add, ofInt_toNat, BitVec.ofInt_mul, BitVec.ofInt_toInt]
  rfl

theorem pc_add_off15 (pc : Word) (o : BitVec 15) : pc + off15 o = BitVec.ofInt 64 (pc.toNat + 4 * o.toInt) := by
  rw [off15, pc_add_words, BitVec.toInt_signExtend_of_le (by decide)]

theorem pc_add_off20 (pc : Word) (o : BitVec 20) : pc + off20 o = BitVec.ofInt 64 (pc.toNat + 4 * o.toInt) := by
  rw [off20, pc_add_words, BitVec.toInt_signExtend_of_le (by decide)]

/-- An offset that is not negative is the same with either extension. -/
theorem off15_of_le {o : BitVec 15} (h : o.toNat ≤ 16383) : off15 o = 4 * o.setWidth 64 := by
  rw [off15, BitVec.signExtend_eq_setWidth_of_msb_false]
  rw [BitVec.msb_eq_false_iff_two_mul_lt]
  omega

/-- A trap taken that is none of those that park (R335, R342). -/
theorem traps_takeTrap {code : Nat} {v pc : Word} (hexec : exec i s = .next (s.takeTrap s.cur ⟨code, v, none⟩ pc))
    (hpreempt : code ≠ causePreempt) (hyield : code ≠ causeYield) : Traps i s code v pc :=
  completes_setHart (hexec.trans (congrArg _ (if_neg (by simp [hpreempt, hyield]))))

/-- A trap at the commit of an instruction (R330). -/
theorem traps_raise {code : Nat} {v : Word} (hqueue : s.h.queue = []) (hexec : exec i s = raise s ⟨code, v, none⟩)
    (hpreempt : code ≠ causePreempt) (hyield : code ≠ causeYield) : Traps i s code v s.h.pc :=
  traps_takeTrap (hexec.trans (if_pos (by simp [hqueue]))) hpreempt hyield

/-- A level whose range does not wrap holds the addresses from its start to its end. -/
theorem LoopLevel.holds_iff {l : LoopLevel} (h : l.start.toNat ≤ l.fin.toNat) (t : Word) :
    l.holds t = true ↔ l.start.toNat ≤ t.toNat ∧ t.toNat ≤ l.fin.toNat := by
  have hs := l.start.isLt
  have hf := l.fin.isLt
  have ht := t.isLt
  simp only [LoopLevel.holds, decide_eq_true_eq, BitVec.toNat_sub]
  omega

theorem set!_eq_set {α : Type} {n i : Nat} (v : Vector α n) (x : α) (hi : i < n) : v.set! i x = v.set i x hi := by
  refine Vector.ext fun j hj => ?_
  rw [Vector.set!_eq_setIfInBounds, Vector.getElem_setIfInBounds, Vector.getElem_set]

theorem Hart.getElem_loops_redirect (a : Hart) (t : Word) (n : Fin 6) : (a.redirect t).loops[n] = a.loops[n].filter (·.holds t) := by
  simp [Hart.redirect]

end
end Sys2Proof.Machine
end

section
/-! Branches, jumps, redirects and LOOP (O15, O16, O17, O18). -/
open Sys2Proof Sys2Proof.Machine

/-- Settles O15: the condition that each compares is the one of its rule, and of two opposite conditions one branch is taken. -/
theorem branches : Obligations.Branches := by
  intro s a b o
  dsimp only
  rw [← pc_add_off15]
  have hbeq := completes_branch (i := .beq a b o) (s := s) (rel := fun x y => decide (x = y)) rfl
  have hbne := completes_branch (i := .bne a b o) (s := s) (rel := fun x y => decide (x ≠ y)) rfl
  have hblt := completes_branch (i := .blt a b o) (s := s) (rel := fun x y => decide (x < y)) rfl
  have hbge := completes_branch (i := .bge a b o) (s := s) (rel := fun x y => decide (y ≤ x)) rfl
  refine ⟨?_, ?_⟩
  · split
    · next h => exact ⟨hbeq.1 (decide_eq_true h), hbne.2 (decide_eq_false (not_not.mpr h))⟩
    · next h => exact ⟨hbeq.2 (decide_eq_false h), hbne.1 (decide_eq_true h)⟩
  · split
    · next h => exact ⟨hblt.1 (decide_eq_true h), hbge.2 (decide_eq_false (Int.not_le.mpr h))⟩
    · next h => exact ⟨hblt.2 (decide_eq_false h), hbge.1 (decide_eq_true (Int.not_lt.mp h))⟩

/-- Settles O16: both write the link and redirect, and the target of JALR is checked before. -/
theorem jumps : Obligations.Jumps := by
  intro s d a o im
  dsimp only
  refine ⟨?_, fun haligned => ?_, fun hmisaligned hqueue => ?_⟩
  · rw [← pc_add_off20]
    exact completes_setHart rfl
  · exact completes_setHart (if_neg (not_not.mpr haligned))
  · exact traps_raise hqueue (if_pos hmisaligned) (by decide) (by decide)

/-- Settles O17: a redirect filters the levels by what their ranges hold. -/
theorem redirectIdlesLevels : Obligations.RedirectIdlesLevels := by
  intro a t n
  refine ⟨rfl, rfl, fun l hl hrange => ?_, fun hnone => ?_⟩
  · rw [Hart.getElem_loops_redirect, hl, Option.filter_some]
    simp only [LoopLevel.holds_iff hrange]
  · rw [Hart.getElem_loops_redirect, hnone, Option.filter_none]

/-- Settles O18: LOOP of an admitted level and offset is a jump or the arming of its level. -/
theorem loopArms : Obligations.LoopArms := by
  intro s a b o h5 hlow hhigh
  dsimp only
  have hexec : exec (.loop a b o) s = if s.h.getX a = 0 then jump s (s.h.pc + off15 o + 4)
      else commit s fun h => h.arm a b.toNat (s.h.pc + off15 o) := if_neg (by omega)
  rw [off15_of_le hhigh] at hexec
  refine ⟨fun hzero => completes_jump (hexec.trans (if_pos hzero)) rfl, fun hne => ?_⟩
  have harm := completes_commit (hexec.trans (if_neg hne))
  rwa [Hart.arm, set!_eq_set _ _ (by omega)] at harm

end

section
/-! What the stores of the device's units leave of harts, camps and kernels: a hart may lose links, or have its translation record written. -/
namespace Sys2Proof.Machine

/-- Hart b is hart a but for links that it has lost and for what a store to its translation record changes (R247, R349). -/
structure HartKept (a b : Hart) : Prop where
  rest : { b with
    links := a.links
    satp := a.satp
    ctx := a.ctx
    fetchBuf := a.fetchBuf
    loopBuf := a.loopBuf } = a
  links : b.links ⊆ a.links

theorem HartKept.refl (a : Hart) : HartKept a a := ⟨rfl, List.Subset.refl _⟩

theorem HartKept.trans {a b c : Hart} (h : HartKept a b) (g : HartKept b c) : HartKept a c where
  rest := (congrArg (fun d : Hart => { d with
    links := a.links
    satp := a.satp
    ctx := a.ctx
    fetchBuf := a.fetchBuf
    loopBuf := a.loopBuf }) g.rest :).trans h.rest
  links := List.Subset.trans g.links h.links

/-- State t has the camps of s, kernels with the identities and live harts of those of s, and harts kept. -/
structure State.Kept (s t : State) : Prop where
  camps : t.camps = s.camps
  kernels : t.kernels.map (fun x => (x.id, x.live)) = s.kernels.map fun x => (x.id, x.live)
  hart : ∀ h, HartKept (s.hart h) (t.hart h)

theorem State.Kept.refl (s : State) : s.Kept s := ⟨rfl, rfl, fun _ => .refl _⟩

theorem FMap.find?_map {β : Type} (g : Nat → β → β) (m : FMap β) (k : Nat) :
    FMap.find? (m.map fun e => (e.1, g e.1 e.2)) k = (FMap.find? m k).map (g k) := by
  induction m with
  | nil => rfl
  | cons e m ih =>
    rw [List.map_cons, FMap.find?, FMap.find?, ih]
    split
    · next he => rw [Option.map_some, he]
    · rfl

/-- A map of every listed value that an unlisted one would stand is a map of every value. -/
theorem FMap.get_map {β : Type} {d : Nat → β} {g : Nat → β → β} {k : Nat} (hd : g k (d k) = d k) (m : FMap β) :
    FMap.get d (m.map fun e => (e.1, g e.1 e.2)) k = g k (FMap.get d m k) := by
  rw [FMap.get, FMap.get, FMap.find?_map]
  cases FMap.find? m k with
  | none => exact hd.symm
  | some v => rfl

/-- A hart without its links on a line, where p holds of the hart. -/
def Hart.loseLink (line : Nat) (p : Prop) [Decidable p] (a : Hart) : Hart :=
  if p then { a with links := a.links.filter (· != line) } else a

theorem HartKept.loseLink (line : Nat) (p : Prop) [Decidable p] (a : Hart) : HartKept a (a.loseLink line p) := by
  unfold Hart.loseLink
  split
  · exact ⟨rfl, List.filter_subset_self _⟩
  · exact .refl a

/-- A hart of a state whose listed harts lose their links on a line where a test picks them. -/
theorem State.hart_of_loseLink {u v : State} {line : Nat} (p : Nat → Hart → Bool)
    (hharts : v.harts = u.harts.map fun e => if p e.1 e.2 then (e.1, { e.2 with links := e.2.links.filter (· != line) }) else e) (h : Nat) :
    v.hart h = (u.hart h).loseLink line (p h (u.hart h) = true) := by
  have hmap : v.harts = u.harts.map fun e => (e.1, e.2.loseLink line (p e.1 e.2 = true)) := by
    rw [hharts]
    refine List.map_congr_left fun e _ => ?_
    unfold Hart.loseLink
    split <;> rfl
  have hreset : (Hart.reset h).loseLink line (p h (Hart.reset h) = true) = Hart.reset h := by
    unfold Hart.loseLink
    split <;> rfl
  unfold State.hart
  rw [hmap]
  exact FMap.get_map (d := Hart.reset) (k := h) (g := fun k a => a.loseLink line (p k a = true)) hreset u.harts

theorem State.hart_loseLinks (s : State) (line : Nat) (except only : Option Nat) (h : Nat) : (s.loseLinks line except only).hart h =
    (s.hart h).loseLink line (((s.hart h).links.contains line && some h != except && (only.isNone || only == some (coreOf h))) = true) :=
  State.hart_of_loseLink (fun k a => a.links.contains line && some k != except && (only.isNone || only == some (coreOf k))) rfl h

section
variable {s u v : State}

theorem State.hart_of_harts (h : v.harts = u.harts) (g : Nat) : v.hart g = u.hart g := congrArg (fun m => FMap.get Hart.reset m g) h

theorem State.Kept.of_fields (hu : s.Kept u) (hharts : v.harts = u.harts) (hcamps : v.camps = u.camps) (hkernels : v.kernels = u.kernels) :
    s.Kept v where
  camps := hcamps.trans hu.camps
  kernels := hkernels ▸ hu.kernels
  hart h := State.hart_of_harts hharts h ▸ hu.hart h

theorem State.Kept.of_harts (hu : s.Kept u) (hharts : ∀ h, HartKept (u.hart h) (v.hart h)) (hcamps : v.camps = u.camps)
    (hkernels : v.kernels = u.kernels) : s.Kept v where
  camps := hcamps.trans hu.camps
  kernels := hkernels ▸ hu.kernels
  hart h := (hu.hart h).trans (hharts h)

theorem State.Kept.foldl {α : Type} {f : State → α → State} (hf : ∀ (u : State) (a : α), s.Kept u → s.Kept (f u a)) {l : List α}
    (hu : s.Kept u) : s.Kept (l.foldl f u) := by
  induction l generalizing u with
  | nil => exact hu
  | cons a l ih => exact ih (hf u a hu)

theorem State.Kept.modHart {h : Nat} {f : Hart → Hart} (hu : s.Kept u) (hf : HartKept (u.hart h) (f (u.hart h))) : s.Kept (u.modHart h f) := by
  refine hu.of_harts (fun g => ?_) rfl rfl
  rw [State.hart_modHart]
  split
  · next hg => exact hg ▸ hf
  · exact .refl _

theorem State.Kept.modCore {c : Nat} {f : Core → Core} (hu : s.Kept u) : s.Kept (u.modCore c f) := hu.of_fields rfl rfl rfl

theorem State.Kept.logError {srcLoc : Word} {pa kind id : Nat} (hu : s.Kept u) : s.Kept (u.logError srcLoc pa kind id) :=
  hu.of_fields rfl rfl rfl

theorem State.Kept.homeMerge {line : Nat} {ws : List (Nat × Byte)} {found : Word × Nat} {whole : Bool} (hu : s.Kept u) :
    s.Kept (u.homeMerge line ws found whole).1 := by
  unfold State.homeMerge
  extract_lets base full gone
  split
  · extract_lets p ln t touched old kept m line' t' slot key secs s1
    split
    · exact .logError hu
    · dsimp only
      split <;> exact hu.of_fields rfl rfl rfl
  · exact hu
  · exact hu.of_fields rfl rfl rfl

theorem State.Kept.homeWrite {pa : Nat} {bs : List Byte} {found : Word × Nat} (hu : s.Kept u) : s.Kept (u.homeWrite pa bs found).1 := by
  unfold State.homeWrite
  generalize bs.length / 256 + 2 = n
  induction n generalizing u pa bs with
  | zero => exact hu
  | succ n ih =>
    unfold homeWriteN
    split
    · exact hu
    · exact ih (.homeMerge hu)

theorem State.Kept.post {pa : Nat} (hu : s.Kept u) : s.Kept (u.post pa) := by
  unfold State.post
  split
  · split
    · exact hu
    · split <;> exact hu.of_fields rfl rfl rfl
  · exact hu

theorem State.Kept.writeBackLine {c line : Nat} (hu : s.Kept u) : s.Kept (u.writeBackLine c line) := by
  unfold State.writeBackLine
  extract_lets secs held dirty good whole ws s1 s2 s3 s31
  have hs1 : s.Kept s1 := by
    unfold s1
    split
    · exact hu
    · exact .homeMerge hu
  have hs2 : s.Kept s2 := .post hs1
  have hs3 : s.Kept s3 := .foldl (fun _ _ h => .logError h) hs2
  have hs31 : s.Kept s31 := by
    unfold s31
    split
    · exact hs2
    · split
      · exact hs3.of_fields rfl rfl rfl
      · exact hs3
  split
  · exact hu
  · exact .modCore hs31

theorem State.Kept.evictLine {c line : Nat} (hu : s.Kept u) : s.Kept (u.evictLine c line) := .modCore (.writeBackLine hu)

theorem State.Kept.saveWrite {h off : Nat} {bs : List Byte} (hu : s.Kept u) : s.Kept (u.saveWrite h off bs) := by
  unfold State.saveWrite State.homeWriteVia
  extract_lets p
  split
  · exact .homeWrite (.evictLine (.evictLine hu))
  · exact hu.of_fields rfl rfl rfl

end
end Sys2Proof.Machine
end

section
/-! Parking and restarting leave the registers of a hart (R342, R344); SCALL, YIELD.P, TRET and misaligned accesses. -/
namespace Sys2Proof.Machine

/-- Hart b is hart a but for its streams, its current and its parked task, and what `HartKept` allows. -/
structure ParkKept (a b : Hart) : Prop where
  eq : { b with
    streams := a.streams
    task := a.task
    parkedTask := a.parkedTask
    links := a.links
    satp := a.satp
    ctx := a.ctx
    fetchBuf := a.fetchBuf
    loopBuf := a.loopBuf } = a

theorem HartKept.parkKept {a b : Hart} (h : HartKept a b) : ParkKept a b where
  eq := (congrArg (fun d : Hart => { d with
    streams := a.streams
    task := a.task
    parkedTask := a.parkedTask }) h.rest :)

section
variable {a b : Hart} (h : ParkKept a b)
include h
theorem ParkKept.x : b.x = a.x := (congrArg Hart.x h.eq :)
theorem ParkKept.pc : b.pc = a.pc := (congrArg Hart.pc h.eq :)
theorem ParkKept.loops : b.loops = a.loops := (congrArg Hart.loops h.eq :)
theorem ParkKept.hstat : b.hstat = a.hstat := (congrArg Hart.hstat h.eq :)
theorem ParkKept.tcause : b.tcause = a.tcause := (congrArg Hart.tcause h.eq :)
theorem ParkKept.trappc : b.trappc = a.trappc := (congrArg Hart.trappc h.eq :)
theorem ParkKept.trapei : b.trapei = a.trapei := (congrArg Hart.trapei h.eq :)
end

theorem ParkKept.trans {a b c : Hart} (h : ParkKept a b) (g : ParkKept b c) : ParkKept a c where
  eq := (congrArg (fun d : Hart => { d with
    streams := a.streams
    task := a.task
    parkedTask := a.parkedTask
    links := a.links
    satp := a.satp
    ctx := a.ctx
    fetchBuf := a.fetchBuf
    loopBuf := a.loopBuf }) g.eq :).trans h.eq

section
variable {a : Hart} {u : State} {h g : Nat}

theorem ParkKept.of_harts {v : State} (hu : ParkKept a (u.hart h)) (hharts : v.harts = u.harts) : ParkKept a (v.hart h) :=
  State.hart_of_harts hharts h ▸ hu

theorem ParkKept.modHart {f : Hart → Hart} (hu : ParkKept a (u.hart h)) (hf : ∀ b, ParkKept b (f b)) : ParkKept a ((u.modHart g f).hart h) := by
  rw [State.hart_modHart]
  split
  · next hg => exact hg ▸ hu.trans (hf _)
  · exact hu

theorem ParkKept.saveWrite {off : Nat} {bs : List Byte} (hu : ParkKept a (u.hart h)) : ParkKept a ((u.saveWrite g off bs).hart h) :=
  hu.trans (((State.Kept.refl u).saveWrite.hart h).parkKept)

theorem ParkKept.foldl {α : Type} {f : State → α → State} (hf : ∀ (u : State) (x : α), ParkKept a (u.hart h) → ParkKept a ((f u x).hart h))
    {l : List α} (hu : ParkKept a (u.hart h)) : ParkKept a ((l.foldl f u).hart h) := by
  induction l generalizing u with
  | nil => exact hu
  | cons x l ih => exact ih (hf u x hu)

theorem ParkKept.parkCopy {o : Op} (hu : ParkKept a (u.hart h)) : ParkKept a ((u.parkCopy o).hart h) := by
  unfold State.parkCopy
  split
  · split
    · exact .saveWrite (hu.of_harts rfl)
    · exact hu
  · exact hu

theorem ParkKept.parkStream {q : Nat} {st : Option Stream} {objVa : Word} (hu : ParkKept a (u.hart h)) :
    ParkKept a ((u.parkStream g q st objVa).hart h) := by
  unfold State.parkStream
  split
  · exact hu
  · split
    · exact hu
    · exact .saveWrite (hu.modHart fun _ => ⟨rfl⟩)

theorem ParkKept.parkTask (hu : ParkKept a (u.hart h)) : ParkKept a ((u.parkTask g).hart h) := by
  unfold State.parkTask
  split
  · exact hu
  · split
    · exact hu
    · exact .saveWrite (hu.modHart fun _ => ⟨rfl⟩)

theorem ParkKept.park (hu : ParkKept a (u.hart h)) : ParkKept a ((u.park g).hart h) :=
  .parkTask (.parkStream (.parkStream (.foldl (fun _ _ h' => .parkCopy h') hu)))

theorem ParkKept.restart (hu : ParkKept a (u.hart h)) : ParkKept a ((u.restart g).hart h) := by
  unfold State.restart
  extract_lets ctx recs s1 s2 s3
  have hs1 : ParkKept a (s1.hart h) := hu.of_harts rfl
  have hs2 : ParkKept a (s2.hart h) := .foldl (fun _ _ h' => .saveWrite h') hs1
  have hs3 : ParkKept a (s3.hart h) := by
    unfold s3
    refine .foldl (fun s _ hs => ?_) hs2
    extract_lets b
    split
    · split
      · exact .saveWrite (hs.modHart fun _ => ⟨rfl⟩)
      · exact hs
    · exact hs
  split
  · split
    · exact .saveWrite (hs3.modHart fun _ => ⟨rfl⟩)
    · exact hs3
  · exact hs3

end

/-- A trap leaves the registers of R335, whether it parks or not. -/
theorem parkKept_takeTrap (s : State) (h : Nat) (t : Trap) (pc : Word) :
    ParkKept ((s.hart h).trapTo (s.camp (campOf h)).entrypc t pc) ((s.takeTrap h t pc).hart h) := by
  have htrap : ParkKept ((s.hart h).trapTo (s.camp (campOf h)).entrypc t pc)
      ((s.modHart h fun a => a.trapTo (s.camp (campOf h)).entrypc t pc).hart h) := by
    rw [State.hart_modHart_same]
    exact (HartKept.refl _).parkKept
  unfold State.takeTrap
  dsimp only
  split
  · exact htrap.park
  · exact htrap

theorem Hart.sup_returnFrom (a : Hart) : a.returnFrom.sup = a.hstat.getLsbD 1 := by
  unfold Hart.sup Hart.returnFrom
  dsimp only
  cases a.hstat.getLsbD 1 <;> rfl

/-- A return to kernel privilege with no request pending leaves the registers of R121. -/
theorem parkKept_returnTrap {s : State} {h : Nat} (hkernel : (s.hart h).hstat.getLsbD 1 = false) (hpreempt : (s.hart h).preempt = none) :
    ParkKept (s.hart h).returnFrom ((s.returnTrap h).hart h) := by
  have hback : ParkKept (s.hart h).returnFrom ((s.modHart h Hart.returnFrom).hart h) := by
    rw [State.hart_modHart_same]
    exact (HartKept.refl _).parkKept
  have hsup : ((s.modHart h Hart.returnFrom).hart h).sup = false := by
    rw [State.hart_modHart_same, Hart.sup_returnFrom, hkernel]
  have hmay : ((s.modHart h Hart.returnFrom).hart h).mayPreempt = none := by
    rw [State.hart_modHart_same, Hart.mayPreempt]
    simp [Hart.returnFrom, hpreempt]
  unfold State.returnTrap
  extract_lets s1 a
  rw [if_neg (Bool.eq_false_iff.mp hsup), hmay]
  exact hback.restart

/-- A return to supervisor privilege. -/
theorem State.returnTrap_of_sup {s : State} {h : Nat} (hsup : (s.hart h).hstat.getLsbD 1 = true) :
    s.returnTrap h = s.modHart h Hart.returnFrom := by
  refine if_pos ?_
  rw [State.hart_modHart_same, Hart.sup_returnFrom, hsup]

theorem exec_tret {s : State} (hqueue : s.h.queue = []) :
    exec .tret s = if s.h.sup then .next (s.returnTrap s.cur) else illegal s .tret :=
  (held_of_queue_nil hqueue fun s => if s.h.sup then .next (s.returnTrap s.cur) else illegal s .tret :)

theorem exec_scall {s : State} (a : Reg) (hqueue : s.h.queue = []) :
    exec (.scall a) s = .next ((s.landOwn s.cur).takeTrap s.cur ⟨causeSyscall, s.h.getX a, none⟩ (s.h.pc + 4)) :=
  (held_of_queue_nil hqueue fun s => .next ((s.landOwn s.cur).takeTrap s.cur ⟨causeSyscall, s.h.getX a, none⟩ (s.h.pc + 4)) :)

theorem exec_yieldP {s : State} (hqueue : s.h.queue = []) :
    exec .yieldP s = if s.h.sup then commit s id else .next ((s.landOwn s.cur).takeTrap s.cur ⟨causeYield, 0, none⟩ (s.h.pc + 4)) :=
  (held_of_queue_nil hqueue fun s =>
    if s.h.sup then commit s id else .next ((s.landOwn s.cur).takeTrap s.cur ⟨causeYield, 0, none⟩ (s.h.pc + 4)) :)

end Sys2Proof.Machine
end

section
/-! TRET, SCALL, YIELD.P and misaligned scalar accesses (O13, O24, O30). -/
open Sys2Proof Sys2Proof.Machine

/-- Settles O13: to supervisor privilege TRET changes registers alone, to kernel privilege it restarts what is parked too, and at kernel privilege
it is ILLEGAL. -/
theorem trapReturn : Obligations.TrapReturn := by
  intro s hqueue
  refine ⟨fun hsup hprev => ?_, fun hsup hprev hpreempt => ?_, fun hsup => ?_⟩
  · have hback : s.h.returnFrom = { s.h with hstat := 3, pc := s.h.trappc, loops := Vector.replicate 6 none } := by
      rw [Hart.returnFrom, hprev]
      rfl
    have hexec := (exec_tret hqueue).trans (if_pos hsup)
    rw [State.returnTrap_of_sup hprev] at hexec
    exact hback ▸ completes_setHart hexec
  · have hkept : ParkKept s.h.returnFrom ((s.returnTrap s.cur).hart s.cur) := parkKept_returnTrap hprev hpreempt
    have hstat : s.h.returnFrom.hstat = 0 := if_neg (by rw [hprev]; decide)
    refine ⟨_, (exec_tret hqueue).trans (if_pos hsup), hkept.hstat.trans hstat, hkept.pc, fun n => ?_, hkept.x, hkept.trappc⟩
    simp [hkept.loops, Hart.returnFrom]
  · exact traps_illegal hqueue ((exec_tret hqueue).trans (if_neg (by simp [hsup])))

/-- Settles O24: with no store of its core held, both are traps at the next word, and YIELD.P parks after it. -/
theorem callsToSupervisor : Obligations.CallsToSupervisor := by
  intro s a hqueue hstores
  have hland : s.landOwn s.cur = s := State.landOwn_of_stores_nil hstores
  refine ⟨?_, fun hsup => ?_, fun hsup => ?_⟩
  · have hexec := exec_scall a hqueue
    rw [hland] at hexec
    exact traps_takeTrap hexec (by decide) (by decide)
  · exact completes_commit (f := id) ((exec_yieldP hqueue).trans (if_pos hsup))
  · have hexec := (exec_yieldP hqueue).trans (if_neg (by simp [hsup]))
    rw [hland] at hexec
    have hkept := parkKept_takeTrap s s.cur ⟨causeYield, 0, none⟩ (s.h.pc + 4)
    refine ⟨_, hexec, hkept.tcause, ?_, hkept.trappc, hkept.trapei, hkept.pc, hkept.x⟩
    rw [hkept.hstat, Hart.trapTo]
    dsimp only
    split <;> rfl

/-- Settles O30: the check of the address comes first in a load and in a store. -/
theorem misalignedAccesses : Obligations.MisalignedAccesses := by
  intro s d a im i n hmem hqueue hmisaligned
  have hload : ∀ f, exec i s = scalarLoad s d a im n f → Traps i s 4 (s.h.getX a + im.signExtend 64) s.h.pc := fun f hexec =>
    traps_raise hqueue (hexec.trans (if_pos hmisaligned)) (by decide) (by decide)
  have hstore : exec i s = scalarStore s d a im n → Traps i s 4 (s.h.getX a + im.signExtend 64) s.h.pc := fun hexec =>
    traps_raise hqueue (hexec.trans ((held_of_queue_nil hqueue _).trans (if_pos hmisaligned))) (by decide) (by decide)
  simp only [List.mem_cons, Prod.mk.injEq, List.not_mem_nil, or_false] at hmem
  obtain ⟨rfl, rfl⟩ | ⟨rfl, rfl⟩ | ⟨rfl, rfl⟩ | ⟨rfl, rfl⟩ | ⟨rfl, rfl⟩ | ⟨rfl, rfl⟩ | ⟨rfl, rfl⟩ := hmem
  · exact hload _ rfl
  · exact hload _ rfl
  · exact hload _ rfl
  · exact hload _ rfl
  · exact hstore rfl
  · exact hstore rfl
  · exact hstore rfl

end

section
/-! What a translation, a fill and an access leave of the device: only cores, and there copies of memory (R178, R216, R353). -/
namespace Sys2Proof.Machine

/-- Nothing but harts, cores, kernels and the camps to retest differs: memory, its homes and the address map are the same. -/
def State.SameHomes (t s : State) : Prop :=
  { t with
    harts := s.harts
    cores := s.cores
    kernels := s.kernels
    retests := s.retests } = s

section
variable {t u s : State}

theorem State.SameButUnits.sameHomes (h : t.SameButUnits s) : t.SameHomes s :=
  (congrArg (fun v : State => { v with
    kernels := s.kernels
    retests := s.retests }) h :)
theorem State.SameHomes.symm (h : t.SameHomes s) : s.SameHomes t :=
  (congrArg (fun v : State => { v with
    harts := t.harts
    cores := t.cores
    kernels := t.kernels
    retests := t.retests }) h :).symm
theorem State.SameHomes.place (h : t.SameHomes s) : t.place = s.place := (congrArg State.place h :)
theorem State.SameHomes.fold (h : t.SameHomes s) : t.fold = s.fold := (congrArg State.fold h :)
theorem State.SameHomes.homeByte (h : t.SameHomes s) : t.homeByte = s.homeByte := (congrArg State.homeByte h :)
theorem State.SameHomes.mem (h : t.SameHomes s) : t.mem = s.mem := (congrArg State.mem h :)
theorem State.SameHomes.camps (h : t.SameHomes s) : t.camps = s.camps := (congrArg State.camps h :)
theorem State.SameHomes.slow (h : t.SameHomes s) : t.slow = s.slow := (congrArg State.slow h :)
theorem State.SameHomes.cur (h : t.SameHomes s) : t.cur = s.cur := (congrArg State.cur h :)
theorem State.SameHomes.camp (h : t.SameHomes s) (c : Nat) : t.camp c = s.camp c := (congrArg (fun v => FMap.get Camp.reset v c) h.camps :)
theorem State.SameHomes.unwatched (h : t.SameHomes s) (hs : s.unwatched) : t.unwatched := by
  unfold State.unwatched
  rw [h.camps]
  exact hs

/-- State u is s but for the copies of memory and of translations that cores hold. -/
structure State.Walked (s u : State) : Prop where
  rest : { u with cores := s.cores } = s
  core : ∀ c, ∃ l b t, u.core c = { s.core c with
    l2 := l
    badL2 := b
    tlb := t }

theorem State.Walked.refl (s : State) : s.Walked s := ⟨rfl, fun _ => ⟨_, _, _, rfl⟩⟩

theorem State.Walked.modCore {c : Nat} {f : Core → Core} (h : s.Walked u) (hf : ∀ k, ∃ l b t, f k = { k with
    l2 := l
    badL2 := b
    tlb := t }) : s.Walked (u.modCore c f) where
  rest := h.rest
  core d := by
    obtain ⟨l, b, t, hd⟩ := h.core d
    rw [State.core_modCore]
    split
    · next he =>
      obtain ⟨l', b', t', hf'⟩ := hf (u.core d)
      subst he
      exact ⟨l', b', t', by rw [hf', hd]⟩
    · exact ⟨l, b, t, hd⟩

theorem State.Walked.walkAcquire (h : s.Walked u) (x : XCtx) (va : Word) (acc : Access) : s.Walked (u.walkAcquire x va acc) := by
  unfold State.walkAcquire State.acquire
  split
  · split
    · exact h
    · exact h.modCore fun k => ⟨_, _, _, rfl⟩
  · exact h

theorem State.Walked.keep (h : s.Walked u) (g : Nat) (t : Option TlbEntry) : s.Walked (u.keep g t) := by
  cases t with
  | none => exact h
  | some e => exact h.modCore fun k => ⟨_, _, _, rfl⟩

theorem State.Walked.sameButUnits (h : s.Walked u) : u.SameButUnits s := (congrArg (fun v : State => { v with harts := s.harts }) h.rest :)
theorem State.Walked.sameHomes (h : s.Walked u) : u.SameHomes s := h.sameButUnits.sameHomes
theorem State.Walked.hart (h : s.Walked u) : u.hart = s.hart := (congrArg State.hart h.rest :)
theorem State.Walked.cur (h : s.Walked u) : u.cur = s.cur := h.sameHomes.cur
theorem State.Walked.h_eq (h : s.Walked u) : u.h = s.h := (congrArg State.h h.rest :)
theorem State.Walked.stores (h : s.Walked u) (c : Nat) : (u.core c).stores = (s.core c).stores := by
  obtain ⟨l, b, t, hc⟩ := h.core c
  rw [hc]
theorem State.Walked.plane (h : s.Walked u) (c : Nat) : (u.core c).plane = (s.core c).plane := by
  obtain ⟨l, b, t, hc⟩ := h.core c
  rw [hc]
theorem State.Walked.acc (h : s.Walked u) (c : Nat) : (u.core c).acc = (s.core c).acc := by
  obtain ⟨l, b, t, hc⟩ := h.core c
  rw [hc]

end

/-! ### Watchpoints and held stores -/

theorem foldl_eq_of_forall {α β : Type} {f : β → α → β} {l : List α} {b : β} (h : ∀ x ∈ l, f b x = b) : l.foldl f b = b := by
  induction l with
  | nil => rfl
  | cons x l ih =>
    rw [List.foldl_cons, h x (List.mem_cons_self ..)]
    exact ih fun y hy => h y (List.mem_cons_of_mem _ hy)

/-- With no watchpoint enabled an access is followed by none. -/
theorem State.watchBytes_of_unwatched {s1 : State} (h : s1.unwatched) (s0 : State) (ag : Agent) (atHome store atomic : Bool) (at_ : Nat → Bool) :
    State.watchBytes s0 s1 ag atHome store atomic at_ = s1 := by
  refine foldl_eq_of_forall fun e he => foldl_eq_of_forall fun w _ => ?_
  split
  · next wt hwt => rw [if_neg]; rw [bit_toNat, h e he wt (List.mem_of_getElem? hwt)]; decide
  · rfl

theorem State.watch_of_unwatched {s1 : State} (h : s1.unwatched) (s0 : State) (ag : Agent) (atHome store atomic : Bool) (pa n : Nat) :
    State.watch s0 s1 ag atHome store atomic pa n = s1 := State.watchBytes_of_unwatched h ..

theorem State.landMet_of_stores_nil {s : State} {h : Nat} (hstores : (s.core (coreOf h)).stores = []) (pa n : Nat) : s.landMet h pa n = s := by
  simp [State.landMet, State.landIf, hstores]

/-- An examination of a range finds nothing where no byte of it is bad. -/
theorem firstBad_eq_none {fine : Nat → Bool} {f : Nat → Option Nat} {pa n : Nat} (h : ∀ i, i < n → f (pa + i) = none) :
    firstBad fine f pa n = none := by
  have hrange : ∀ p, pa ≤ p → p < pa + n → f p = none := fun p hle hlt => by
    have := h (p - pa) (by omega)
    rwa [Nat.add_sub_cancel' hle] at this
  unfold firstBad
  split
  · rfl
  · next hn =>
    rw [List.findSome?_eq_none_iff]
    intro p hp
    obtain ⟨i, hi, hp⟩ := List.mem_flatMap.mp hp
    rw [List.mem_range] at hi
    have hlow : Nat.max pa (64 * (pa / 64 + i)) < pa + n := Nat.max_lt.mpr ⟨by omega, by omega⟩
    have hge : pa ≤ Nat.max pa (64 * (pa / 64 + i)) := Nat.le_max_left ..
    dsimp only at hp
    split at hp
    · obtain ⟨hmem, hlt⟩ := List.mem_filter.mp hp
      obtain ⟨j, -, rfl⟩ := List.mem_map.mp hmem
      rw [hrange _ (hge.trans (Nat.le_max_left ..)) (of_decide_eq_true hlt)]
      rfl
    · rw [List.mem_singleton.mp hp, hrange _ hge hlow]
      rfl

/-! ### Fills -/

/-- State v is u with sectors filled in core c: no byte that the core sees differs. -/
structure State.Filled (u v : State) (c : Nat) : Prop where
  rest : { v with cores := u.cores } = u
  others : ∀ d, d ≠ c → v.core d = u.core d
  core : ∃ l b, v.core c = { u.core c with
    l2 := l
    badL2 := b }
  bytes : ∀ p, v.l2Byte c p = u.l2Byte c p

theorem State.Filled.refl (u : State) (c : Nat) : u.Filled u c := ⟨rfl, fun _ _ => rfl, ⟨_, _, rfl⟩, fun _ => rfl⟩

section
variable {u v : State} {c : Nat}

theorem State.Filled.l2Fill (h : u.Filled v c) (sec : Nat) : u.Filled (v.l2Fill c sec) c where
  rest := by
    unfold State.l2Fill
    split <;> exact h.rest
  others d hd := by
    unfold State.l2Fill
    split
    · exact h.others d hd
    · rw [State.core_modCore_ne _ _ hd, h.others d hd]
  core := by
    obtain ⟨l, b, hc⟩ := h.core
    unfold State.l2Fill
    split
    · exact ⟨l, b, hc⟩
    · rw [State.core_modCore_same, hc]
      exact ⟨_, _, rfl⟩
  bytes p := (State.l2Byte_l2Fill v c sec p).trans (h.bytes p)

theorem State.Filled.l2FillRange (h : u.Filled v c) (pa n : Nat) : u.Filled (v.l2FillRange c pa n) c := by
  unfold State.l2FillRange
  split
  · exact h
  · generalize List.range ((pa + n - 1) / 64 - pa / 64 + 1) = l
    induction l generalizing v with
    | nil => exact h
    | cons i l ih => exact ih (h.l2Fill _)

theorem State.Filled.sameButUnits (h : u.Filled v c) : v.SameButUnits u := (congrArg (fun w : State => { w with harts := u.harts }) h.rest :)
theorem State.Filled.hart (h : u.Filled v c) : v.hart = u.hart := (congrArg State.hart h.rest :)
theorem State.Filled.h_eq (h : u.Filled v c) : v.h = u.h := (congrArg State.h h.rest :)

/-- A state that has the homes of another sees the bytes of a core that holds the same sectors. -/
theorem State.l2Byte_congr {s t : State} {d : Nat} (h : t.SameHomes s) (hl2 : (t.core d).l2 = (s.core c).l2) (p : Nat) : t.l2Byte d p = s.l2Byte c p := by
  unfold State.l2Byte
  rw [hl2, h.homeByte]

theorem State.seen_congr {s t : State} {d q : Nat} (h : t.SameHomes s) (hl2 : t.l2Byte d q = s.l2Byte c q) : t.seen d q = s.seen c q := by
  unfold State.seen
  rw [h.fold, h.place, h.mem, hl2]

/-- A byte at a folded address, cached or at its home. -/
theorem State.seen_of_cached {s : State} {p : Nat} (hfold : s.fold p = p) (hcached : (s.place p).cached = true) : s.seen c p = s.l2Byte c p := by
  rw [State.seen, if_neg (not_not.mpr hfold), if_pos hcached]
theorem State.seen_of_not_cached {s : State} {p : Nat} (hfold : s.fold p = p) (hcached : (s.place p).cached = false) :
    s.seen c p = s.mem.read p := by
  rw [State.seen, if_neg (not_not.mpr hfold), if_neg (by simp [hcached])]

/-- An ordinary read of folded bytes gives those that the core sees, and at most fills sectors. -/
theorem State.coreRead_seen {pa n : Nat} (hn : 0 < n) (hfolded : ∀ i, i < n → u.fold (pa + i) = pa + i ∧ ((u.place (pa + i)).cached = (u.place pa).cached)) :
    u.Filled (u.coreRead c pa n).1 c ∧ (u.coreRead c pa n).2 = (List.range n).map fun j => u.seen c (pa + j) := by
  have hpa : u.fold pa = pa := (hfolded 0 hn).1
  unfold State.coreRead
  dsimp only
  rw [hpa]
  have hfill : u.Filled (u.l2FillRange c pa n) c := (State.Filled.refl u c).l2FillRange pa n
  split
  · next hcached =>
    refine ⟨hfill, List.map_congr_left fun i hi => ?_⟩
    obtain ⟨hfold, hplace⟩ := hfolded i (List.mem_range.mp hi)
    rw [State.seen_of_cached hfold (hplace.trans hcached)]
    exact hfill.bytes _
  · next hcached =>
    refine ⟨.refl u c, List.map_congr_left fun i hi => ?_⟩
    obtain ⟨hfold, hplace⟩ := hfolded i (List.mem_range.mp hi)
    rw [State.seen_of_not_cached hfold (hplace.trans (Bool.eq_false_iff.mpr hcached))]

end

end Sys2Proof.Machine
end

section
/-! Scalar loads that reach memory, and accesses whose translation is refused (R109, R110, R348). -/
namespace Sys2Proof.Machine

theorem State.Walked.probed (s : State) (va : Word) (acc : Access) : s.Walked (s.walkAcquire (s.xctx s.cur) va acc) :=
  (State.Walked.refl s).walkAcquire ..

section
variable {s u : State} {va : Word} {acc : Access} {n pa : Nat}

theorem Reaches.walked (h : Reaches s va acc n pa u) : s.Walked u := h.left ▸ (State.Walked.probed s va acc).keep ..

theorem Reaches.probe_eq (h : Reaches s va acc n pa u) : s.probe (s.xctx s.cur) va acc = (u, .ok pa) := by
  rw [State.probe_of_translate h.translated, h.left]
  rfl

theorem Reaches.place_ne (h : Reaches s va acc n pa u) : (∀ off, u.place pa ≠ .mgmt off) ∧ u.place pa ≠ .nothing := by
  rw [h.walked.sameHomes.place]
  rcases h.plain with hcached | ⟨slot, off, hlocal⟩
  · exact ⟨fun off hmgmt => by simp [hmgmt, Place.cached] at hcached, fun hnothing => by simp [hnothing, Place.cached] at hcached⟩
  · rw [hlocal]
    exact ⟨nofun, nofun⟩

/-- An address outside the part of the save page that the device keeps. -/
theorem not_inTranslation (h : s.h.sup = false ∨ va.toNat < 0x1000 ∨ 0x4000 ≤ va.toNat) : (s.xctx s.cur).inTranslation va = false := by
  have hx : (s.xctx s.cur).sup = s.h.sup := rfl
  rw [XCtx.inTranslation, hx]
  rcases h with h | h | h
  · simp [h]
  · simp; omega
  · simp; omega

theorem not_inRecords (h : s.h.sup = false ∨ va.toNat < 0x1000 ∨ 0x4000 ≤ va.toNat) : (s.xctx s.cur).inRecords va = false := by
  have hx : (s.xctx s.cur).sup = s.h.sup := rfl
  rw [XCtx.inRecords, hx]
  rcases h with h | h | h
  · simp [h]
  · simp; omega
  · simp; omega

theorem probe_of_refused {r : Nat} (h : (s.translate (s.xctx s.cur) va acc).1 = .refused r) :
    s.probe (s.xctx s.cur) va acc = (s.walkAcquire (s.xctx s.cur) va acc, .error (.refused r)) := by
  rcases hr : s.translate (s.xctx s.cur) va acc with ⟨x, t⟩
  rw [hr] at h
  subst h
  simp [State.probe, hr]

/-- The trap of an access that translation refuses: the reason in the translation record, and LOAD_FAULT or STORE_FAULT (R110, R348). -/
theorem faults_raiseIn {i : Instr} {r : Nat} (hqueue : s.h.queue = []) (hwalk : s.Walked u)
    (hexec : exec i s = raiseIn s (u.accessTrap s.cur (acc == .store) va (.refused r)).1 (u.accessTrap s.cur (acc == .store) va (.refused r)).2) :
    Faults i s u acc va r none := by
  have htrap : exec i s = .next ((u.modHart s.cur fun a => { a with xreason := r }).modHart s.cur fun a =>
      a.trapTo (s.camp (campOf s.cur)).entrypc ⟨if acc = .store then 6 else 5, va, none⟩ s.h.pc) := by
    rw [hexec, raiseIn, if_pos (by simp [hqueue]), State.accessTrap, State.takeTrap]
    dsimp only
    rw [if_neg (by cases acc <;> decide), ← hwalk.sameHomes.camp (campOf s.cur)]
    cases acc <;> rfl
  refine ⟨_, htrap, ?_, rfl, fun h hne => ?_, fun c _ => rfl, rfl⟩
  · rw [State.hart_modHart_same, State.hart_modHart_same, hwalk.hart]
    rfl
  · rw [State.hart_modHart_ne _ _ hne, State.hart_modHart_ne _ _ hne]

end

section
variable {s u : State} {va : Word} {n pa : Nat}

/-- A load that reaches memory gives the bytes that its core sees, and at most fills sectors. -/
theorem Reaches.hartLoad (h : Reaches s va .load n pa u) (hn : 0 < n) (hwatch : s.unwatched) :
    ∃ v, s.hartLoad s.cur va n = (v, .ok ((List.range n).map fun j => u.seen (coreOf s.cur) (pa + j))) ∧ u.Filled v (coreOf s.cur) := by
  have hwalk := h.walked
  have hplace : u.place = s.place := hwalk.sameHomes.place
  have hfolded : ∀ i, i < n → u.fold (pa + i) = pa + i ∧ ((u.place (pa + i)).cached = (u.place pa).cached) := by
    rw [hplace, hwalk.sameHomes.fold]
    exact h.folded
  have hland : u.landFor (.hart s.cur) pa n = u :=
    State.landMet_of_stores_nil ((hwalk.stores _).trans h.prompt.empty) pa n
  have hbad : u.badLoad (coreOf s.cur) pa n = none := firstBad_eq_none h.sound
  obtain ⟨hfill, hbytes⟩ := State.coreRead_seen (c := coreOf s.cur) hn hfolded
  refine ⟨(u.coreRead (coreOf s.cur) pa n).1, ?_, hfill⟩
  have hafter : (u.coreRead (coreOf s.cur) pa n).1.afterLoad (.hart s.cur) false pa n = (u.coreRead (coreOf s.cur) pa n).1 :=
    State.watch_of_unwatched (hfill.sameButUnits.sameHomes.unwatched (hwalk.sameHomes.unwatched hwatch)) ..
  have hload : u.loadPa (.hart s.cur) (coreOf s.cur) va pa n =
      ((u.coreRead (coreOf s.cur) pa n).1, .ok ((List.range n).map fun j => u.seen (coreOf s.cur) (pa + j))) := by
    unfold State.loadPa
    split
    · next off hmgmt => exact absurd hmgmt (h.place_ne.1 off)
    · next hnothing => exact absurd hnothing h.place_ne.2
    · rw [hland]
      dsimp only
      rw [hbad]
      dsimp only
      rw [hafter, hbytes]
  have hfilled : u.fillRefused (coreOf (s.xctx s.cur).h) (s.xctx s.cur).ctx pa n false = false := h.filled
  rw [State.hartLoad, State.memLoad, if_neg (by simp [not_inTranslation h.outside]), h.probe_eq]
  dsimp only
  rw [if_neg (by simp [hfilled])]
  exact hload

theorem hartLoad_of_refused {r : Nat} (houtside : s.h.sup = false ∨ va.toNat < 0x1000 ∨ 0x4000 ≤ va.toNat)
    (h : (s.translate (s.xctx s.cur) va .load).1 = .refused r) :
    s.hartLoad s.cur va n = (s.walkAcquire (s.xctx s.cur) va .load, .error (.refused r)) := by
  rw [State.hartLoad, State.memLoad, if_neg (by simp [not_inTranslation houtside]), probe_of_refused h]

end

theorem leNat_lt (l : List Byte) : leNat l < 2 ^ (8 * l.length) := by
  induction l with
  | nil => exact Nat.one_pos
  | cons b l ih =>
    have hb := b.isLt
    rw [leNat, List.length_cons, Nat.mul_succ, Nat.pow_add]
    omega

/-- What a load makes of its bytes. -/
def loadedValue (signed : Bool) (n v : Nat) : Word :=
  if signed then BitVec.ofInt 64 (if v < 2 ^ (8 * n - 1) then v else (v : Int) - 2 ^ (8 * n)) else BitVec.ofNat 64 v

theorem sextN_eq_loadedValue {n v : Nat} (h : v < 2 ^ (8 * n)) : sextN (8 * n) v = loadedValue true n v := by
  rw [sextN, sxi, Nat.mod_eq_of_lt h, loadedValue, if_pos rfl]
  push_cast
  rfl

section
variable {s s1 : State} {d a : Reg} {i : BitVec 15} {n : Nat} {f : Nat → Word} (hqueue : s.h.queue = [])
  (haligned : (s.h.getX a + i.signExtend 64).toNat % n = 0)
include hqueue haligned

theorem scalarLoad_of_loaded {bs : List Byte} (hload : s.hartLoad s.cur (s.h.getX a + i.signExtend 64) n = (s1, .ok bs)) :
    scalarLoad s d a i n f = writeX s1 d (f (leNat bs)) := by
  unfold scalarLoad simm
  simp only [haligned, ne_eq, not_true, if_false, Hart.storeAhead, hqueue, List.any_nil, Bool.false_eq_true, hload]

theorem scalarLoad_of_fault {e : MemErr} (hload : s.hartLoad s.cur (s.h.getX a + i.signExtend 64) n = (s1, .error e)) :
    scalarLoad s d a i n f = raiseIn s (s1.accessTrap s.cur false (s.h.getX a + i.signExtend 64) e).1
      (s1.accessTrap s.cur false (s.h.getX a + i.signExtend 64) e).2 := by
  unfold scalarLoad simm
  simp only [haligned, ne_eq, not_true, if_false, Hart.storeAhead, hqueue, List.any_nil, Bool.false_eq_true, hload]

end

/-- A load that reaches memory: its destination, and a core that has at most filled sectors. -/
theorem completesOn_scalarLoad {i : Instr} {s u : State} {d a : Reg} {im : BitVec 15} {n pa : Nat} {f : Nat → Word} {w : Word}
    (hexec : exec i s = scalarLoad s d a im n f) (hqueue : s.h.queue = []) (haligned : (s.h.getX a + im.signExtend 64).toNat % n = 0)
    (hn : 0 < n) (hwatch : s.unwatched) (hreach : Reaches s (s.h.getX a + im.signExtend 64) .load n pa u)
    (hw : f (leNat ((List.range n).map fun j => u.seen (coreOf s.cur) (pa + j))) = w) :
    ∃ k : Core, CompletesOn i s u (s.h.setX d w).advance k ∧ k.plane = (s.core (coreOf s.cur)).plane ∧ k.acc = (s.core (coreOf s.cur)).acc ∧
      ∀ q, (u.setCore (coreOf s.cur) k).seen (coreOf s.cur) q = u.seen (coreOf s.cur) q := by
  obtain ⟨v, hload, hfill⟩ := hreach.hartLoad hn hwatch
  have hwalk := hreach.walked
  have hcur : v.cur = s.cur := hfill.sameButUnits.cur_eq.trans hwalk.cur
  obtain ⟨l, b, hcore⟩ := hfill.core
  rw [scalarLoad_of_loaded hqueue haligned hload, hw] at hexec
  refine ⟨v.core (coreOf s.cur), ⟨_, hexec, ?_, rfl, fun h hne => ?_, hfill.others, hfill.sameButUnits.modH _⟩, ?_, ?_, fun q => ?_⟩
  · rw [State.hart_modH, hcur, if_pos rfl, hfill.h_eq, hwalk.h_eq]
  · rw [State.hart_modH, hcur, if_neg hne, hfill.hart]
  · rw [hcore]
    exact hwalk.plane _
  · rw [hcore]
    exact hwalk.acc _
  · have hv : (u.setCore (coreOf s.cur) (v.core (coreOf s.cur))).l2Byte (coreOf s.cur) q = v.l2Byte (coreOf s.cur) q :=
      State.l2Byte_congr (c := coreOf s.cur) (d := coreOf s.cur) (s := v) (show (u.setCore _ _).SameHomes v from hfill.sameButUnits.sameHomes.symm)
        (by rw [State.core_setCore_same]) q
    exact State.seen_congr rfl (hv.trans (hfill.bytes q))

/-- What the obligation states of one load, given that its instruction reads n bytes and gives their value. -/
theorem scalarLoads_of_exec {s u : State} {d a : Reg} {im : BitVec 15} {i : Instr} {n pa : Nat} {signed : Bool} {f : Nat → Word}
    (hexec : exec i s = scalarLoad s d a im n f) (hn : 0 < n) (hf : ∀ v, v < 2 ^ (8 * n) → f v = loadedValue signed n v)
    (haligned : (s.h.getX a + im.signExtend 64).toNat % n = 0) (hqueue : s.h.queue = [])
    (houtside : s.h.sup = false ∨ (s.h.getX a + im.signExtend 64).toNat < 0x1000 ∨ 0x4000 ≤ (s.h.getX a + im.signExtend 64).toNat) :
    (s.unwatched → Reaches s (s.h.getX a + im.signExtend 64) .load n pa u →
      ∃ k : Core, CompletesOn i s u
        (s.h.setX d (loadedValue signed n (leNat ((List.range n).map fun j => u.seen (coreOf s.cur) (pa + j))))).advance k ∧
        k.plane = (s.core (coreOf s.cur)).plane ∧ k.acc = (s.core (coreOf s.cur)).acc ∧
        ∀ q, (u.setCore (coreOf s.cur) k).seen (coreOf s.cur) q = u.seen (coreOf s.cur) q) ∧
    (∀ r, (s.translate (s.xctx s.cur) (s.h.getX a + im.signExtend 64) .load).1 = .refused r →
      Faults i s (s.walkAcquire (s.xctx s.cur) (s.h.getX a + im.signExtend 64) .load) .load (s.h.getX a + im.signExtend 64) r none) := by
  refine ⟨fun hwatch hreach => completesOn_scalarLoad hexec hqueue haligned hn hwatch hreach (hf _ ?_), fun r hrefused => ?_⟩
  · have hlt := leNat_lt ((List.range n).map fun j => u.seen (coreOf s.cur) (pa + j))
    rwa [List.length_map, List.length_range] at hlt
  · rw [scalarLoad_of_fault hqueue haligned (hartLoad_of_refused houtside hrefused)] at hexec
    exact faults_raiseIn hqueue (.probed s _ .load) hexec

end Sys2Proof.Machine
end

section
open Sys2Proof Sys2Proof.Machine

/-- Settles O28: a load that reaches memory reads what its core sees, and one that is refused traps before anything else. -/
theorem scalarLoads : Obligations.ScalarLoads := by
  intro s u d a im i n pa signed hmem va haligned hqueue houtside
  simp only [List.mem_cons, Prod.mk.injEq, List.mem_nil_iff, or_false] at hmem
  obtain ⟨rfl, rfl, rfl⟩ | ⟨rfl, rfl, rfl⟩ | ⟨rfl, rfl, rfl⟩ | ⟨rfl, rfl, rfl⟩ | ⟨rfl, rfl, rfl⟩ | ⟨rfl, rfl, rfl⟩ := hmem
  · exact scalarLoads_of_exec (f := sextN 8) rfl (by decide) (fun _ => sextN_eq_loadedValue (n := 1)) haligned hqueue houtside
  · exact scalarLoads_of_exec (f := sextN 16) rfl (by decide) (fun _ => sextN_eq_loadedValue (n := 2)) haligned hqueue houtside
  · exact scalarLoads_of_exec (f := sextN 32) rfl (by decide) (fun _ => sextN_eq_loadedValue (n := 4)) haligned hqueue houtside
  · exact scalarLoads_of_exec (f := sextN 64) rfl (by decide) (fun _ => sextN_eq_loadedValue (n := 8)) haligned hqueue houtside
  · exact scalarLoads_of_exec (f := w64) rfl (by decide) (fun _ _ => rfl) haligned hqueue houtside
  · exact scalarLoads_of_exec (f := w64) rfl (by decide) (fun _ _ => rfl) haligned hqueue houtside

end

section
/-! Bytes written through a core, and what follows a store of a hart where no watchpoint is enabled (R178, R247, R257, R394). -/
namespace Sys2Proof.Machine

/-- Bytes laid over others from an address on. -/
def overlay (p : Nat) (bs : List Byte) (f : Nat → Byte) (q : Nat) : Byte :=
  if p ≤ q ∧ q < p + bs.length then bs.getD (q - p) 0 else f q

theorem overlay_nil (p : Nat) (f : Nat → Byte) : overlay p [] f = f := by
  funext q
  rw [overlay, if_neg (by rw [List.length_nil]; omega)]

theorem overlay_cons (p : Nat) (b : Byte) (bs : List Byte) (f : Nat → Byte) :
    overlay p (b :: bs) f = overlay (p + 1) bs fun q => if q = p then b else f q := by
  funext q
  unfold overlay
  rw [List.length_cons]
  by_cases hq : q = p
  · subst hq
    rw [if_pos (by omega), if_neg (by omega), Nat.sub_self]
    exact (if_pos rfl).symm
  · by_cases hin : p + 1 ≤ q ∧ q < p + 1 + bs.length
    · rw [if_pos (by omega), if_pos hin, show q - p = q - (p + 1) + 1 by omega]
      rfl
    · rw [if_neg (by omega), if_neg hin]
      exact (if_neg hq).symm

theorem overlay_eq_of_not_mem {p q : Nat} {bs : List Byte} (f : Nat → Byte) (h : ¬(p ≤ q ∧ q < p + bs.length)) : overlay p bs f q = f q := if_neg h

theorem leBytes_length (n v : Nat) : (leBytes n v).length = n := by
  induction n generalizing v with
  | zero => rfl
  | succ n ih => rw [leBytes, List.length_cons, ih]

theorem leBytes_getD {n j : Nat} (h : j < n) (v : Nat) : (leBytes n v).getD j 0 = BitVec.ofNat 8 (v / 2 ^ (8 * j)) := by
  induction n generalizing v j with
  | zero => omega
  | succ n ih =>
    cases j with
    | zero => simp [leBytes]
    | succ j =>
      rw [leBytes, List.getD_cons_succ, ih (by omega), Nat.div_div_eq_div_mul, Nat.mul_succ, Nat.add_comm, Nat.pow_add]

theorem overlay_leBytes (p n v : Nat) (f : Nat → Byte) (q : Nat) :
    overlay p (leBytes n v) f q = if p ≤ q ∧ q < p + n then BitVec.ofNat 8 (v / 2 ^ (8 * (q - p))) else f q := by
  rw [overlay, leBytes_length]
  split
  · exact leBytes_getD (by omega) v
  · rfl

theorem read_writeCells (m : Memory) (p i : Nat) (bs : List Byte) :
    (writeCells m p (numbered i bs)).read = overlay (p + i) bs m.read := by
  induction bs generalizing m i with
  | nil => exact (overlay_nil _ _).symm
  | cons b bs ih =>
    rw [numbered, writeCells, ih, overlay_cons]
    exact congrArg _ (funext fun q => Memory.read_write ..)

section
variable {s : State} {c p : Nat}

theorem State.find?_l2Put_isSome (s : State) (c p : Nat) (b : Byte) (sec : Nat) :
    (FMap.find? ((s.l2Put c p b).core c).l2 sec).isSome = (FMap.find? (s.core c).l2 sec).isSome := by
  rw [State.l2Put, State.core_modCore_same]
  split
  · next v hv =>
    dsimp only
    by_cases hsec : sec = p / 64
    · rw [hsec, FMap.find?_put_same, hv]
      rfl
    · rw [FMap.find?_put_ne _ _ hsec]
  · rfl

theorem State.l2Byte_l2Put (hheld : (FMap.find? (s.core c).l2 (p / 64)).isSome) (b : Byte) :
    (s.l2Put c p b).l2Byte c = fun q => if q = p then b else s.l2Byte c q := by
  obtain ⟨v, hv⟩ := Option.isSome_iff_exists.mp hheld
  funext q
  unfold State.l2Byte
  rw [State.l2Put, State.core_modCore_same, hv]
  dsimp only
  by_cases hsec : q / 64 = p / 64
  · rw [hsec, FMap.find?_put_same, hv]
    dsimp only
    rw [Vector.getElem_set]
    by_cases hq : q = p
    · subst hq
      rw [if_pos rfl, if_pos rfl]
    · rw [if_neg (by omega), if_neg hq]
  · rw [FMap.find?_put_ne _ _ hsec, if_neg (by rintro rfl; exact hsec rfl)]
    rfl

theorem State.l2Byte_modCore_of_l2 (s : State) (c : Nat) {f : Core → Core} (hf : ∀ k, (f k).l2 = k.l2) : (s.modCore c f).l2Byte c = s.l2Byte c :=
  funext <| State.l2Byte_congr (t := s.modCore c f) (s := s) rfl (by rw [State.core_modCore_same, hf])

/-- Bytes put one after another into sectors that the core holds. -/
theorem State.l2Byte_foldl_l2Put {i : Nat} {bs : List Byte} (hheld : ∀ j, j < bs.length → (FMap.find? (s.core c).l2 ((p + (i + j)) / 64)).isSome) :
    ((numbered i bs).foldl (fun s w => s.l2Put c (p + w.1) w.2) s).l2Byte c = overlay (p + i) bs (s.l2Byte c) := by
  induction bs generalizing s i with
  | nil => exact (overlay_nil _ _).symm
  | cons b bs ih =>
    rw [numbered, List.foldl_cons, ih fun j hj => ?_, overlay_cons]
    · exact congrArg _ (State.l2Byte_l2Put (hheld 0 (Nat.succ_pos _)) b)
    · rw [State.find?_l2Put_isSome, Nat.add_right_comm i 1 j]
      exact hheld (j + 1) (Nat.succ_lt_succ hj)

theorem State.find?_l2Fill_same (s : State) (c sec : Nat) : (FMap.find? ((s.l2Fill c sec).core c).l2 sec).isSome := by
  unfold State.l2Fill
  split
  · next v hv => rw [hv]; rfl
  · rw [State.core_modCore_same, FMap.find?_put_same]
    rfl

/-- Bytes of one sector are filled by that sector's fill. -/
theorem State.l2FillRange_one {n : Nat} (hn : 0 < n) (hone : (p + n - 1) / 64 = p / 64) (s : State) (c : Nat) :
    s.l2FillRange c p n = s.l2Fill c (p / 64) := by
  rw [State.l2FillRange, if_neg (by omega), hone, Nat.sub_self]
  rfl

end

/-- State v is u with bytes of one access written by core c. -/
structure State.Wrote (u v : State) (c pa : Nat) (bs : List Byte) : Prop where
  rest : { v with
    cores := u.cores
    mem := u.mem
    badLocal := u.badLocal } = u
  plane : ∀ d, (v.core d).plane = (u.core d).plane
  cached : (u.place pa).cached = true → v.mem = u.mem ∧ v.l2Byte c = overlay pa bs (u.l2Byte c)
  home : (u.place pa).cached = false → (∀ d, (v.core d).l2 = (u.core d).l2) ∧ v.mem.read = overlay pa bs u.mem.read

section
variable {u v : State} {c pa : Nat} {bs : List Byte}

/-- Cores that differ in nothing but what a write to an L2 changes. -/
structure State.SameButL2 (u v : State) : Prop where
  rest : { v with cores := u.cores } = u
  plane : ∀ d, (v.core d).plane = (u.core d).plane

theorem State.SameButL2.modCore (h : State.SameButL2 u v) {f : Core → Core} (hf : ∀ k, (f k).plane = k.plane) : State.SameButL2 u (v.modCore c f) where
  rest := h.rest
  plane d := by
    rw [State.core_modCore]
    split
    · next hd => rw [hf, hd, h.plane]
    · exact h.plane d

theorem State.SameButL2.l2Put (h : State.SameButL2 u v) (p : Nat) (b : Byte) : State.SameButL2 u (v.l2Put c p b) :=
  h.modCore fun k => by split <;> rfl

theorem State.SameButL2.l2Fill (h : State.SameButL2 u v) (sec : Nat) : State.SameButL2 u (v.l2Fill c sec) := by
  unfold State.l2Fill
  split
  · exact h
  · exact h.modCore fun _ => rfl

theorem State.SameButL2.foldl_l2Put (h : State.SameButL2 u v) (p : Nat) (l : List (Nat × Byte)) :
    State.SameButL2 u (l.foldl (fun s w => s.l2Put c (p + w.1) w.2) v) := by
  induction l generalizing v with
  | nil => exact h
  | cons w l ih => exact ih (h.l2Put _ _)

/-- An ordinary write of bytes of one sector at a folded address. -/
theorem State.wrote_coreWrite (hfold : u.fold pa = pa) (hpos : 0 < bs.length) (hone : (pa + bs.length - 1) / 64 = pa / 64) (c : Nat) :
    u.Wrote (u.coreWrite c pa bs) c pa bs := by
  unfold State.coreWrite
  dsimp only
  rw [hfold]
  split
  · next hcached =>
    rw [State.l2FillRange_one hpos hone]
    have hframe : State.SameButL2 u (((numbered 0 bs).foldl (fun s w => s.l2Put c (pa + w.1) w.2) (u.l2Fill c (pa / 64))).modCore c fun k =>
        { k with badL2 := leftWords k.badL2 pa bs.length }) :=
      State.SameButL2.modCore (((State.SameButL2.mk rfl fun _ => rfl).l2Fill _).foldl_l2Put pa _) fun _ => rfl
    refine ⟨(congrArg (fun w : State => { w with
      mem := u.mem
      badLocal := u.badLocal }) hframe.rest :), hframe.plane, fun _ => ⟨(congrArg State.mem hframe.rest :), ?_⟩, fun h => absurd hcached (by simp [h])⟩
    have hput := State.l2Byte_foldl_l2Put (s := u.l2Fill c (pa / 64)) (c := c) (p := pa) (i := 0) (bs := bs) fun j hj => by
      rw [show (pa + (0 + j)) / 64 = pa / 64 by omega]
      exact State.find?_l2Fill_same ..
    rw [State.l2Byte_modCore_of_l2, hput, funext (State.l2Byte_l2Fill u c (pa / 64))]
    · rfl
    · exact fun _ => rfl
  · next hcached =>
    exact ⟨rfl, fun _ => rfl, fun h => absurd h hcached, fun _ => ⟨fun _ => rfl, read_writeCells ..⟩⟩

end

/-! ### What follows a store -/

/-- State t is v but for links that harts other than h have lost, monitors woken, camps to retest, and pages noted as dirty. -/
structure State.Followed (v t : State) (h : Nat) : Prop where
  sameHomes : t.SameHomes v
  core : ∀ d, ∃ m, t.core d = { v.core d with monitors := m }
  hart : ∀ g, HartKept (v.hart g) (t.hart g)
  own : t.hart h = v.hart h

section
variable {v t w : State} {h : Nat}

theorem State.Followed.refl (v : State) (h : Nat) : v.Followed v h := ⟨rfl, fun _ => ⟨_, rfl⟩, fun _ => .refl _, rfl⟩

theorem State.Followed.loseLinks (ht : v.Followed t h) (line : Nat) (only : Option Nat) : v.Followed (t.loseLinks line (some h) only) h where
  sameHomes := ht.sameHomes
  core := ht.core
  hart g := by
    rw [State.hart_loseLinks]
    exact (ht.hart g).trans (.loseLink ..)
  own := by
    rw [State.hart_loseLinks, Hart.loseLink, if_neg (by simp)]
    exact ht.own

/-- The monitors of core d after an access wakes those on a line. -/
def wokenAt (line : Nat) (l2 : Option Nat) (d : Nat) (k : Core) : Core :=
  { k with monitors := k.monitors.map fun m =>
    if m.line = line ∧ (if m.near then l2 = some d else l2 = none) then { m with woken := true } else m }

theorem State.core_wake (s : State) (line : Nat) (l2 : Option Nat) (d : Nat) : (s.wake line l2).core d = wokenAt line l2 d (s.core d) :=
  FMap.get_map (d := Core.reset) (g := wokenAt line l2) rfl s.cores

theorem State.Followed.wake (ht : v.Followed t h) (line : Nat) (l2 : Option Nat) : v.Followed (t.wake line l2) h where
  sameHomes := ht.sameHomes
  core d := by
    obtain ⟨m, hm⟩ := ht.core d
    rw [State.core_wake, hm]
    exact ⟨_, rfl⟩
  hart := ht.hart
  own := ht.own

theorem State.Followed.noteRetests (ht : v.Followed t h) (line : Nat) : v.Followed (t.noteRetests line) h :=
  ⟨ht.sameHomes, ht.core, ht.hart, ht.own⟩

theorem State.Followed.noteDirty (ht : v.Followed t h) (k : Option Nat) (va : Word) (n : Nat) : v.Followed (t.noteDirty k va n) h := by
  cases k with
  | none => exact ht
  | some k => exact ⟨ht.sameHomes, ht.core, ht.hart, ht.own⟩

theorem State.followed_afterStore {s0 s1 : State} (hwatch : s1.unwatched) (h : Nat) (atHome atomic : Bool) (pa n : Nat) :
    s1.Followed (State.afterStore s0 s1 (.hart h) atHome atomic pa n) h := by
  unfold State.afterStore
  extract_lets s2 hart isLocal only
  have hs2 : s2 = s1 := State.watch_of_unwatched hwatch ..
  rw [hs2]
  generalize linesOf pa n = lines
  have hstep : ∀ lines : List Nat, ∀ t, s1.Followed t h → s1.Followed (lines.foldl (fun s l =>
      let s := (s.loseLinks l hart only).wake l only
      if atHome || isLocal then s.noteRetests l else s) t) h := fun lines => by
    induction lines with
    | nil => exact fun t ht => ht
    | cons l lines ih =>
      refine fun t ht => ih _ ?_
      dsimp only
      split
      · exact ((ht.loseLinks l only).wake l only).noteRetests l
      · exact (ht.loseLinks l only).wake l only
  exact hstep lines s1 (.refl s1 h)

end
end Sys2Proof.Machine
end

section
/-! Scalar stores that reach memory (R109, R110, R178). -/
namespace Sys2Proof.Machine

section
variable {s u v t : State} {va : Word} {n pa c h : Nat} {bs : List Byte}

/-- A sector is claimed only where the store covers it whole. -/
theorem State.claimRange_of_lt (hn : n < 64) (u : State) (c pa : Nat) : u.claimRange c pa n = u :=
  foldl_eq_of_forall fun _ _ => if_neg (by omega)

theorem State.noteOwed_of_fast (hfast : u.slow = false) (h : Nat) (vector : Bool) (pa n : Nat) : u.noteOwed h vector pa n = u := by
  simp [State.noteOwed, hfast]

theorem State.badStore_eq_none (hsound : ∀ i, i < n → u.badHeld c (pa + i) = none) : u.badStore c pa n = none :=
  firstBad_eq_none fun i hi => by rw [hsound i hi, ite_self]

theorem State.Wrote.sameHarts (h : u.Wrote v c pa bs) : v.harts = u.harts := (congrArg State.harts h.rest :)
theorem State.Wrote.slow (h : u.Wrote v c pa bs) : v.slow = u.slow := (congrArg State.slow h.rest :)
theorem State.Wrote.camps (h : u.Wrote v c pa bs) : v.camps = u.camps := (congrArg State.camps h.rest :)
theorem State.Wrote.cur (h : u.Wrote v c pa bs) : v.cur = u.cur := (congrArg State.cur h.rest :)
theorem State.Wrote.place (h : u.Wrote v c pa bs) : v.place = u.place := (congrArg State.place h.rest :)
theorem State.Wrote.fold (h : u.Wrote v c pa bs) : v.fold = u.fold := (congrArg State.fold h.rest :)

/-- The bytes that the core sees after its write, at addresses of the written kind. -/
theorem State.Wrote.seen_eq (h : u.Wrote v c pa bs) (hfolded : ∀ i, i < bs.length → u.fold (pa + i) = pa + i) {q : Nat}
    (hplace : (u.place q).cached = (u.place pa).cached) : v.seen c q = overlay pa bs (u.seen c) q := by
  by_cases hfold : u.fold q = q
  · have hvfold : v.fold q = q := by rw [h.fold, hfold]
    cases hcached : (u.place pa).cached with
    | true =>
      rw [State.seen_of_cached hvfold (by rw [h.place, hplace, hcached]), (h.cached hcached).2, overlay, overlay,
        State.seen_of_cached hfold (hplace.trans hcached)]
    | false =>
      rw [State.seen_of_not_cached hvfold (by rw [h.place, hplace, hcached]), (h.home hcached).2, overlay, overlay,
        State.seen_of_not_cached hfold (hplace.trans hcached)]
  · have hout : ¬(pa ≤ q ∧ q < pa + bs.length) := fun ⟨hle, hlt⟩ => hfold <| by
      have := hfolded (q - pa) (by omega)
      rwa [Nat.add_sub_cancel' hle] at this
    rw [overlay_eq_of_not_mem _ hout, State.seen, State.seen, h.fold, if_pos hfold, if_pos hfold]

theorem State.Wrote.read_eq (h : u.Wrote v c pa bs) {q : Nat} (hq : ¬(pa ≤ q ∧ q < pa + bs.length)) : v.mem.read q = u.mem.read q := by
  cases hcached : (u.place pa).cached with
  | true => rw [(h.cached hcached).1]
  | false => rw [(h.home hcached).2, overlay_eq_of_not_mem _ hq]

theorem State.Followed.seen (h : v.Followed t n) (q : Nat) : t.seen c q = v.seen c q := by
  obtain ⟨m, hm⟩ := h.core c
  exact State.seen_congr h.sameHomes (State.l2Byte_congr h.sameHomes (by rw [hm]) q)

theorem State.Followed.l2 (h : v.Followed t n) (d : Nat) : (t.core d).l2 = (v.core d).l2 := by
  obtain ⟨m, hm⟩ := h.core d
  rw [hm]

theorem State.Followed.plane (h : v.Followed t n) (d : Nat) : (t.core d).plane = (v.core d).plane := by
  obtain ⟨m, hm⟩ := h.core d
  rw [hm]

theorem HartKept.x {a b : Hart} (h : HartKept a b) : b.x = a.x := (congrArg Hart.x h.rest :)
theorem HartKept.pc {a b : Hart} (h : HartKept a b) : b.pc = a.pc := (congrArg Hart.pc h.rest :)

/-- A store that reaches memory: its bytes are written through the core, and what follows changes no byte. -/
theorem Reaches.hartStore (h : Reaches s va .store n pa u) (hlen : bs.length = n) (hn : 0 < n ∧ n < 64) (hone : (pa + n - 1) / 64 = pa / 64)
    (hwatch : s.unwatched) (hrefused : u.storeRefused pa n = false) :
    ∃ v t, s.hartStore s.cur va bs = (t, .ok ()) ∧ u.Wrote v (coreOf s.cur) pa bs ∧ v.Followed t s.cur := by
  have hwalk := h.walked
  have hland : u.landFor (.hart s.cur) pa n = u := State.landMet_of_stores_nil ((hwalk.stores _).trans h.prompt.empty) pa n
  have hwrote : u.Wrote (u.coreWrite (coreOf s.cur) pa bs) (coreOf s.cur) pa bs :=
    State.wrote_coreWrite (by rw [hwalk.sameHomes.fold]; exact (h.folded 0 hn.1).1) (hlen ▸ hn.1) (by rw [hlen, hone]) _
  generalize hv : u.coreWrite (coreOf s.cur) pa bs = v at hwrote
  have hvwatch : v.unwatched := by
    rw [State.unwatched, hwrote.camps]
    exact hwalk.sameHomes.unwatched hwatch
  have howed : v.noteOwed s.cur false pa n = v := State.noteOwed_of_fast (by rw [hwrote.slow, hwalk.sameHomes.slow, h.prompt.fast]) ..
  have hfollowed : v.Followed (State.afterStore u v (.hart s.cur) false false pa n) s.cur := State.followed_afterStore hvwatch ..
  have hstore : u.storePa (.hart s.cur) (coreOf s.cur) va pa bs = (State.afterStore u v (.hart s.cur) false false pa n, .ok ()) := by
    unfold State.storePa
    split
    · next off hmgmt => exact absurd hmgmt (h.place_ne.1 off)
    · next hnothing => exact absurd hnothing h.place_ne.2
    · rw [hlen, hrefused, hland]
      dsimp only
      rw [if_neg Bool.false_ne_true, State.badStore_eq_none h.sound, State.claimRange_of_lt hn.2, hv]
      dsimp only [State.noteOwedBy]
      rw [howed]
  have hfilled : u.fillRefused (coreOf (s.xctx s.cur).h) (s.xctx s.cur).ctx pa bs.length true = false := hlen ▸ h.filled
  generalize State.afterStore u v (.hart s.cur) false false pa n = t at hfollowed hstore
  refine ⟨v, if (s.xctx s.cur).sup then t else t.noteDirty (s.hart s.cur).kernel va n, ?_, hwrote, ?_⟩
  · rw [State.hartStore, State.memStore, if_neg (by simp [not_inRecords h.outside]), h.probe_eq]
    dsimp only
    rw [if_neg (by simp [hfilled])]
    rw [show u.storePa (.hart s.cur) (coreOf (s.xctx s.cur).h) va pa bs false = _ from hstore, hlen]
  · split
    · exact hfollowed
    · exact hfollowed.noteDirty ..

theorem hartStore_of_refused {r : Nat} (houtside : s.h.sup = false ∨ va.toNat < 0x1000 ∨ 0x4000 ≤ va.toNat)
    (h : (s.translate (s.xctx s.cur) va .store).1 = .refused r) :
    s.hartStore s.cur va bs = (s.walkAcquire (s.xctx s.cur) va .store, .error (.refused r)) := by
  rw [State.hartStore, State.memStore, if_neg (by simp [not_inRecords houtside]), probe_of_refused h]

end

section
variable {s s1 : State} {d a : Reg} {i : BitVec 15} {n : Nat} (hqueue : s.h.queue = [])
  (haligned : (s.h.getX a + i.signExtend 64).toNat % n = 0)
include hqueue haligned

theorem scalarStore_of_stored (hstore : s.hartStore s.cur (s.h.getX a + i.signExtend 64) (leBytes n (s.h.getX d).toNat) = (s1, .ok ())) :
    scalarStore s d a i n = commit s1 id := by
  unfold scalarStore simm
  simp only [held_of_queue_nil hqueue, haligned, ne_eq, not_true, if_false, hstore]

theorem scalarStore_of_fault {e : MemErr}
    (hstore : s.hartStore s.cur (s.h.getX a + i.signExtend 64) (leBytes n (s.h.getX d).toNat) = (s1, .error e)) :
    scalarStore s d a i n = raiseIn s (s1.accessTrap s.cur true (s.h.getX a + i.signExtend 64) e).1
      (s1.accessTrap s.cur true (s.h.getX a + i.signExtend 64) e).2 := by
  unfold scalarStore simm
  simp only [held_of_queue_nil hqueue, haligned, ne_eq, not_true, if_false, hstore]

end

/-- What the obligation states of one store, given that its instruction writes the low n bytes of its register. -/
theorem scalarStores_of_exec {s u : State} {d a : Reg} {im : BitVec 15} {i : Instr} {n pa : Nat} (hexec : exec i s = scalarStore s d a im n)
    (hn : n = 1 ∨ n = 2 ∨ n = 4 ∨ n = 8) (haligned : (s.h.getX a + im.signExtend 64).toNat % n = 0) (hqueue : s.h.queue = [])
    (houtside : s.h.sup = false ∨ (s.h.getX a + im.signExtend 64).toNat < 0x1000 ∨ 0x4000 ≤ (s.h.getX a + im.signExtend 64).toNat) :
    (∀ r, (s.translate (s.xctx s.cur) (s.h.getX a + im.signExtend 64) .store).1 = .refused r →
      Faults i s (s.walkAcquire (s.xctx s.cur) (s.h.getX a + im.signExtend 64) .store) .store (s.h.getX a + im.signExtend 64) r none) ∧
    (s.unwatched → Reaches s (s.h.getX a + im.signExtend 64) .store n pa u → u.storeRefused pa n = false →
      ∃ t, exec i s = .next t ∧ t.hart s.cur = s.h.advance ∧
        (∀ q, (s.place q).cached = (s.place pa).cached → t.seen (coreOf s.cur) q = if pa ≤ q ∧ q < pa + n
          then BitVec.ofNat 8 ((s.h.getX d).toNat / 2 ^ (8 * (q - pa)))
          else u.seen (coreOf s.cur) q) ∧
        (∀ q, ¬(pa ≤ q ∧ q < pa + n) → t.mem.read q = s.mem.read q) ∧ ((s.place pa).cached = true → t.mem = s.mem) ∧
        ((s.place pa).cached = false → ∀ c, (t.core c).l2 = (u.core c).l2) ∧ (∀ c, (t.core c).plane = (s.core c).plane) ∧
        (∀ h, h ≠ s.cur → (t.hart h).x = (s.hart h).x ∧ (t.hart h).pc = (s.hart h).pc)) := by
  refine ⟨fun r hrefused => ?_, fun hwatch hreach hrefused => ?_⟩
  · rw [scalarStore_of_fault hqueue haligned (hartStore_of_refused houtside hrefused)] at hexec
    exact faults_raiseIn hqueue (.probed s _ .store) hexec
  · have hlen := leBytes_length n (s.h.getX d).toNat
    have hone : (pa + n - 1) / 64 = pa / 64 := by
      have := hreach.inLine
      rcases hn with rfl | rfl | rfl | rfl <;> omega
    obtain ⟨v, t, hstore, hwrote, hfollowed⟩ := hreach.hartStore hlen (by omega) hone hwatch hrefused
    have hwalk := hreach.walked
    have hplace : u.place = s.place := hwalk.sameHomes.place
    have hfolded : ∀ i, i < (leBytes n (s.h.getX d).toNat).length → u.fold (pa + i) = pa + i := fun i hi => by
      rw [hwalk.sameHomes.fold]
      exact (hreach.folded i (hlen ▸ hi)).1
    have hcur : t.cur = s.cur := hfollowed.sameHomes.cur.trans (hwrote.cur.trans hwalk.cur)
    have hharts : v.hart = s.hart := (funext (State.hart_of_harts hwrote.sameHarts)).trans hwalk.hart
    rw [scalarStore_of_stored hqueue haligned hstore] at hexec
    refine ⟨_, hexec, ?_, fun q hq => ?_, fun q hq => ?_, fun hc => ?_, fun hc c => ?_, fun c => ?_, fun h hne => ?_⟩
    · rw [State.hart_modH, hcur, if_pos rfl, State.h, hcur, hfollowed.own, hharts]
      rfl
    · calc _ = t.seen (coreOf s.cur) q := rfl
        _ = v.seen (coreOf s.cur) q := hfollowed.seen q
        _ = overlay pa (leBytes n (s.h.getX d).toNat) (u.seen (coreOf s.cur)) q := hwrote.seen_eq hfolded (by rw [hplace]; exact hq)
        _ = _ := overlay_leBytes ..
    · calc _ = v.mem.read q := congrArg (fun m => Memory.read m q) hfollowed.sameHomes.mem
        _ = u.mem.read q := hwrote.read_eq (by rw [hlen]; exact hq)
        _ = _ := by rw [hwalk.sameHomes.mem]
    · exact hfollowed.sameHomes.mem.trans ((hwrote.cached (by rw [hplace]; exact hc)).1.trans hwalk.sameHomes.mem)
    · exact (hfollowed.l2 c).trans ((hwrote.home (by rw [hplace]; exact hc)).1 c)
    · exact (hfollowed.plane c).trans ((hwrote.plane c).trans (hwalk.plane c))
    · rw [State.hart_modH, hcur, if_neg hne, (hfollowed.hart h).x, (hfollowed.hart h).pc, hharts]
      exact ⟨rfl, rfl⟩

end Sys2Proof.Machine
end

section
open Sys2Proof Sys2Proof.Machine

/-- Settles O29: a store that reaches memory writes its bytes through its core, and one that is refused traps before anything else. -/
theorem scalarStores : Obligations.ScalarStores := by
  intro s u d a im i n pa hmem va haligned hqueue houtside
  simp only [List.mem_cons, Prod.mk.injEq, List.mem_nil_iff, or_false] at hmem
  obtain ⟨rfl, rfl⟩ | ⟨rfl, rfl⟩ | ⟨rfl, rfl⟩ | ⟨rfl, rfl⟩ := hmem
  · exact scalarStores_of_exec rfl (by decide) haligned hqueue houtside
  · exact scalarStores_of_exec rfl (by decide) haligned hqueue houtside
  · exact scalarStores_of_exec rfl (by decide) haligned hqueue houtside
  · exact scalarStores_of_exec rfl (by decide) haligned hqueue houtside

end

section
/-! What the stores of the device's units, with what follows them, leave of harts, camps and kernels (R173, R247, R255, R298). -/
namespace Sys2Proof.Machine

section
variable {s u : State}

/-! ### What follows a store -/

theorem State.Kept.spoor {camp kind ctx src : Nat} {pc : Word} {ps : List Word} {ticket : Option (Nat × Nat)} (hu : s.Kept u) :
    s.Kept (u.spoor camp kind ctx src pc ps ticket) := by
  unfold State.spoor
  extract_lets c
  split
  · exact hu.of_fields rfl rfl rfl
  · exact hu

theorem State.Kept.hold {freeze : Bool} (hu : s.Kept u) : s.Kept (u.hold freeze) := by
  unfold State.hold
  split <;> exact hu.of_fields rfl rfl rfl

theorem State.Kept.postHalt {l : List Nat} {cause unit : Nat} {freeze : Bool} (hu : s.Kept u) : s.Kept (u.postHalt l cause unit freeze) := by
  unfold State.postHalt
  split
  · exact hu
  · extract_lets s1
    have hs1 : s.Kept s1 := hu.of_fields rfl rfl rfl
    split
    · exact .hold hs1
    · exact hs1

theorem State.Kept.watchOne {s0 : State} {ag : Agent} {atHome store atomic : Bool} {at_ : Nat → Bool} {camp w : Nat} {wt : Watch} (hu : s.Kept u) :
    s.Kept (s0.watchOne u ag atHome store atomic at_ camp w wt) := by
  unfold State.watchOne
  extract_lets c word bytes isLocal isDev here own touches after value same before src ctx pc s2 act s3
  have hs2 : s.Kept s2 := .spoor hu
  have hs3 : s.Kept s3 := by
    unfold s3
    clear_value act
    split
    · split
      · exact .postHalt hs2
      · exact hs2
    · exact .postHalt hs2
    · exact hs2
  split
  · exact hu
  · split
    · exact hs3.of_fields rfl rfl rfl
    · exact hs3

theorem State.Kept.watchBytes {s0 : State} {ag : Agent} {atHome store atomic : Bool} {at_ : Nat → Bool} (hu : s.Kept u) :
    s.Kept (s0.watchBytes u ag atHome store atomic at_) := by
  unfold State.watchBytes
  refine .foldl (fun u _ hu => .foldl (fun u _ hu => ?_) hu) hu
  split
  · split
    · exact .watchOne hu
    · exact hu
  · exact hu

theorem State.Kept.loseLinks {line : Nat} {except only : Option Nat} (hu : s.Kept u) : s.Kept (u.loseLinks line except only) :=
  hu.of_harts (fun h => by rw [State.hart_loseLinks]; exact .loseLink ..) rfl rfl

theorem State.Kept.wake {line : Nat} {l2 : Option Nat} (hu : s.Kept u) : s.Kept (u.wake line l2) := hu.of_fields rfl rfl rfl

theorem State.Kept.noteRetests {line : Nat} (hu : s.Kept u) : s.Kept (u.noteRetests line) := hu.of_fields rfl rfl rfl

theorem State.Kept.afterStore {s0 : State} {ag : Agent} {atHome atomic : Bool} {pa n : Nat} (hu : s.Kept u) :
    s.Kept (s0.afterStore u ag atHome atomic pa n) := by
  unfold State.afterStore
  extract_lets s2 hart isLocal only
  have hs2 : s.Kept s2 := .watchBytes hu
  refine .foldl (fun u _ hu => ?_) hs2
  extract_lets s3
  have hs3 : s.Kept s3 := .wake (.loseLinks hu)
  split
  · exact .noteRetests hs3
  · exact hs3

theorem State.Kept.noteDirty {k : Option Nat} {va : Word} {n : Nat} (hu : s.Kept u) : s.Kept (u.noteDirty k va n) := by
  cases k with
  | none => exact hu
  | some k =>
    refine ⟨hu.camps, .trans ?_ hu.kernels, hu.hart⟩
    rw [State.noteDirty, List.map_map]
    refine List.map_congr_left fun x _ => ?_
    rw [Function.comp_apply]
    split <;> rfl

/-! ### Stores at the homes -/

theorem State.Kept.deviceStore {atomic : Bool} {pa : Nat} {bs : List Byte} {ag : Agent} {own : Option Nat} (hu : s.Kept u) :
    s.Kept (u.deviceStore atomic pa bs ag own).1 := by
  unfold State.deviceStore
  split
  · exact hu
  · extract_lets r s1
    have hr : s.Kept r.1 := .homeWrite hu
    have hs1 : s.Kept s1 := by
      unfold s1
      split
      · exact .post hr
      · exact hr
    dsimp only
    split
    · exact .afterStore hs1
    · exact hs1

theorem State.Kept.unitStore {pa : Nat} {bs : List Byte} (hu : s.Kept u) : s.Kept (u.unitStore pa bs) := .deviceStore hu

theorem State.Kept.taskObject {t : Task} {v : Word} (hu : s.Kept u) : s.Kept (u.taskObject t v) := .noteDirty (.unitStore hu)

/-! ### Lines written back and stores of a core performed -/

theorem State.Kept.writeBack {c line : Nat} (hu : s.Kept u) : s.Kept (u.writeBack c line) := by
  unfold State.writeBack
  extract_lets secs ds s1 s2 s3
  have hs1 : s.Kept s1 := .writeBackLine hu
  have hs2 : s.Kept s2 := .watchBytes hs1
  have hs3 : s.Kept s3 := hs2.of_harts (fun h => by
    rw [State.hart_of_loseLink (fun k a => a.links.contains line && coreOf k != c) (show s3.harts = _ from rfl)]
    exact .loseLink ..) rfl rfl
  clear_value ds
  split
  · exact hu
  · split
    · exact .modCore hu
    · exact .noteRetests (.wake hs3)

theorem State.Kept.dropLinks {c line : Nat} (hu : s.Kept u) : s.Kept (u.dropLinks c line) := by
  unfold State.dropLinks
  refine .foldl (fun u _ hu => ?_) hu
  extract_lets h
  split
  · exact hu.modHart ⟨rfl, List.filter_subset_self _⟩
  · exact hu

theorem State.Kept.evict {c line : Nat} (hu : s.Kept u) : s.Kept (u.evict c line) := .dropLinks (.modCore (.writeBack hu))

theorem State.Kept.coreWrite {c pa : Nat} {bs : List Byte} (hu : s.Kept u) : s.Kept (u.coreWrite c pa bs) := by
  unfold State.coreWrite
  dsimp only
  split
  · have hfill : s.Kept (u.l2FillRange c (u.fold pa) bs.length) := by
      have hfilled := (State.Filled.refl u c).l2FillRange (u.fold pa) bs.length
      exact hu.of_fields (congrArg State.harts hfilled.rest :) (congrArg State.camps hfilled.rest :) (congrArg State.kernels hfilled.rest :)
    exact .modCore (.foldl (fun _ _ h => .modCore h) hfill)
  · exact hu.of_fields rfl rfl rfl

theorem State.Kept.noteOwed {h : Nat} {vector : Bool} {pa n : Nat} (hu : s.Kept u) : s.Kept (u.noteOwed h vector pa n) := by
  unfold State.noteOwed
  split
  · exact .modCore hu
  · exact hu

theorem State.Kept.performHeld {c : Nat} {r : HeldStore} (hu : s.Kept u) : s.Kept (u.performHeld c r) := by
  unfold State.performHeld
  extract_lets s1
  have hs1 : s.Kept s1 := .modCore hu
  split
  · exact hs1
  · split
    · exact .logError hs1
    · exact .afterStore (.noteOwed (.coreWrite hs1))

theorem State.Kept.landOwn {h : Nat} (hu : s.Kept u) : s.Kept (u.landOwn h) := .foldl (fun _ _ h => .performHeld h) hu

theorem HartKept.setTranslation (a : Hart) (field : Nat) (v : Word) : HartKept a (a.setTranslation field v) := by
  unfold Hart.setTranslation
  split <;> exact ⟨rfl, List.Subset.refl _⟩

theorem State.Kept.translationStore {h off : Nat} {bs : List Byte} (hu : s.Kept u) : s.Kept (u.translationStore h off bs) := by
  unfold State.translationStore
  refine .foldl (fun u _ hu => ?_) hu
  extract_lets o
  split
  · exact .modHart (.landOwn hu) (.setTranslation ..)
  · exact hu

theorem State.Kept.mergeObject {m : Merge} {o : Option (Word × Nat)} {v : Word} (hu : s.Kept u) : s.Kept (u.mergeObject m o v) := by
  unfold State.mergeObject
  obtain ⟨recordOff, e⟩ := exists_eq' (a' := State.recordOff)
  rw [e]
  split
  · exact hu
  · split
    · exact .translationStore hu
    · exact .noteDirty (.unitStore (.foldl (fun _ _ hu => .evict hu) hu))

end
end Sys2Proof.Machine
end

section
/-! The parts of EXIT: kernels and their live harts, tasks withdrawn, a camp that a kernel leaves, and records discarded (R119, R278, R291, R325). -/
namespace Sys2Proof.Machine

section
variable {s u : State}

/-! ### Kernels -/

theorem State.kernel_modKernel (s : State) (k : Nat) {f : Kernel → Kernel} (hf : ∀ x, (f x).id = x.id) :
    (s.modKernel k f).kernel k = (s.kernel k).map f := by
  unfold State.kernel State.modKernel
  dsimp only
  induction s.kernels with
  | nil => rfl
  | cons x l ih =>
    rw [List.map_cons, List.find?_cons, List.find?_cons]
    by_cases hx : (x.id == k) = true
    · rw [if_pos hx, hf, hx]
      rfl
    · rw [if_neg hx, Bool.eq_false_iff.mpr hx]
      exact ih

theorem State.kernel_forgetLeft {k : Nat} {x : Kernel} (hx : s.kernel k = some x) :
    (s.modKernel k fun x => { x with left := [] }).kernel k = some { x with left := [] } := by
  rw [State.kernel_modKernel (f := fun x => { x with left := [] }) s k fun _ => rfl, hx]
  rfl

/-- A kernel with the live harts of another state's is found where that one is. -/
theorem State.kernel_of_same_live (h : u.kernels.map (fun x => (x.id, x.live)) = s.kernels.map fun x => (x.id, x.live)) {k : Nat} {x : Kernel}
    (hx : s.kernel k = some x) : ∃ y, u.kernel k = some y ∧ y.live = x.live := by
  have hlive : ∀ v : State, (v.kernel k).map (·.live) = ((v.kernels.map fun x => (x.id, x.live)).find? (·.1 == k)).map (·.2) := fun v => by
    rw [List.find?_map, Option.map_map]
    rfl
  have hmap : (u.kernel k).map (·.live) = some x.live := by
    rw [hlive, h, ← hlive, hx]
    rfl
  obtain ⟨y, hy, hyx⟩ := Option.map_eq_some_iff.mp hmap
  exact ⟨y, hy, hyx⟩

/-! ### Tasks of a camp that has none left -/

section
variable {camp : Nat} (htasks : (s.camp camp).tasks = [])
include htasks

theorem State.falls_of_tasks_nil (ps : List Nat) (late : Bool) : s.falls camp ps late = s := by
  have hn : ∀ (n : Nat) (ps : List (Nat × Bool)), fallsN n s camp ps = s := fun n => by
    induction n with
    | zero => exact fun ps => rfl
    | succ n ih =>
      intro ps
      cases ps with
      | nil => rfl
      | cons p ps =>
        rw [fallsN, htasks]
        exact ih ps
  exact hn _ _

theorem retestN_of_tasks_nil (n : Nat) : retestN (n + 1) s camp = s := by
  rw [retestN, htasks]
  rfl

theorem giveN_of_tasks_nil (n : Nat) : giveN (n + 1) s camp = s := by
  rw [giveN, htasks]
  rfl

theorem State.unitSettle_of_tasks_nil : s.unitSettle camp = s := by
  rw [State.unitSettle, retestN_of_tasks_nil htasks, giveN_of_tasks_nil htasks]

end

/-- State t has the harts of s but for lost links and the like, and its kernels with the same live harts. -/
structure State.UnitsKept (s t : State) : Prop where
  kernels : t.kernels.map (fun x => (x.id, x.live)) = s.kernels.map fun x => (x.id, x.live)
  hart : ∀ h, HartKept (s.hart h) (t.hart h)

theorem State.camp_modCamp_same (s : State) (c : Nat) (f : Camp → Camp) : (s.modCamp c f).camp c = f (s.camp c) := by
  rw [State.modCamp, State.camp_setCamp, if_pos rfl]

theorem State.Kept.unitsKept {v : State} (h : v.Kept u) (hharts : v.harts = s.harts) (hkernels : v.kernels = s.kernels) : s.UnitsKept u where
  kernels := hkernels ▸ h.kernels
  hart g := State.hart_of_harts hharts g ▸ h.hart g

theorem State.Kept.camp {v : State} (h : v.Kept u) (c : Nat) : u.camp c = v.camp c := congrArg (fun m => FMap.get Camp.reset m c) h.camps

/-- The only task of a camp ends: its object is written, and nothing else waits for it (R278). -/
theorem State.endTask_of_only {camp : Nat} {t : Task} (htasks : (s.camp camp).tasks = [t]) :
    s.UnitsKept (s.endTask camp t codeOK 0).1 ∧ ((s.endTask camp t codeOK 0).1.camp camp).tasks = [] := by
  unfold State.endTask
  extract_lets v s1 s2 s3
  have hs2 : s1.Kept s2 := .taskObject (.refl s1)
  have hcamp : (s2.camp camp).tasks = [] := by
    rw [hs2.camp camp]
    unfold s1
    rw [State.camp_modCamp_same]
    simp [Camp.dropTask, htasks]
  have hs3 : s3 = s2 := rfl
  rw [hs3, State.unitSettle_of_tasks_nil hcamp]
  exact ⟨hs2.unitsKept rfl rfl, hcamp⟩

/-- Every task of a camp ends WITHDRAWN: their objects are written, and none is left that waits for them (R278, R325). -/
theorem State.withdrawAll_tasks (s : State) (camp : Nat) :
    s.UnitsKept (s.withdrawAll camp (s.camp camp).tasks) ∧ ((s.withdrawAll camp (s.camp camp).tasks).camp camp).tasks = [] ∧
      ((s.withdrawAll camp (s.camp camp).tasks).camp camp).merge = (s.camp camp).merge := by
  unfold State.withdrawAll
  extract_lets s1 s2
  have hs2 : s1.Kept s2 := .foldl (fun _ _ h => .taskObject h) (.refl s1)
  have hcamp : s2.camp camp = { s.camp camp with tasks := [] } := by
    rw [hs2.camp camp]
    unfold s1
    rw [State.camp_modCamp_same]
    congr 1
    refine List.filter_eq_nil_iff.mpr fun t ht => ?_
    simp only [Bool.not_eq_true', Bool.not_eq_false, List.any_eq_true, beq_iff_eq]
    exact ⟨t, ht, rfl⟩
  have htasks : (s2.camp camp).tasks = [] := by rw [hcamp]
  rw [State.falls_of_tasks_nil htasks, State.unitSettle_of_tasks_nil htasks]
  exact ⟨hs2.unitsKept rfl rfl, htasks, by rw [hcamp]⟩

/-- A kernel that owns a camp's network gives it back; the camp's tasks stand (R291). -/
theorem State.mergeRelease_kept (s : State) (camp k : Nat) : s.UnitsKept (s.mergeRelease camp k) ∧
    ((s.mergeRelease camp k).camp camp).tasks = (s.camp camp).tasks ∧
    ((s.camp camp).merge.st ≠ .free → (∃ c, (s.camp camp).merge.owner = some (c, some k)) → ((s.mergeRelease camp k).camp camp).merge = Merge.reset) := by
  unfold State.mergeRelease
  extract_lets m
  split
  · have hs1 : s.Kept ((s.mergeObject m m.closeObj (mergeStatus codeWITHDRAWN 2 m.passes m.spilled m.accepted)).mergeObject m m.drainObj
        (mergeStatus codeWITHDRAWN 2 0 0 0)) := .mergeObject (.mergeObject (.refl s))
    refine ⟨⟨hs1.kernels, hs1.hart⟩, ?_, fun _ _ => ?_⟩
    · rw [State.mergeFree, State.modMerge, State.camp_modCamp_same, hs1.camp camp]
    · rw [State.mergeFree, State.modMerge, State.camp_modCamp_same]
  · next hfree =>
    refine ⟨⟨rfl, fun _ => .refl _⟩, rfl, fun hst howner => absurd ?_ hfree⟩
    obtain ⟨c, hc⟩ := howner
    simp [m, hst, hc]

theorem State.UnitsKept.trans {t : State} (h : s.UnitsKept u) (g : u.UnitsKept t) : s.UnitsKept t where
  kernels := g.kernels.trans h.kernels
  hart i := (h.hart i).trans (g.hart i)

/-- The last hart of a kernel in a camp has ended where no task of the camp runs and none is another kernel's. -/
theorem State.campEnd_of_none_runs {camp k : Nat} (htasks : ∀ r ∈ (s.camp camp).tasks, r.kernel = k ∧ r.st ≠ .running) :
    s.UnitsKept (s.campEnd camp k) ∧ ((s.campEnd camp k).camp camp).tasks = [] ∧
    ((s.camp camp).merge.st ≠ .free → (∃ c, (s.camp camp).merge.owner = some (c, some k)) → ((s.campEnd camp k).camp camp).merge = Merge.reset) := by
  have hall : ((s.camp camp).tasks.filter fun t => t.kernel == k && t.st != .running) = (s.camp camp).tasks :=
    List.filter_eq_self.mpr fun r hr => by
      obtain ⟨hkernel, hst⟩ := htasks r hr
      simp [hkernel, hst]
  obtain ⟨hkept, hnone, hmerge⟩ := s.withdrawAll_tasks camp
  rw [State.campEnd, hall]
  obtain ⟨hkept', hnone', hmerge'⟩ := (s.withdrawAll camp (s.camp camp).tasks).mergeRelease_kept camp k
  rw [hnone] at hnone'
  rw [hmerge] at hmerge'
  exact ⟨hkept.trans hkept', hnone', hmerge'⟩

/-- The end of a kernel in a camp where it has no task and holds no network. -/
theorem State.campEnd_of_idle {camp k : Nat} (htasks : (s.camp camp).tasks = []) (hfree : (s.camp camp).merge.st = .free) :
    s.campEnd camp k = s.setCamp camp (s.camp camp) := by
  have hcamp : (s.modCamp camp fun c => { c with tasks := c.tasks.filter fun t => !([] : List Task).any fun u => u.id == t.id }) =
      s.setCamp camp (s.camp camp) := by
    rw [State.modCamp]
    congr 1
    simp
  have hsame : (s.setCamp camp (s.camp camp)).camp camp = s.camp camp := by rw [State.camp_setCamp, if_pos rfl]
  have htasks' : ((s.setCamp camp (s.camp camp)).camp camp).tasks = [] := by rw [hsame, htasks]
  rw [State.campEnd, htasks, List.filter_nil, State.withdrawAll]
  dsimp only [List.foldl_nil, List.flatMap_nil]
  rw [hcamp, State.falls_of_tasks_nil htasks', State.unitSettle_of_tasks_nil htasks', State.mergeRelease, hsame]
  simp [hfree]

/-! ### Records that a hart parks -/

/-- There is nothing to discard where a hart has parked nothing. -/
theorem State.discardAll_of_nothing_parked {h : Nat} (hops : ∀ o ∈ s.ops, o.h = h → o.parked = none)
    (hstreams : ∀ q v, s.stream h q = some v → v.parked = false) (htask : (s.hart h).parkedTask = none) : s.discardAll h = s := by
  refine foldl_eq_of_forall fun i _ => ?_
  unfold State.discardRecord
  split
  · have hnone : (s.ops.find? fun o => o.h == h && o.parked == some i) = none :=
      List.find?_eq_none.mpr fun o ho hpick => by
        obtain ⟨hh, hp⟩ := Bool.and_eq_true_iff.mp hpick
        simp [hops o ho (beq_iff_eq.mp hh)] at hp
    rw [hnone]
  · split
    · split
      · next v hv => rw [if_neg (by simp [hstreams _ v hv])]
      · rfl
    · rw [htask]

theorem State.closeStreams_of_none {h : Nat} (hstreams : ∀ q, s.stream h q = none) : s.closeStreams h = s :=
  foldl_eq_of_forall fun q _ => by rw [hstreams q]

/-- The end of a kernel on the device, with no operation open and nothing left by its harts. -/
theorem State.deviceEnd_of_idle {k : Nat} {x : Kernel} (hx : s.kernel k = some x) (hleft : x.left = []) (hops : s.ops = [])
    (hharts : ∀ e ∈ s.harts, e.2.kernel = some k → (∀ q, s.stream e.1 q = none) ∧ (s.hart e.1).parkedTask = none) :
    s.deviceEnd k = s.modKernel k fun x => { x with left := [] } := by
  have hdiscard : ((s.harts.filter fun e => e.2.kernel == some k).map (·.1)).foldl (fun s h => (s.discardAll h).closeStreams h) s = s :=
    foldl_eq_of_forall fun h hh => by
      obtain ⟨e, he, rfl⟩ := List.mem_map.mp hh
      obtain ⟨hmem, hkernel⟩ := List.mem_filter.mp he
      obtain ⟨hstreams, htask⟩ := hharts e hmem (beq_iff_eq.mp hkernel)
      rw [State.discardAll_of_nothing_parked (by simp [hops]) (by simp [hstreams]) htask, State.closeStreams_of_none hstreams]
  have hops' : (s.modKernel k fun x => { x with left := [] }).ops = [] := hops
  unfold State.deviceEnd
  extract_lets hs s1 s2 parked s3 colls
  have hs1 : s1 = s := hdiscard
  have hs2 : s2 = s.modKernel k fun x => { x with left := [] } := by
    unfold s2
    rw [hs1, hx, Option.map_some, Option.getD_some, hleft]
    rfl
  have hs3 : s3 = s2 := by
    unfold s3 parked
    rw [hs2, hops']
    rfl
  unfold colls
  rw [hs3, hs2, hops']
  rfl

end
end Sys2Proof.Machine
end

section
/-! EXIT (R119). -/
namespace Sys2Proof.Machine

section
variable {s s1 : State} {h k : Nat} {x : Kernel} {bySup : Bool}

theorem FMap.mem_of_find?_eq_some {β : Type} {m : FMap β} {k : Nat} {v : β} (h : FMap.find? m k = some v) : (k, v) ∈ m := by
  induction m with
  | nil => cases h
  | cons e m ih =>
    rw [FMap.find?] at h
    split at h
    · next he =>
      rw [← he, ← Option.some.inj h]
      exact List.mem_cons_self ..
    · exact List.mem_cons_of_mem _ (ih h)

/-- A kernel one of whose harts has ended. -/
def Kernel.without (x : Kernel) (h : Nat) (bySup : Bool) : Kernel :=
  { x with
    live := x.live.filter (· != h)
    supervisorEnded := x.supervisorEnded || bySup }

/-- The device once hart h of kernel k has ended, before what the end of the last one brings. -/
def State.hartEnded (s : State) (h k : Nat) (bySup : Bool) : State :=
  (s.modHart h fun a => a.finish bySup).modKernel k fun x => x.without h bySup

/-- What the end of a hart does about its current task and what it has parked, before its registers change. -/
inductive State.LeavesWork (s : State) (h : Nat) : Bool → State → Prop where
  | nothing (htask : (s.hart h).task = none) : s.LeavesWork h false s
  | discarded (htask : (s.hart h).task = none) : s.LeavesWork h true (s.discardAll h)
  | done {id : Nat} {t : Task} (htask : (s.hart h).task = some id) (hfind : s.findTask (campOf h) id = some t) :
    s.LeavesWork h false (s.taskDone h t).1

theorem State.hart_hartEnded (s : State) (h k : Nat) (bySup : Bool) (g : Nat) :
    (s.hartEnded h k bySup).hart g = if g = h then (s.hart h).finish bySup else s.hart g := State.hart_modHart s h g fun a => a.finish bySup

theorem State.kernel_hartEnded (h : Nat) (bySup : Bool) (hx : s.kernel k = some x) :
    (s.hartEnded h k bySup).kernel k = some (x.without h bySup) := by
  have hkernel : (s.modHart h fun a => a.finish bySup).kernel k = some x := hx
  rw [State.hartEnded, State.kernel_modKernel (f := fun x => x.without h bySup) _ k fun _ => rfl, hkernel]
  rfl

section
variable (hland : s.landOwn h = s) (hkernel : (s.hart h).kernel = some k) (hwork : s.LeavesWork h bySup s1) (hx : s1.kernel k = some x)
include hland hkernel hwork hx

theorem State.endHart_eq : s.endHart h bySup =
    let s3 := s1.hartEnded h k bySup
    let live := x.live.filter (· != h)
    let s4 := if live.any (fun g => campOf g == campOf h) then s3 else s3.campEnd (campOf h) k
    if live.isEmpty then s4.deviceEnd k else s4 := by
  have hended := State.kernel_hartEnded h bySup hx
  unfold State.hartEnded Kernel.without at hended
  unfold State.endHart
  rw [hland]
  cases hwork with
  | nothing htask =>
    dsimp only
    rw [htask, hkernel]
    dsimp only [Option.bind_none]
    rw [if_neg Bool.false_ne_true, hended]
    rfl
  | discarded htask =>
    dsimp only
    rw [htask, hkernel]
    dsimp only
    rw [if_pos rfl, hended]
    rfl
  | done htask hfind =>
    dsimp only
    rw [htask, hkernel, Option.bind_some, hfind]
    dsimp only
    rw [if_neg Bool.false_ne_true, hended]
    rfl

/-- Another hart of the kernel lives in the camp. -/
theorem State.endHart_of_here (hhere : ∃ g ∈ x.live, g ≠ h ∧ campOf g = campOf h) : s.endHart h bySup = s1.hartEnded h k bySup := by
  obtain ⟨g, hg, hne, hcamp⟩ := hhere
  have hmem : g ∈ x.live.filter (· != h) := List.mem_filter.mpr ⟨hg, bne_iff_ne.mpr hne⟩
  have hany : (x.live.filter (· != h)).any (fun g => campOf g == campOf h) = true := List.any_eq_true.mpr ⟨g, hmem, beq_iff_eq.mpr hcamp⟩
  have hempty : (x.live.filter (· != h)).isEmpty = false := List.isEmpty_eq_false_iff.mpr (List.ne_nil_of_mem hmem)
  simp only [State.endHart_eq hland hkernel hwork hx, hany, hempty, if_true, Bool.false_eq_true, if_false]

/-- The hart was its kernel's last in the camp, and others live elsewhere. -/
theorem State.endHart_of_elsewhere (hlast : ∀ g ∈ x.live, g ≠ h → campOf g ≠ campOf h) (hother : ∃ g ∈ x.live, g ≠ h) :
    s.endHart h bySup = (s1.hartEnded h k bySup).campEnd (campOf h) k := by
  obtain ⟨g, hg, hne⟩ := hother
  have hany : (x.live.filter (· != h)).any (fun g => campOf g == campOf h) = false := List.any_eq_false.mpr fun g hg => by
    obtain ⟨hlive, hne⟩ := List.mem_filter.mp hg
    rw [beq_iff_eq]
    exact hlast g hlive (bne_iff_ne.mp hne)
  have hempty : (x.live.filter (· != h)).isEmpty = false :=
    List.isEmpty_eq_false_iff.mpr (List.ne_nil_of_mem (List.mem_filter.mpr ⟨hg, bne_iff_ne.mpr hne⟩))
  simp only [State.endHart_eq hland hkernel hwork hx, hany, hempty, Bool.false_eq_true, if_false]

/-- The hart was its kernel's last on the device. -/
theorem State.endHart_of_last (hlast : ∀ g ∈ x.live, g = h) :
    s.endHart h bySup = ((s1.hartEnded h k bySup).campEnd (campOf h) k).deviceEnd k := by
  have hlive : x.live.filter (· != h) = [] := List.filter_eq_nil_iff.mpr fun g hg => by simp [hlast g hg]
  simp only [State.endHart_eq hland hkernel hwork hx, hlive, List.any_nil, List.isEmpty_nil, if_true, Bool.false_eq_true, if_false]

end

/-- A flush of a core that holds nothing. -/
theorem State.flush_of_nothing {c : Nat} (hstores : (s.core c).stores = []) (hl2 : (s.core c).l2 = []) : s.flush c = s := by
  simp [State.flush, State.land, State.landIf, hstores, Core.lines, hl2]

/-- The end of the camp's only task, by the hart that runs it. -/
theorem State.taskDone_of_only {t : Task} (hstores : (s.core (coreOf h)).stores = []) (hl2 : (s.core (coreOf h)).l2 = [])
    (htasks : (s.camp (campOf h)).tasks = [t]) (hpath : t.path ≠ 2) :
    (s.modHart h fun a => { a with task := none }).UnitsKept (s.taskDone h t).1 ∧ ((s.taskDone h t).1.camp (campOf h)).tasks = [] := by
  unfold State.taskDone
  extract_lets s1
  have hs1 : s1 = s.modHart h fun a => { a with task := none } := by
    unfold s1
    rw [State.flush_of_nothing hstores hl2]
  rw [if_neg hpath, hs1]
  exact State.endTask_of_only htasks

end

/-- The registers of a hart after EXIT, as the obligation lists them. -/
structure EndedBy (a b : Hart) (sup : Bool) : Prop where
  run : b.run = .ended
  supEnded : b.supEnded = sup
  loops : ∀ n : Fin 6, b.loops[n] = none
  links : b.links = []
  task : b.task = none
  x : b.x = a.x

theorem EndedBy.finish (a : Hart) (sup : Bool) : EndedBy a (a.finish sup) sup :=
  ⟨rfl, rfl, fun _ => Vector.getElem_replicate .., rfl, rfl, rfl⟩

theorem EndedBy.of_kept {a b c : Hart} {sup : Bool} (h : EndedBy a b sup) (hkept : HartKept b c) : EndedBy a c sup where
  run := (congrArg Hart.run hkept.rest :).trans h.run
  supEnded := (congrArg Hart.supEnded hkept.rest :).trans h.supEnded
  loops n := by
    rw [show c.loops = b.loops from (congrArg Hart.loops hkept.rest :)]
    exact h.loops n
  links := List.subset_nil.mp (h.links ▸ hkept.links)
  task := (congrArg Hart.task hkept.rest :).trans h.task
  x := hkept.x.trans h.x

theorem EndedBy.conj {a b : Hart} {sup : Bool} (h : EndedBy a b sup) : b.run = .ended ∧ b.supEnded = sup ∧ (∀ n : Fin 6, b.loops[n] = none) ∧
    b.links = [] ∧ b.task = none ∧ b.x = a.x := ⟨h.run, h.supEnded, h.loops, h.links, h.task, h.x⟩

theorem exec_exit {s : State} (hqueue : s.h.queue = []) : exec .exit s = .next (s.endHart s.cur s.h.sup) := held_of_queue_nil hqueue fun s => .next (s.endHart s.cur s.h.sup)

section
variable {s : State} {k : Nat} {x : Kernel}

/-- The hart itself after its end. -/
theorem State.endedBy_hartEnded (s : State) (h k : Nat) (sup : Bool) : EndedBy (s.hart h) ((s.hartEnded h k sup).hart h) sup := by
  rw [State.hart_hartEnded, if_pos rfl]
  exact .finish ..

/-- Nothing but the hart and its kernel has changed. -/
theorem State.hartEnded_less (s : State) (h k : Nat) (sup : Bool) : (∀ g, g ≠ h → (s.hartEnded h k sup).hart g = s.hart g) ∧
    (s.hartEnded h k sup).kernels = (s.kernels.map fun y => if y.id = k then { y with
      live := y.live.filter (· != h)
      supervisorEnded := y.supervisorEnded || sup } else y) ∧
    { s.hartEnded h k sup with
      harts := s.harts
      kernels := s.kernels } = s := by
  refine ⟨fun g hne => ?_, ?_, rfl⟩
  · rw [State.hart_hartEnded, if_neg hne]
  · refine List.map_congr_left fun y _ => ?_
    simp only [beq_iff_eq]
    rfl

/-- A hart that has parked nothing and has no stream queue. -/
def State.ParkedNothing (s : State) (h : Nat) : Prop := (∀ q, s.stream h q = none) ∧ (s.hart h).parkedTask = none

theorem State.ParkedNothing.hartEnded {h g : Nat} {sup : Bool} (hg : s.ParkedNothing g) : (s.hartEnded h k sup).ParkedNothing g := by
  unfold State.ParkedNothing State.stream
  rw [State.hart_hartEnded]
  split
  · next he =>
    subst he
    exact hg
  · exact hg

/-- A hart of a kernel is one that the device lists. -/
theorem State.mem_harts_of_kernel {h : Nat} (hkernel : (s.hart h).kernel = some k) : (h, s.hart h) ∈ s.harts := by
  cases hfind : FMap.find? s.harts h with
  | none =>
    rw [State.hart, FMap.get, hfind] at hkernel
    cases hkernel
  | some a =>
    rw [State.hart, FMap.get, hfind]
    exact FMap.mem_of_find?_eq_some hfind

theorem State.hartEnded_parkedNothing {h : Nat} {sup : Bool} (hkernel : (s.hart h).kernel = some k)
    (hharts : ∀ e ∈ s.harts, e.2.kernel = some k → s.ParkedNothing e.1) :
    ∀ e ∈ (s.hartEnded h k sup).harts, e.2.kernel = some k → (s.hartEnded h k sup).ParkedNothing e.1 := by
  intro e he hek
  rcases FMap.mem_put he with rfl | hmem
  · exact (hharts _ (State.mem_harts_of_kernel hkernel) hkernel).hartEnded
  · exact (hharts e hmem hek).hartEnded

/-- The end of a kernel's last hart, where the kernel leaves nothing open. -/
theorem State.endHart_of_last_idle {h : Nat} {bySup : Bool} {s1 : State} (hland : s.landOwn h = s) (hkernel : (s.hart h).kernel = some k)
    (hwork : s.LeavesWork h bySup s1) (hx : s1.kernel k = some x) (hlast : ∀ g ∈ x.live, g = h) (hkernel1 : (s1.hart h).kernel = some k)
    (htasks : (s1.camp (campOf h)).tasks = []) (hfree : (s1.camp (campOf h)).merge.st = .free) (hops : s1.ops = []) (hleft : x.left = [])
    (hharts : ∀ e ∈ s1.harts, e.2.kernel = some k → s1.ParkedNothing e.1) :
    s.endHart h bySup = ((s1.hartEnded h k bySup).setCamp (campOf h) (s1.camp (campOf h))).modKernel k fun x => { x with left := [] } := by
  rw [State.endHart_of_last hland hkernel hwork hx hlast, State.campEnd_of_idle (s := s1.hartEnded h k bySup) htasks hfree]
  exact State.deviceEnd_of_idle (State.kernel_hartEnded h bySup hx) hleft hops (State.hartEnded_parkedNothing hkernel1 hharts)

theorem State.hartEnded_setCamp_modKernel_rest (s : State) (h k c : Nat) (sup : Bool) (p : Camp) (f : Kernel → Kernel) :
    { ((s.hartEnded h k sup).setCamp c p).modKernel k f with
      harts := s.harts
      kernels := s.kernels
      camps := s.camps } = s := by
  unfold State.hartEnded State.modHart State.setHart State.setCamp State.modKernel
  rfl

/-- A kernel keeps its live harts without the one that ended, through what follows the end. -/
theorem State.UnitsKept.kernel {u t : State} (hkept : u.UnitsKept t) (hx : u.kernel k = some x) : ∃ y, t.kernel k = some y ∧ y.live = x.live :=
  State.kernel_of_same_live hkept.kernels hx

end
end Sys2Proof.Machine
end

section
open Sys2Proof Sys2Proof.Machine

/-- Settles O23: the five cases in turn, each by what the end of the hart leaves to do in its camp and on the device. -/
theorem exitEndsHart : Obligations.ExitEndsHart := by
  intro s k x hqueue hkernel hx hprompt p here ends less
  have hland : s.landOwn s.cur = s := State.landOwn_of_stores_nil hprompt.empty
  have hexec := exec_exit hqueue
  have hlive := State.kernel_hartEnded s.cur false hx
  refine ⟨fun hsup htask hhere => ?_, fun hsup htask hparked hops hstreams hhere => ?_, fun r hsup htasks htask hpath hl2 hhere => ?_,
    fun hsup htask hlast hother htasks => ?_, fun hsup htask hlast htasks hfree hops hleft hharts => ?_⟩
  · rw [hsup, State.endHart_of_here hland hkernel (.nothing htask) hx hhere] at hexec
    exact ⟨_, hexec, (s.endedBy_hartEnded s.cur k false).conj, s.hartEnded_less s.cur k false⟩
  · have hdiscard : s.discardAll s.cur = s := State.discardAll_of_nothing_parked hops hstreams hparked
    have hwork : s.LeavesWork s.cur true s := by
      have := State.LeavesWork.discarded htask
      rwa [hdiscard] at this
    rw [hsup, State.endHart_of_here hland hkernel hwork hx hhere] at hexec
    exact ⟨_, hexec, (s.endedBy_hartEnded s.cur k true).conj, s.hartEnded_less s.cur k true⟩
  · obtain ⟨hkept, hnone⟩ := State.taskDone_of_only hprompt.empty hl2 htasks hpath
    have hfind : s.findTask (campOf s.cur) r.id = some r := by
      rw [State.findTask, show (s.camp (campOf s.cur)).tasks = [r] from htasks]
      simp
    obtain ⟨y, hy, hylive⟩ := hkept.kernel hx
    rw [hsup, State.endHart_of_here hland hkernel (.done htask hfind) hy (hylive ▸ hhere)] at hexec
    refine ⟨_, y.without s.cur false, hexec, ?_, hnone, State.kernel_hartEnded s.cur false hy, ?_⟩
    · obtain ⟨hrun, hsupEnded, hloops, hlinks, hnotask, hxs⟩ := State.endedBy_hartEnded (s.taskDone s.cur r).1 s.cur k false
      refine ⟨hrun, hsupEnded, hloops, hlinks, hnotask, ?_⟩
      rw [hxs, (hkept.hart s.cur).x, State.hart_modHart_same]
      rfl
    · rw [← hylive]
      rfl
  · rw [hsup, State.endHart_of_elsewhere hland hkernel (.nothing htask) hx hlast hother] at hexec
    obtain ⟨hkept, hnone, hmerge⟩ := State.campEnd_of_none_runs (s := s.hartEnded s.cur k false) (k := k) (camp := campOf s.cur) htasks
    obtain ⟨y, hy, hylive⟩ := hkept.kernel hlive
    refine ⟨_, y, hexec, ((s.endedBy_hartEnded s.cur k false).of_kept (hkept.hart s.cur)).conj, hnone, fun hst howner _ _ => hmerge hst howner,
      fun h hne => ?_, hy, hylive⟩
    rw [(hkept.hart h).x, (hkept.hart h).pc, State.hart_hartEnded, if_neg hne]
    exact ⟨rfl, rfl⟩
  · rw [hsup, State.endHart_of_last_idle hland hkernel (.nothing htask) hx hlast hkernel htasks hfree hops hleft hharts] at hexec
    have hfind := State.kernel_forgetLeft (s := (s.hartEnded s.cur k false).setCamp (campOf s.cur) p) hlive
    refine ⟨_, _, hexec, (s.endedBy_hartEnded s.cur k false).conj, (s.hartEnded_less s.cur k false).1, fun c => ?_, hfind, ?_,
      State.hartEnded_setCamp_modKernel_rest ..⟩
    · calc _ = ((s.hartEnded s.cur k false).setCamp (campOf s.cur) p).camp c := rfl
        _ = if c = campOf s.cur then p else s.camp c := State.camp_setCamp ..
        _ = s.camp c := by
          split
          · next hc => rw [hc]
          · rfl
    · exact List.filter_eq_nil_iff.mpr fun g hg => by simp [hlast g hg]

end

section
/-! An instruction of the queue that nothing keeps from running whole at its commit, whatever its elements write (R37, R128, R307). -/
namespace Sys2Proof.Machine

theorem fctlSet_zero (v : Word) : fctlSet v 0 = v := by simp [fctlSet]

/-- Hart `h` of `v` is `a` and core `c` is `k`; nothing else differs from `u`. -/
structure State.UnitsAre (v u : State) (h c : Nat) (a : Hart) (k : Core) : Prop where
  hart : v.hart h = a
  harts : ∀ g, g ≠ h → v.hart g = u.hart g
  core : v.core c = k
  cores : ∀ d, d ≠ c → v.core d = u.core d
  same : v.SameButUnits u

section
variable {u v : State} {h c : Nat} {a : Hart} {k : Core}

theorem State.UnitsAre.refl (u : State) (h c : Nat) : u.UnitsAre u h c (u.hart h) (u.core c) := ⟨rfl, fun _ _ => rfl, rfl, fun _ _ => rfl, rfl⟩

theorem State.UnitsAre.modHart (hv : v.UnitsAre u h c a k) (f : Hart → Hart) : (v.modHart h f).UnitsAre u h c (f a) k :=
  ⟨by rw [State.hart_modHart_same, hv.hart], fun g hne => by rw [State.hart_modHart_ne _ _ hne, hv.harts g hne], hv.core, hv.cores, hv.same⟩

theorem State.UnitsAre.modCore (hv : v.UnitsAre u h c a k) (f : Core → Core) : (v.modCore c f).UnitsAre u h c a (f k) :=
  ⟨hv.hart, hv.harts, by rw [State.core_modCore_same, hv.core], fun d hne => by rw [State.core_modCore_ne _ _ hne, hv.cores d hne], hv.same⟩

theorem State.UnitsAre.cur_eq (hv : v.UnitsAre u h c a k) : v.cur = u.cur := hv.same.cur_eq

theorem State.UnitsAre.modH (hv : v.UnitsAre u u.cur c a k) (f : Hart → Hart) : (v.modH f).UnitsAre u u.cur c (f a) k := by
  rw [State.modH, State.h, hv.cur_eq]
  exact hv.modHart f

theorem State.UnitsAre.dropUses {e : QEntry} (hv : v.UnitsAre u h (coreOf h) a k) (he : e.tileUse = none) :
    (v.dropUses h [e]).UnitsAre u h (coreOf h) a k := by
  have hmod := hv.modCore fun c => c.dropUses [e]
  rwa [Core.dropUses_of_tileUse_none he] at hmod

end

section
variable {op : QOp} {i : Instr} {s u v : State} {e : QEntry}

/-- The checks of an instruction whose names are usable, and that has none of its own to fail. -/
theorem QOp.check_eq_none (howns : s.h.owns = true) (hpre : op.pre s.h e = none) (hnames : ∀ n ∈ op.names s.h e, Usable s n.entry n.w n.need)
    (hpost : op.post s s.cur e = (s, none)) : op.check s s.cur e = (s, none) := by
  have howner : (if op.owner then checkOwner s.h else none) = none := by simp [checkOwner, howns]
  have hearly : op.early s.h e = none := by
    rw [QOp.early, howner, hpre, checkNames_of_usable hnames]
    rfl
  unfold QOp.check
  rw [show op.early (s.hart s.cur) e = none from hearly]
  exact hpost

section
variable (hrun : s.defer = false) (hqueues : ∀ g, coreOf g = coreOf s.cur → (s.hart g).queue = [])
include hrun hqueues

/-- With nothing in the queues of its core an instruction finds room, and need not enter its queue. -/
theorem commits_at_once : ¬64 ≤ s.h.queue.length ∧ (s.defer || !s.quietCore (coreOf s.cur)) = false :=
  ⟨by simp [show s.h.queue = [] from hqueues s.cur rfl], by simp [hrun, quietCore_of_queues_nil hqueues]⟩

/-- One that its checks and the units let issue, and that no sampler sees, runs whole on the state that its charge left. -/
theorem commitQueued_of_go (hentry : entryOp i = some op) (hcheck : op.check s s.cur (newEntry i op s.h) = (s, none))
    (hgo : s.issueTest s.cur op (newEntry i op s.h) = .go [] []) (htrace : op.trace s s.cur (newEntry i op s.h) = none) :
    commitQueued i op s = .next (op.whole (s.issues i) (op.issuedAlone s (newEntry i op s.h) none)) := by
  obtain ⟨hroom, hquiet⟩ := commits_at_once hrun hqueues
  simp only [commitQueued, if_neg hroom, hquiet, Bool.false_eq_true, if_false, hcheck, hgo, QOp.noteIssue, htrace, State.issues, hentry]

/-- A check that fails traps at the commit, before any effect (R331, R335). -/
theorem completesOn_trap {t : Trap} (hexec : exec i s = commitQueued i op s) (hcheck : op.check s s.cur (newEntry i op s.h) = (s, some t))
    (hkind : t.code ≠ causePreempt ∧ t.code ≠ causeYield) :
    CompletesOn i s s (s.h.trapTo (s.camp (campOf s.cur)).entrypc (op.trapAt s.h (op.trapOf (newEntry i op s.h) t)) s.h.pc)
      (s.core (coreOf s.cur)) := by
  obtain ⟨hroom, hquiet⟩ := commits_at_once hrun hqueues
  replace hexec : exec i s = .next (op.trapWhole s (newEntry i op s.h) 0 t) := by
    simpa only [commitQueued, if_neg hroom, hquiet, Bool.false_eq_true, if_false, hcheck] using hexec
  clear hcheck
  generalize hent : newEntry i op s.h = e at *
  have hissued : e.issued = none := by rw [← hent]; rfl
  have hpc : e.pc = s.h.pc := by rw [← hent]; rfl
  have huse : e.tileUse = none := by unfold QEntry.tileUse; split <;> simp [hissued]
  have hstop (a : Hart) (n : Nat) : op.stop e { a with fctl := fctlSet a.fctl 0 } n = a := by rw [QOp.stop_of_not_issued hissued, fctlSet_zero]
  have htrap : op.trapWhole s e 0 t =
      ((s.dropUses s.cur [e]).modH id).modHart s.cur fun a => a.trapTo (s.camp (campOf s.cur)).entrypc (op.trapAt s.h (op.trapOf e t)) s.h.pc := by
    have hcode : ∀ a, (op.trapAt a (op.trapOf e t)).code = t.code := fun a => by unfold QOp.trapAt QOp.trapOf; split <;> rfl
    unfold QOp.trapWhole State.takeTrap
    simp only [hissued, Option.isSome_none, Bool.false_eq_true, if_false, hstop, hcode, hkind, or_self, hpc, State.h_modH]
    rfl
  have hv := (((State.UnitsAre.refl s s.cur (coreOf s.cur)).dropUses huse).modH id).modHart fun a =>
    a.trapTo (s.camp (campOf s.cur)).entrypc (op.trapAt s.h (op.trapOf e t)) s.h.pc
  exact ⟨_, hexec.trans (congrArg _ htrap), hv.hart, hv.core, hv.harts, hv.cores, hv.same⟩

end

/-- An entry performed whole whose elements meet no trap: they leave its hart as `a` and its core as `k`, and the scalar side goes on. -/
theorem QOp.whole_unitsAre {a : Hart} {k : Core} {f : Flags} (hkind : op.kind ≠ .engine) (hstart : op.start u u.cur e = u)
    (hrun : op.run u u.cur e e.startsAt e.len = { state := v, flags := f }) (hv : v.UnitsAre u u.cur (coreOf u.cur) a k)
    (hclosing : op.closing v u.cur e = (v, none)) (huse : e.tileUse = none) (hsampled : e.sampled = none)
    (hfinish : ∀ t, op.finish t u.cur e = t) :
    (op.whole u e).UnitsAre u u.cur (coreOf u.cur) (Hart.advance (op.atEnd (op.redefine e (op.completed f a)))) k := by
  have hbegin : op.begin_ u u.cur e = u := by rw [QOp.begin_, if_neg hkind, hstart]
  have hwhole : op.whole u e =
      ((v.dropUses u.cur [e]).modH fun a => op.atEnd (op.redefine e (op.completed f a))).modH Hart.advance := by
    simp only [QOp.whole, hbegin, hrun, hv.cur_eq, hclosing, QOp.retire, State.emitSample, hsampled, hfinish]
  rw [hwhole]
  exact ((hv.dropUses huse).modH _).modH _

theorem State.UnitsAre.completesOn {t : State} {a : Hart} {k : Core} (ht : t.UnitsAre u s.cur (coreOf s.cur) a k) (hexec : exec i s = .next t) :
    CompletesOn i s u a k := ⟨t, hexec, ht.hart, ht.core, ht.harts, ht.cores, ht.same⟩

end

end Sys2Proof.Machine
end

section
/-! SETVL (R133), and reads and writes of the definition table (R131, R132). -/
namespace Sys2Proof.Machine

/-- The columns of a format's elements, by its code (R41, R45): codes without a format count as one bit. -/
theorem columns_fmtWidth {f : Nat} (hf : f < 32) : columns (fmtWidth f) = planeColumns f := by
  interval_cases f <;> rfl

section
variable (g b : BitVec 2) (f : BitVec 5)

/-- The fields of the VTYPE that SETVL writes (R26). -/
theorem setvlType_fields : bits (setvlType g b f).toNat 15 11 = f.toNat ∧ bits (setvlType g b f).toNat 10 9 = g.toNat ∧
    bits (setvlType g b f).toNat 8 7 = b.toNat := by
  have hg := g.isLt
  have hb := b.isLt
  have hf := f.isLt
  simp only [setvlType, w64, bits, BitVec.toNat_ofNat]
  omega

theorem grantLen_eq_grantOf (req : Nat) : grantLen (setvlType g b f) req = grantOf f.toNat g.toNat b.toNat req := by
  obtain ⟨hformat, hgroup, hblock⟩ := setvlType_fields g b f
  have hlen : blkLen (setvlType g b f) = if b.toNat = 0 then 0 else 8 * 2 ^ b.toNat := by
    unfold blkLen
    rw [hblock]
    split
    case h_1 h => simp [h]
    case h_2 h => rw [if_neg h]
  have hmax : vlmax (setvlType g b f) = Nat.min (planeColumns f.toNat * 2 ^ g.toNat) 8192 := by
    rw [vlmax, hformat, hgroup, columns_fmtWidth f.isLt]
  simp only [grantLen, grantOf, hlen, hmax]
  by_cases hzero : b.toNat = 0
  · simp [hzero]
  · simp [hzero]

end

theorem checkOwner_of_owns {a : Hart} (h : a.owns = true) : checkOwner a = none := if_pos h

end Sys2Proof.Machine
end

section
open Sys2Proof Sys2Proof.Machine

/-- Settles O26: the checks of SETVL stand in the order of its clauses, and its VTYPE has the fields that R133 grants by. -/
theorem setLength : Obligations.SetLength := by
  intro s d a g b f _ n
  have hexec : exec (.setvl d a g b f) s = execSetvl d a g b f s := rfl
  refine ⟨fun howns hgroup => ?granted, fun hnot hqueue => ?owner, fun howns hkernel hceil hqueue => ?ceiling⟩
  case granted =>
    have hallowed : (!s.h.sup && decide (s.h.grpCeil < g.toNat)) = false := by
      rcases hgroup with h | h
      · simp [h]
      · simp [Nat.not_lt.mpr h]
    rw [execSetvl, checkOwner_of_owns howns] at hexec
    simp only [hallowed, Bool.false_eq_true, if_false, grantLen_eq_grantOf] at hexec
    exact completes_commit hexec
  case owner =>
    rw [execSetvl, checkOwner_of_not_owns hnot] at hexec
    exact traps_raise hqueue hexec (by decide) (by decide)
  case ceiling =>
    have hrefused : (!s.h.sup && decide (s.h.grpCeil < g.toNat)) = true := by simp [hkernel, hceil]
    rw [execSetvl, checkOwner_of_owns howns] at hexec
    simp only [hrefused, if_true] at hexec
    exact traps_raise hqueue hexec (by decide) (by decide)

end

section
/-! VDEF (R131), and the TVAL of PLANE_BOUNDS (R47). -/
namespace Sys2Proof.Machine

theorem emptyTrap_eq (r : Reg) : emptyTrap r = ⟨10, BitVec.ofNat 64 (3 * 32 + r.toNat), none⟩ := by
  simp [emptyTrap, boundsTval, wrapN, causePlaneBounds, w64]

section
variable {s : State} {d a b : Reg}

/-- VDEF checks the entry that it would write, after the owner. -/
theorem opVdef_check (howns : s.h.owns = true) : (opVdef d a b).check s s.cur (newEntry (.vdef d a b) (opVdef d a b) s.h) =
    (s, checkDef s.h d ⟨s.h.getX a, s.h.getX b⟩) := by
  have hearly : (opVdef d a b).early (s.hart s.cur) (newEntry (.vdef d a b) (opVdef d a b) s.h) = none := by
    change ((if true then checkOwner s.h else none).or none).or none = none
    rw [if_pos rfl, checkOwner_of_owns howns]
    rfl
  rw [QOp.check, hearly]
  rfl

/-- It uses no name, so that no pending write keeps it. -/
theorem opVdef_issueTest (e : QEntry) : s.issueTest s.cur (opVdef d a b) e = .go [] [] := rfl

section
variable (hdefer : s.defer = false) (hqueues : ∀ g, coreOf g = coreOf s.cur → (s.hart g).queue = []) (howns : s.h.owns = true)
include hdefer hqueues howns

theorem completesOn_vdef (hcheck : checkDef s.h d ⟨s.h.getX a, s.h.getX b⟩ = none) :
    CompletesOn (.vdef d a b) s (s.issues (.vdef d a b))
      (Hart.advance { (s.issues (.vdef d a b)).h with defs := s.h.defs.set d.toNat ⟨s.h.getX a, s.h.getX b⟩ (by omega) })
      ((s.issues (.vdef d a b)).core (coreOf s.cur)) := by
  have hu := chargeOnly_issues s (.vdef d a b)
  have hexec : exec (.vdef d a b) s = _ :=
    commitQueued_of_go hdefer hqueues rfl ((opVdef_check howns).trans (by rw [hcheck])) (opVdef_issueTest _) rfl
  generalize s.issues (.vdef d a b) = u at *
  have hcur : u.cur = s.cur := hu.same.cur_eq
  have hdefs : u.h.defs = s.h.defs := by
    obtain ⟨v, l, hg⟩ := hu.hart s.cur
    rw [State.h, hcur, hg, State.h]
  have hwhole := QOp.whole_unitsAre (op := opVdef d a b) (u := u) (e := (opVdef d a b).issuedAlone s (newEntry (.vdef d a b) (opVdef d a b) s.h) none)
    (f := 0) nofun rfl rfl (.refl u _ _) rfl rfl rfl fun _ => rfl
  rw [hcur] at hwhole
  have hhart : (opVdef d a b).atEnd ((opVdef d a b).redefine ((opVdef d a b).issuedAlone s (newEntry (.vdef d a b) (opVdef d a b) s.h) none)
      ((opVdef d a b).completed 0 (u.hart s.cur))) = { u.h with defs := s.h.defs.set d.toNat ⟨s.h.getX a, s.h.getX b⟩ (by omega) } := by
    rw [← hcur]
    change ({ u.h with fctl := fctlSet u.h.fctl 0, defs := u.h.defs.set d.toNat ⟨s.h.getX a, s.h.getX b⟩ (by omega) } : Hart) = _
    rw [fctlSet_zero, hdefs]
  rw [hhart] at hwhole
  exact hwhole.completesOn hexec

/-- VDEF is tied to no element (R38). -/
theorem trapsAt_vdef {code tval : Nat} (hcheck : checkDef s.h d ⟨s.h.getX a, s.h.getX b⟩ = some ⟨code, BitVec.ofNat 64 tval, none⟩)
    (hcode : code ≠ causePreempt ∧ code ≠ causeYield) : TrapsAt (.vdef d a b) s code tval none :=
  completesOn_trap (op := opVdef d a b) (t := ⟨code, BitVec.ofNat 64 tval, none⟩) hdefer hqueues rfl
    ((opVdef_check howns).trans (by rw [hcheck])) hcode

end
end

end Sys2Proof.Machine
end

section
open Sys2Proof Sys2Proof.Machine

/-- Settles O27: VDEF writes its entry where `checkDef` passes it, and traps with what fails. -/
theorem definitions : Obligations.Definitions := by
  intro s d a b hqueue howns u
  have hread (f : Def → Word) : readDef d a f s = writeX s d (f (s.h.getDef a)) := by
    rw [readDef, held_of_queue_nil hqueue, checkOwner_of_owns howns]
  refine ⟨completes_writeX (hread Def.w0) rfl, completes_writeX (hread Def.w1) rfl, fun hdefer hqueues hcontents => ?written,
    fun hdefer hqueues => ?refused⟩
  case written =>
    refine completesOn_vdef hdefer hqueues howns ?_
    dsimp only at hcontents
    rcases hcontents with hempty | ⟨hwf, hinside⟩
    · exact if_pos hempty
    · simp [checkDef, hwf, hinside]
  case refused =>
    intro e p
    refine ⟨fun hsome hbad => ?malformed, fun j hwf hout => ?outside⟩
    case malformed =>
      refine trapsAt_vdef hdefer hqueues howns ?_ (by decide)
      have hnot : (!e.wf) = true := by simp [hbad]
      exact (if_neg hsome).trans ((if_pos hnot).trans (congrArg some (emptyTrap_eq d)))
    case outside =>
      have hsome : ¬(e.w0 = 0 ∧ e.w1 = 0) := fun ⟨h0, h1⟩ => by
        have he : e = ⟨0, 0⟩ := congr (congrArg Def.mk h0) h1
        rw [he] at hwf
        exact absurd hwf (by decide)
      have hnot : ¬(!e.wf) = true := by simp [hwf]
      refine trapsAt_vdef hdefer hqueues howns ?_ (by decide)
      refine (if_neg hsome).trans ((if_neg hnot).trans ?_)
      change (match p.firstOutside s.h.windowRows with
        | some e => some (boundsTrap 0 d p e)
        | none => none) = _
      rw [hout]
      rfl

end

section
/-! The elements that a vector instruction performs, and what their results write (R11, R128). -/
namespace Sys2Proof.Machine

theorem elemRange_eq_filter (lo hi : Nat) : elemRange lo hi = (List.range hi).filter fun e => decide (lo ≤ e) := by
  unfold elemRange
  rcases Nat.le_total hi lo with h | h
  case inl =>
    rw [Nat.sub_eq_zero_of_le h, List.range_zero, List.map_nil, eq_comm, List.filter_eq_nil_iff]
    intro e he
    have := List.mem_range.mp he
    simp
    omega
  case inr =>
    obtain ⟨n, rfl⟩ := Nat.exists_eq_add_of_le h
    rw [Nat.add_sub_cancel_left, List.range_add, List.filter_append, List.filter_eq_nil_iff.mpr, List.filter_eq_self.mpr, List.nil_append]
    · simp
    · intro e he
      have := List.mem_range.mp he
      simp
      omega

section
variable {s u : State} (hu : ChargeOnly s u)
include hu

theorem ChargeOnly.getK (g : Nat) (k : KReg) : (u.hart g).getK k = (s.hart g).getK k := by
  obtain ⟨v, b, hg⟩ := hu.hart g
  rw [hg]
  rfl

theorem ChargeOnly.rm (g : Nat) : (u.hart g).rm = rmOfFctl (s.hart g).fctl := by
  obtain ⟨v, b, hg⟩ := hu.hart g
  rw [hg]
  rfl

theorem ChargeOnly.activeBelow (g : Nat) (k : KReg) (e : Nat) : (u.hart g).activeBelow k e = (s.hart g).activeBelow k e := by
  unfold Hart.activeBelow
  rw [funext (hu.active g k)]

/-- The active elements from ESTART to VL - 1, in the state that the charge left. -/
theorem elemRange_filter_active (k : KReg) :
    (elemRange s.h.estart.toNat s.h.vl.toNat).filter ((u.hart s.cur).active k) = s.performs k := by
  rw [elemRange_eq_filter, List.filter_filter, State.performs]
  refine List.filter_congr fun e _ => ?_
  rw [hu.active, Bool.and_comm]
  rfl

end

/-- Elements none of which meets an uncorrectable cell give their pieces. -/
theorem collect_eq {f : Nat → Except Nat (Option Piece)} {g : Nat → Option Piece} {act : Nat → Bool} (hf : ∀ i, f i = .ok (g i)) (l : List Nat) :
    collect (fun i => if act i then f i else .ok none) l = ((l.filter act).filterMap g, none) := by
  induction l with
  | nil => rfl
  | cons i l ih =>
    rw [collect, ih]
    cases hact : act i with
    | false => simp [hact]
    | true =>
      rw [if_pos rfl, hf, List.filter_cons_of_pos hact]
      cases hg : g i with
      | none => simp [hg]
      | some p => simp [hg]

/-- The pieces of an instruction's form. -/
def VecForm.pieces (v : VecForm) (s : State) : List Piece := (s.performs v.mask).filterMap v.piece

/-- What the elements of a form leave of a state: the pieces in the plane of the acting hart's core. -/
def VecForm.done (v : VecForm) (s u : State) : Done :=
  { state := u.modCore (coreOf s.cur) fun c => c.putPieces (s.h.shapeOf v.dest) (v.pieces s), flags := piecesFlags (v.pieces s) }

/-- The elements of a form as pieces of a mask register. -/
def MaskForm.pieces (v : MaskForm) (s : State) : List Piece := (s.performs v.mask).map fun e => ⟨e, if v.bit e then 1 else 0, v.flags e⟩

def MaskForm.done (v : MaskForm) (s u : State) : Done :=
  { state := u.modHart s.cur fun a => a.setK v.dest (setMaskBits (a.getK v.dest) (v.pieces s)), flags := piecesFlags (v.pieces s) }

section
variable {s u : State} {e : QEntry} {f : Core → Hart → Nat → Except Nat (Option Piece)} (hu : ChargeOnly s u)
include hu

theorem planeRun_eq_done {v : VecForm} (hf : ∀ i, f (u.core (coreOf s.cur)) (u.hart s.cur) i = .ok (v.piece i)) :
    planeRun v.dest v.mask f u s.cur e s.h.estart.toNat s.h.vl.toNat = v.done s u := by
  rw [planeRun, collect_eq hf, elemRange_filter_active hu, hu.shapeOf]
  rfl

/-- Each element performed writes its own element of the destination. -/
theorem planeRun_each {d : Reg} {k : KReg} {ns : List (Reg × Nat × Nat)} {g : Nat → FRes}
    (hf : ∀ i, f (u.core (coreOf s.cur)) (u.hart s.cur) i = .ok (Machine.piece i (g i))) :
    planeRun d k f u s.cur e s.h.estart.toNat s.h.vl.toNat = VecForm.done ⟨ns, d, k, fun i => some ⟨i, (g i).1, (g i).2⟩⟩ s u :=
  planeRun_eq_done hu (v := ⟨ns, d, k, _⟩) hf

theorem maskRun_eq_done {v : MaskForm}
    (hf : ∀ i, f (u.core (coreOf s.cur)) (u.hart s.cur) i = .ok (some ⟨i, if v.bit i then 1 else 0, v.flags i⟩)) :
    maskRun v.dest v.mask f u s.cur e s.h.estart.toNat s.h.vl.toNat = v.done s u := by
  rw [maskRun, collect_eq hf, elemRange_filter_active hu, List.filterMap_eq_map']
  rfl

end

/-! ### Instructions of elements -/

/-- The instruction with what is usual of one of elements: it issues on its names alone, is no access of memory, and does nothing before or after its
elements but set the flags and ESTART. Its checks, its names and its elements are its own. -/
def QOp.usual (op : QOp) : QOp :=
  { op with
    kind := .plane
    owner := true
    post := fun s _ _ => (s, none)
    len := fun _ e => e.vl
    ready := fun _ _ _ => true
    trace := fun _ _ _ => none
    start := fun s _ _ => s
    redefine := fun _ a => a
    closing := fun s _ _ => (s, none)
    finish := fun s _ _ => s
    atEnd := fun a => a }

/-- The entry with which an instruction runs whole at its commit. -/
def State.entryOf (s : State) (i : Instr) (op : QOp) : QEntry := op.issuedAlone s (newEntry i op s.h) none

/-- `op` is what instruction `i` does at the queue, and it is one of elements. -/
structure RunsElements (s : State) (i : Instr) (op : QOp) : Prop where
  commits : exec i s = commitQueued i op s
  entry : entryOp i = some op
  usual : op.usual = op
  noTile : (s.entryOf i op).tileUse = none
  pre : op.pre s.h (newEntry i op s.h) = none

namespace RunsElements
variable {s : State} {i : Instr} {op : QOp} (h : RunsElements s i op)
include h

theorem vector : op.vector = true := by
  rw [← h.usual]
  exact Bool.or_true _

/-- It completes where its names are usable: its elements, performed on the state that its charge left, give its hart, its core and the flags. -/
theorem completesOn (hs : Idle s) (hnames : ∀ n ∈ op.names s.h (newEntry i op s.h), Usable s n.entry n.w n.need) {v : State} {f : Flags} {a : Hart}
    {k : Core} (hrun : op.run (s.issues i) s.cur (s.entryOf i op) s.h.estart.toNat s.h.vl.toNat = { state := v, flags := f })
    (hv : v.UnitsAre (s.issues i) s.cur (coreOf s.cur) a k) :
    CompletesOn i s (s.issues i) (Hart.advance { a with estart := 0, fctl := fctlSet a.fctl f }) k := by
  have hvector := h.vector
  obtain ⟨hexec, hentry, husual, hnoTile, hpre⟩ := h
  have hcheck : op.check s s.cur (newEntry i op s.h) = (s, none) := QOp.check_eq_none hs.owns hpre hnames (by rw [← husual]; rfl)
  have hgo : s.issueTest s.cur op (newEntry i op s.h) = .go [] [] := by
    rw [← husual]
    simp [State.issueTest, Core.issueTest_of_pend_nil hs.pending, State.unitsFree, hs.pending, QOp.usual]
  have hcommit := hexec.trans (commitQueued_of_go hs.runs hs.queues hentry hcheck hgo (by rw [← husual]; rfl))
  have hucur : (s.issues i).cur = s.cur := (chargeOnly_issues s i).same.cur_eq
  generalize s.issues i = u at *
  have hstarts : (s.entryOf i op).startsAt = s.h.estart.toNat := by
    change (if op.vector then s.h.es else 0) = _
    rw [hvector]
    rfl
  have hlen : (s.entryOf i op).len = s.h.vl.toNat := by
    change op.len s.h (newEntry i op s.h) = _
    rw [← husual]
    rfl
  have hwhole : (op.whole u (s.entryOf i op)).UnitsAre u u.cur (coreOf u.cur)
      (Hart.advance (op.atEnd (op.redefine (s.entryOf i op) (op.completed f a)))) k := by
    refine QOp.whole_unitsAre (by rw [← husual]; nofun) (by rw [← husual]; rfl) (by rwa [hstarts, hlen, hucur]) (by rwa [hucur])
      (by rw [← husual]; rfl) hnoTile rfl fun t => by rw [← husual]; rfl
  have hdone : op.atEnd (op.redefine (s.entryOf i op) (op.completed f a)) = { a with estart := 0, fctl := fctlSet a.fctl f } := by
    have hcompleted : op.completed f a = { a with estart := 0, fctl := fctlSet a.fctl f } := by simp [QOp.completed, hvector]
    rw [hcompleted, ← husual]
    rfl
  rw [hdone, hucur] at hwhole
  exact hwhole.completesOn hcommit

end RunsElements

end Sys2Proof.Machine
end

section
/-! The operations of the elements as the rules of R59 and R135 to R141 give them. -/
namespace Sys2Proof.Machine

theorem codeInt_eq (f : Nat) : codeInt f = decide (f < 8) := rfl

theorem wrapN_eq_wrapTo (f : Nat) (k : Int) : ((wrapN (fmtWidth f) k, 0) : FRes) = wrapTo f k := by simp [wrapN, wrapTo]

theorem arith2_eq (fi : Int → Int → Int) (ff : RMode → FFmt → FVal → FVal → FRes) (m : RMode) (f u v : Nat) : arith2 fi ff m f u v =
    if f < 8 then wrapTo f (fi (intOf f u) (intOf f v)) else ff m (ffmtOf f) (fdecode (ffmtOf f) u) (fdecode (ffmtOf f) v) := by
  simp only [arith2, codeInt_eq, decide_eq_true_eq, wrapN_eq_wrapTo, codeVal_eq_intOf]

theorem arithFma_eq (m : RMode) (f o u v : Nat) : arithFma m f o u v = opFma m f o u v := by
  simp only [arithFma, opFma, codeInt_eq, decide_eq_true_eq, wrapN_eq_wrapTo, codeVal_eq_intOf]

theorem arithMinMax_true (f u v : Nat) : arithMinMax true f u v = opMax f u v := by
  simp [arithMinMax, opMax, codeInt_eq, codeVal_eq_intOf]

/-- Patterns of a width are equal where their values are. -/
theorem intOf_inj {f u v : Nat} (hu : u < 2 ^ fmtWidth f) (hv : v < 2 ^ fmtWidth f) (h : intOf f u = intOf f v) : u = v := by
  have hmod : ((u % 2 ^ fmtWidth f : Nat) : Int) = ((v % 2 ^ fmtWidth f : Nat) : Int) := by
    push_cast
    rw [← intOf_emod, ← intOf_emod, h]
  rwa [Nat.mod_eq_of_lt hu, Nat.mod_eq_of_lt hv, Nat.cast_inj] at hmod

/-- The lesser of two patterns; which of two that are equal makes no difference. -/
theorem arithMinMax_false {f u v : Nat} (hu : u < 2 ^ fmtWidth f) (hv : v < 2 ^ fmtWidth f) : arithMinMax false f u v = opMin f u v := by
  unfold arithMinMax opMin
  rw [codeInt_eq, codeVal_eq_intOf, codeVal_eq_intOf]
  simp only [decide_eq_true_eq, Bool.false_eq_true, eq_iff_iff, iff_false, Int.not_lt]
  split
  case isFalse => rfl
  case isTrue =>
    rcases lt_trichotomy (intOf f v) (intOf f u) with hlt | heq | hgt
    · rw [if_pos hlt, if_pos hlt.le]
    · rw [intOf_inj hv hu heq, if_pos le_rfl, ite_self]
    · rw [if_neg hgt.not_ge, if_neg hgt.not_gt]

/-- Of integers the greater is one of the two. -/
theorem opMax_lt {f u v : Nat} (hf : f < 8) (hu : u < 2 ^ fmtWidth f) (hv : v < 2 ^ fmtWidth f) : (opMax f u v).1 < 2 ^ fmtWidth f := by
  unfold opMax
  rw [if_pos hf]
  exact iteInduction (motive := (· < 2 ^ fmtWidth f)) (fun _ => hv) fun _ => hu

theorem arithMinMax_clamp {f o u v : Nat} (ho : o < 2 ^ fmtWidth f) (hu : u < 2 ^ fmtWidth f) (hv : v < 2 ^ fmtWidth f) :
    ((arithMinMax false f (arithMinMax true f o u).1 v).1, (arithMinMax true f o u).2 ||| (arithMinMax false f (arithMinMax true f o u).1 v).2) =
      opClamp f o u v := by
  have hmin : arithMinMax false f (opMax f o u).1 v = opMin f (opMax f o u).1 v := by
    by_cases hf : f < 8
    case pos => exact arithMinMax_false (opMax_lt hf ho hu) hv
    case neg => simp [arithMinMax, opMin, codeInt_eq, hf]
  rw [arithMinMax_true, hmin]
  rfl

theorem arithCmp_eq (cond f u v : Nat) : arithCmp cond f u v = (holds cond f u v, holdsFlags cond f u v) := by
  unfold arithCmp holds holdsFlags
  rw [codeInt_eq, codeVal_eq_intOf, codeVal_eq_intOf]
  by_cases hf : f < 8
  case pos => match cond with
    | 0 | 1 | 2 | n + 3 => simp [hf]
  case neg => match cond with
    | 0 | 1 | 2 | n + 3 => simp [hf]

theorem arithCvt_eq (m : RMode) (dst src u : Nat) : arithCvt m dst src u = opConvert m dst src u := by
  have hmode : (if codeNarrow dst then RMode.rne else m) = if dst < 11 then m else .rne := by
    simp only [codeNarrow, decide_eq_true_eq, ← Nat.not_lt]
    exact ite_not ..
  have hmin : codeMin dst = if dst < 4 then -2 ^ (fmtWidth dst - 1) else 0 := by simp [codeMin, codeSigned]
  have hmax : codeMax dst = if dst < 4 then 2 ^ (fmtWidth dst - 1) - 1 else 2 ^ fmtWidth dst - 1 := by simp [codeMax, codeSigned]
  simp only [arithCvt, opConvert, hmode, hmin, hmax, codeInt_eq, decide_eq_true_eq, wrapN_eq_wrapTo, codeVal_eq_intOf, fofIntVal]
  rfl

theorem FVal.scale_eq (v : FVal) (x : Int) : v.scale x = timesPow v x := by cases v <;> rfl

/-- An element is a pattern of its width. -/
theorem Core.elem_lt (c : Core) (p : Shape) (e : Nat) : c.elem p e < 2 ^ p.w := by
  unfold Core.elem
  split
  case isTrue h =>
    have hlow := c.cell_lt (p.cellOf e).1
    have hhigh := c.cell_lt ((p.cellOf e).1 + 1)
    rw [h]
    dsimp only
    omega
  case isFalse => exact Nat.mod_lt _ (Nat.two_pow_pos _)

theorem Usable.el_lt {s : State} {r : Reg} {w n : Nat} (h : Usable s r w n) (e : Nat) : s.el r e < 2 ^ w := by
  have hlt := (s.core (coreOf s.cur)).elem_lt (s.h.shapeOf r) e
  rwa [show (s.h.shapeOf r).w = w by rw [Hart.shapeOf, Def.shape_w, h.width]] at hlt

end Sys2Proof.Machine
end

section
/-! What the elements of each shape of vector instruction do on the state that the charge left (R127, R135 to R148). -/
namespace Sys2Proof.Machine

section
variable {s u : State} (hs : Idle s) (hu : ChargeOnly s u)
include hs hu

/-- An element of a name reads as it was before the charge. -/
theorem readElem_shapeOf (r : Reg) (i : Nat) : (u.core (coreOf s.cur)).readElem ((u.hart s.cur).shapeOf r) i = .ok (s.el r i) := by
  rw [readElem_charged hs hu, hu.shapeOf]
  rfl

section
variable {e : QEntry} {w : Nat} {d a b : Reg} {y x : BitVec 1} {k : KReg} {ns : List (Reg × Nat × Nat)} {g : Nat → FRes}

theorem opVV_run {f : Hart → Nat → Nat → FRes} (hg : ∀ i, f (u.hart s.cur) (s.el a i) (s.el b i) = g i) :
    (opVV w d a b y x k f).run u s.cur e s.h.estart.toNat s.h.vl.toNat = VecForm.done ⟨ns, d, k, fun i => some ⟨i, (g i).1, (g i).2⟩⟩ s u := by
  dsimp only [opVV]
  refine planeRun_each hu fun i => ?_
  rw [readElem_shapeOf hs hu, readElem_shapeOf hs hu]
  exact congrArg (fun r => Except.ok (piece i r)) (hg i)

theorem opVVd_run {f : Hart → Nat → Nat → Nat → FRes} (hg : ∀ i, f (u.hart s.cur) (s.el d i) (s.el a i) (s.el b i) = g i) :
    (opVVd w d a b y x k f).run u s.cur e s.h.estart.toNat s.h.vl.toNat = VecForm.done ⟨ns, d, k, fun i => some ⟨i, (g i).1, (g i).2⟩⟩ s u := by
  dsimp only [opVVd]
  refine planeRun_each hu fun i => ?_
  rw [readElem_shapeOf hs hu, readElem_shapeOf hs hu, readElem_shapeOf hs hu]
  exact congrArg (fun r => Except.ok (piece i r)) (hg i)

theorem opV1_run {wa : Nat} {f : Hart → Nat → FRes} (hg : ∀ i, f (u.hart s.cur) (s.el a i) = g i) :
    (opV1 w wa d a x k f).run u s.cur e s.h.estart.toNat s.h.vl.toNat = VecForm.done ⟨ns, d, k, fun i => some ⟨i, (g i).1, (g i).2⟩⟩ s u := by
  dsimp only [opV1]
  refine planeRun_each hu fun i => ?_
  rw [readElem_shapeOf hs hu]
  exact congrArg (fun r => Except.ok (piece i r)) (hg i)

section
variable (hvb : e.vb = s.h.getX b)
include hvb

theorem opVX_run {f : Hart → Nat → Nat → FRes} (hg : ∀ i, f (u.hart s.cur) (s.el a i) ((s.h.getX b).toNat % 2 ^ w) = g i) :
    (opVX w d a b x k f).run u s.cur e s.h.estart.toNat s.h.vl.toNat = VecForm.done ⟨ns, d, k, fun i => some ⟨i, (g i).1, (g i).2⟩⟩ s u := by
  dsimp only [opVX]
  refine planeRun_each hu fun i => ?_
  rw [readElem_shapeOf hs hu, hvb]
  exact congrArg (fun r => Except.ok (piece i r)) (hg i)

theorem opVXd_run {f : Hart → Nat → Nat → Nat → FRes} (hg : ∀ i, f (u.hart s.cur) (s.el d i) (s.el a i) ((s.h.getX b).toNat % 2 ^ w) = g i) :
    (opVXd w d a b x k f).run u s.cur e s.h.estart.toNat s.h.vl.toNat = VecForm.done ⟨ns, d, k, fun i => some ⟨i, (g i).1, (g i).2⟩⟩ s u := by
  dsimp only [opVXd]
  refine planeRun_each hu fun i => ?_
  rw [readElem_shapeOf hs hu, readElem_shapeOf hs hu, hvb]
  exact congrArg (fun r => Except.ok (piece i r)) (hg i)

end
end
end

/-! ### Instructions of a form -/

/-- What a form says of a name: its entry, its width, and the elements that it must hold. -/
def Name.key (n : Name) : Reg × Nat × Nat := (n.entry, n.w, n.need)

/-- `op` is what instruction `i` does at the queue, and its names and its elements are those of `v`, where the names are usable. -/
structure Performs (s : State) (i : Instr) (op : QOp) (v : VecForm) : Prop extends RunsElements s i op where
  names : (op.names s.h (newEntry i op s.h)).map Name.key = v.names
  run : (∀ x ∈ v.names, Usable s x.1 x.2.1 x.2.2) → ∀ {u}, ChargeOnly s u →
    op.run u s.cur (s.entryOf i op) s.h.estart.toNat s.h.vl.toNat = v.done s u

/-- It completes where its names are usable. -/
theorem Performs.completes {s : State} {i : Instr} {op : QOp} {v : VecForm} (h : Performs s i op v) (hs : Idle s)
    (husable : ∀ x ∈ v.names, Usable s x.1 x.2.1 x.2.2) : VecCompletes i s v := by
  have hu := chargeOnly_issues s i
  have hfctl : (s.issues i).h.fctl = s.h.fctl := hu.fctl
  have hcur : (s.issues i).hart s.cur = (s.issues i).h := by rw [State.h, hu.same.cur_eq]
  have hcompletes := h.toRunsElements.completesOn hs (fun n hn => husable _ (h.names ▸ List.mem_map_of_mem hn)) (h.run husable hu)
    ((State.UnitsAre.refl (s.issues i) s.cur (coreOf s.cur)).modCore _)
  rwa [hcur, hfctl] at hcompletes

end Sys2Proof.Machine
end

section
/-! The arithmetic vector instructions (R135, R140). -/
namespace Sys2Proof.Machine

section
variable {s u : State} (hu : ChargeOnly s u) (f : BitVec 5)
include hu

theorem addElem_charged (x y : Nat) : addElem f (u.hart s.cur) x y = opAdd (rmOfFctl s.h.fctl) f.toNat x y := by
  rw [addElem, hu.rm]
  exact arith2_eq ..

theorem subElem_charged (x y : Nat) : subElem f (u.hart s.cur) x y = opSub (rmOfFctl s.h.fctl) f.toNat x y := by
  rw [subElem, hu.rm]
  exact arith2_eq ..

theorem mulElem_charged (x y : Nat) : mulElem f (u.hart s.cur) x y = opMul (rmOfFctl s.h.fctl) f.toNat x y := by
  rw [mulElem, hu.rm]
  exact arith2_eq ..

theorem arithFma_charged (z x y : Nat) : arithFma (u.hart s.cur).rm f.toNat z x y = opFma (rmOfFctl s.h.fctl) f.toNat z x y := by
  rw [hu.rm]
  exact arithFma_eq ..

end

theorem usable_of_names3 {s : State} {d a b : Reg} {w n : Nat} (h : ∀ x ∈ [(d, w, n), (a, w, n), (b, w, n)], Usable s x.1 x.2.1 x.2.2) :
    Usable s d w n ∧ Usable s a w n ∧ Usable s b w n := by simpa using h

/-- Each arithmetic instruction is one of elements with its operation; its names are at positions 0, 1 and 2. -/
theorem vecArithmetic_performs {s : State} {i : Instr} {v : VecForm} (hs : Idle s) (hv : vecArithmetic s i = some v) :
    ∃ op, Performs s i op v ∧ (op.names s.h (newEntry i op s.h)).map Name.pos = List.range v.names.length := by
  cases i with
  | vaddVv d a b f y x k =>
    cases hv
    exact ⟨opVaddVv d a b f y x k, ⟨⟨rfl, rfl, rfl, rfl, rfl⟩, rfl, fun _ _ hu => opVV_run hs hu fun _ => addElem_charged hu ..⟩, rfl⟩
  | vaddVx d a b f x k =>
    cases hv
    exact ⟨opVaddVx d a b f x k, ⟨⟨rfl, rfl, rfl, rfl, rfl⟩, rfl, fun _ _ hu => opVX_run hs hu rfl fun _ => addElem_charged hu ..⟩, rfl⟩
  | vsubVv d a b f y x k =>
    cases hv
    exact ⟨opVsubVv d a b f y x k, ⟨⟨rfl, rfl, rfl, rfl, rfl⟩, rfl, fun _ _ hu => opVV_run hs hu fun _ => subElem_charged hu ..⟩, rfl⟩
  | vsubVx d a b f x k =>
    cases hv
    exact ⟨opVsubVx d a b f x k, ⟨⟨rfl, rfl, rfl, rfl, rfl⟩, rfl, fun _ _ hu => opVX_run hs hu rfl fun _ => subElem_charged hu ..⟩, rfl⟩
  | vmulVv d a b f y x k =>
    cases hv
    exact ⟨opVmulVv d a b f y x k, ⟨⟨rfl, rfl, rfl, rfl, rfl⟩, rfl, fun _ _ hu => opVV_run hs hu fun _ => mulElem_charged hu ..⟩, rfl⟩
  | vmulVx d a b f x k =>
    cases hv
    exact ⟨opVmulVx d a b f x k, ⟨⟨rfl, rfl, rfl, rfl, rfl⟩, rfl, fun _ _ hu => opVX_run hs hu rfl fun _ => mulElem_charged hu ..⟩, rfl⟩
  | vfmaVv d a b f y x k =>
    cases hv
    exact ⟨opVfmaVv d a b f y x k, ⟨⟨rfl, rfl, rfl, rfl, rfl⟩, rfl, fun _ _ hu => opVVd_run hs hu fun _ => arithFma_charged hu ..⟩, rfl⟩
  | vfmaVx d a b f x k =>
    cases hv
    exact ⟨opVfmaVx d a b f x k, ⟨⟨rfl, rfl, rfl, rfl, rfl⟩, rfl, fun _ _ hu => opVXd_run hs hu rfl fun _ => arithFma_charged hu ..⟩, rfl⟩
  | vmin d a b f y x k =>
    cases hv
    refine ⟨opVmin d a b f y x k, ⟨⟨rfl, rfl, rfl, rfl, rfl⟩, rfl, fun hn _ hu => ?_⟩, rfl⟩
    obtain ⟨-, ha, hb⟩ := usable_of_names3 hn
    exact opVV_run hs hu fun i => arithMinMax_false (ha.el_lt i) (hb.el_lt i)
  | vmax d a b f y x k =>
    cases hv
    exact ⟨opVmax d a b f y x k, ⟨⟨rfl, rfl, rfl, rfl, rfl⟩, rfl, fun _ _ hu => opVV_run hs hu fun _ => arithMinMax_true ..⟩, rfl⟩
  | vdiv d a b f y x k =>
    cases hv
    exact ⟨opVdiv d a b f y x k, ⟨⟨rfl, rfl, rfl, rfl, rfl⟩, rfl, fun _ _ hu => opVV_run hs hu fun _ => by rw [hu.rm]; rfl⟩, rfl⟩
  | vsqrt d a f x k =>
    cases hv
    exact ⟨opVsqrt d a f x k, ⟨⟨rfl, rfl, rfl, rfl, rfl⟩, rfl, fun _ _ hu => opV1_run hs hu fun _ => by rw [hu.rm]; rfl⟩, rfl⟩
  | vclamp d a b f y x k =>
    cases hv
    refine ⟨opVclamp d a b f y x k, ⟨⟨rfl, rfl, rfl, rfl, rfl⟩, rfl, fun hn _ hu => ?_⟩, rfl⟩
    obtain ⟨hd, ha, hb⟩ := usable_of_names3 hn
    exact opVVd_run hs hu fun i => arithMinMax_clamp (hd.el_lt i) (ha.el_lt i) (hb.el_lt i)
  | _ => cases hv

end Sys2Proof.Machine
end

section
/-! The traps of the names of an instruction of elements: PLANE_BOUNDS of the first that fails R46, or NAME_WIDTH of the first of another width
(R47, R126). -/
namespace Sys2Proof.Machine

/-- A name that fails R46 raises PLANE_BOUNDS with what fails. -/
theorem Name.bounds_eq (s : State) (n : Name) :
    n.bounds s.h = (s.nameFails n.entry n.need).map fun tval => ⟨10, BitVec.ofNat 64 tval, none⟩ := by
  cases hwf : (s.h.getDef n.entry).wf with
  | false => simp [Name.bounds, State.nameFails, hwf, emptyTrap_eq]
  | true =>
    simp only [Name.bounds, State.nameFails, hwf, Bool.not_true, Bool.false_eq_true, Bool.true_eq_false, if_false]
    cases ((s.h.getDef n.entry).shape s.h.base).firstOutside s.h.windowRows with
    | some e => rfl
    | none =>
      dsimp only
      split <;> rfl

section
variable {s : State} {l₁ l₂ : List Name} {n : Name}

theorem checkNames_bounds {tval : Nat} (hbefore : ∀ m ∈ l₁, s.nameFails m.entry m.need = none) (hn : s.nameFails n.entry n.need = some tval) :
    checkNames s.h (l₁ ++ n :: l₂) = some ⟨10, BitVec.ofNat 64 tval, none⟩ := by
  have hnone : l₁.findSome? (Name.bounds s.h) = none := List.findSome?_eq_none_iff.mpr fun m hm => by rw [Name.bounds_eq, hbefore m hm]; rfl
  rw [checkNames, List.findSome?_append, hnone, List.findSome?_cons, Name.bounds_eq, hn]
  rfl

theorem checkNames_width (hall : ∀ m ∈ l₁ ++ n :: l₂, s.nameFails m.entry m.need = none) (hbefore : ∀ m ∈ l₁, (s.h.getDef m.entry).width = m.w)
    (hn : (s.h.getDef n.entry).width ≠ n.w) : checkNames s.h (l₁ ++ n :: l₂) =
      some ⟨12, BitVec.ofNat 64 ((s.h.getDef n.entry).width * 65536 + n.w * 256 + n.pos * 32 + n.entry.toNat), none⟩ := by
  have hbounds : (l₁ ++ n :: l₂).findSome? (Name.bounds s.h) = none :=
    List.findSome?_eq_none_iff.mpr fun m hm => by rw [Name.bounds_eq, hall m hm]; rfl
  have hnone : l₁.findSome? (Name.widthCheck s.h) = none := List.findSome?_eq_none_iff.mpr fun m hm => if_pos (hbefore m hm)
  have hwidth : n.widthCheck s.h = some _ := if_neg hn
  rw [checkNames, hbounds, List.findSome?_append, hnone, List.findSome?_cons, hwidth]
  rfl

end

/-- A name of a form, as the instruction has it, among those before and after it. -/
theorem exists_name_of_keys {ns : List Name} {l l' : List (Reg × Nat × Nat)} {x : Reg × Nat × Nat} (h : ns.map Name.key = l ++ x :: l')
    (hpos : ns.map Name.pos = List.range ns.length) :
    ∃ l₁ n l₂, ns = l₁ ++ n :: l₂ ∧ l₁.map Name.key = l ∧ n.key = x ∧ n.pos = l.length := by
  obtain ⟨l₁, r, rfl, hl, hr⟩ := List.map_eq_append_iff.mp h
  obtain ⟨n, l₂, rfl, hn, -⟩ := List.map_eq_cons_iff.mp hr
  refine ⟨l₁, n, l₂, rfl, hl, hn, ?_⟩
  have hat := congrArg (·[l₁.length]?) hpos
  have hlen : l.length = l₁.length := by rw [← hl, List.length_map]
  simpa [hlen] using hat

/-- A name that fails its check traps at the commit, tied to the element at ESTART, and nothing is performed. -/
theorem RunsElements.trapsAt {s : State} {i : Instr} {op : QOp} (h : RunsElements s i op) (hs : Idle s) {code tval : Nat}
    (hcheck : checkNames s.h (op.names s.h (newEntry i op s.h)) = some ⟨code, BitVec.ofNat 64 tval, none⟩)
    (hcode : code ≠ causePreempt ∧ code ≠ causeYield) : TrapsAt i s code tval (some s.h.estart.toNat) := by
  have hearly : op.early s.h (newEntry i op s.h) = some ⟨code, BitVec.ofNat 64 tval, none⟩ := by
    rw [QOp.early, hcheck, h.pre, checkOwner_of_owns hs.owns, ite_self]
    rfl
  have hrun := completesOn_trap (t := ⟨code, BitVec.ofNat 64 tval, none⟩) hs.runs hs.queues h.commits
    (by rw [QOp.check, show op.early (s.hart s.cur) _ = _ from hearly]) hcode
  have htrap : op.trapAt s.h (op.trapOf (newEntry i op s.h) ⟨code, BitVec.ofNat 64 tval, none⟩) =
      ⟨code, BitVec.ofNat 64 tval, some s.h.estart.toNat⟩ := by
    rw [QOp.trapAt, if_pos h.vector]
    rfl
  rwa [htrap] at hrun

section
variable {s : State} {i : Instr} {op : QOp} {v : VecForm} (h : Performs s i op v)
  (hpos : (op.names s.h (newEntry i op s.h)).map Name.pos = List.range v.names.length)
  {l l' : List (Reg × Nat × Nat)} {x : Reg × Nat × Nat} (hnames : v.names = l ++ x :: l')
include h hpos hnames

/-- The names of the instruction up to the one that the form has at `x`. -/
theorem Performs.exists_name : ∃ l₁ n l₂, op.names s.h (newEntry i op s.h) = l₁ ++ n :: l₂ ∧ l₁.map Name.key = l ∧ n.key = x ∧ n.pos = l.length :=
  exists_name_of_keys (h.names.trans hnames) (by rw [hpos, ← h.names, List.length_map])

theorem Performs.planeBounds (hs : Idle s) {tval : Nat} (hbefore : ∀ y ∈ l, s.nameFails y.1 y.2.2 = none) (hx : s.nameFails x.1 x.2.2 = some tval) :
    TrapsAt i s 10 tval (some s.h.estart.toNat) := by
  obtain ⟨l₁, n, l₂, hsplit, rfl, rfl, -⟩ := h.exists_name hpos hnames
  refine h.toRunsElements.trapsAt hs ?_ (by decide)
  rw [hsplit]
  exact checkNames_bounds (fun m hm => hbefore m.key (List.mem_map_of_mem hm)) hx

theorem Performs.nameWidth (hs : Idle s) (hall : ∀ y ∈ v.names, s.nameFails y.1 y.2.2 = none) (hbefore : ∀ y ∈ l, (s.h.getDef y.1).width = y.2.1)
    (hx : (s.h.getDef x.1).width ≠ x.2.1) :
    TrapsAt i s 12 ((s.h.getDef x.1).width * 65536 + x.2.1 * 256 + l.length * 32 + x.1.toNat) (some s.h.estart.toNat) := by
  have hkeys := h.names
  obtain ⟨l₁, n, l₂, hsplit, rfl, rfl, hat⟩ := h.exists_name hpos hnames
  refine h.toRunsElements.trapsAt hs ?_ (by decide)
  rw [hsplit] at hkeys ⊢
  rw [← hat]
  exact checkNames_width (fun m hm => hall m.key (hkeys ▸ List.mem_map_of_mem hm)) (fun m hm => hbefore m.key (List.mem_map_of_mem hm)) hx

end

end Sys2Proof.Machine
end

section
open Sys2Proof Sys2Proof.Machine

/-- Settles O31: each arithmetic instruction is one of elements; its checks find the first name that fails, and its run gives the elements of its
form. -/
theorem vectorArithmetic : Obligations.VectorArithmetic := by
  intro s i v hs hv es
  obtain ⟨op, hop, hpos⟩ := vecArithmetic_performs hs hv
  exact ⟨hop.completes hs, fun _ _ _ _ hnames => hop.planeBounds hpos hnames hs, fun _ _ _ hnames => hop.nameWidth hpos hnames hs⟩

end

section
/-! The vector instructions on bit patterns (R134, R137 to R139, R145, R147, R148). -/
namespace Sys2Proof.Machine

theorem wrapN_eq (n : Nat) (k : Int) : wrapN n k = (k % 2 ^ n).toNat := by simp [wrapN]

/-- The value of a pattern of its width. -/
theorem sxi_of_lt {n u : Nat} (h : u < 2 ^ n) : sxi n u = if u < 2 ^ (n - 1) then (u : Int) else u - 2 ^ n := by
  simp [sxi, Nat.mod_eq_of_lt h]

/-- The amount of a shift or a slide (R138, R147). -/
def State.amount (s : State) (sh : BitVec 1) (b : Reg) : Nat := if sh = 1 then b.toNat else (s.h.getX b).toNat

section
variable {s u : State} (hs : Idle s) (hu : ChargeOnly s u) {e : QEntry} {w : BitVec 2} {d a b : Reg} {sh x y : BitVec 1} {k : KReg}
  {ns : List (Reg × Nat × Nat)}
include hu

/-- Active elements below an element, as a name's order of them (R145). -/
theorem activeBelow_charged (i : Nat) :
    (u.hart s.cur).activeBelow k i = ((List.range i).filter fun j => k == 0 || (s.h.getK k).getLsbD j).length := by
  rw [hu.activeBelow]
  rfl

include hs

theorem opVsel_run : (opVsel d a b w y x k).run u s.cur e s.h.estart.toNat s.h.vl.toNat =
    VecForm.done ⟨ns, d, 0, fun i => some ⟨i, if (s.h.getK k).getLsbD i then s.el a i else s.el b i, 0⟩⟩ s u := by
  dsimp only [opVsel]
  refine planeRun_each hu (g := fun i => (if (s.h.getK k).getLsbD i then s.el a i else s.el b i, 0)) fun i => ?_
  rw [readElem_shapeOf hs hu, hu.getK, apply_ite (s.el · i)]
  rfl

theorem opVcompress_run : (opVcompress d a w x k).run u s.cur e s.h.estart.toNat s.h.vl.toNat =
    VecForm.done ⟨ns, d, k, fun i => some ⟨((List.range i).filter fun j => k == 0 || (s.h.getK k).getLsbD j).length, s.el a i, 0⟩⟩ s u := by
  dsimp only [opVcompress]
  refine planeRun_eq_done hu (v := ⟨ns, d, k, _⟩) fun i => ?_
  rw [readElem_shapeOf hs hu, activeBelow_charged hu]
  rfl

theorem opVexpand_run : (opVexpand d a w x k).run u s.cur e s.h.estart.toNat s.h.vl.toNat =
    VecForm.done ⟨ns, d, k, fun i => some ⟨i, s.el a ((List.range i).filter fun j => k == 0 || (s.h.getK k).getLsbD j).length, 0⟩⟩ s u := by
  dsimp only [opVexpand]
  refine planeRun_eq_done hu (v := ⟨ns, d, k, _⟩) fun i => ?_
  rw [activeBelow_charged hu, readElem_shapeOf hs hu]
  rfl

section
variable (hvb : e.vb = s.h.getX b)
include hvb

omit hs hu in
theorem amount_eq : amount sh b e = s.amount sh b := by rw [amount, hvb, State.amount]

theorem opShift_run {f : Nat → Nat → Nat → Nat} {g : Nat → Nat} (hg : ∀ i, f (widthOf w) (s.el a i) (s.amount sh b % widthOf w) = g i) :
    (opShift w d a b sh x k f).run u s.cur e s.h.estart.toNat s.h.vl.toNat = VecForm.done ⟨ns, d, k, fun i => some ⟨i, g i, 0⟩⟩ s u := by
  dsimp only [opShift]
  refine planeRun_each hu (g := fun i => (g i, 0)) fun i => ?_
  rw [readElem_shapeOf hs hu, amount_eq hvb, ← hg]
  rfl

theorem opVslideup_run : (opVslideup d a b sh w x k).run u s.cur e s.h.estart.toNat s.h.vl.toNat =
    VecForm.done ⟨ns, d, k, fun i => if s.amount sh b ≤ i then some ⟨i, s.el a (i - s.amount sh b), 0⟩ else none⟩ s u := by
  dsimp only [opVslideup]
  refine planeRun_eq_done hu (v := ⟨ns, d, k, _⟩) fun i => ?_
  rw [amount_eq hvb]
  dsimp only
  split
  · rw [readElem_shapeOf hs hu]
    rfl
  · rfl

theorem opVslidedn_run (hvl : e.vl = s.h.vl.toNat) : (opVslidedn d a b sh w x k).run u s.cur e s.h.estart.toNat s.h.vl.toNat =
    VecForm.done ⟨ns, d, k, fun i =>
      if i + s.amount sh b < s.h.vl.toNat then some ⟨i, s.el a (i + s.amount sh b), 0⟩ else some ⟨i, 0, 0⟩⟩ s u := by
  dsimp only [opVslidedn]
  refine planeRun_eq_done hu (v := ⟨ns, d, k, _⟩) fun i => ?_
  rw [amount_eq hvb, hvl]
  dsimp only
  split
  · rw [readElem_shapeOf hs hu]
    rfl
  · rfl

omit hs in
theorem opVbcast_run : (opVbcast d b w).run u s.cur e s.h.estart.toNat s.h.vl.toNat =
    VecForm.done ⟨ns, d, 0, fun i => some ⟨i, (s.h.getX b).toNat % 2 ^ widthOf w, 0⟩⟩ s u := by
  dsimp only [opVbcast]
  rw [hvb]
  exact planeRun_each hu (g := fun _ => ((s.h.getX b).toNat % 2 ^ widthOf w, 0)) fun _ => rfl

end

omit hs in
theorem opVidx_run {st : BitVec 10} {t : Reg} {f : BitVec 5} : (opVidx d st t f).run u s.cur e s.h.estart.toNat s.h.vl.toNat =
    VecForm.done ⟨ns, d, 0, fun i => some ⟨i, ((st.toInt + i * t.toInt) % 2 ^ fmtWidth f.toNat).toNat, 0⟩⟩ s u := by
  dsimp only [opVidx]
  refine planeRun_each hu (g := fun i => (((st.toInt + i * t.toInt) % 2 ^ fmtWidth f.toNat).toNat, 0)) fun i => ?_
  rw [wrapN_eq]

end

/-- The arithmetic shift of a pattern of its width. -/
theorem wrapN_sxi_div {n u : Nat} (h : u < 2 ^ n) (m : Nat) :
    wrapN n (sxi n u / 2 ^ m) = ((if u < 2 ^ (n - 1) then (u : Int) else u - 2 ^ n) / 2 ^ m % 2 ^ n).toNat := by
  rw [wrapN_eq, sxi_of_lt h]

/-- Each instruction on bit patterns is one of elements with its rule. -/
theorem vecPatterns_performs {s : State} {i : Instr} {v : VecForm} (hs : Idle s) (hv : vecPatterns s i = some v) : ∃ op, Performs s i op v := by
  cases i with
  | vand d a b w y x k =>
    cases hv
    exact ⟨opVand d a b w y x k, ⟨rfl, rfl, rfl, rfl, rfl⟩, rfl, fun _ _ hu => opVV_run (g := fun _ => (_, 0)) hs hu fun _ => rfl⟩
  | vor d a b w y x k =>
    cases hv
    exact ⟨opVor d a b w y x k, ⟨rfl, rfl, rfl, rfl, rfl⟩, rfl, fun _ _ hu => opVV_run (g := fun _ => (_, 0)) hs hu fun _ => rfl⟩
  | vxor d a b w y x k =>
    cases hv
    exact ⟨opVxor d a b w y x k, ⟨rfl, rfl, rfl, rfl, rfl⟩, rfl, fun _ _ hu => opVV_run (g := fun _ => (_, 0)) hs hu fun _ => rfl⟩
  | vandn d a b w y x k =>
    cases hv
    exact ⟨opVandn d a b w y x k, ⟨rfl, rfl, rfl, rfl, rfl⟩, rfl, fun _ _ hu => opVV_run (g := fun _ => (_, 0)) hs hu fun _ => rfl⟩
  | vorn d a b w y x k =>
    cases hv
    exact ⟨opVorn d a b w y x k, ⟨rfl, rfl, rfl, rfl, rfl⟩, rfl, fun _ _ hu => opVV_run (g := fun _ => (_, 0)) hs hu fun _ => rfl⟩
  | vsll d a b sh w x k =>
    cases hv
    exact ⟨opVsll d a b sh w x k, ⟨rfl, rfl, rfl, rfl, rfl⟩, rfl, fun _ _ hu => opShift_run hs hu rfl fun _ => rfl⟩
  | vsrl d a b sh w x k =>
    cases hv
    exact ⟨opVsrl d a b sh w x k, ⟨rfl, rfl, rfl, rfl, rfl⟩, rfl, fun _ _ hu => opShift_run hs hu rfl fun _ => rfl⟩
  | vsra d a b sh w x k =>
    cases hv
    refine ⟨opVsra d a b sh w x k, ⟨rfl, rfl, rfl, rfl, rfl⟩, rfl, fun hn _ hu => ?_⟩
    have ha := hn _ (.tail _ (.head _))
    exact opShift_run hs hu rfl fun i => wrapN_sxi_div (ha.el_lt i) _
  | vsel d a b w y x k =>
    cases hv
    exact ⟨opVsel d a b w y x k, ⟨rfl, rfl, rfl, rfl, rfl⟩, rfl, fun _ _ hu => opVsel_run hs hu⟩
  | vmv d a w x k =>
    cases hv
    exact ⟨opVmv d a w x k, ⟨rfl, rfl, rfl, rfl, rfl⟩, rfl, fun _ _ hu => opV1_run (g := fun _ => (_, 0)) hs hu fun _ => rfl⟩
  | vbcast d b w =>
    cases hv
    exact ⟨opVbcast d b w, ⟨rfl, rfl, rfl, rfl, rfl⟩, rfl, fun _ _ hu => opVbcast_run hu rfl⟩
  | vidx d st t f =>
    cases hv
    exact ⟨opVidx d st t f, ⟨rfl, rfl, rfl, rfl, rfl⟩, rfl, fun _ _ hu => opVidx_run hu⟩
  | vslideup d a b sh w x k =>
    cases hv
    exact ⟨opVslideup d a b sh w x k, ⟨rfl, rfl, rfl, rfl, rfl⟩, rfl, fun _ _ hu => opVslideup_run hs hu rfl⟩
  | vslidedn d a b sh w x k =>
    cases hv
    exact ⟨opVslidedn d a b sh w x k, ⟨rfl, rfl, rfl, rfl, rfl⟩, rfl, fun _ _ hu => opVslidedn_run hs hu rfl rfl⟩
  | vcompress d a w x k =>
    cases hv
    exact ⟨opVcompress d a w x k, ⟨rfl, rfl, rfl, rfl, rfl⟩, rfl, fun _ _ hu => opVcompress_run hs hu⟩
  | vexpand d a w x k =>
    cases hv
    exact ⟨opVexpand d a w x k, ⟨rfl, rfl, rfl, rfl, rfl⟩, rfl, fun _ _ hu => opVexpand_run hs hu⟩
  | _ => cases hv

end Sys2Proof.Machine
end

section
open Sys2Proof Sys2Proof.Machine

/-- Settles O32: each instruction on bit patterns is one of elements whose run gives the pattern of its rule. -/
theorem vectorPatterns : Obligations.VectorPatterns := by
  intro s i v hs hv husable
  obtain ⟨op, hop⟩ := vecPatterns_performs hs hv
  exact hop.completes hs husable

end

section
/-! The vector conversions (R141, R143). -/
namespace Sys2Proof.Machine

theorem blkLen_eq (vtype : Word) : blkLen vtype = if vtype.toNat / 128 % 4 = 0 then 0 else 8 * 2 ^ (vtype.toNat / 128 % 4) := by
  unfold blkLen
  split
  next h => exact (if_pos h).symm
  next h => exact (if_neg h).symm

/-- A VTYPE that gives a block length passes the check of the scaled conversions. -/
theorem blkCheck_eq_none {e : QEntry} (h : e.vtype.toNat / 128 % 4 ≠ 0) : blkCheck e = none := by
  rw [blkCheck, blkLen_eq, if_neg h]
  exact if_neg (by positivity)

/-- A widened scaled value (R72). -/
theorem widenScaled_eq (m : RMode) (dst src sc q : Nat) : widenScaled m dst src sc q =
    if sc = 255 then ((ffmtOf dst).nan, 0) else fconvert m (ffmtOf dst) (timesPow (fdecode (ffmtOf src) q) ((sc : Int) - 127)) := by
  rw [widenScaled, FVal.scale_eq]

section
variable {s u : State} (hs : Idle s) (hu : ChargeOnly s u)
include hs hu

theorem opVcvtsw_run {e : QEntry} {d a b : Reg} {f : BitVec 5} {y x : BitVec 1} {k : KReg} {ns : List (Reg × Nat × Nat)} {B : Nat}
    {g : Nat → FRes} (hB : blkLen e.vtype = B)
    (hg : ∀ i, widenScaled (rmOfFctl s.h.fctl) (wideCode f) (narrowCode f) (s.el b (i / B)) (s.el a i) = g i) :
    (opVcvtsw d a b f y x k).run u s.cur e s.h.estart.toNat s.h.vl.toNat = VecForm.done ⟨ns, d, k, fun i => some ⟨i, (g i).1, (g i).2⟩⟩ s u := by
  have hpieces (r : List Piece × Option (Nat × Nat)) (hr : r.2 = none) : wholeBlocks B e.startsAt r = r := by rw [wholeBlocks, hr]
  dsimp only [opVcvtsw]
  rw [hB, collect_eq (g := fun i => piece i (g i)) fun i => ?elem, hpieces _ rfl]
  case elem =>
    rw [readElem_shapeOf hs hu, readElem_shapeOf hs hu, hu.rm, ← hg]
    rfl
  rw [elemRange_filter_active hu, hu.shapeOf]
  rfl

end

/-- Each conversion is one of elements with its rounding. -/
theorem vecConversions_performs {s : State} {i : Instr} {v : VecForm} (hs : Idle s) (hv : vecConversions s i = some v) : ∃ op, Performs s i op v := by
  cases i with
  | vcvt d a f x k src =>
    cases hv
    exact ⟨opVcvt d a f x k src, ⟨rfl, rfl, rfl, rfl, rfl⟩, rfl, fun _ _ hu => opV1_run hs hu fun _ => by rw [hu.rm]; exact arithCvt_eq ..⟩
  | vcvtsw d a b f y x k =>
    by_cases hc : s.h.vtype.toNat / 128 % 4 = 0
    case pos => exact absurd ((if_pos hc).symm.trans hv) nofun
    case neg =>
      have hB : blkLen s.h.vtype = 8 * 2 ^ (s.h.vtype.toNat / 128 % 4) := by rw [blkLen_eq, if_neg hc]
      obtain rfl := Option.some.inj ((if_neg hc).symm.trans hv)
      refine ⟨opVcvtsw d a b f y x k, ⟨rfl, rfl, rfl, rfl, blkCheck_eq_none hc⟩, ?_, fun _ _ hu => opVcvtsw_run hs hu hB fun _ => widenScaled_eq ..⟩
      rw [← hB]
      rfl
  | _ => cases hv

end Sys2Proof.Machine
end

section
open Sys2Proof Sys2Proof.Machine

/-- Settles O33: each conversion is one of elements, and VCVTSW meets no uncorrectable cell that would cut its blocks. -/
theorem vectorConversions : Obligations.VectorConversions := by
  intro s i v hs hv husable
  obtain ⟨op, hop⟩ := vecConversions_performs hs hv
  exact hop.completes hs husable

end

section
/-! The vector instructions into a mask register (R136, R146, R150). -/
namespace Sys2Proof.Machine

/-- A bit of a mask written: it has its value, and every other stands. -/
theorem getLsbD_setBit {e : Nat} (he : e < 8192) (m : BitVec 8192) (j : Nat) (b : Bool) :
    (setBit m j b).getLsbD e = if e = j then b else m.getLsbD e := by
  have hone : ((1 : BitVec 8192) <<< j).getLsbD e = decide (e = j) := by
    rw [BitVec.getLsbD_shiftLeft, show (1 : BitVec 8192) = 1#8192 from rfl, BitVec.getLsbD_one, Bool.eq_iff_iff]
    simp [he]
    omega
  cases b with
  | true =>
    rw [setBit, if_pos rfl, BitVec.getLsbD_or, hone]
    by_cases h : e = j <;> simp [h]
  | false =>
    rw [setBit, if_neg Bool.false_ne_true, BitVec.getLsbD_and, BitVec.getLsbD_not, hone]
    by_cases h : e = j <;> simp [h, he]

/-- Bits written one after another: each that is written has its value, and every other stands. -/
theorem getLsbD_setMaskBits {b : Nat → Bool} {fl : Nat → Flags} {e : Nat} (he : e < 8192) (l : List Nat) (m : BitVec 8192) :
    (setMaskBits m (l.map fun i => ⟨i, if b i then 1 else 0, fl i⟩)).getLsbD e = if e ∈ l then b e else m.getLsbD e := by
  induction l generalizing m with
  | nil => rfl
  | cons j l ih =>
    have hstep (t : List Piece) : setMaskBits m (⟨j, if b j then 1 else 0, fl j⟩ :: t) = setMaskBits (setBit m j (b j)) t := by
      cases b j <;> rfl
    rw [List.map_cons, hstep, ih, getLsbD_setBit he]
    by_cases hej : e = j <;> simp [hej]

/-- `op` is what instruction `i` does at the queue, and its names and its elements are those of `v`. -/
structure PerformsMask (s : State) (i : Instr) (op : QOp) (v : MaskForm) : Prop extends RunsElements s i op where
  names : (op.names s.h (newEntry i op s.h)).map Name.key = v.names
  run : ∀ {u}, ChargeOnly s u → op.run u s.cur (s.entryOf i op) s.h.estart.toNat s.h.vl.toNat = v.done s u

/-- It completes where its names are usable. -/
theorem PerformsMask.completes {s : State} {i : Instr} {op : QOp} {v : MaskForm} (h : PerformsMask s i op v) (hs : Idle s)
    (husable : ∀ x ∈ v.names, Usable s x.1 x.2.1 x.2.2) : MaskCompletes i s v := by
  have hu := chargeOnly_issues s i
  have hfctl : (s.issues i).h.fctl = s.h.fctl := hu.fctl
  have hcur : (s.issues i).hart s.cur = (s.issues i).h := by rw [State.h, hu.same.cur_eq]
  have hmask : (s.issues i).h.getK v.dest = s.h.getK v.dest := by rw [← hcur, hu.getK]; rfl
  have hcompletes := h.toRunsElements.completesOn hs (fun n hn => husable _ (h.names ▸ List.mem_map_of_mem hn)) (h.run hu)
    ((State.UnitsAre.refl (s.issues i) s.cur (coreOf s.cur)).modHart _)
  have hflags : piecesFlags (v.pieces s) = (s.performs v.mask).foldl (fun f e => f ||| v.flags e) 0 := List.foldl_map
  refine ⟨setMaskBits (s.h.getK v.dest) (v.pieces s), ?_, fun e he => getLsbD_setMaskBits he _ _⟩
  rw [hcur, hmask] at hcompletes
  rw [← hflags, ← hfctl]
  exact hcompletes

section
variable {s u : State} (hs : Idle s) (hu : ChargeOnly s u) {e : QEntry} {ns : List (Reg × Nat × Nat)} {d : KReg} {k : KReg} {a b : Reg} {f : BitVec 5}
  {y x : BitVec 1} {cond : Nat}
include hu

/-- A mask operation bit by bit. -/
theorem opMask_run {src : List KReg} {f : Hart → Nat → Bool} {g : Nat → Bool} (hg : ∀ i, f (u.hart s.cur) i = g i) :
    (opMask d src f).run u s.cur e s.h.estart.toNat s.h.vl.toNat = MaskForm.done ⟨ns, d, 0, g, fun _ => 0⟩ s u := by
  dsimp only [opMask]
  refine maskRun_eq_done hu (v := ⟨ns, d, 0, g, fun _ => 0⟩) fun i => ?_
  rw [hg]
  rfl

include hs

theorem cmpVV_run : (cmpVV cond d a b f y x k).run u s.cur e s.h.estart.toNat s.h.vl.toNat =
    MaskForm.done ⟨ns, d, k, fun i => holds cond f.toNat (s.el a i) (s.el b i), fun i => holdsFlags cond f.toNat (s.el a i) (s.el b i)⟩ s u := by
  dsimp only [cmpVV]
  refine maskRun_eq_done hu (v := ⟨ns, d, k, _, _⟩) fun i => ?_
  rw [readElem_shapeOf hs hu, readElem_shapeOf hs hu]
  exact congrArg (fun r => Except.ok (piece i (truthRes r))) (arithCmp_eq ..)

theorem cmpVX_run (hvb : e.vb = s.h.getX b) : (cmpVX cond d a b f x k).run u s.cur e s.h.estart.toNat s.h.vl.toNat =
    MaskForm.done ⟨ns, d, k, fun i => holds cond f.toNat (s.el a i) ((s.h.getX b).toNat % 2 ^ fmtWidth f.toNat),
      fun i => holdsFlags cond f.toNat (s.el a i) ((s.h.getX b).toNat % 2 ^ fmtWidth f.toNat)⟩ s u := by
  dsimp only [cmpVX]
  rw [hvb]
  refine maskRun_eq_done hu (v := ⟨ns, d, k, _, _⟩) fun i => ?_
  rw [readElem_shapeOf hs hu]
  exact congrArg (fun r => Except.ok (piece i (truthRes r))) (arithCmp_eq ..)

/-- An element conflicts where one that is active below it has its value (R146). -/
theorem opVconfl_run : (opVconfl d a f x k).run u s.cur e s.h.estart.toNat s.h.vl.toNat =
    MaskForm.done ⟨ns, d, k, fun i => (List.range i).all fun j => !(k == 0 || (s.h.getK k).getLsbD j) || s.el a j != s.el a i, fun _ => 0⟩ s u := by
  dsimp only [opVconfl]
  refine maskRun_eq_done hu (v := ⟨ns, d, k, _, _⟩) fun i => ?_
  have hbit : (((List.range i).filter ((u.hart s.cur).active k)).map (s.el a)).contains (s.el a i) =
      !(List.range i).all fun j => !(k == 0 || (s.h.getK k).getLsbD j) || s.el a j != s.el a i := by
    have hactive (j : Nat) : (u.hart s.cur).active k j = (k == 0 || (s.h.getK k).getLsbD j) := hu.active ..
    rw [Bool.eq_iff_iff]
    simp [hactive, and_assoc, or_iff_not_imp_left]
  have hread : ((List.range i).filter ((u.hart s.cur).active k)).mapM (fun j => (.ok (s.el a j) : Except Nat Nat)) = .ok _ := List.mapM_pure
  simp only [readElem_shapeOf hs hu, hread]
  change Except.ok (piece i (if List.contains _ _ = true then 0 else 1, 0)) = _
  rw [hbit]
  have hval (q : Bool) : piece i (if (!q) = true then 0 else 1, 0) = some ⟨i, if q then 1 else 0, 0⟩ := by cases q <;> rfl
  exact congrArg Except.ok (hval _)

end

theorem maskForm_performs {s : State} {i : Instr} {v : MaskForm} (hs : Idle s) (hv : maskForm s i = some v) : ∃ op, PerformsMask s i op v := by
  cases i with
  | vcmpeqVv d a b f y x k =>
    cases hv
    exact ⟨opVcmpeqVv d a b f y x k, ⟨rfl, rfl, rfl, rfl, rfl⟩, rfl, fun hu => cmpVV_run hs hu⟩
  | vcmpneVv d a b f y x k =>
    cases hv
    exact ⟨opVcmpneVv d a b f y x k, ⟨rfl, rfl, rfl, rfl, rfl⟩, rfl, fun hu => cmpVV_run hs hu⟩
  | vcmpltVv d a b f y x k =>
    cases hv
    exact ⟨opVcmpltVv d a b f y x k, ⟨rfl, rfl, rfl, rfl, rfl⟩, rfl, fun hu => cmpVV_run hs hu⟩
  | vcmpleVv d a b f y x k =>
    cases hv
    exact ⟨opVcmpleVv d a b f y x k, ⟨rfl, rfl, rfl, rfl, rfl⟩, rfl, fun hu => cmpVV_run hs hu⟩
  | vcmpeqVx d a b f x k =>
    cases hv
    exact ⟨opVcmpeqVx d a b f x k, ⟨rfl, rfl, rfl, rfl, rfl⟩, rfl, fun hu => cmpVX_run hs hu rfl⟩
  | vcmpneVx d a b f x k =>
    cases hv
    exact ⟨opVcmpneVx d a b f x k, ⟨rfl, rfl, rfl, rfl, rfl⟩, rfl, fun hu => cmpVX_run hs hu rfl⟩
  | vcmpltVx d a b f x k =>
    cases hv
    exact ⟨opVcmpltVx d a b f x k, ⟨rfl, rfl, rfl, rfl, rfl⟩, rfl, fun hu => cmpVX_run hs hu rfl⟩
  | vcmpleVx d a b f x k =>
    cases hv
    exact ⟨opVcmpleVx d a b f x k, ⟨rfl, rfl, rfl, rfl, rfl⟩, rfl, fun hu => cmpVX_run hs hu rfl⟩
  | vconfl d a f x k =>
    cases hv
    exact ⟨opVconfl d a f x k, ⟨rfl, rfl, rfl, rfl, rfl⟩, rfl, fun hu => opVconfl_run hs hu⟩
  | kand d a b =>
    cases hv
    exact ⟨opKand d a b, ⟨rfl, rfl, rfl, rfl, rfl⟩, rfl, fun hu => opMask_run hu fun _ => by rw [hu.getK, hu.getK]; rfl⟩
  | kor d a b =>
    cases hv
    exact ⟨opKor d a b, ⟨rfl, rfl, rfl, rfl, rfl⟩, rfl, fun hu => opMask_run hu fun _ => by rw [hu.getK, hu.getK]; rfl⟩
  | kxor d a b =>
    cases hv
    exact ⟨opKxor d a b, ⟨rfl, rfl, rfl, rfl, rfl⟩, rfl, fun hu => opMask_run hu fun _ => by rw [hu.getK, hu.getK]; rfl⟩
  | kandn d a b =>
    cases hv
    exact ⟨opKandn d a b, ⟨rfl, rfl, rfl, rfl, rfl⟩, rfl, fun hu => opMask_run hu fun _ => by rw [hu.getK, hu.getK]; rfl⟩
  | knot d a =>
    cases hv
    exact ⟨opKnot d a, ⟨rfl, rfl, rfl, rfl, rfl⟩, rfl, fun hu => opMask_run hu fun _ => by rw [hu.getK]; rfl⟩
  | _ => cases hv

end Sys2Proof.Machine
end

section
open Sys2Proof Sys2Proof.Machine

/-- Settles O34: each instruction into a mask register is one of elements whose bits are written one after another. -/
theorem vectorMasks : Obligations.VectorMasks := by
  intro s i v hs hv husable
  obtain ⟨op, hop⟩ := maskForm_performs hs hv
  exact hop.completes hs husable

end

section
/-! The vector instructions that write or read an x register (R149, R150). -/
namespace Sys2Proof.Machine

section
variable {s : State} {i : Instr} {op : QOp} (h : RunsElements s i op) (hs : Idle s)
  (hnames : ∀ n ∈ op.names s.h (newEntry i op s.h), Usable s n.entry n.w n.need)
include h hs hnames

/-- One that raises no flag and writes an x register alone. -/
theorem RunsElements.writesX {d : Reg} {v : Word} (hrun : ∀ {u}, ChargeOnly s u →
    op.run u s.cur (s.entryOf i op) s.h.estart.toNat s.h.vl.toNat = { state := u.modHart s.cur fun a => a.setX d v }) :
    CompletesOn i s (s.issues i) (Hart.advance { (s.issues i).h.setX d v with estart := 0 }) ((s.issues i).core (coreOf s.cur)) := by
  have hu := chargeOnly_issues s i
  have hcompletes := h.completesOn hs hnames (hrun hu) ((State.UnitsAre.refl (s.issues i) s.cur (coreOf s.cur)).modHart _)
  rw [fctlSet_zero] at hcompletes
  rw [State.h, hu.same.cur_eq]
  exact hcompletes

/-- One that raises no flag and changes its core alone. -/
theorem RunsElements.writesCore (g : Core → Core) (hrun : ∀ {u}, ChargeOnly s u →
    ∃ v : State, op.run u s.cur (s.entryOf i op) s.h.estart.toNat s.h.vl.toNat = { state := v } ∧
      v.UnitsAre u s.cur (coreOf s.cur) (u.hart s.cur) (g (u.core (coreOf s.cur)))) :
    CompletesOn i s (s.issues i) (Hart.advance { (s.issues i).h with estart := 0 }) (g ((s.issues i).core (coreOf s.cur))) := by
  have hu := chargeOnly_issues s i
  obtain ⟨v, hv, hunits⟩ := hrun hu
  have hcompletes := h.completesOn hs hnames hv hunits
  rw [fctlSet_zero] at hcompletes
  rw [State.h, hu.same.cur_eq]
  exact hcompletes

end

/-- A core after element x[b] of a name was written with the bits of x[a]; nothing beyond the name is (R149). -/
def State.putElem (s : State) (d a b : Reg) (w : BitVec 2) (c : Core) : Core :=
  if (s.h.getX b).toNat < (s.h.shapeOf d).count then
    c.setElem (s.h.shapeOf d) (s.h.getX b).toNat ((s.h.getX a).toNat % 2 ^ (8 * 2 ^ w.toNat))
  else c

section
variable {s u : State} (hu : ChargeOnly s u) {e : QEntry} {d a b : Reg} {k : KReg} {w : BitVec 2} {lo hi : Nat}
include hu

section
variable (hvl : e.vl = s.h.vl.toNat)
include hvl

theorem opKpop_run : (opKpop d k).run u s.cur e lo hi =
    { state := u.modHart s.cur fun t => t.setX d (BitVec.ofNat 64 ((List.range s.h.vl.toNat).filter fun i => (s.h.getK k).getLsbD i).length) } := by
  simp only [opKpop, State.modHart, hu.getK, hvl]
  rfl

theorem opKfirst_run : (opKfirst d k).run u s.cur e lo hi =
    { state := u.modHart s.cur fun t =>
        t.setX d (BitVec.ofNat 64 (((List.range s.h.vl.toNat).filter fun i => (s.h.getK k).getLsbD i).headD s.h.vl.toNat)) } := by
  simp only [opKfirst, State.modHart, hu.getK, hvl, List.headD_eq_head?_getD, List.head?_filter]
  rfl

end

section
variable (hs : Idle s) (hvb : e.vb = s.h.getX b)
include hs hvb

theorem opVgetx_run : (opVgetx d a b w).run u s.cur e lo hi =
    { state := u.modHart s.cur fun t =>
        t.setX d (BitVec.ofNat 64 (if (s.h.getX b).toNat < (s.h.shapeOf a).count then s.el a (s.h.getX b).toNat else 0)) } := by
  have hshape : (u.hart s.cur).shapeOf a = s.h.shapeOf a := hu.shapeOf ..
  have hread (i : Nat) : (u.core (coreOf s.cur)).readElem (s.h.shapeOf a) i = .ok (s.el a i) := hshape ▸ readElem_shapeOf hs hu a i
  simp only [opVgetx, hvb, hshape, hread]
  split <;> rfl

omit hs in
theorem opVputx_run (hva : e.va = s.h.getX a) : ∃ v : State, (opVputx d a b w).run u s.cur e lo hi = { state := v } ∧
    v.UnitsAre u s.cur (coreOf s.cur) (u.hart s.cur) (s.putElem d a b w (u.core (coreOf s.cur))) := by
  have hshape : (u.hart s.cur).shapeOf d = s.h.shapeOf d := hu.shapeOf ..
  have hunits := State.UnitsAre.refl u s.cur (coreOf s.cur)
  simp only [opVputx, hvb, hva, hshape, State.putElem]
  split
  · exact ⟨_, rfl, hunits.modCore _⟩
  · exact ⟨_, rfl, hunits⟩

end
end

end Sys2Proof.Machine
end

section
open Sys2Proof Sys2Proof.Machine

/-- Settles O35: each runs whole and writes its x register, or the one element. -/
theorem vectorToScalar : Obligations.VectorToScalar := by
  intro s d a b k w hs
  dsimp only
  have hpop : RunsElements s (.kpop d k) (opKpop d k) := ⟨rfl, rfl, rfl, rfl, rfl⟩
  have hfirst : RunsElements s (.kfirst d k) (opKfirst d k) := ⟨rfl, rfl, rfl, rfl, rfl⟩
  have hget : RunsElements s (.vgetx d a b w) (opVgetx d a b w) := ⟨rfl, rfl, rfl, rfl, rfl⟩
  have hput : RunsElements s (.vputx d a b w) (opVputx d a b w) := ⟨rfl, rfl, rfl, rfl, rfl⟩
  refine ⟨?pop, ?first, fun ha => ?get, fun hd => ?put⟩
  case pop => exact hpop.writesX hs nofun fun hu => opKpop_run hu rfl
  case first => exact hfirst.writesX hs nofun fun hu => opKfirst_run hu rfl
  case get => exact hget.writesX hs (by simpa [opVgetx, widthOf] using ha) fun hu => opVgetx_run hu hs rfl
  case put =>
    have hnames : ∀ n ∈ (opVputx d a b w).names s.h (newEntry (.vputx d a b w) (opVputx d a b w) s.h), Usable s n.entry n.w n.need := by
      simpa [opVputx, widthOf] using hd
    exact hput.writesCore hs hnames (s.putElem d a b w) fun hu => opVputx_run hu rfl rfl

end

section
/-! The scaled narrowings, block by block (R70, R71, R142). -/
namespace Sys2Proof.Machine

theorem filter_lt_range (m n : Nat) : (List.range n).filter (fun e => decide (e < m)) = List.range (Nat.min m n) := by
  induction n with
  | zero => simp
  | succ n ih =>
    rw [List.range_succ, List.filter_append, ih]
    by_cases h : n < m
    · simp [h, Nat.min_eq_right h.le, List.range_succ]
    · have hle := Nat.le_of_not_lt h
      simp [h, Nat.min_eq_left hle, Nat.min_eq_left (hle.trans n.le_succ)]

theorem flatMap_filter {α β : Type} (p : α → Bool) (f : α → List β) (l : List α) :
    (l.filter p).flatMap f = l.flatMap fun x => if p x then f x else [] := by
  induction l with
  | nil => rfl
  | cons x l ih => cases hp : p x <;> simp [hp, ih]

/-- The elements of a block below VL. -/
theorem elemRange_block {B : Nat} (hB : 0 < B) (b n : Nat) :
    elemRange (b * B) (Nat.min (b * B + B) n) = (List.range n).filter fun e => decide (e / B = b) := by
  rw [elemRange_eq_filter, ← filter_lt_range, List.filter_filter]
  refine List.filter_congr fun e _ => ?_
  rw [← Bool.decide_and, decide_eq_decide, Nat.div_eq_iff hB]
  omega

/-- An element of a block scaled and converted; without a scale it is 0 (R70). -/
def scaledPiece (dst : Nat) (x : Option Int) (v : FVal) (e : Nat) : Piece :=
  match x with
  | none => ⟨e, 0, 0⟩
  | some x => ⟨e, (fconvert .rne (ffmtOf dst) (timesPow v (-x))).1, (fconvert .rne (ffmtOf dst) (timesPow v (-x))).2⟩

/-- The scale of a block of a name, its exponent and its flags (R70). -/
def State.scaleOf (s : State) (va : Reg) (k : KReg) (src dst B b : Nat) : Nat × Option Int × Flags :=
  blockScale dst ((s.blockElems k B b).map fun e => fdecode (ffmtOf src) (s.el va e))

/-- The writes of elements into a name, where there is one. -/
def elemWrites (vd : Option Reg) (l : List Piece) : List (Reg × Piece) :=
  match vd with
  | none => []
  | some d => l.map fun p => (d, p)

/-- What a scaled narrowing writes for a block with an active element: its scale, then its elements where it has a name for them. -/
def State.blockWrites (s : State) (vd : Option Reg) (vs va : Reg) (k : KReg) (src dst B b : Nat) : List (Reg × Piece) :=
  let sc := s.scaleOf va k src dst B b
  if s.blockElems k B b = [] then []
  else (vs, ⟨b, sc.1, sc.2.2⟩) :: elemWrites vd ((s.blockElems k B b).map fun e => scaledPiece dst sc.2.1 (fdecode (ffmtOf src) (s.el va e)) e)

/-- The blocks of a scaled narrowing: from ESTART's on, none where ESTART is not below VL. -/
def State.blocks (s : State) (B : Nat) : List Nat :=
  if s.h.vl.toNat ≤ s.h.estart.toNat then [] else elemRange (s.h.estart.toNat / B) ((s.h.vl.toNat + B - 1) / B)

theorem narrowWrites_eq (s : State) (vd : Option Reg) (vs va : Reg) (k : KReg) (src dst B : Nat) :
    narrowWrites s vd vs va k src dst B = (s.blocks B).flatMap (s.blockWrites vd vs va k src dst B) := by
  unfold State.blocks
  by_cases hnone : s.h.vl.toNat ≤ s.h.estart.toNat
  case pos => simp [narrowWrites, hnone]
  case neg =>
    rw [if_neg hnone, elemRange_eq_filter, flatMap_filter]
    refine List.flatMap_congr fun b _ => ?_
    by_cases hb : b < s.h.estart.toNat / B
    case pos => simp [hb, Nat.not_le.mpr hb]
    case neg =>
      rw [decide_eq_true (Nat.le_of_not_lt hb), if_pos rfl]
      by_cases hl : s.blockElems k B b = []
      case pos => simp [hl, State.blockWrites]
      case neg =>
        simp only [hb, hl, hnone, or_self, if_false, State.blockWrites, State.scaleOf]
        cases vd with
        | none => rfl
        | some d =>
          refine congrArg (List.cons _) (Eq.trans (List.map_congr_left fun e _ => ?_) List.map_map.symm)
          cases (blockScale dst ((s.blockElems k B b).map fun e => fdecode (ffmtOf src) (s.el va e))).2.1 <;> rfl

/-! ### The writes and their flags -/

def orFlags (l : List Flags) : Flags := l.foldl (· ||| ·) 0

theorem orFlags_append (l l' : List Flags) : orFlags (l ++ l') = orFlags l ||| orFlags l' := by
  have h := List.foldl_assoc (op := fun (a b : Flags) => a ||| b) (l := l') (a₁ := orFlags l) (a₂ := 0)
  rwa [show orFlags l ||| 0 = orFlags l from BitVec.or_zero, orFlags, ← List.foldl_append] at h

theorem orFlags_cons (f : Flags) (l : List Flags) : orFlags (f :: l) = f ||| orFlags l := by
  have h := orFlags_append [f] l
  rwa [show orFlags [f] = f from BitVec.zero_or, List.singleton_append] at h

theorem piecesFlags_eq (l : List Piece) : piecesFlags l = orFlags (l.map (·.flags)) := List.foldl_map.symm

/-- The flags of writes to names. -/
def writesFlags (l : List (Reg × Piece)) : Flags := l.foldl (fun f p => f ||| p.2.flags) 0

theorem writesFlags_eq (l : List (Reg × Piece)) : writesFlags l = orFlags (l.map (·.2.flags)) := List.foldl_map.symm

/-- A core after a write to a name. -/
def State.put (s : State) (c : Core) (p : Reg × Piece) : Core := c.setElem (s.h.shapeOf p.1) p.2.idx p.2.val

/-- A core after a write of a block, marked where it is of the scale. -/
def State.putMarked (s : State) (vd : Option Reg) (vs : Reg) (c : Core) (q : Bool × Piece) : Core :=
  c.putPieces (s.h.shapeOf (if q.1 then vs else vd.getD vs)) [q.2]

/-- The marked writes of blocks, with their flags, are those of a list of writes to names. -/
structure NarrowsAs (s : State) (vd : Option Reg) (vs : Reg) (r : List (Bool × Piece) × Flags) (l : List (Reg × Piece)) : Prop where
  core : ∀ c, r.1.foldl (s.putMarked vd vs) c = l.foldl s.put c
  flags : r.2 = writesFlags l

section
variable {s : State} {vd : Option Reg} {vs : Reg}

theorem NarrowsAs.nil : NarrowsAs s vd vs ([], 0) [] := ⟨fun _ => rfl, rfl⟩

theorem NarrowsAs.append {r r' : List (Bool × Piece) × Flags} {l l' : List (Reg × Piece)} (h : NarrowsAs s vd vs r l)
    (h' : NarrowsAs s vd vs r' l') : NarrowsAs s vd vs (r.1 ++ r'.1, r.2 ||| r'.2) (l ++ l') :=
  ⟨fun c => by rw [List.foldl_append, List.foldl_append, h.core, h'.core],
    by rw [h.flags, h'.flags, writesFlags_eq, writesFlags_eq, writesFlags_eq, List.map_append, orFlags_append]⟩

/-- A block's scale, and its elements where there is a name for them. -/
theorem NarrowsAs.block (b S : Nat) (fl : Flags) (els : List Piece) :
    NarrowsAs s vd vs ((true, ⟨b, S, 0⟩) :: (if vd.isSome then els else []).map (false, ·), fl ||| piecesFlags (if vd.isSome then els else []))
      ((vs, ⟨b, S, fl⟩) :: elemWrites vd els) := by
  refine ⟨fun c => ?core, ?flags⟩
  case core => cases vd with
    | none => rfl
    | some d =>
      simp only [List.foldl_cons, Option.isSome_some, if_true, elemWrites, List.foldl_map]
      rfl
  case flags =>
    rw [writesFlags_eq, List.map_cons, orFlags_cons, piecesFlags_eq]
    cases vd with
    | none => rfl
    | some d => simp only [Option.isSome_some, if_true, elemWrites, List.map_map]; rfl

/-- Blocks none of which meets an uncorrectable cell are all performed. -/
theorem narrowBlocks_eq {f : Nat → Except Nat (List (Bool × Piece) × Flags)} {g : Nat → List (Reg × Piece)}
    (hf : ∀ b, ∃ r, f b = .ok r ∧ NarrowsAs s vd vs r (g b)) (l : List Nat) :
    ∃ r, narrowBlocks f l = (r.1, r.2, none) ∧ NarrowsAs s vd vs r (l.flatMap g) := by
  induction l with
  | nil => exact ⟨([], 0), rfl, .nil⟩
  | cons b l ih =>
    obtain ⟨r, hr, hrg⟩ := hf b
    obtain ⟨q, hq, hqg⟩ := ih
    exact ⟨_, by rw [narrowBlocks, hr, hq], hrg.append hqg⟩

end

section
variable {s u : State} (hs : Idle s) (hu : ChargeOnly s u) {vd : Option Reg} {vs va : Reg} {f : BitVec 5} {k : KReg} {B : Nat}
include hs hu

theorem narrowBlock_narrowsAs (hB : 0 < B) (b : Nat) :
    ∃ r, narrowBlock (u.core (coreOf s.cur)) (u.hart s.cur) va k f s.h.vl.toNat B b vd.isSome = .ok r ∧
      NarrowsAs s vd vs r (s.blockWrites vd vs va k (wideCode f) (narrowCode f) B b) := by
  have hids : (elemRange (b * B) (Nat.min (b * B + B) s.h.vl.toNat)).filter ((u.hart s.cur).active k) = s.blockElems k B b := by
    rw [elemRange_block hB, List.filter_filter]
    refine List.filter_congr fun e _ => ?_
    rw [hu.active, Bool.and_comm]
    rfl
  have hvals : (s.blockElems k B b).mapM (fun i => (.ok (fdecode (ffmtOf (wideCode f)) (s.el va i)) : Except Nat FVal)) = .ok _ :=
    List.mapM_pure
  have hread (i : Nat) : ((u.core (coreOf s.cur)).readElem ((u.hart s.cur).shapeOf va) i >>= fun v => return fdecode (ffmtOf (wideCode f)) v) =
      .ok (fdecode (ffmtOf (wideCode f)) (s.el va i)) := by
    rw [readElem_shapeOf hs hu]
    rfl
  unfold narrowBlock
  simp only [hids, hread, hvals]
  unfold State.blockWrites
  by_cases hl : s.blockElems k B b = []
  case pos =>
    rw [if_pos hl, hl]
    exact ⟨([], 0), rfl, .nil⟩
  case neg =>
    have hsome : ¬(s.blockElems k B b).isEmpty = true := by simpa using hl
    rw [if_neg hl]
    simp only [bind, Except.bind, if_neg hsome]
    refine ⟨_, rfl, ?_⟩
    rw [State.scaleOf]
    generalize blockScale _ _ = sc
    obtain ⟨S, x, fl⟩ := sc
    have hels : ∀ F : Nat × FVal → Piece, (∀ e v, F (e, v) = scaledPiece (narrowCode f) x v e) →
        ((s.blockElems k B b).zip ((s.blockElems k B b).map fun i => fdecode (ffmtOf (wideCode f)) (s.el va i))).map F =
          (s.blockElems k B b).map fun e => scaledPiece (narrowCode f) x (fdecode (ffmtOf (wideCode f)) (s.el va e)) e := fun F hF => by
      simp only [List.map_zip_eq_zipWith, List.zipWith_map_right, List.zipWith_self, Function.curry, hF]
    rw [← hels]
    · exact .block b S fl _
    · intro e v
      cases x with
      | none => rfl
      | some x =>
        simp only [FVal.scale_eq]
        rfl

/-- The run of a scaled narrowing: the writes of its blocks in order. -/
theorem narrowRun_eq {e : QEntry} (hBlen : blkLen e.vtype = B) (hB : 0 < B) (hvl : e.vl = s.h.vl.toNat) :
    ∃ v : State, narrowRun vd vs va f k u s.cur e s.h.estart.toNat s.h.vl.toNat =
        { state := v, flags := writesFlags (narrowWrites s vd vs va k (wideCode f) (narrowCode f) B) } ∧
      v.UnitsAre u s.cur (coreOf s.cur) (u.hart s.cur)
        ((narrowWrites s vd vs va k (wideCode f) (narrowCode f) B).foldl s.put (u.core (coreOf s.cur))) := by
  obtain ⟨r, hr, hcore, hflags⟩ :=
    narrowBlocks_eq (narrowBlock_narrowsAs hs hu (vd := vd) (vs := vs) (va := va) (f := f) (k := k) hB) (s.blocks B)
  rw [← narrowWrites_eq] at hcore hflags
  refine ⟨u.modCore (coreOf s.cur) fun c => r.1.foldl (s.putMarked vd vs) c, ?_, ?_⟩
  · have hshape (q : Reg) : (u.hart s.cur).shapeOf q = s.h.shapeOf q := hu.shapeOf ..
    have hblocks : (if s.h.vl.toNat ≤ s.h.estart.toNat then [] else
        elemRange (s.h.estart.toNat / B) ((s.h.vl.toNat + B - 1) / B)) = s.blocks B := rfl
    simp only [narrowRun, hBlen, hvl, hblocks, hr, hshape, hflags]
    rfl
  · have hunits := (State.UnitsAre.refl u s.cur (coreOf s.cur)).modCore fun c => r.1.foldl (s.putMarked vd vs) c
    rwa [hcore] at hunits

end

/-- A scaled narrowing whose names are usable performs the writes of its blocks. -/
theorem RunsElements.narrows {s : State} {i : Instr} {op : QOp} (h : RunsElements s i op) (hs : Idle s) {vd : Option Reg} {vs va : Reg}
    {f : BitVec 5} {k : KReg} {B : Nat} (hnames : ∀ n ∈ op.names s.h (newEntry i op s.h), Usable s n.entry n.w n.need)
    (hop : op.run = narrowRun vd vs va f k) (hBlen : blkLen s.h.vtype = B) (hB : 0 < B) :
    CompletesOn i s (s.issues i)
      (Hart.advance { (s.issues i).h with
        estart := 0
        fctl := fctlSet s.h.fctl (writesFlags (narrowWrites s vd vs va k (wideCode f) (narrowCode f) B)) })
      ((narrowWrites s vd vs va k (wideCode f) (narrowCode f) B).foldl s.put ((s.issues i).core (coreOf s.cur))) := by
  have hu := chargeOnly_issues s i
  have hlen : (s.entryOf i op).vl = s.h.vl.toNat := rfl
  have hvtype : blkLen (s.entryOf i op).vtype = B := hBlen
  obtain ⟨v, hv, hunits⟩ := narrowRun_eq hs hu hvtype hB hlen
  have hcompletes := h.completesOn hs hnames (by rw [hop]; exact hv) hunits
  rw [← hu.fctl, State.h, hu.same.cur_eq]
  exact hcompletes

end Sys2Proof.Machine
end

section
open Sys2Proof Sys2Proof.Machine

/-- Settles O38: block by block, a scaled narrowing writes the scale and the elements of R70. -/
theorem vectorNarrowing : Obligations.VectorNarrowing := by
  intro s d a b f x k _ hs
  dsimp only
  intro hc ha
  have hBlen : blkLen s.h.vtype = 8 * 2 ^ (s.h.vtype.toNat / 128 % 4) := by rw [blkLen_eq, if_neg hc]
  have hB : 0 < 8 * 2 ^ (s.h.vtype.toNat / 128 % 4) := by positivity
  refine ⟨fun hd hb => ?narrow, fun hd => ?scale⟩
  case narrow =>
    have h : RunsElements s (.vcvtsn d a b f x k) (opVcvtsn d a b f x k) := ⟨rfl, rfl, rfl, rfl, blkCheck_eq_none hc⟩
    rw [← hBlen] at hb
    have hnames : ∀ n ∈ (opVcvtsn d a b f x k).names s.h (newEntry (.vcvtsn d a b f x k) (opVcvtsn d a b f x k) s.h),
        Usable s n.entry n.w n.need := List.forall_mem_cons.mpr ⟨hd, List.forall_mem_cons.mpr ⟨ha, List.forall_mem_singleton.mpr hb⟩⟩
    exact h.narrows hs hnames rfl hBlen hB
  case scale =>
    have h : RunsElements s (.vscale d a f x k) (opVscale d a f x k) := ⟨rfl, rfl, rfl, rfl, blkCheck_eq_none hc⟩
    rw [← hBlen] at hd
    have hnames : ∀ n ∈ (opVscale d a f x k).names s.h (newEntry (.vscale d a f x k) (opVscale d a f x k) s.h),
        Usable s n.entry n.w n.need := List.forall_mem_cons.mpr ⟨hd, List.forall_mem_singleton.mpr ha⟩
    exact h.narrows hs hnames rfl hBlen hB

end

section
/-! A barrier record next to the frame-key table (R417): the counterexample to the clause of O55 on the last arrival. -/
namespace Sys2Proof.Machine

/-- Hart 0 at kernel privilege, with translation on. -/
def arrivingHart : Hart := { Hart.reset 0 with run := .running, hstat := 0, satp := BitVec.ofNat 64 (10 * 2 ^ 60) }

/-- Virtual page 0 is the first page of the first local store, mapped for reads and writes of kernels. -/
def recordPage : TlbEntry := ⟨0, 0, BitVec.ofNat 64 (Config.apertureBase / 4096 * 2 ^ 10 + 0xD7), 0⟩

/-- A barrier record at the start of the local store, which expects one arrival. The frame-key table begins at its GEN: the barrier's next generation
moves the first frame of device memory from key slot 0, which is open, to slot 1, which is closed. The first byte of that frame is `b`. -/
def tabled (b : Bool) : State :=
  { (State.reset.setHart 0 arrivingHart).modCore 0 fun k => { k with tlb := [recordPage] } with
    frameKeys := BitVec.ofNat 64 (Config.apertureBase + 4)
    mem := [(0, if b then 1 else 0), (Config.apertureBase, 1)]
    tags := [(0, tagRaw)]
    keys := [(0, ⟨true, 0⟩)] }

/-- What the last arrival at the barrier leaves. -/
def arrived (b : Bool) : State :=
  match exec (.bar 0 0 0 0) (tabled b) with
  | .next t => t
  | _ => tabled b

theorem tabled_core : ∀ b, coreOf (tabled b).cur = 0 := by decide +kernel

theorem tabled_idle : ∀ b, ((tabled b).core 0).stores = [] ∧ ((tabled b).core 0).monitors = [] := by decide +kernel

theorem tabled_prompt (b : Bool) : Prompt (tabled b) := ⟨rfl, by rw [tabled_core]; exact (tabled_idle b).1⟩

theorem tabled_mayWait (b : Bool) : MayWait (tabled b) where
  prompt := tabled_prompt b
  queue := rfl
  wait := rfl
  begun := rfl
  monitors := by rw [tabled_core]; exact (tabled_idle b).2

theorem tabled_unwatched (b : Bool) : (tabled b).unwatched := fun _ he => nomatch he

theorem tabled_translates : ∀ b, (tabled b).translate ((tabled b).xctx 0) 0 .store = (.ok Config.apertureBase, none) ∧
    (tabled b).walks ((tabled b).xctx 0) 0 .store = false := by decide +kernel

theorem tabled_record : ∀ b, ∀ i, i < 8 → (tabled b).fold (Config.apertureBase + i) = Config.apertureBase + i ∧
    (tabled b).place (Config.apertureBase + i) = .local_ 0 i ∧ (tabled b).badHeld 0 (Config.apertureBase + i) = none := by decide +kernel

theorem tabled_expects : ∀ b, (tabled b).storeRefused Config.apertureBase 8 = false ∧
    (tabled b).seenNat (Config.apertureBase + 2) 2 + 1 = (tabled b).seenNat Config.apertureBase 2 := by decide +kernel

/-- Before the arrival core 0 sees the byte. -/
theorem tabled_seen : ∀ b, (tabled b).seen 0 0 = if b then 1 else 0 := by decide +kernel

theorem arrived_home : ∀ b, (arrived b).hdm = 0 ∧ (arrived b).place 0 = .device 0 ∧ FMap.find? ((arrived b).core 0).l2 0 = none ∧
    (arrived b).tag 0 = tagRaw ∧ (arrived b).frameSlot 0 = 1 ∧ (arrived b).keySlot 1 = ⟨false, 0⟩ := by decide +kernel

/-- After it core 0 sees a byte of which nothing is known, whatever it was before. -/
theorem arrived_seen (b : Bool) : (arrived b).seen 0 0 = Config.staleByte 0 1 0 := by
  obtain ⟨hhdm, hplace, hl2, htag, hslot, hkey⟩ := arrived_home b
  simp [State.seen, State.fold, State.l2Byte, State.homeByte, hhdm, hplace, hl2, htag, hslot, hkey, Place.cached, tagRaw]

/-- The store of the barrier reaches its record. -/
theorem tabled_reaches (b : Bool) : Reaches (tabled b) 0 .store 8 Config.apertureBase (tabled b) := by
  obtain ⟨htranslate, hwalks⟩ := tabled_translates b
  have hplace := (tabled_record b 0 (by decide)).2.1
  refine ⟨tabled_prompt b, .inr (.inl (by decide)), congrArg Prod.fst htranslate, ?left, fun i hi => ?folded, .inr ⟨0, 0, hplace⟩, by decide, ?filled,
    fun i hi => by rw [tabled_core]; exact (tabled_record b i hi).2.2⟩
  case left =>
    change _ = ((tabled b).walkAcquire ((tabled b).xctx 0) 0 .store).keep 0 ((tabled b).translate ((tabled b).xctx 0) 0 .store).2
    rw [htranslate, State.walkAcquire, hwalks]
    rfl
  case folded =>
    obtain ⟨hfold, hat, -⟩ := tabled_record b i hi
    exact ⟨hfold, by rw [hat, show (tabled b).place Config.apertureBase = _ from hplace]; rfl⟩
  case filled => rw [State.fillRefused, show (tabled b).place Config.apertureBase = _ from hplace]

end Sys2Proof.Machine
end

section
open Sys2Proof Sys2Proof.Machine

/-- Refutes O55. Its clause on the last arrival at a barrier has every byte outside the record stand. Where the frame-key table lies in the record's
local store, the new GEN names another key slot for a frame of device memory, and the core sees there, in place of the byte it saw, one of which
nothing is known (R417). No hypothesis of the clause keeps the table away from the record, or the frames it names out of sight. -/
theorem not_waits : ¬ Obligations.Waits := by
  intro h
  have hbyte (b : Bool) : Config.staleByte 0 1 0 = if b then 1 else 0 := by
    obtain ⟨hexpects, hlast⟩ := tabled_expects b
    obtain ⟨hbar, -⟩ := h.2 (tabled b) 0 0 0 0 Config.apertureBase (tabled_mayWait b)
    obtain ⟨t, hexec, -, hseen, -⟩ := hbar (by decide) (tabled_unwatched b) rfl (tabled_reaches b)
      (.inr ⟨0, 0, (tabled_record b 0 (by decide)).2.1⟩) ⟨hexpects, fun _ he => nomatch he⟩ hlast
    have ht : arrived b = t := by rw [arrived, hexec]
    have hkept := hseen 0
    rw [tabled_core] at hkept
    rw [← arrived_seen b, ht, ← tabled_seen b]
    exact hkept
  exact absurd ((hbyte true).symm.trans (hbyte false)) (by decide)

end

section
/-! A matrix instruction that nothing keeps from running whole at its commit, and its rows (R161 to R167, R315). -/
namespace Sys2Proof.Machine

/-- The instruction with what is usual of a matrix instruction: it issues on its names and the matrix engine alone, is no access of memory, and does
nothing after its rows but set the flags and ESTART and redefine names. -/
def QOp.matrixUsual (op : QOp) : QOp :=
  { op with
    kind := .matrix
    elems := true
    owner := true
    pre := fun _ _ => none
    ready := fun _ _ _ => true
    trace := fun _ _ _ => none
    closing := fun s _ _ => (s, none)
    finish := fun s _ _ => s
    atEnd := fun a => a }

/-- `op` is what instruction `i` does at the queue, and it is one of the matrix engine. -/
structure RunsRows (s : State) (i : Instr) (op : QOp) : Prop where
  commits : exec i s = commitQueued i op s
  entry : entryOp i = some op
  usual : op.matrixUsual = op

/-- With no entry in the queues of its core the matrix engine is free. -/
theorem engineFree_of_queues_nil {s : State} {c : Nat} (h : ∀ g, coreOf g = c → (s.hart g).queue = []) : s.engineFree c = true := by
  have hcore : ∀ g ∈ hartsOf c, coreOf g = c := by simp [hartsOf, coreOf]; omega
  exact List.all_eq_true.mpr fun g hg => by rw [h g (hcore g hg)]; rfl

namespace RunsRows
variable {s : State} {i : Instr} {op : QOp} (h : RunsRows s i op) (hs : MatrixIdle s)
  (hnames : ∀ n ∈ op.names s.h (newEntry i op s.h), Usable s n.entry n.w n.need)
include h

theorem vector : op.vector = true := by
  rw [← h.usual]
  rfl

theorem startsAt : (s.entryOf i op).startsAt = s.h.estart.toNat := by
  change (if op.vector then s.h.es else 0) = _
  rw [h.vector]
  rfl

include hs hnames

/-- Its checks come to those of its own, once its names are usable. -/
theorem check_eq : op.check s s.cur (newEntry i op s.h) = op.post s s.cur (newEntry i op s.h) := by
  have hearly : op.early s.h (newEntry i op s.h) = none := by
    rw [QOp.early, checkNames_of_usable hnames, checkOwner_of_owns hs.owns, ite_self, ← h.usual]
    rfl
  unfold QOp.check
  rw [show op.early (s.hart s.cur) _ = none from hearly]

/-- A check of its own that fails traps at the commit, tied to the row at ESTART, and nothing is performed. -/
theorem trapsAt {code tval : Nat} (hpost : op.post s s.cur (newEntry i op s.h) = (s, some ⟨code, BitVec.ofNat 64 tval, none⟩))
    (hcode : code ≠ causePreempt ∧ code ≠ causeYield) : TrapsAt i s code tval (some s.h.estart.toNat) := by
  have hrun := completesOn_trap (t := ⟨code, BitVec.ofNat 64 tval, none⟩) hs.runs hs.queues h.commits ((h.check_eq hs hnames).trans hpost) hcode
  have htrap : op.trapAt s.h (op.trapOf (newEntry i op s.h) ⟨code, BitVec.ofNat 64 tval, none⟩) =
      ⟨code, BitVec.ofNat 64 tval, some s.h.estart.toNat⟩ := by
    rw [QOp.trapAt, if_pos h.vector]
    rfl
  rwa [htrap] at hrun

/-- It completes where its checks pass: its rows, performed on the state that its start left, give its core and the flags. -/
theorem completesOn (hpost : op.post s s.cur (newEntry i op s.h) = (s, none)) {v : State} {f : Flags} {k : Core}
    (hrun : op.run (op.start (s.issues i) s.cur (s.entryOf i op)) s.cur (s.entryOf i op) s.h.estart.toNat (s.entryOf i op).len =
      { state := v, flags := f })
    (hv : v.CoreIs (s.issues i) (coreOf s.cur) k) :
    CompletesOn i s (s.issues i)
      (Hart.advance (op.redefine (s.entryOf i op) { (s.issues i).h with estart := 0, fctl := fctlSet s.h.fctl f })) (k.dropUses [s.entryOf i op]) := by
  have hgo : s.issueTest s.cur op (newEntry i op s.h) = .go [] [] := by
    rw [← h.usual]
    simp [State.issueTest, Core.issueTest_of_pend_nil hs.pending, State.unitsFree, hs.pending, QOp.matrixUsual, engineFree_of_queues_nil hs.queues]
  have hcommit := h.commits.trans
    (commitQueued_of_go hs.runs hs.queues h.entry ((h.check_eq hs hnames).trans hpost) hgo (by rw [← h.usual]; rfl))
  have hu := chargeOnly_issues s i
  have hucur : (s.issues i).cur = s.cur := hu.same.cur_eq
  have hfctl : (s.issues i).h.fctl = s.h.fctl := hu.fctl
  generalize s.issues i = u at *
  have hkind : op.kind ≠ .engine := by rw [← h.usual]; nofun
  have hwhole : op.whole u (s.entryOf i op) =
      ((v.dropUses s.cur [s.entryOf i op]).modH fun a => op.redefine (s.entryOf i op) (op.completed f a)).modH Hart.advance := by
    have hclosing : op.closing v s.cur (s.entryOf i op) = (v, none) := by rw [← h.usual]; rfl
    have hfinish : ∀ t, op.finish t s.cur (s.entryOf i op) = t := by rw [← h.usual]; exact fun _ => rfl
    have hatEnd : op.atEnd = fun a => a := by rw [← h.usual]; rfl
    have hcur : v.cur = s.cur := hv.same.cur_eq.trans hucur
    have hsampled : (s.entryOf i op).sampled = none := rfl
    simp only [QOp.whole, QOp.begin_, if_neg hkind, hucur, h.startsAt, hrun, hclosing, QOp.retire, State.emitSample, hsampled, hfinish, hatEnd, hcur]
  have hcompleted : op.completed f u.h = { u.h with estart := 0, fctl := fctlSet s.h.fctl f } := by
    simp [QOp.completed, h.vector, hfctl]
  have hunits : v.UnitsAre u u.cur (coreOf s.cur) (u.hart u.cur) k := ⟨hv.hart _, fun g _ => hv.hart g, hv.core, hv.others, hv.same⟩
  have hdone := ((hunits.modCore fun c => c.dropUses [s.entryOf i op]).modH
    fun a => op.redefine (s.entryOf i op) (op.completed f a)).modH Hart.advance
  rw [show u.hart u.cur = u.h from rfl, hcompleted, hucur] at hdone
  exact hdone.completesOn (hcommit.trans (congrArg _ hwhole))

/-- The same of one that uses no tile and redefines no name. -/
theorem completesOn_of_no_tile (hpost : op.post s s.cur (newEntry i op s.h) = (s, none)) (huse : (s.entryOf i op).tileUse = none)
    (hstart : ∀ u h e, op.start u h e = u) (hredefine : ∀ e a, op.redefine e a = a) {v : State} {f : Flags} {k : Core}
    (hrun : op.run (s.issues i) s.cur (s.entryOf i op) s.h.estart.toNat (s.entryOf i op).len = { state := v, flags := f })
    (hv : v.CoreIs (s.issues i) (coreOf s.cur) k) :
    CompletesOn i s (s.issues i) (Hart.advance { (s.issues i).h with estart := 0, fctl := fctlSet s.h.fctl f }) k := by
  have hdone := h.completesOn hs hnames hpost (by rwa [hstart]) hv
  rwa [hredefine, Core.dropUses_of_tileUse_none huse] at hdone

end RunsRows

/-! ### Rows -/

theorem eachE_ok {α β : Type} {f : α → Except Trap β} {g : α → β} {l : List α} (hf : ∀ a ∈ l, f a = .ok (g a)) : eachE f l = .ok (l.map g) := by
  induction l with
  | nil => rfl
  | cons a l ih =>
    rw [eachE, hf a (by simp)]
    simp only [ih fun b hb => hf b (by simp [hb])]
    rfl

theorem Core.matrixElem_of_sound {c : Core} (hc : c.badPlane = []) (p : Shape) (e : Nat) : c.matrixElem p e = .ok (c.elem p e) := by
  rw [Core.matrixElem, Core.readElem_of_sound hc]

theorem elemRange_succ {lo hi : Nat} (h : lo ≤ hi) : elemRange lo (hi + 1) = elemRange lo hi ++ [hi] := by
  rw [elemRange, Nat.succ_sub h, List.range_succ, List.map_append]
  exact congrArg (elemRange lo hi ++ [·]) (Nat.add_sub_cancel' h)

/-- The flags of rows lo to hi - 1. -/
def rowFlags (fl : Nat → Flags) (lo hi : Nat) : Flags := (elemRange lo hi).foldl (fun f m => f ||| fl m) 0

theorem rowFlags_zero (lo hi : Nat) : rowFlags (fun _ => 0) lo hi = 0 := by
  simp [rowFlags]

section
variable {row : State → Nat → Except Trap (State × Flags)} {u : State} {c lo hi : Nat} {P : Nat → Core → Prop} {fl : Nat → Flags}
  (hrow : ∀ {v : State} {m : Nat} {k : Core}, lo ≤ m → m < hi → v.CoreIs u c k → P m k →
    ∃ w k', row v m = .ok (w, fl m) ∧ w.CoreIs u c k' ∧ P (m + 1) k')
include hrow

/-- Rows none of which meets an uncorrectable cell: what each keeps of its core holds after the last. -/
theorem matrixRows_of_rows {n m : Nat} {v : State} {k : Core} (hlo : lo ≤ m) (hn : m + n = hi) (hv : v.CoreIs u c k) (hk : P m k) :
    ∃ w k', matrixRows row n v m (rowFlags fl lo m) = { state := w, flags := rowFlags fl lo hi } ∧ w.CoreIs u c k' ∧ P hi k' := by
  induction n generalizing m v k with
  | zero =>
    obtain rfl : m = hi := hn
    exact ⟨v, k, rfl, hv, hk⟩
  | succ n ih =>
    obtain ⟨w, k', hw, hwk, hk'⟩ := hrow hlo (by omega) hv hk
    have hflags : rowFlags fl lo m ||| fl m = rowFlags fl lo (m + 1) := by
      rw [rowFlags, rowFlags, elemRange_succ hlo, List.foldl_append]
      rfl
    rw [matrixRows, hw]
    simp only [hflags]
    exact ih (by omega) (by omega) hwk hk'

/-- The same of the rows of an instruction, none where it begins past its last. -/
theorem runRows_of_rows (h : Nat) (hlo : P lo (u.core c)) :
    ∃ w k, runRows row u h lo hi = { state := w, flags := rowFlags fl lo hi } ∧ w.CoreIs u c k ∧ P (max lo hi) k := by
  rcases Nat.le_total lo hi with hle | hle
  · obtain ⟨w, k, hrun, hw, hk⟩ := matrixRows_of_rows hrow (le_refl lo) (Nat.add_sub_cancel' hle) (.refl u c) hlo
    have hzero : rowFlags fl lo lo = 0 := by simp [rowFlags, elemRange]
    rw [hzero] at hrun
    exact ⟨w, k, by simp only [runRows, hrun], hw, by rwa [max_eq_right hle]⟩
  · refine ⟨u, u.core c, ?_, .refl u c, by rwa [max_eq_left hle]⟩
    simp [runRows, rowFlags, elemRange, Nat.sub_eq_zero_of_le hle, matrixRows]

end

theorem foldl_or_eq {α : Type} (fl : α → Flags) (l : List α) (f : Flags) : l.foldl (fun f x => f ||| fl x) f = f ||| l.foldl (fun f x => f ||| fl x) 0 := by
  induction l generalizing f with
  | nil => simp
  | cons x l ih =>
    rw [List.foldl_cons, ih, List.foldl_cons, ih (0 ||| fl x)]
    simp [BitVec.or_assoc]

/-- The flags of a block are those of its rows. -/
theorem blockFlags_eq_rowFlags (s : State) (R C : Nat) (fl : Nat → Nat → Flags) :
    s.blockFlags R C fl = rowFlags (fun i => (List.range C).foldl (fun f j => f ||| fl i j) 0) s.h.estart.toNat R := by
  rw [State.blockFlags, rowFlags, elemRange_eq_filter, List.foldl_flatMap]
  simp only [List.foldl_map]
  congr 1
  funext f i
  exact foldl_or_eq _ _ _

end Sys2Proof.Machine
end

section
/-! The accumulator: a block written row by row, and ACZERO, ACRD and ACWR (R152, R153, R167). -/
namespace Sys2Proof.Machine

theorem Core.accCell_setAcc (c : Core) (k v q : Nat) : (c.setAcc k v).accCell q = if q = k then v % 2 ^ 32 else c.accCell q := by
  rw [Core.accCell, Core.setAcc, FMap.get_set]
  split <;> simp [Core.accCell]

/-- Rows lo to hi - 1 of a block of C columns have been written in the accumulator of `c`, whose cell (i, j) is numbered `key i j`, and nothing else. -/
structure Core.RowsWritten (k c : Core) (key : Nat → Nat → Nat) (lo hi C : Nat) (val : Nat → Nat → Nat) : Prop where
  rows : ∀ i j, lo ≤ i → i < hi → j < C → k.accCell (key i j) = val i j % 2 ^ 32
  others : ∀ q, (∀ i j, lo ≤ i → i < hi → j < C → q ≠ key i j) → k.accCell q = c.accCell q
  rest : { k with acc := c.acc } = c

/-- The cells of a row written one after another. -/
def Core.writeRow (k : Core) (key val : Nat → Nat) (C : Nat) : Core := (List.range C).foldl (fun k j => k.setAcc (key j) (val j)) k

section
variable {k c : Core} {lo hi C : Nat}

theorem Core.writeRow_succ (key val : Nat → Nat) : k.writeRow key val (C + 1) = (k.writeRow key val C).setAcc (key C) (val C) := by
  rw [Core.writeRow, List.range_succ, List.foldl_append]
  rfl

/-- A cell of the row holds its value, and any other what it held. -/
theorem Core.accCell_writeRow {key val : Nat → Nat} (hkey : ∀ i j, i < C → j < C → key i = key j → i = j) :
    (∀ j, j < C → (k.writeRow key val C).accCell (key j) = val j % 2 ^ 32) ∧
      ∀ q, (∀ j, j < C → q ≠ key j) → (k.writeRow key val C).accCell q = k.accCell q := by
  induction C with
  | zero => exact ⟨fun j hj => absurd hj (Nat.not_lt_zero j), fun _ _ => rfl⟩
  | succ C ih =>
    obtain ⟨hcells, hothers⟩ := ih fun i j hi hj => hkey i j (by omega) (by omega)
    simp only [Core.writeRow_succ, Core.accCell_setAcc]
    refine ⟨fun j hj => ?_, fun q hq => ?_⟩
    · rcases Nat.lt_succ_iff_lt_or_eq.mp hj with hlt | rfl
      · rw [if_neg fun heq => absurd (hkey j C hj (by omega) heq) (Nat.ne_of_lt hlt), hcells j hlt]
      · exact if_pos rfl
    · rw [if_neg (hq C (by omega)), hothers q fun j hj => hq j (by omega)]

theorem Core.writeRow_rest (hc : c.badAcc = []) (hk : { k with acc := c.acc } = c) (key val : Nat → Nat) :
    { k.writeRow key val C with acc := c.acc } = c := by
  induction C with
  | zero => exact hk
  | succ C ih =>
    have hbad : (k.writeRow key val C).badAcc = [] := (congrArg Core.badAcc ih).trans hc
    rw [Core.writeRow_succ]
    simpa [Core.setAcc, hbad] using ih

variable {key val : Nat → Nat → Nat}

theorem Core.RowsWritten.refl (c : Core) : c.RowsWritten c key lo lo C val :=
  ⟨fun _ _ hi hlt => absurd hlt (by omega), fun _ _ => rfl, rfl⟩

/-- Of a block without columns any number of rows is nothing. -/
theorem Core.RowsWritten.of_empty (h : k.RowsWritten c key lo hi C val) {hi' : Nat} (hC : C = 0) : k.RowsWritten c key lo hi' C val :=
  ⟨fun _ _ _ _ hj => absurd hj (by omega), fun q _ => h.others q fun _ _ _ _ hj => absurd hj (by omega), h.rest⟩

/-- The next row written. -/
theorem Core.RowsWritten.writeRow (h : k.RowsWritten c key lo hi C val) (hlo : lo ≤ hi) (hbad : c.badAcc = [])
    (hkey : ∀ i j i' j', j < C → j' < C → key i j = key i' j' → i = i' ∧ j = j') :
    (k.writeRow (key hi) (val hi) C).RowsWritten c key lo (hi + 1) C val := by
  obtain ⟨hcells, hothers⟩ := Core.accCell_writeRow (k := k) (val := val hi) fun i j hi' hj heq => (hkey hi i hi j hi' hj heq).2
  refine ⟨fun i j hi' hlt hj => ?_, fun q hq => ?_, Core.writeRow_rest hbad h.rest ..⟩
  · rcases Nat.lt_succ_iff_lt_or_eq.mp hlt with hlt | rfl
    · rw [hothers _ fun j' hj' heq => absurd (hkey i j hi j' hj hj' heq).1 (Nat.ne_of_lt hlt), h.rows i j hi' hlt hj]
    · exact hcells j hj
  · rw [hothers q fun j hj => hq hi j hlo (Nat.lt_succ_self hi) hj, h.others q fun i j hi' hlt hj => hq i j hi' (Nat.lt_succ_of_lt hlt) hj]

end

/-- Cells of a block within the accumulator's 128 columns have numbers of their own. -/
theorem blockCell_inj {s : State} {o : Word} {C i j i' j' : Nat} (hC : o.toNat / 256 % 256 + C ≤ 128) (hj : j < C) (hj' : j' < C)
    (h : s.blockCell o i j = s.blockCell o i' j') : i = i' ∧ j = j' := by
  unfold State.blockCell at h
  omega

theorem blockCell_eq_accKey (s : State) (o : Word) (i j : Nat) :
    accKey (s.h.arow0 + originRow o + i) (originCol o + j) = s.blockCell o i j := by
  simp [accKey, State.blockCell, Hart.arow0, originRow, originCol, bits]

/-- Rows written from ESTART's on, in an accumulator that was the acting hart's core's. -/
theorem Core.RowsWritten.holds {s : State} {k k' c : Core} {o : Word} {R C : Nat} {val : Nat → Nat → Nat}
    (h : k.RowsWritten c (s.blockCell o) s.h.estart.toNat (max s.h.estart.toNat R) C val)
    (hc : ∀ q, c.accCell q = (s.core (coreOf s.cur)).accCell q) (hk : k'.acc = k.acc) : s.blockHolds k' o R C val := by
  have hcell (q : Nat) : k'.accCell q = k.accCell q := by rw [Core.accCell, hk]; rfl
  refine ⟨fun i j hi hR hj => ?_, fun q hq => ?_⟩
  · rw [hcell, h.rows i j hi (lt_max_of_lt_right hR) hj]
  · rw [hcell, h.others q fun i j hi hlt => hq i j hi (by omega), hc]

/-- What they leave of the core that the charge left. -/
theorem Core.RowsWritten.blockHolds {s u : State} {k : Core} {o : Word} {R C : Nat} {val : Nat → Nat → Nat} (hu : ChargeOnly s u)
    (h : k.RowsWritten (u.core (coreOf s.cur)) (s.blockCell o) s.h.estart.toNat (max s.h.estart.toNat R) C val) :
    s.blockHolds k o R C val ∧ k.plane = (s.core (coreOf s.cur)).plane ∧ k.tiles = (s.core (coreOf s.cur)).tiles ∧
      k.l2 = (s.core (coreOf s.cur)).l2 := by
  obtain ⟨m, l, hc⟩ := hu.core (coreOf s.cur)
  rw [hc] at h
  exact ⟨h.holds (fun _ => rfl) rfl, (congrArg Core.plane h.rest :), (congrArg Core.tiles h.rest :), (congrArg Core.l2 h.rest :)⟩

end Sys2Proof.Machine
end

section
/-! ACZERO, ACRD and ACWR where nothing keeps them from running (R167). -/
namespace Sys2Proof.Machine

theorem ChargeOnly.arow0 {s u : State} (hu : ChargeOnly s u) (g : Nat) : (u.hart g).arow0 = (s.hart g).arow0 := by
  obtain ⟨v, b, hg⟩ := hu.hart g
  rw [hg]
  rfl

theorem ChargeOnly.badAcc {s u : State} (hu : ChargeOnly s u) (c : Nat) : (u.core c).badAcc = (s.core c).badAcc := by
  obtain ⟨m, l, hc⟩ := hu.core c
  rw [hc]

theorem ChargeOnly.accCell {s u : State} (hu : ChargeOnly s u) (c q : Nat) : (u.core c).accCell q = (s.core c).accCell q := by
  obtain ⟨m, l, hc⟩ := hu.core c
  rw [hc]
  rfl

/-- The number of a cell of the block, in the state that the charge left. -/
theorem ChargeOnly.accKey {s u : State} (hu : ChargeOnly s u) (o : Word) (i j : Nat) :
    Machine.accKey ((u.hart s.cur).arow0 + originRow o + i) (originCol o + j) = s.blockCell o i j := by
  rw [hu.arow0]
  exact blockCell_eq_accKey s o i j

/-- A block that lies in the region passes R153. -/
theorem blockTrap_of_fits {s : State} {o : Word} {R C : Nat} (h : s.blockFits o R C) : blockTrap s.h o R C = none := by
  obtain ⟨hrows, hcols⟩ := h
  have hrow : ¬s.h.alen < originRow o + R := by simp [Hart.alen, originRow, bits]; omega
  have hcol : ¬128 < originCol o + C := by simp [originCol, bits]; omega
  rw [blockTrap, if_neg hrow, if_neg hcol]

section
variable {row : State → Nat → Except Trap (State × Flags)} {u : State} {c lo hi C : Nat} {key val : Nat → Nat → Nat} {fl : Nat → Flags}

/-- Rows that write the cells of a block in turn. -/
theorem runRows_writeRow (hbad : (u.core c).badAcc = []) (hkey : lo < hi → ∀ i j i' j', j < C → j' < C → key i j = key i' j' → i = i' ∧ j = j')
    (hrow : ∀ {v : State} {m : Nat} {k : Core}, lo ≤ m → m < hi → v.CoreIs u c k → k.RowsWritten (u.core c) key lo m C val →
      row v m = .ok (v.modCore c fun k => k.writeRow (key m) (val m) C, fl m)) (h : Nat) :
    ∃ w k, runRows row u h lo hi = { state := w, flags := rowFlags fl lo hi } ∧ w.CoreIs u c k ∧
      k.RowsWritten (u.core c) key lo (max lo hi) C val := by
  refine runRows_of_rows (P := fun m k => k.RowsWritten (u.core c) key lo m C val) (fun hlo hlt hv hk => ?_) h (.refl _)
  exact ⟨_, _, hrow hlo hlt hv hk, hv.modCore _, hk.writeRow hlo hbad (hkey (by omega))⟩

end

section
variable {s : State} (hs : MatrixIdle s)
include hs

/-- ACZERO: each row of the block is written with zeros. -/
theorem opAczero_run {u : State} (hu : ChargeOnly s u) {o x : Reg} {e : QEntry} (hva : e.va = s.h.getX x) (hvb : e.vb = s.h.getX o) {hi : Nat}
    (hfits : hi = 0 ∨ (s.h.getX o).toNat / 256 % 256 + (s.h.getX x).toNat / 256 % 256 ≤ 128) :
    ∃ w k, (opAczero o x).run u s.cur e s.h.estart.toNat hi = { state := w, flags := rowFlags (fun _ => 0) s.h.estart.toNat hi } ∧
      w.CoreIs u (coreOf s.cur) k ∧ k.RowsWritten (u.core (coreOf s.cur)) (s.blockCell (s.h.getX o)) s.h.estart.toNat
        (max s.h.estart.toNat hi) ((s.h.getX x).toNat / 256 % 256) fun _ _ => 0 := by
  refine runRows_writeRow ((hu.badAcc _).trans hs.acc) (fun hlt i j i' j' hj hj' => blockCell_inj (by omega) hj hj') (fun {v m k} _ _ hv _ => ?_) s.cur
  simp only [hu.accKey, hva, hvb]
  rfl

end

theorem Core.readAcc_of_sound {c : Core} (hc : c.badAcc = []) (q : Nat) : c.readAcc q = .ok (c.accCell q) := by
  simp [Core.readAcc, hc]

/-- The pieces of a row of C elements. -/
def rowPieces (idx : Nat → Nat) (r : Nat → FRes) (C : Nat) : List Piece := (List.range C).map fun j => ⟨idx j, (r j).1, matrixFlags (r j).2⟩

theorem piecesFlags_rowPieces (idx : Nat → Nat) (r : Nat → FRes) (C : Nat) :
    piecesFlags (rowPieces idx r C) = (List.range C).foldl (fun f j => f ||| matrixFlags (r j).2) 0 := List.foldl_map

/-- Of the four formats of ACRD and ACWR f16 and bf16 are converted. -/
theorem converts_iff {f : BitVec 5} (hf : f.toNat ∈ [2, 8, 9, 10]) : (f = 9 ∨ f = 10) ↔ ¬f.toNat < 9 := by
  simp only [List.mem_cons, List.not_mem_nil, or_false, BitVec.ofNat_eq_ofNat, ← BitVec.toNat_inj, BitVec.toNat_ofNat] at hf ⊢
  omega

/-- The cell (i, j) of a block as ACRD gives it to an element. -/
def State.acrdCell (s : State) (f : BitVec 5) (o : Word) (i j : Nat) : FRes :=
  if f.toNat < 9 then ((s.core (coreOf s.cur)).accCell (s.blockCell o i j), 0)
  else fconvert .rne (ffmtOf f.toNat) (fdecode fmtF32 ((s.core (coreOf s.cur)).accCell (s.blockCell o i j)))

/-- The element of row i and column j of a name as ACWR gives it to a cell. -/
def State.acwrElem (s : State) (f : BitVec 5) (a : Reg) (i j : Nat) : FRes :=
  if f.toNat < 9 then (s.el a (i * (s.h.shapeOf a).cols + j), 0)
  else fconvert .rne fmtF32 (fdecode (ffmtOf f.toNat) (s.el a (i * (s.h.shapeOf a).cols + j)))

/-- The core with the elements of rows lo to hi - 1 of a name written. -/
def Core.putRows (c : Core) (p : Shape) (r : Nat → Nat → FRes) (lo hi : Nat) : Core :=
  (elemRange lo hi).foldl (fun k i => k.putPieces p (rowPieces (i * p.cols + ·) (r i) p.cols)) c

theorem Core.putPieces_acc (c : Core) (p : Shape) (l : List Piece) : (c.putPieces p l).acc = c.acc ∧ (c.putPieces p l).badAcc = c.badAcc := by
  induction l generalizing c with
  | nil => exact ⟨rfl, rfl⟩
  | cons x l ih =>
    obtain ⟨hacc, hbad⟩ := ih (c.setElem p x.idx x.val)
    have hset : (c.setElem p x.idx x.val).acc = c.acc ∧ (c.setElem p x.idx x.val).badAcc = c.badAcc := by
      unfold Core.setElem
      split
      · exact ⟨rfl, rfl⟩
      · split <;> exact ⟨rfl, rfl⟩
    exact ⟨hacc.trans hset.1, hbad.trans hset.2⟩

theorem Core.putRows_succ (c : Core) (p : Shape) (r : Nat → Nat → FRes) {lo hi : Nat} (h : lo ≤ hi) :
    c.putRows p r lo (hi + 1) = (c.putRows p r lo hi).putPieces p (rowPieces (hi * p.cols + ·) (r hi) p.cols) := by
  rw [Core.putRows, elemRange_succ h, List.foldl_append]
  rfl

theorem Core.putRows_acc (c : Core) (p : Shape) (r : Nat → Nat → FRes) (lo hi : Nat) :
    (c.putRows p r lo hi).acc = c.acc ∧ (c.putRows p r lo hi).badAcc = c.badAcc := by
  unfold Core.putRows
  generalize elemRange lo hi = l
  induction l generalizing c with
  | nil => exact ⟨rfl, rfl⟩
  | cons i l ih =>
    obtain ⟨hacc, hbad⟩ := c.putPieces_acc p (rowPieces (i * p.cols + ·) (r i) p.cols)
    exact ⟨(ih _).1.trans hacc, (ih _).2.trans hbad⟩

theorem Core.putRows_max (c : Core) (p : Shape) (r : Nat → Nat → FRes) (lo hi : Nat) : c.putRows p r lo (max lo hi) = c.putRows p r lo hi := by
  rw [Core.putRows, elemRange, show max lo hi - lo = hi - lo by omega]
  rfl

/-- Its elements one after another, row by row. -/
theorem Core.putRows_eq_foldl (c : Core) (p : Shape) (r : Nat → Nat → FRes) (lo hi : Nat) : c.putRows p r lo hi =
    (((List.range hi).filter fun i => lo ≤ i).flatMap fun i => (List.range p.cols).map fun j => (i * p.cols + j, (r i j).1)).foldl
      (fun (k : Core) (x : Nat × Nat) => k.setElem p x.1 x.2) c := by
  rw [Core.putRows, elemRange_eq_filter, List.foldl_flatMap]
  simp only [Core.putPieces, rowPieces, List.foldl_map]

section
variable {s : State} (hs : MatrixIdle s) {f : BitVec 5} (hf : f.toNat ∈ [2, 8, 9, 10]) {u : State} (hu : ChargeOnly s u) {o : Reg} {e : QEntry}
  (hvb : e.vb = s.h.getX o)
include hs hf hu hvb

/-- ACRD: each row of the block is read and written as a row of the name. -/
theorem opAcrd_run (d : Reg) : ∃ w k, (opAcrd d f o).run u s.cur e s.h.estart.toNat (s.h.shapeOf d).rows =
      { state := w, flags := s.blockFlags (s.h.shapeOf d).rows (s.h.shapeOf d).cols fun i j => matrixFlags (s.acrdCell f (s.h.getX o) i j).2 } ∧
    w.CoreIs u (coreOf s.cur) k ∧
    k = (u.core (coreOf s.cur)).putRows (s.h.shapeOf d) (s.acrdCell f (s.h.getX o)) s.h.estart.toNat (s.h.shapeOf d).rows := by
  rw [blockFlags_eq_rowFlags, ← Core.putRows_max]
  refine runRows_of_rows (P := fun m k => k = (u.core (coreOf s.cur)).putRows (s.h.shapeOf d) (s.acrdCell f (s.h.getX o)) s.h.estart.toNat m)
    (fun {v m k} hlo _ hv hk => ?_) s.cur (by simp [Core.putRows, elemRange])
  have hcell (j : Nat) : (v.core (coreOf s.cur)).readAcc (s.blockCell (s.h.getX o) m j) =
      .ok ((s.core (coreOf s.cur)).accCell (s.blockCell (s.h.getX o) m j)) := by
    obtain ⟨hacc, hbad⟩ := Core.putRows_acc (u.core (coreOf s.cur)) (s.h.shapeOf d) (s.acrdCell f (s.h.getX o)) s.h.estart.toNat m
    rw [hv.core, hk, Core.readAcc_of_sound (hbad.trans ((hu.badAcc _).trans hs.acc)), Core.accCell, hacc]
    exact congrArg Except.ok (hu.accCell _ _)
  refine ⟨v.modCore (coreOf s.cur) fun c => c.putPieces (s.h.shapeOf d)
      (rowPieces (m * (s.h.shapeOf d).cols + ·) (s.acrdCell f (s.h.getX o) m) (s.h.shapeOf d).cols), _, ?_, hv.modCore _, ?_⟩
  · rw [hu.shapeOf, ← piecesFlags_rowPieces (m * (s.h.shapeOf d).cols + ·)]
    rw [eachE_ok (g := fun j => ⟨m * (s.h.shapeOf d).cols + j, (s.acrdCell f (s.h.getX o) m j).1, matrixFlags (s.acrdCell f (s.h.getX o) m j).2⟩)]
    · rfl
    intro j _
    rw [hvb, hu.accKey, hcell]
    simp only [converts_iff hf, ite_not]
    rfl
  · rw [hk, Core.putRows_succ _ _ _ hlo]

/-- ACWR: each row of the name is read and written to the cells of a row of the block. -/
theorem opAcwr_run (a : Reg) (hfits : s.blockFits (s.h.getX o) (s.h.shapeOf a).rows (s.h.shapeOf a).cols) :
    ∃ w k, (opAcwr a f o).run u s.cur e s.h.estart.toNat (s.h.shapeOf a).rows =
      { state := w, flags := s.blockFlags (s.h.shapeOf a).rows (s.h.shapeOf a).cols fun i j => matrixFlags (s.acwrElem f a i j).2 } ∧
    w.CoreIs u (coreOf s.cur) k ∧ k.RowsWritten (u.core (coreOf s.cur)) (s.blockCell (s.h.getX o)) s.h.estart.toNat
      (max s.h.estart.toNat (s.h.shapeOf a).rows) (s.h.shapeOf a).cols fun i j => (s.acwrElem f a i j).1 := by
  rw [blockFlags_eq_rowFlags]
  refine runRows_writeRow ((hu.badAcc _).trans hs.acc) (fun _ i j i' j' hj hj' => blockCell_inj hfits.2 hj hj') (fun {v m k} _ _ hv hk => ?_) s.cur
  have helem (j : Nat) : (v.core (coreOf s.cur)).matrixElem (s.h.shapeOf a) j = .ok (s.el a j) := by
    have hbad : k.badPlane = (u.core (coreOf s.cur)).badPlane := (congrArg Core.badPlane hk.rest :)
    have hplane : k.elem (s.h.shapeOf a) j = (u.core (coreOf s.cur)).elem (s.h.shapeOf a) j :=
      (congrArg (fun c => Core.elem c (s.h.shapeOf a) j) hk.rest :)
    rw [hv.core, Core.matrixElem_of_sound (hbad.trans ((hu.badPlane _).trans hs.sound)), hplane, hu.elem]
    rfl
  rw [show (u.hart s.cur).shapeOf a = s.h.shapeOf a from hu.shapeOf .., ← piecesFlags_rowPieces (s.blockCell (s.h.getX o) m)]
  rw [eachE_ok (g := fun j => ⟨s.blockCell (s.h.getX o) m j, (s.acwrElem f a m j).1, matrixFlags (s.acwrElem f a m j).2⟩)]
  · simp only [Core.writeRow, List.foldl_map, rowPieces, bind, Except.bind, pure, Except.pure]
  intro j _
  rw [hvb, hu.accKey, helem]
  simp only [converts_iff hf, ite_not]
  rfl

end

/-- The checks of ACZERO for extents of at most 128, where the block is empty or lies in the region. -/
theorem aczero_checks {s : State} {o x : Reg} {i : Instr} (hR : (s.h.getX x).toNat % 256 ≤ 128) (hC : (s.h.getX x).toNat / 256 % 256 ≤ 128)
    (hfits : (s.h.getX x).toNat % 256 = 0 ∨ (s.h.getX x).toNat / 256 % 256 = 0 ∨
      s.blockFits (s.h.getX o) ((s.h.getX x).toNat % 256) ((s.h.getX x).toNat / 256 % 256)) :
    (opAczero o x).post s s.cur (newEntry i (opAczero o x) s.h) = (s, none) := by
  have hrows : extentRows (s.h.getX x) = (s.h.getX x).toNat % 256 := by simp [extentRows, bits]
  have hcols : extentCols (s.h.getX x) = (s.h.getX x).toNat / 256 % 256 := by simp [extentCols, bits]
  dsimp only [opAczero, newEntry]
  rw [hrows, hcols, if_neg (by omega)]
  split
  · rfl
  case isFalse h =>
    push Not at h
    rw [show s.hart s.cur = s.h from rfl, blockTrap_of_fits ((hfits.resolve_left h.1).resolve_left h.2)]

/-- The checks of ACRD and ACWR for a rectangle or a window and a block in the region. -/
theorem accShape_checks {s : State} {r : Reg} {e : QEntry} (hkind : (s.h.getDef r).kind = 5 ∨ (s.h.getDef r).kind = 6)
    (hfits : s.blockFits e.vb (s.h.shapeOf r).rows (s.h.shapeOf r).cols) : accShape r s s.cur e = (s, none) := by
  dsimp only [accShape]
  rw [show s.hart s.cur = s.h from rfl, if_neg (by omega), blockTrap_of_fits hfits]

theorem aczero_len (s : State) (i : Instr) (o x : Reg) : (s.entryOf i (opAczero o x)).len =
    if (s.h.getX x).toNat / 256 % 256 = 0 then 0 else (s.h.getX x).toNat % 256 := by
  simp [State.entryOf, QOp.issuedAlone, opAczero, newEntry, extentRows, extentCols, bits]

end Sys2Proof.Machine
end

section
open Sys2Proof Sys2Proof.Machine

/-- Settles O46: each of the three runs whole at its commit, row by row. -/
theorem accumulatorMoves : Obligations.AccumulatorMoves := by
  intro s d o x f hs c O p kd R C done
  have hu (i : Instr) := chargeOnly_issues s i
  refine ⟨fun hR hC hfits => ?zero, fun hf hname hkind hblock => ?convert⟩
  case zero =>
    have hrows : RunsRows s (.aczero o x) (opAczero o x) := ⟨rfl, rfl, rfl⟩
    have hlen : (s.entryOf (.aczero o x) (opAczero o x)).len = if C = 0 then 0 else R := aczero_len ..
    obtain ⟨w, k, hrun, hw, hk⟩ := opAczero_run hs (hu (.aczero o x)) (e := s.entryOf (.aczero o x) (opAczero o x)) (o := o) (x := x) rfl rfl
      (hi := if C = 0 then 0 else R) (by
        split
        · exact .inl rfl
        case isFalse hpos => exact (hfits.imp_right fun h => (h.resolve_left hpos).2))
    rw [rowFlags_zero, ← hlen] at hrun
    refine ⟨k, hrows.completesOn_of_no_tile hs nofun (aczero_checks hR hC hfits) rfl (fun _ _ _ => rfl) (fun _ _ => rfl) hrun hw, ?_⟩
    split at hk
    case isTrue hzero => exact Core.RowsWritten.blockHolds (hu _) (hk.of_empty hzero)
    case isFalse => exact hk.blockHolds (hu _)
  case convert =>
    have hname' (pos : Nat) (dest : Bool) : ∀ n ∈ [(⟨d, pos, fmtWidth f.toNat, 0, dest, false, false, 0, (s.h.shapeOf d).count, false⟩ : Name)],
        Usable s n.entry n.w n.need := by simpa using hname
    constructor
    case left =>
      have hrows : RunsRows s (.acrd d f o) (opAcrd d f o) := ⟨rfl, rfl, rfl⟩
      obtain ⟨w, k, hrun, hw, rfl⟩ := opAcrd_run hs hf (hu (.acrd d f o)) (e := s.entryOf (.acrd d f o) (opAcrd d f o)) rfl d
      rw [Core.putRows_eq_foldl] at hw
      exact hrows.completesOn_of_no_tile hs (hname' 0 true) (accShape_checks hkind hblock) rfl (fun _ _ _ => rfl) (fun _ _ => rfl) hrun hw
    case right =>
      have hrows : RunsRows s (.acwr d f o) (opAcwr d f o) := ⟨rfl, rfl, rfl⟩
      obtain ⟨w, k, hrun, hw, hk⟩ := opAcwr_run hs hf (hu (.acwr d f o)) (e := s.entryOf (.acwr d f o) (opAcwr d f o)) rfl d hblock
      exact ⟨k, hrows.completesOn_of_no_tile hs (hname' 1 false) (accShape_checks hkind hblock) rfl (fun _ _ _ => rfl) (fun _ _ => rfl) hrun hw,
        hk.blockHolds (hu _)⟩

end

section
/-! The sums of the matrix engine as R76 and R77 give them, and the numbers of R74 and R162. -/
namespace Sys2Proof.Machine

theorem mmaDepth_eq_depthOf (code : Nat) : mmaDepth code = depthOf code := by
  unfold mmaDepth depthOf
  split
  · rfl
  · rfl
  · rfl
  case h_4 h9 h10 h13 => rw [if_neg fun h => h.elim h9 h10, if_neg h13]

/-- The groups of four of a list by the numbers of its elements. -/
theorem inFours_map_range {α : Type} (n : Nat) (f : Nat → α) :
    inFours ((List.range n).map f) = (List.range ((n + 3) / 4)).map fun g => ((List.range n).filter fun k => k / 4 = g).map f := by
  induction n using Nat.strongRecOn generalizing f with
  | ind n ih =>
    match n with
    | 0 => rfl
    | 1 => rfl
    | 2 => rfl
    | 3 => rfl
    | n + 4 =>
      have hrange : List.range (n + 4) = [0, 1, 2, 3] ++ (List.range n).map (4 + ·) := by rw [Nat.add_comm, List.range_add]; rfl
      have hgroups : (n + 4 + 3) / 4 = (n + 3) / 4 + 1 := by omega
      have hrest : inFours ((List.range (n + 4)).map f) = [f 0, f 1, f 2, f 3] :: inFours ((List.range n).map fun k => f (4 + k)) := by
        rw [hrange, List.map_append, List.map_map]
        rfl
      rw [hrest, ih n (by omega), hgroups, hrange, List.range_succ_eq_map (n := (n + 3) / 4), List.map_cons, List.map_map]
      congr 1
      · simp [List.filter_map, Function.comp_def]
      · exact List.map_congr_left fun g _ => by simp [List.filter_map, Function.comp_def]

/-- The groups summed one after another, from flags already raised. -/
theorem foldl_sumGroups (l : List (List (FVal × FVal))) (acc : Nat) (f : Flags) :
    l.foldl (fun (r : FRes) g =>
      let q := fadd .rne fmtF32 (fdecode fmtF32 r.1) (g.foldl groupAdd (.fin false 0 0))
      (q.1, r.2 ||| matrixFlags q.2)) (acc, f) = ((sumGroups acc l).1, f ||| (sumGroups acc l).2) := by
  induction l generalizing acc f with
  | nil => simp [sumGroups]
  | cons g l ih =>
    rw [List.foldl_cons, ih, BitVec.or_assoc, BitVec.or_comm (matrixFlags _)]
    rfl

/-- One accumulator element in f32 is the loop of R76 over its products. -/
theorem sumGroups_eq_sumR76 (acc n : Nat) (p : Nat → FVal × FVal) : sumGroups acc (inFours ((List.range n).map p)) = sumR76 acc n p := by
  have hfold := foldl_sumGroups (inFours ((List.range n).map p)) acc 0
  rw [inFours_map_range, List.foldl_map] at hfold
  simp only [List.foldl_map] at hfold
  rw [inFours_map_range, sumR76, hfold]
  simp

theorem foldl_add_eq {α : Type} (f : α → Int) (l : List α) (z : Int) : l.foldl (fun z x => z + f x) z = z + l.foldl (fun z x => z + f x) 0 := by
  induction l generalizing z with
  | nil => simp
  | cons x l ih => rw [List.foldl_cons, ih, List.foldl_cons, ih (0 + f x)]; omega

/-- One accumulator element in 32-bit integers is the sum of R77 over the products that are present. -/
theorem sumInts_eq (acc n : Nat) (present : Nat → Bool) (p : Nat → Int × Int) :
    sumInts acc ((List.range n).map fun k => if present k then p k else (0, 0)) =
      (((List.range n).foldl (fun (z : Int) k => if present k then z + (p k).1 * (p k).2 else z) (intOf 2 acc)) % 2 ^ 32).toNat := by
  have hacc : sxi 32 acc = intOf 2 acc := codeVal_eq_intOf 2 acc
  have hterm : (fun (z : Int) k => if present k then z + (p k).1 * (p k).2 else z) =
      fun z k => z + (if present k then p k else (0, 0)).1 * (if present k then p k else (0, 0)).2 := by
    funext z k
    split <;> simp
  rw [sumInts, wrapN, List.foldl_map, hacc, hterm, foldl_add_eq _ _ (intOf 2 acc)]
  rfl

/-- A two's-complement value of P bits, at most 8, taken as 8 bits and read back. -/
theorem sxi_wrapN_sxi {P v : Nat} (hpos : 1 ≤ P) (hP : P ≤ 8) (hv : v < 2 ^ P) :
    sxi 8 (wrapN 8 (sxi P v)) = if v < 2 ^ (P - 1) then (v : Int) else (v : Int) - 2 ^ P := by
  rw [sxi_of_lt hv]
  unfold sxi wrapN
  interval_cases P <;> norm_num at hv ⊢ <;> split <;> split <;> omega

/-- The bits of a value, the highest first. -/
theorem foldl_bits_lt {l : List Nat} (h : ∀ b ∈ l, b < 2) : l.foldl (fun a b => 2 * a + b) 0 < 2 ^ l.length := by
  induction l using List.reverseRecOn with
  | nil => simp
  | append_singleton l b ih =>
    have hb := h b (by simp)
    have := ih fun x hx => h x (by simp [hx])
    rw [List.foldl_append, List.length_append, List.length_singleton, pow_succ]
    simp only [List.foldl_cons, List.foldl_nil]
    omega

end Sys2Proof.Machine
end

section
/-! One row of a matrix multiply: what it reads, and its cells as R163 gives them. -/
namespace Sys2Proof.Machine

theorem nextEntry_one (r : Reg) : nextEntry r 1 = r + 1 := BitVec.eq_of_toNat_eq (by simp [nextEntry])
theorem nextEntry_two (r : Reg) : nextEntry r 2 = r + 2 := BitVec.eq_of_toNat_eq (by simp [nextEntry])

theorem planesOf_eq_planesFor (code : Nat) : planesOf code = planesFor code := rfl

theorem sumR76_congr {acc n : Nat} {p q : Nat → FVal × FVal} (h : ∀ k, k < n → p k = q k) : sumR76 acc n p = sumR76 acc n q := by
  rw [← sumGroups_eq_sumR76, ← sumGroups_eq_sumR76, List.map_congr_left fun k hk => h k (List.mem_range.mp hk)]

theorem scaledVal_eq_withScale (code sc q : Nat) : scaledVal code sc q = withScale code sc q := by
  rw [scaledVal, withScale, FVal.scale_eq]

/-- Slot k of row m of A as a pattern; of bit planes, the value that its bits are, in 8 bits (R74, R162). -/
def State.slotA (s : State) (va : Reg) (code n m k : Nat) : Nat :=
  if planesFor code = 0 then s.el va (m * n + k)
  else wrapN 8 (sxi (planesFor code) (((List.range (planesFor code)).map fun j => s.el va (j * (s.h.shapeOf va).cols + 64 * m + k)).foldl
    (fun a b => 2 * a + b) 0))

/-- The scales or indices of row m. -/
def State.rowAux (s : State) (v : MmaKind) (va : Reg) (B K n m : Nat) : List Nat :=
  match v with
  | .dense => []
  | .scaled => (List.range (K / B)).map fun b => s.el (va + 1) (m * (K / B) + b)
  | .sparse => (List.range n).map fun k => s.el (va + 1) (m * n + k)

/-- The scales of column j of B. -/
def State.colScales (s : State) (v : MmaKind) (va : Reg) (B K j : Nat) : List Nat :=
  match v with
  | .scaled => (List.range (K / B)).map fun b => s.el (va + 2) (b * 64 + j)
  | _ => []

/-- Slot k as an integer is element (m, k) of A. -/
theorem sxi_slotA {s : State} {va : Reg} {code : Nat} (hcode : code ≤ 22) (hwidth : (s.h.getDef va).width = fmtWidth code) (n m k : Nat) :
    sxi 8 (s.slotA va code n m k) = s.matrixA va code n m k := by
  by_cases h : planesFor code = 0
  case pos =>
    simp only [State.slotA, State.matrixA, h, if_true]
    exact codeVal_eq_intOf 0 _
  case neg =>
    obtain ⟨hplanes, hP⟩ : 16 ≤ code ∧ planesFor code = code - 14 := by
      unfold planesFor at h ⊢
      split at h <;> simp_all
    have hone : (s.h.shapeOf va).w = 1 := by
      rw [Hart.shapeOf, Def.shape_w, hwidth]
      interval_cases code <;> rfl
    have hbit : ∀ b ∈ (List.range (planesFor code)).map fun j => s.el va (j * (s.h.shapeOf va).cols + 64 * m + k), b < 2 := by
      intro b hb
      obtain ⟨j, -, rfl⟩ := List.mem_map.mp hb
      have hlt := (s.core (coreOf s.cur)).elem_lt (s.h.shapeOf va) (j * (s.h.shapeOf va).cols + 64 * m + k)
      rwa [hone] at hlt
    have hlt := foldl_bits_lt hbit
    rw [List.length_map, List.length_range] at hlt
    simp only [State.slotA, State.matrixA, if_neg h]
    rw [sxi_wrapN_sxi (by omega) (by omega) hlt, List.foldl_map]

/-- The slots of a row of A. -/
def State.slots (s : State) (v : MmaKind) (va : Reg) (code : Nat) : Nat := if v = .sparse then (s.h.shapeOf va).cols else depthOf code

/-- The row of B that slot k of row m meets. -/
def State.slotIndex (s : State) (v : MmaKind) (va : Reg) (code m k : Nat) : Nat :=
  if v = .sparse then s.el (va + 1) (m * s.slots v va code + k) else k

/-- The two factors of slot k in floating point. -/
def State.slotPair (s : State) (v : MmaKind) (va : Reg) (code B tile m j k : Nat) : FVal × FVal :=
  if depthOf code ≤ s.slotIndex v va code m k then (.fin false 0 0, .fin false 0 0)
  else if v = .scaled then
    (withScale code (s.el (va + 1) (m * (depthOf code / B) + k / B)) (s.el va (m * s.slots v va code + k)),
      withScale code (s.el (va + 2) (k / B * 64 + j)) (tileElem tile code k j))
  else (fdecode (ffmtOf code) (s.el va (m * s.slots v va code + k)), fdecode (ffmtOf code) (tileElem tile code (s.slotIndex v va code m k) j))

section
variable {s : State} {v : MmaKind} {va : Reg} {code B tile acc m j : Nat}

theorem matrixUpdate_of_int (h : code = 0 ∨ 16 ≤ code) : s.matrixUpdate v va code B tile acc m j =
    (((List.range (s.slots v va code)).foldl (fun (z : Int) k => if s.slotIndex v va code m k < depthOf code
      then z + s.matrixA va code (s.slots v va code) m k * intOf 0 (tileElem tile code (s.slotIndex v va code m k) j) else z) (intOf 2 acc) %
        2 ^ 32).toNat, 0) := if_pos h

theorem matrixUpdate_of_float (h : ¬(code = 0 ∨ 16 ≤ code)) : s.matrixUpdate v va code B tile acc m j =
    sumR76 acc (s.slots v va code) (s.slotPair v va code B tile m j) := if_neg h

/-- What a slot holds beside its number: its pattern, and the row of B that it meets. -/
def slotTriples (v : MmaKind) (row aux : List Nat) : List (Nat × Nat × Nat) :=
  row.zipIdx.map fun qk => (qk.1, qk.2, if v = .sparse then aux.getD qk.2 0 else qk.2)

theorem slotTriples_eq (n : Nat) (f : Nat → Nat) : slotTriples v ((List.range n).map f) (s.rowAux v va B (depthOf code) n m) =
    (List.range n).map fun k => (f k, k, if v = .sparse then s.el (va + 1) (m * n + k) else k) := by
  refine List.ext_getElem (by simp [slotTriples]) fun i hi _ => ?_
  have hn : i < n := by simpa [slotTriples] using hi
  cases v with
  | dense => simp [slotTriples]
  | scaled => simp [slotTriples]
  | sparse => simp [slotTriples, State.rowAux, hn]

/-- A cell in integers (R77). -/
theorem sumInts_slots (hint : code = 0 ∨ 16 ≤ code) (hcode : code ≤ 22) (hwidth : (s.h.getDef va).width = fmtWidth code) :
    (sumInts acc ((slotTriples v ((List.range (s.slots v va code)).map (s.slotA va code (s.slots v va code) m))
      (s.rowAux v va B (depthOf code) (s.slots v va code) m)).map fun q =>
        if q.2.2 < depthOf code then (sxi 8 q.1, sxi 8 (tileElem tile code q.2.2 j)) else ((0 : Int), (0 : Int))), (0 : Flags)) =
      s.matrixUpdate v va code B tile acc m j := by
  rw [matrixUpdate_of_int hint, slotTriples_eq, List.map_map]
  have hterm := sumInts_eq acc (s.slots v va code) (fun k => decide (s.slotIndex v va code m k < depthOf code))
    fun k => (sxi 8 (s.slotA va code (s.slots v va code) m k), sxi 8 (tileElem tile code (s.slotIndex v va code m k) j))
  have htile (x : Nat) : sxi 8 x = intOf 0 x := codeVal_eq_intOf 0 x
  simp only [sxi_slotA hcode hwidth, htile, decide_eq_true_eq] at hterm
  rw [← hterm]
  simp only [Function.comp_def, sxi_slotA hcode hwidth]
  simp only [htile]
  rfl

/-- A cell in floating point (R76). -/
theorem sumGroups_slots (hint : ¬(code = 0 ∨ 16 ≤ code)) (hblock : v = .scaled → ∀ k, k < depthOf code → k / B < depthOf code / B) :
    sumGroups acc (inFours ((slotTriples v ((List.range (s.slots v va code)).map (s.slotA va code (s.slots v va code) m))
      (s.rowAux v va B (depthOf code) (s.slots v va code) m)).map fun q =>
        if depthOf code ≤ q.2.2 then (FVal.fin false 0 0, FVal.fin false 0 0)
        else if v = .scaled then
          (scaledVal code ((s.rowAux v va B (depthOf code) (s.slots v va code) m).getD (q.2.1 / B) 0) q.1,
            scaledVal code ((s.colScales v va B (depthOf code) j).getD (q.2.1 / B) 0) (tileElem tile code q.2.1 j))
        else (fdecode (ffmtOf code) q.1, fdecode (ffmtOf code) (tileElem tile code q.2.2 j)))) =
      s.matrixUpdate v va code B tile acc m j := by
  rw [matrixUpdate_of_float hint, slotTriples_eq, List.map_map, sumGroups_eq_sumR76]
  refine sumR76_congr fun k hk => ?_
  have hslot : s.slotA va code (s.slots v va code) m k = s.el va (m * s.slots v va code + k) := if_pos (if_neg (by omega))
  simp only [Function.comp_def, State.slotPair, hslot, scaledVal_eq_withScale]
  refine if_congr Iff.rfl rfl ?_
  split
  case isFalse => rfl
  case isTrue h =>
    subst h
    have hlt := hblock rfl k hk
    simp [State.rowAux, State.colScales, hlt]

end

end Sys2Proof.Machine
end

section
/-! The rows of a matrix multiply where nothing it reads is uncorrectable (R163). -/
namespace Sys2Proof.Machine

/-- The rows of A that a variant needs are in a core whose elements are those of the acting hart's. -/
theorem mmaRowA_eq {s : State} {c : Core} (hread : ∀ p i, c.matrixElem p i = .ok ((s.core (coreOf s.cur)).elem p i)) (va : Reg) (code m n : Nat) :
    mmaRowA c (s.h.shapeOf va) code m n = .ok ((List.range n).map (s.slotA va code n m)) := by
  unfold mmaRowA
  simp only [hread]
  by_cases h : planesOf code = 0
  case pos =>
    rw [if_pos h, eachE_ok (g := s.slotA va code n m)]
    exact fun k _ => congrArg Except.ok (if_pos h).symm
  case neg =>
    rw [if_neg h, eachE_ok (g := s.slotA va code n m)]
    intro k _
    rw [eachE_ok fun j _ => rfl]
    exact congrArg Except.ok (if_neg h).symm

/-- What the slots of a cell give, in either kind of number. -/
theorem mmaCell_eq {s : State} {v : MmaKind} {va : Reg} {code B tile acc m j : Nat} (hcode : code ≤ 22)
    (hwidth : (s.h.getDef va).width = fmtWidth code) (hblock : v = .scaled → ∀ k, k < depthOf code → k / B < depthOf code / B) (key : Nat) :
    let aux := s.rowAux v va B (depthOf code) (s.slots v va code) m
    let slots := slotTriples v ((List.range (s.slots v va code)).map (s.slotA va code (s.slots v va code) m)) aux
    let r := sumGroups acc (inFours (slots.map fun q =>
      if depthOf code ≤ q.2.2 then (FVal.fin false 0 0, FVal.fin false 0 0)
      else if v = .scaled then
        (scaledVal code (aux.getD (q.2.1 / B) 0) q.1,
          scaledVal code ((s.colScales v va B (depthOf code) j).getD (q.2.1 / B) 0) (tileElem tile code q.2.1 j))
      else (fdecode (ffmtOf code) q.1, fdecode (ffmtOf code) (tileElem tile code q.2.2 j))))
    (if mmaInt code then (pure (key, sumInts acc (slots.map fun q =>
        if q.2.2 < depthOf code then (sxi 8 q.1, sxi 8 (tileElem tile code q.2.2 j)) else ((0 : Int), (0 : Int))), (0 : Flags)) :
          Except Trap (Nat × Nat × Flags))
      else pure (key, r.1, r.2)) = .ok (key, s.matrixUpdate v va code B tile acc m j) := by
  intro aux slots r
  by_cases hint : code = 0 ∨ 16 ≤ code
  case pos =>
    rw [if_pos (by simpa [mmaInt] using hint), ← sumInts_slots hint hcode hwidth]
    rfl
  case neg =>
    rw [if_neg (by simpa [mmaInt] using hint), ← sumGroups_slots hint hblock]
    rfl

section
variable {s : State} {a : Hart} {c : Core} (hread : ∀ p i, c.matrixElem p i = .ok ((s.core (coreOf s.cur)).elem p i))
  (hshape : ∀ r, a.shapeOf r = s.h.shapeOf r) (hrow0 : a.arow0 = s.h.arow0) {v : MmaKind} {va : Reg} {code B : Nat}
include hread hshape hrow0

theorem mmaRow_eq (hcode : code ≤ 22) (hwidth : (s.h.getDef va).width = fmtWidth code)
    (hblock : v = .scaled → ∀ k, k < depthOf code → k / B < depthOf code / B) {o : Word} {m : Nat} {acc : Nat → Nat}
    (hacc : ∀ j, j < 64 → c.readAcc (s.blockCell o m j) = .ok (acc j)) (tile : Nat) :
    mmaRow v code va a c tile [] B m o = .ok
      ((List.range 64).map fun j => (s.blockCell o m j, (s.matrixUpdate v va code B tile (acc j) m j).1),
        (List.range 64).foldl (fun f j => f ||| (s.matrixUpdate v va code B tile (acc j) m j).2) 0) := by
  have hslots : mmaSlots v code (s.h.shapeOf va) = s.slots v va code := by rw [mmaSlots, mmaDepth_eq_depthOf]; rfl
  unfold mmaRow
  simp only [hshape, hrow0, blockCell_eq_accKey, mmaDepth_eq_depthOf, hslots, mmaRowA_eq hread, nextEntry_one, nextEntry_two, hread]
  rw [eachE_ok (g := fun j => (s.blockCell o m j, s.matrixUpdate v va code B tile (acc j) m j))]
  · simp only [List.map_map, List.foldl_map, bind, Except.bind, pure, Except.pure, Function.comp_def]
  intro j hj
  rw [hacc j (List.mem_range.mp hj)]
  have hcell := mmaCell_eq (v := v) (tile := tile) (acc := acc j) (m := m) (j := j) hcode hwidth hblock (s.blockCell o m j)
  cases v with
  | dense => exact hcell
  | scaled =>
    simp only [eachE_ok fun b _ => rfl]
    exact hcell
  | sparse =>
    simp only [eachE_ok fun b _ => rfl]
    exact hcell

end

end Sys2Proof.Machine
end

section
/-! The checks of the tile table and of the matrix engine (R155 to R157, R160, R162). -/
namespace Sys2Proof.Machine

section
variable {s : State} {v : Word} {allowed : Tile → Bool}

/-- The tile number of a word names a tile of the acting hart's core. -/
def State.tileAt (s : State) (v : Word) : Tile := (s.core (coreOf s.cur)).tile v.toNat

theorem tileTrap_eq (reason state : Nat) (v : Word) :
    tileTrap reason state v = ⟨13, BitVec.ofNat 64 (reason * 2 ^ 13 + state * 2 ^ 11 + v.toNat % 512), none⟩ := by
  simp [tileTrap, causeTileState, w64, bits]

theorem TileState.code_eq (t : Tile) : t.st.code = tileCode t := by
  unfold tileCode
  cases t.st <;> rfl

/-- The check asks for the owner, then for the row of R155. -/
theorem tileCheck_eq (hlt : v.toNat < 512) : tileCheck s s.cur v allowed =
    if (!s.h.sup && (s.tileAt v).owner.any (· != s.h.ctx)) = true then
      some ⟨13, BitVec.ofNat 64 (2 ^ 13 + tileCode (s.tileAt v) * 2 ^ 11 + v.toNat), none⟩
    else if (!allowed (s.tileAt v)) = true then
      some ⟨13, BitVec.ofNat 64 (2 * 2 ^ 13 + tileCode (s.tileAt v) * 2 ^ 11 + v.toNat), none⟩
    else none := by
  rw [tileCheck, if_neg (Nat.not_le.mpr hlt)]
  simp only [tileTrap_eq, TileState.code_eq, Nat.mod_eq_of_lt hlt, Nat.one_mul]
  rfl

/-- Of a tile that the hart may use only the row of R155 is asked. -/
theorem tileCheck_of_mayUse (h : MayUseTile s v) : tileCheck s s.cur v allowed = if allowed (s.tileAt v) then none
    else some ⟨13, BitVec.ofNat 64 (2 * 2 ^ 13 + tileCode (s.tileAt v) * 2 ^ 11 + v.toNat), none⟩ := by
  obtain ⟨hlt, howner⟩ := h
  have hown : (!s.h.sup && (s.tileAt v).owner.any (· != s.h.ctx)) = false := by
    rcases howner with h | h | h <;> simp [State.tileAt, h]
  rw [tileCheck_eq hlt, hown]
  cases allowed (s.tileAt v) <;> rfl

theorem tileCheck_of_outside (h : 512 ≤ v.toNat) : tileCheck s s.cur v allowed = some ⟨13, BitVec.ofNat 64 (v.toNat % 512), none⟩ := by
  simp [tileCheck, h, tileTrap_eq]

theorem tileCheck_of_foreign (hlt : v.toNat < 512) (hkernel : s.h.sup = false) (h : ∃ o, (s.tileAt v).owner = some o ∧ o ≠ s.h.ctx) :
    tileCheck s s.cur v allowed = some ⟨13, BitVec.ofNat 64 (2 ^ 13 + tileCode (s.tileAt v) * 2 ^ 11 + v.toNat), none⟩ := by
  obtain ⟨c, hc, hne⟩ := h
  rw [tileCheck_eq hlt, if_pos (by simp [hkernel, hc, hne])]

end

theorem shapeTrap_eq {value : Nat} (h : value < 65536) (reason entry : Nat) :
    shapeTrap reason value entry = ⟨14, BitVec.ofNat 64 (value * 2 ^ 24 + reason * 256 + entry), none⟩ := by
  rw [shapeTrap, Nat.mod_eq_of_lt h]
  rfl

/-- The block check, dimension by dimension (R153). -/
theorem blockTrap_eq (s : State) (o : Word) {R C : Nat} (hR : R ≤ 128) (hC : C ≤ 128) :
    blockTrap s.h o R C =
      if s.h.windowRows / 2 < o.toNat % 256 + R then some ⟨14, BitVec.ofNat 64 ((o.toNat % 256 + R) * 2 ^ 24 + 4 * 256), none⟩
      else if 128 < o.toNat / 256 % 256 + C then some ⟨14, BitVec.ofNat 64 ((o.toNat / 256 % 256 + C) * 2 ^ 24 + 4 * 256), none⟩ else none := by
  have hrow : originRow o = o.toNat % 256 := by simp [originRow, bits]
  have hcol : originCol o = o.toNat / 256 % 256 := by simp [originCol, bits]
  rw [blockTrap, hrow, hcol, shapeTrap_eq (by omega), shapeTrap_eq (by omega)]
  rfl

theorem Def.kind_lt (d : Def) : d.kind < 8 := Nat.mod_lt _ (by decide)

theorem Def.shape_rows_lt (d : Def) (base : Nat) : (d.shape base).rows < 512 := by
  have hrows : (d.shape base).rows = d.rows := by unfold Def.shape; split <;> rfl
  rw [hrows]
  exact Nat.mod_lt _ (by decide)

theorem Def.shape_cols_lt (d : Def) (base : Nat) : (d.shape base).cols < 2 ^ 14 := by
  have hcolumns : columns d.width < 2 ^ 14 := (Nat.div_le_self ..).trans_lt (by decide)
  have hfield : d.cols < 2 ^ 14 := Nat.mod_lt _ (by decide)
  have hone : 1 < 2 ^ 14 := by decide
  unfold Def.shape
  split
  exacts [hcolumns, hone, hone, hone, hfield]

/-- The rows that a matrix multiply has (R162). -/
def Hart.mmaM (a : Hart) (code : Nat) (va : Reg) : Nat :=
  if planesFor code = 0 then (a.shapeOf va).rows else if (a.getDef va).kind = 1 then 128 else (a.shapeOf va).cols / 64

theorem Hart.mmaM_lt (a : Hart) (code : Nat) (va : Reg) : a.mmaM code va < 65536 := by
  have hrows := (a.getDef va).shape_rows_lt a.base
  have hcols := (a.getDef va).shape_cols_lt a.base
  unfold Hart.mmaM
  unfold Hart.shapeOf
  split
  · omega
  · split <;> omega

/-- The checks of A's shape in the order of R160. -/
theorem mmaShape_eq (v : MmaKind) (code : Nat) (va : Reg) (a : Hart) : mmaShape v code va a =
    let kd := (a.getDef va).kind
    let p := a.shapeOf va
    let tval (reason value : Nat) : Trap := ⟨14, BitVec.ofNat 64 (value * 2 ^ 24 + reason * 256 + va.toNat), none⟩
    if ¬(if planesFor code = 0 then kd = 5 ∨ kd = 6 else kd = 1 ∨ kd = 5) then some (tval 0 kd)
    else if (if planesFor code = 0 then v ≠ .sparse ∧ p.cols ≠ depthOf code else kd = 5 ∧ p.cols % 64 ≠ 0) then some (tval 1 p.cols)
    else if a.mmaM code va = 0 ∨ 128 < a.mmaM code va then some (tval 2 (a.mmaM code va))
    else if planesFor code ≠ 0 ∧ p.rows ≠ planesFor code then some (tval 5 p.rows) else none := by
  have hkd := (a.getDef va).kind_lt
  have hrows := (a.getDef va).shape_rows_lt a.base
  have hcols := (a.getDef va).shape_cols_lt a.base
  have hkinds : ((!(if planesFor code = 0 then [5, 6] else [1, 5]).contains (a.getDef va).kind) = true) =
      ¬(if planesFor code = 0 then (a.getDef va).kind = 5 ∨ (a.getDef va).kind = 6 else (a.getDef va).kind = 1 ∨ (a.getDef va).kind = 5) := by
    split <;> simp
  have htrap {reason value : Nat} (h : value < 65536) := shapeTrap_eq h reason va.toNat
  change (if (!(if planesFor code = 0 then [5, 6] else [1, 5]).contains (a.getDef va).kind) = true then some (shapeTrap 0 (a.getDef va).kind va.toNat)
    else if (if planesFor code = 0 then v ≠ .sparse ∧ (a.shapeOf va).cols ≠ mmaDepth code else (a.getDef va).kind = 5 ∧ (a.shapeOf va).cols % 64 ≠ 0)
      then some (shapeTrap 1 (a.shapeOf va).cols va.toNat)
    else if a.mmaM code va = 0 ∨ 128 < a.mmaM code va then some (shapeTrap 2 (a.mmaM code va) va.toNat)
    else if planesFor code ≠ 0 ∧ (a.shapeOf va).rows ≠ planesFor code then some (shapeTrap 5 (a.shapeOf va).rows va.toNat) else none) = _
  rw [htrap (show (a.getDef va).kind < 65536 by omega), htrap (show (a.shapeOf va).cols < 65536 by unfold Hart.shapeOf; omega), htrap (a.mmaM_lt code va),
    htrap (show (a.shapeOf va).rows < 65536 by unfold Hart.shapeOf; omega), mmaDepth_eq_depthOf]
  simp only [hkinds]

/-- A shape that R160 takes. -/
theorem mmaShape_eq_none {v : MmaKind} {code : Nat} {va : Reg} {a : Hart}
    (hshape : if planesFor code = 0 then ((a.getDef va).kind = 5 ∨ (a.getDef va).kind = 6) ∧ (v ≠ .sparse → (a.shapeOf va).cols = depthOf code)
      else (a.shapeOf va).rows = planesFor code ∧ ((a.getDef va).kind = 1 ∨ (a.getDef va).kind = 5 ∧ (a.shapeOf va).cols % 64 = 0))
    (hM1 : 1 ≤ a.mmaM code va) (hM2 : a.mmaM code va ≤ 128) : mmaShape v code va a = none := by
  rw [mmaShape_eq]
  dsimp only
  split at hshape
  case isTrue h =>
    obtain ⟨hkind, hcols⟩ := hshape
    rw [if_neg (by rw [if_pos h]; exact not_not.mpr hkind), if_neg (by simpa [h] using hcols), if_neg (by omega), if_neg (by simp [h])]
  case isFalse h =>
    obtain ⟨hrows, hkind⟩ := hshape
    rw [if_neg (by simp [h]; omega), if_neg (by simp [h]; omega), if_neg (by omega), if_neg (by simp [hrows])]

end Sys2Proof.Machine
end

section
/-! A matrix multiply that runs whole: its start and its end on the tile, its rows, and the names that it advances (R49, R155, R163). -/
namespace Sys2Proof.Machine

/-! ### The tile in use -/

theorem Core.tile_setTile (c : Core) (t : Nat) (v : Tile) (n : Nat) : (c.setTile t v).tile n = if n = t then v else c.tile n := FMap.get_set _ _ _ _ _

theorem Core.dropUses_of_tileUse {e : QEntry} {t : Nat} (h : e.tileUse = some t) (c : Core) :
    c.dropUses [e] = c.setTile t { c.tile t with uses := (c.tile t).uses - 1 } := by
  simp [Core.dropUses, h]

/-- A core with one more use of a tile. -/
def Core.useTile (c : Core) (t : Nat) : Core := c.setTile t { c.tile t with uses := (c.tile t).uses + 1 }

/-- A use that has begun and ended leaves every tile as it was. -/
theorem Core.tile_dropUses_useTile {e : QEntry} {t : Nat} (h : e.tileUse = some t) {k c : Core} (hk : k.tiles = (c.useTile t).tiles) (n : Nat) :
    (k.dropUses [e]).tile n = c.tile n := by
  have htile (m : Nat) : k.tile m = (c.useTile t).tile m := congrArg (fun l => FMap.get Tile.reset l m) hk
  rw [Core.dropUses_of_tileUse h, Core.tile_setTile, htile, htile, Core.useTile, Core.tile_setTile, Core.tile_setTile]
  split
  case isTrue heq => subst heq; simp
  case isFalse hne => rfl

theorem State.SameButUnits.trans {t v u : State} (h : t.SameButUnits v) (h' : v.SameButUnits u) : t.SameButUnits u :=
  (congrArg (fun x : State => { x with
    harts := u.harts
    cores := u.cores }) h :).trans h'

theorem State.SameButUnits.modCore_self (u : State) (c : Nat) (f : Core → Core) : (u.modCore c f).SameButUnits u := rfl

theorem State.CoreIs.trans {u v w : State} {c : Nat} {j k : Core} (hv : v.CoreIs u c j) (hw : w.CoreIs v c k) : w.CoreIs u c k :=
  ⟨fun h => (hw.hart h).trans (hv.hart h), hw.core, fun d hne => (hw.others d hne).trans (hv.others d hne), hw.same.trans hv.same⟩

/-! ### Names advanced -/

/-- The hart with the definitions of some names advanced in turn. -/
def Hart.advanceDefs (a : Hart) (l : List Reg) : Hart :=
  l.foldl (fun (a : Hart) r => { a with defs := a.defs.set r.toNat (a.getDef r).advance (by omega) }) a

theorem Hart.advanceDefs_eq {l : List Reg} (hl : l.Nodup) (a : Hart) :
    ∃ ds : Vector Def 32, a.advanceDefs l = { a with defs := ds } ∧ ∀ r : Reg, ds[r.toNat] = if r ∈ l then (a.getDef r).advance else a.getDef r := by
  induction l generalizing a with
  | nil => exact ⟨a.defs, rfl, fun _ => rfl⟩
  | cons q l ih =>
    obtain ⟨hq, hl⟩ := List.nodup_cons.mp hl
    obtain ⟨ds, heq, hds⟩ := ih hl { a with defs := a.defs.set q.toNat (a.getDef q).advance (by omega) }
    refine ⟨ds, heq, fun r => ?_⟩
    have hset : Hart.getDef { a with defs := a.defs.set q.toNat (a.getDef q).advance (by omega) } r = if r = q then (a.getDef q).advance else a.getDef r := by
      simp only [Hart.getDef, Vector.getElem_set, eq_comm (a := q.toNat), BitVec.toNat_inj]
    rw [hds, hset]
    by_cases hr : r = q
    · subst hr; simp [hq]
    · simp [hr]

/-- The names of a variant. -/
def mmaRegs (v : MmaKind) (va : Reg) : List Reg := if v = .dense then [va] else if v = .sparse then [va, va + 1] else [va, va + 1, va + 2]

theorem mmaRegs_nodup (v : MmaKind) (va : Reg) : (mmaRegs v va).Nodup := by
  cases v <;> simp [mmaRegs]

theorem mmaNames_entries (v : MmaKind) (code : Nat) (va : Reg) (a : Hart) : ((mmaNames v code va a).map (·.entry)).eraseDups = mmaRegs v va := by
  cases v <;> simp [mmaNames, mmaRegs, nextEntry_one, nextEntry_two, List.eraseDups_cons]

/-! ### The rows -/

theorem State.SameHomes.badAt {t s : State} (h : t.SameHomes s) : t.badAt = s.badAt := (congrArg State.badAt h :)

theorem State.SameHomes.homeBytes {t s : State} (h : t.SameHomes s) : t.homeBytes = s.homeBytes := (congrArg State.homeBytes h :)

/-- A tile none of whose bytes is uncorrectable. -/
theorem tileBad_eq_nil {s : State} {c t : Nat} (h : ∀ q, q < 4096 → s.badAt (localPa c (4096 * t) + q) = none) : tileBad s c t = [] := by
  refine List.filterMap_eq_nil_iff.mpr fun i hi => ?_
  have hsector : s.badRange (localPa c (4096 * t + 64 * i)) 64 = none := firstBad_eq_none fun q hq => by
    have := List.mem_range.mp hi
    rw [show localPa c (4096 * t + 64 * i) + q = localPa c (4096 * t) + (64 * i + q) by unfold localPa; omega]
    exact h _ (by omega)
  rw [hsector]
  rfl

/-- Cell (m, j) of the block as the multiply leaves it, with its flags. -/
def State.mmaCell (s : State) (v : MmaKind) (va : Reg) (code B : Nat) (o t : Reg) (m j : Nat) : FRes :=
  s.matrixUpdate v va code B (leNat (s.homeBytes (localPa (coreOf s.cur) (4096 * (s.h.getX t).toNat)) 4096))
    ((s.core (coreOf s.cur)).accCell (s.blockCell (s.h.getX o) m j)) m j

/-- The flags of row m. -/
def State.mmaRowFlags (s : State) (v : MmaKind) (va : Reg) (code B : Nat) (o t : Reg) (m : Nat) : Flags :=
  (List.range 64).foldl (fun g j => g ||| (s.mmaCell v va code B o t m j).2) 0

section
variable {s u : State} (hs : MatrixIdle s) (hu : ChargeOnly s u) {v : MmaKind} {va o t : Reg} {adv : BitVec 1} {f : BitVec 5} {e : QEntry}
  (hva : e.va = s.h.getX t) (hvb : e.vb = s.h.getX o)
include hs hu hva hvb

/-- The rows of a matrix multiply, on the state that its start left. -/
theorem opMmaKind_run (hcode : f.toNat ≤ 22) (hwidth : (s.h.getDef va).width = fmtWidth f.toNat)
    (hblock : v = .scaled → ∀ k, k < depthOf f.toNat → k / blkLen e.vtype < depthOf f.toNat / blkLen e.vtype)
    (hcol : (s.h.getX o).toNat / 256 % 256 + 64 ≤ 128)
    (hsound : ∀ q, q < 4096 → s.badAt (localPa (coreOf s.cur) (4096 * (s.h.getX t).toNat) + q) = none) (hi : Nat) :
    ∃ w k, (opMmaKind v va adv f o t).run ((opMmaKind v va adv f o t).start u s.cur e) s.cur e s.h.estart.toNat hi =
        { state := w, flags := rowFlags (s.mmaRowFlags v va f.toNat (blkLen e.vtype) o t) s.h.estart.toNat hi } ∧
      w.CoreIs u (coreOf s.cur) k ∧ k.RowsWritten ((u.core (coreOf s.cur)).useTile (s.h.getX t).toNat) (s.blockCell (s.h.getX o)) s.h.estart.toNat
        (max s.h.estart.toNat hi) 64 fun i j => (s.mmaCell v va f.toNat (blkLen e.vtype) o t i j).1 := by
  have hbegun := (State.CoreIs.refl u (coreOf s.cur)).modCore fun c => c.useTile (s.h.getX t).toNat
  have hstart : (opMmaKind v va adv f o t).start u s.cur e = u.modCore (coreOf s.cur) fun c => c.useTile (s.h.getX t).toNat := by
    rw [← hva]
    rfl
  rw [hstart]
  generalize u.modCore (coreOf s.cur) (fun c => c.useTile (s.h.getX t).toNat) = b at hbegun
  have hbad : tileBad b (coreOf s.cur) (s.h.getX t).toNat = [] := tileBad_eq_nil fun q hq => by
    rw [hbegun.same.sameHomes.badAt, hu.same.sameHomes.badAt]
    exact hsound q hq
  have hbytes : b.homeBytes = s.homeBytes := hbegun.same.sameHomes.homeBytes.trans hu.same.sameHomes.homeBytes
  have hbadAcc : (b.core (coreOf s.cur)).badAcc = [] := by rw [hbegun.core]; exact (hu.badAcc _).trans hs.acc
  have hrows : ∃ w k, (opMmaKind v va adv f o t).run b s.cur e s.h.estart.toNat hi =
        { state := w, flags := rowFlags (s.mmaRowFlags v va f.toNat (blkLen e.vtype) o t) s.h.estart.toNat hi } ∧
      w.CoreIs b (coreOf s.cur) k ∧ k.RowsWritten (b.core (coreOf s.cur)) (s.blockCell (s.h.getX o)) s.h.estart.toNat
        (max s.h.estart.toNat hi) 64 fun i j => (s.mmaCell v va f.toNat (blkLen e.vtype) o t i j).1 := by
    refine runRows_writeRow hbadAcc (fun _ _ _ _ _ hj hj' => blockCell_inj hcol hj hj') (fun {x m k} hlo _ hx hk => ?_) s.cur
    have hrest : { k with acc := (b.core (coreOf s.cur)).acc } = (u.core (coreOf s.cur)).useTile (s.h.getX t).toNat := hk.rest.trans hbegun.core
    have hread (p : Shape) (i : Nat) : (x.core (coreOf s.cur)).matrixElem p i = .ok ((s.core (coreOf s.cur)).elem p i) := by
      have hplane : k.badPlane = (u.core (coreOf s.cur)).badPlane := (congrArg Core.badPlane hrest :)
      have helem : k.elem p i = (u.core (coreOf s.cur)).elem p i := (congrArg (fun c => Core.elem c p i) hrest :)
      rw [hx.core, Core.matrixElem_of_sound (hplane.trans ((hu.badPlane _).trans hs.sound)), helem, hu.elem]
    have hcell (j : Nat) (_ : j < 64) : (x.core (coreOf s.cur)).readAcc (s.blockCell (s.h.getX o) m j) =
        .ok ((s.core (coreOf s.cur)).accCell (s.blockCell (s.h.getX o) m j)) := by
      have hfresh : k.accCell (s.blockCell (s.h.getX o) m j) = (b.core (coreOf s.cur)).accCell (s.blockCell (s.h.getX o) m j) :=
        hk.others _ fun i j' _ hlt hj' heq => absurd (blockCell_inj hcol ‹j < 64› hj' heq).1 (Nat.ne_of_gt hlt)
      have hkbad : k.badAcc = (b.core (coreOf s.cur)).badAcc := (congrArg Core.badAcc hk.rest :)
      rw [hx.core, Core.readAcc_of_sound (hkbad.trans hbadAcc), hfresh, hbegun.core]
      exact congrArg Except.ok (hu.accCell _ _)
    have hrow := mmaRow_eq (a := b.hart s.cur) (c := x.core (coreOf s.cur)) (B := blkLen e.vtype) hread
      (fun r => (congrArg (Hart.shapeOf · r) (hbegun.hart s.cur)).trans (hu.shapeOf ..))
      ((congrArg Hart.arow0 (hbegun.hart s.cur)).trans (hu.arow0 _)) hcode hwidth hblock hcell
      (leNat (s.homeBytes (localPa (coreOf s.cur) (4096 * (s.h.getX t).toNat)) 4096))
    rw [hva, hvb, hbad, hbytes, hrow]
    simp only [Except.map, List.foldl_map]
    rfl
  rw [hbegun.core] at hrows
  obtain ⟨w, k, hrun, hw, hk⟩ := hrows
  exact ⟨w, k, hrun, hbegun.trans hw, hk⟩

end

end Sys2Proof.Machine
end

section
/-! MMA, MMAS and MMAG: their checks, and what they leave (R160 to R164). -/
namespace Sys2Proof.Machine

/-- What the word of a matrix multiply may be in a variant: the formats, and those that have planes (R161). -/
structure MmaWord (s : State) (i : Instr) (v : MmaKind) (va : Reg) (adv : BitVec 1) (f : BitVec 5) (o t : Reg) : Prop where
  runs : RunsRows s i (opMmaKind v va adv f o t)
  uses : (s.entryOf i (opMmaKind v va adv f o t)).tileUse = some ((s.h.getX t).toNat % 512)
  code : f.toNat ≤ 22
  planes : v ≠ .dense → planesFor f.toNat = 0
  scaled : v = .scaled → f.toNat = 11 ∨ f.toNat = 12 ∨ f.toNat = 13

theorem mmaWord_of_mem {s : State} {i : Instr} {v : MmaKind} {va o t : Reg} {adv : BitVec 1} {f : BitVec 5}
    (hi : (i, v) ∈ [(Instr.mma va adv f o t, MmaKind.dense), (.mmas va adv f o t, .scaled), (.mmag va adv f o t, .sparse)]) (hwf : i.wf = true) :
    MmaWord s i v va adv f o t := by
  simp only [List.mem_cons, Prod.mk.injEq, List.not_mem_nil, or_false] at hi
  rcases hi with ⟨rfl, rfl⟩ | ⟨rfl, rfl⟩ | ⟨rfl, rfl⟩
  · have hcodes : f.toNat ∈ [0, 9, 10, 11, 12, 16, 17, 18, 19, 20, 21, 22] := by simpa [Instr.wf] using hwf
    exact ⟨⟨rfl, rfl, rfl⟩, rfl, by simp at hcodes; omega, nofun, nofun⟩
  · have hcodes : f.toNat = 11 ∨ f.toNat = 12 ∨ f.toNat = 13 := by
      simp [Instr.wf] at hwf
      exact hwf.1
    exact ⟨⟨rfl, rfl, rfl⟩, rfl, by omega, fun _ => if_neg (by omega), fun _ => hcodes⟩
  · have hcodes : f.toNat ∈ [0, 9, 10, 11, 12] := by
      simp [Instr.wf] at hwf
      simpa using hwf.1
    exact ⟨⟨rfl, rfl, rfl⟩, rfl, by simp at hcodes; omega, fun _ => if_neg (by simp at hcodes; omega), nofun⟩

/-- Only the scaled variant has blocks. -/
theorem matrixUpdate_of_not_scaled {v : MmaKind} (h : v ≠ .scaled) (s : State) (va : Reg) (code B B' tile acc m j : Nat) :
    s.matrixUpdate v va code B tile acc m j = s.matrixUpdate v va code B' tile acc m j := by
  simp [State.matrixUpdate, h]

theorem Tile.forMma_iff {t : Tile} : t.forMma = true ↔ t.st = .ready := beq_iff_eq

section
variable {s : State} {i : Instr} {v : MmaKind} {va o t : Reg} {adv : BitVec 1} {f : BitVec 5}

theorem Usable.any {r : Reg} {w n : Nat} (h : Usable s r w n) : Usable s r w 0 := ⟨h.wf, h.width, h.inside, Nat.zero_le _⟩

/-- The names of a variant can be used where each has its format and lies in the window. -/
theorem mmaNames_usable (ha : Usable s va (fmtWidth f.toNat) 0) (h1 : v ≠ .dense → Usable s (va + 1) 8 0) (h2 : v = .scaled → Usable s (va + 2) 8 0)
    (e : QEntry) : ∀ n ∈ (opMmaKind v va adv f o t).names s.h e, Usable s n.entry n.w n.need := by
  cases v with
  | dense => simpa [opMmaKind, mmaNames] using ha
  | scaled => simpa [opMmaKind, mmaNames, nextEntry_one, nextEntry_two] using ⟨ha, h1 nofun, h2 rfl⟩
  | sparse => simpa [opMmaKind, mmaNames, nextEntry_one] using ⟨ha, h1 nofun⟩

/-- The checks after those of the names. -/
def State.mmaPost (s : State) (v : MmaKind) (va : Reg) (f : BitVec 5) (o t : Reg) (e : QEntry) : Option Trap :=
  ((((tileCheck s s.cur (s.h.getX t) Tile.forMma).or (mmaShape v f.toNat va s.h)).or (mmaCounts v f.toNat va s.h (blkLen s.h.vtype))).or
    (blockTrap s.h (s.h.getX o) (s.h.mmaM f.toNat va) 64)).or (if v = .scaled then blkCheck e else none)

theorem opMmaKind_post : (opMmaKind v va adv f o t).post s s.cur (newEntry i (opMmaKind v va adv f o t) s.h) =
    (s, s.mmaPost v va f o t (newEntry i (opMmaKind v va adv f o t) s.h)) := rfl

theorem mmaPost_of_shape {e : QEntry} {x : Trap} (htile : tileCheck s s.cur (s.h.getX t) Tile.forMma = none) (hshape : mmaShape v f.toNat va s.h = some x) :
    s.mmaPost v va f o t e = some x := by
  rw [State.mmaPost, htile, hshape]
  rfl

/-- The counts of scales or indices suffice (R160). -/
theorem mmaCounts_eq_none {B M : Nat} (hM : v ≠ .dense → (s.h.shapeOf va).rows = M)
    (h1 : v = .sparse → Usable s (va + 1) 8 (M * (s.h.shapeOf va).cols))
    (h2 : v = .scaled → Usable s (va + 1) 8 (M * (depthOf f.toNat / B)) ∧ Usable s (va + 2) 8 (depthOf f.toNat / B * 64)) :
    mmaCounts v f.toNat va s.h B = none := by
  unfold mmaCounts
  rw [nextEntry_one, nextEntry_two, mmaDepth_eq_depthOf]
  cases v with
  | dense => rfl
  | sparse => exact if_neg (by rw [hM nofun]; exact Nat.not_lt.mpr (h1 rfl).holds)
  | scaled =>
    obtain ⟨ha, hb⟩ := h2 rfl
    dsimp only
    rw [if_neg (by rw [hM nofun]; exact Nat.not_lt.mpr ha.holds)]
    exact if_neg (Nat.not_lt.mpr hb.holds)

/-- The checks pass where each of them does. -/
theorem mmaPost_eq_none {e : QEntry} (htile : tileCheck s s.cur (s.h.getX t) Tile.forMma = none) (hshape : mmaShape v f.toNat va s.h = none)
    (hcounts : mmaCounts v f.toNat va s.h (blkLen s.h.vtype) = none) (hfits : s.blockFits (s.h.getX o) (s.h.mmaM f.toNat va) 64)
    (hblock : v = .scaled → blkCheck e = none) : s.mmaPost v va f o t e = none := by
  rw [State.mmaPost, htile, hshape, hcounts, blockTrap_of_fits hfits]
  cases v with
  | scaled => rw [if_pos rfl, hblock rfl]; rfl
  | _ => rfl

/-- The number of blocks of a row of the scaled variant is exact (R162, R164). -/
theorem div_blkLen_lt (hcode : f.toNat = 11 ∨ f.toNat = 12 ∨ f.toNat = 13) {w : Word} (hw : w.toNat / 128 % 4 ≠ 0) {k : Nat}
    (hk : k < depthOf f.toNat) : k / blkLen w < depthOf f.toNat / blkLen w := by
  have hdvd : blkLen w ∣ depthOf f.toNat := by
    have hdepth : 64 ∣ depthOf f.toNat := by rcases hcode with h | h | h <;> rw [h] <;> decide
    have hlen : blkLen w ∣ 64 := by
      rw [blkLen_eq, if_neg hw]
      obtain h | h | h : w.toNat / 128 % 4 = 1 ∨ w.toNat / 128 % 4 = 2 ∨ w.toNat / 128 % 4 = 3 := by omega
      all_goals rw [h]; decide
    exact hlen.trans hdepth
  exact Nat.div_lt_div_of_lt_of_dvd hdvd hk

theorem mmaCell_blkLen (hblk : v = .scaled → s.h.vtype.toNat / 128 % 4 ≠ 0) (code m j : Nat) :
    s.mmaCell v va code (blkLen s.h.vtype) o t m j = s.mmaCell v va code (8 * 2 ^ (s.h.vtype.toNat / 128 % 4)) o t m j := by
  by_cases hv : v = .scaled
  · rw [blkLen_eq, if_neg (hblk hv)]
  · exact matrixUpdate_of_not_scaled hv ..

theorem opMmaKind_redefine (e : QEntry) (a : Hart) : ∃ ds : Vector Def 32, (opMmaKind v va adv f o t).redefine e a = { a with defs := ds } ∧
    ∀ r : Reg, ds[r.toNat] = if adv = 1 ∧ r ∈ mmaRegs v va then (a.getDef r).advance else a.getDef r := by
  have hredefine : (opMmaKind v va adv f o t).redefine e a = if adv = 1 then a.advanceDefs (mmaRegs v va) else a := by
    rw [← mmaNames_entries v f.toNat va a]
    rfl
  rw [hredefine]
  by_cases hadv : adv = 1
  case pos =>
    obtain ⟨ds, heq, hds⟩ := Hart.advanceDefs_eq (mmaRegs_nodup v va) a
    exact ⟨ds, (if_pos hadv).trans heq, fun r => by simp [hds, hadv]⟩
  case neg => exact ⟨a.defs, if_neg hadv, fun r => (if_neg fun h => hadv h.1).symm⟩

theorem rowFlags_mmaRowFlags (B R : Nat) : rowFlags (s.mmaRowFlags v va f.toNat B o t) s.h.estart.toNat R =
    s.blockFlags R 64 fun m j => (s.mmaCell v va f.toNat B o t m j).2 := (blockFlags_eq_rowFlags ..).symm

/-- A matrix multiply whose checks pass: the cells of its block, its flags, the names that it advances, and what it leaves. -/
theorem MmaWord.completes (hw : MmaWord s i v va adv f o t) (hs : MatrixIdle s)
    (hnames : ∀ n ∈ (opMmaKind v va adv f o t).names s.h (newEntry i (opMmaKind v va adv f o t) s.h), Usable s n.entry n.w n.need)
    (hpost : s.mmaPost v va f o t (newEntry i (opMmaKind v va adv f o t) s.h) = none) (hwidth : (s.h.getDef va).width = fmtWidth f.toNat)
    (hmay : (s.h.getX t).toNat < 512) (hsound : ∀ q, q < 4096 → s.badAt (localPa (coreOf s.cur) (4096 * (s.h.getX t).toNat) + q) = none)
    (hfits : s.blockFits (s.h.getX o) (s.h.mmaM f.toNat va) 64) (hblk : v = .scaled → s.h.vtype.toNat / 128 % 4 ≠ 0) :
    let u (m j : Nat) := s.mmaCell v va f.toNat (8 * 2 ^ (s.h.vtype.toNat / 128 % 4)) o t m j
    let c := s.core (coreOf s.cur)
    ∃ (k : Core) (ds : Vector Def 32),
      CompletesOn i s (s.issues i) (Hart.advance { (s.issues i).h with
        estart := 0
        fctl := fctlSet s.h.fctl (s.blockFlags (s.h.mmaM f.toNat va) 64 fun m j => (u m j).2)
        defs := ds }) k ∧
      s.blockHolds k (s.h.getX o) (s.h.mmaM f.toNat va) 64 (fun m j => (u m j).1) ∧ k.plane = c.plane ∧ k.l2 = c.l2 ∧ (∀ x, k.tile x = c.tile x) ∧
      ∀ r : Reg, ds[r.toNat] = if adv = 1 ∧ r ∈ mmaRegs v va then (s.h.getDef r).advance else s.h.getDef r := by
  intro u c
  obtain ⟨hruns, huse, hcode, -, hscaled⟩ := hw
  have hu := chargeOnly_issues s i
  rw [Nat.mod_eq_of_lt hmay] at huse
  obtain ⟨w, k, hrun, hwk, hk⟩ := opMmaKind_run hs hu (adv := adv) (o := o) (t := t) (e := s.entryOf i (opMmaKind v va adv f o t)) rfl rfl hcode
    hwidth (fun hv _ hlt => div_blkLen_lt (hscaled hv) (hblk hv) hlt) hfits.2 hsound (s.h.mmaM f.toNat va)
  rw [rowFlags_mmaRowFlags] at hrun
  have hcells : s.mmaCell v va f.toNat (blkLen (s.entryOf i (opMmaKind v va adv f o t)).vtype) o t = u := funext₂ fun m j => mmaCell_blkLen hblk ..
  rw [hcells] at hrun hk
  have hdone := hruns.completesOn hs hnames (opMmaKind_post.trans (congrArg _ hpost)) hrun hwk
  obtain ⟨ds, hredefine, hds⟩ := opMmaKind_redefine (v := v) (va := va) (adv := adv) (f := f) (o := o) (t := t)
    (s.entryOf i (opMmaKind v va adv f o t)) { (s.issues i).h with
      estart := 0
      fctl := fctlSet s.h.fctl (s.blockFlags (s.h.mmaM f.toNat va) 64 fun m j => (u m j).2) }
  rw [hredefine] at hdone
  have hdef (r : Reg) : (s.issues i).h.getDef r = s.h.getDef r := by
    obtain ⟨x, y, hh⟩ := hu.hart s.cur
    rw [State.h, hu.same.cur_eq, hh]
    rfl
  obtain ⟨m, l, hcore⟩ := hu.core (coreOf s.cur)
  have hdrop := Core.dropUses_of_tileUse huse k
  refine ⟨_, ds, hdone, hk.holds (fun q => hu.accCell _ q) ?acc, ?plane, ?l2, fun x => ?tile, fun r => (hds r).trans ?defs⟩
  case acc => rw [hdrop]; rfl
  case plane =>
    have hplane : k.plane = ((s.issues i).core (coreOf s.cur)).plane := (congrArg Core.plane hk.rest :)
    rw [hdrop]
    exact hplane.trans (by rw [hcore])
  case l2 =>
    have hl2 : k.l2 = ((s.issues i).core (coreOf s.cur)).l2 := (congrArg Core.l2 hk.rest :)
    rw [hdrop]
    exact hl2.trans (by rw [hcore])
  case tile =>
    have htile : ((s.issues i).core (coreOf s.cur)).tile x = (s.core (coreOf s.cur)).tile x := by rw [hcore]; rfl
    have htiles : k.tiles = (((s.issues i).core (coreOf s.cur)).useTile (s.h.getX t).toNat).tiles := (congrArg Core.tiles hk.rest :)
    exact (Core.tile_dropUses_useTile huse htiles x).trans htile
  case defs =>
    change (if adv = 1 ∧ r ∈ mmaRegs v va then ((s.issues i).h.getDef r).advance else (s.issues i).h.getDef r) = _
    rw [hdef]

end

end Sys2Proof.Machine
end

section
open Sys2Proof Sys2Proof.Machine

/-- Settles O45: the checks stand in the order of R160, and the rows are written one after another, with the tile in use until the last. -/
theorem matrixMultiply : Obligations.MatrixMultiply := by
  intro s i v va o t adv f hi hwf hs c p kd P K blk B M names tile tile_ fits badCols shape block row col
  obtain ⟨hruns, huse, hcode, hplanes, hscaled⟩ := mmaWord_of_mem (s := s) hi hwf
  refine ⟨fun ha h1 h2 hmay => ?checks, fun ha h1 h2 hmay hready hsound hshape hM1 hM2 hfits => ?completes⟩
  case checks =>
    have hnames := mmaNames_usable (t := t) (o := o) (adv := adv) ha h1 h2
    have hpost {code tval : Nat} (hpost : s.mmaPost v va f o t (newEntry i (opMmaKind v va adv f o t) s.h) = some ⟨code, BitVec.ofNat 64 tval, none⟩)
        (hcause : code ≠ causePreempt ∧ code ≠ causeYield) : TrapsAt i s code tval (some s.h.estart.toNat) :=
      hruns.trapsAt hs (hnames _) (opMmaKind_post.trans (congrArg (Prod.mk s) hpost)) hcause
    have htile := tileCheck_of_mayUse (allowed := Tile.forMma) hmay
    rw [show s.tileAt (s.h.getX t) = tile_ from rfl] at htile
    refine ⟨fun hst => hpost ?state (by decide), fun hst => ?shapes⟩
    case state =>
      rw [State.mmaPost, htile, if_neg (mt Tile.forMma_iff.mp hst)]
      rfl
    case shapes =>
      rw [if_pos (Tile.forMma_iff.mpr hst)] at htile
      have hrefuse {reason value : Nat} (h : mmaShape v f.toNat va s.h = some ⟨14, BitVec.ofNat 64 (value * 2 ^ 24 + reason * 256 + va.toNat), none⟩) :
          shape reason value := hpost (mmaPost_of_shape htile h) (by decide)
      have horder := mmaShape_eq v f.toNat va s.h
      refine ⟨fun hk => hrefuse (horder.trans (if_pos hk)), fun hk hc => hrefuse (horder.trans ((if_neg (not_not.mpr hk)).trans (if_pos hc))),
        fun hk hc hm => hrefuse (horder.trans ((if_neg (not_not.mpr hk)).trans ((if_neg hc).trans (if_pos hm)))), fun hk hc hm1 hm2 hp hr => ?rows,
        fun hk hc hm1 hm2 hp hv => ?block⟩
      case rows =>
        have hm : ¬(M = 0 ∨ 128 < M) := by omega
        exact hrefuse (horder.trans ((if_neg (not_not.mpr hk)).trans ((if_neg hc).trans ((if_neg hm).trans (if_pos ⟨hp, hr⟩)))))
      case block =>
        have hm : ¬(M = 0 ∨ 128 < M) := by omega
        have hshape : mmaShape v f.toNat va s.h = none :=
          horder.trans ((if_neg (not_not.mpr hk)).trans ((if_neg hc).trans ((if_neg hm).trans (if_neg fun h => h.2 (hp h.1)))))
        have hblock : s.mmaPost v va f o t (newEntry i (opMmaKind v va adv f o t) s.h) = blockTrap s.h (s.h.getX o) M 64 := by
          rw [State.mmaPost, htile, hshape, hv]
          exact Option.or_none
        rw [blockTrap_eq s _ hm2 (by decide)] at hblock
        exact ⟨fun hr => hpost (hblock.trans (if_pos hr)) (by decide),
          fun hr hcol => hpost (hblock.trans ((if_neg (Nat.not_lt.mpr hr)).trans (if_pos hcol))) (by decide)⟩
  case completes =>
    have hP : v ≠ .dense → P = 0 := hplanes
    have hB : v = .scaled → blkLen s.h.vtype = B := fun hv => by rw [blkLen_eq, if_neg (h2 hv).1]
    have hnames := mmaNames_usable (t := t) (o := o) (adv := adv) ha (fun hv => ?first) fun hv => (h2 hv).2.2.any
    case first =>
      cases v with
      | dense => exact absurd rfl hv
      | scaled => exact (h2 rfl).2.1.any
      | sparse => exact (h1 rfl).any
    have hpost (e : QEntry) (he : e.vtype = s.h.vtype) : s.mmaPost v va f o t e = none := by
      refine mmaPost_eq_none ?_ ?_ ?_ hfits fun hv => blkCheck_eq_none (by rw [he]; exact (h2 hv).1)
      · rw [tileCheck_of_mayUse hmay]
        exact if_pos (Tile.forMma_iff.mpr hready)
      · exact mmaShape_eq_none hshape hM1 hM2
      · exact mmaCounts_eq_none (fun hv => (if_pos (hP hv)).symm) h1 fun hv => by rw [hB hv]; exact (h2 hv).2
    exact MmaWord.completes ⟨hruns, huse, hcode, hplanes, hscaled⟩ hs (hnames _) (hpost _ rfl) ha.width hmay.1 hsound hfits fun hv => (h2 hv).1

end

section
/-! A command of the queue that uses no name: its checks, its issue, and its end at its commit (R195, R307). -/
namespace Sys2Proof.Machine

/-- The command with what is usual of one: it uses no name, is tied to no element, is no access of memory by itself, and does nothing before or after
its run. Its checks, its condition to issue and its run are its own. -/
def QOp.commandUsual (op : QOp) : QOp :=
  { op with
    elems := false
    pre := fun _ _ => none
    names := fun _ _ => []
    trace := fun _ _ _ => none
    start := fun s _ _ => s
    redefine := fun _ a => a
    closing := fun s _ _ => (s, none)
    finish := fun s _ _ => s
    atEnd := fun a => a }

/-- `op` is what instruction `i` does at the queue, and it is a command that uses no tile. -/
structure RunsCommand (s : State) (i : Instr) (op : QOp) : Prop where
  commits : exec i s = commitQueued i op s
  entry : entryOp i = some op
  usual : op.commandUsual = op
  kind : op.kind = .engine ∨ op.kind = .other
  noTile : (s.entryOf i op).tileUse = none

theorem ChargeOnly.stores {s u : State} (hu : ChargeOnly s u) (c : Nat) : (u.core c).stores = (s.core c).stores := by
  obtain ⟨m, l, hc⟩ := hu.core c
  rw [hc]

namespace RunsCommand
variable {s : State} {i : Instr} {op : QOp} (h : RunsCommand s i op) (hs : CanIssue s) (howner : op.owner = true → s.h.owns = true)
include h

theorem vector : op.vector = false := by
  have helems : op.elems = false := by rw [← h.usual]; rfl
  have hkind : op.kind ≠ .plane := by rcases h.kind with hk | hk <;> simp [hk]
  simp [QOp.vector, helems, hkind]

include howner

/-- Its checks come to those of its own, once the window is owned where it asks for that. -/
theorem check_eq : op.check s s.cur (newEntry i op s.h) = op.post s s.cur (newEntry i op s.h) := by
  have hown : (if op.owner then checkOwner s.h else none) = none := by
    split
    case isTrue ho => exact checkOwner_of_owns (howner ho)
    case isFalse => rfl
  have hearly : op.early s.h (newEntry i op s.h) = none := by
    rw [QOp.early, hown, ← h.usual]
    rfl
  unfold QOp.check
  rw [show op.early (s.hart s.cur) _ = none from hearly]

include hs

/-- A check of its own that fails traps at the commit, before any effect, and names no element. -/
theorem trapsAt {code tval : Nat} (hpost : op.post s s.cur (newEntry i op s.h) = (s, some ⟨code, BitVec.ofNat 64 tval, none⟩))
    (hcode : code ≠ causePreempt ∧ code ≠ causeYield) : TrapsAt i s code tval none := by
  have hrun := completesOn_trap (t := ⟨code, BitVec.ofNat 64 tval, none⟩) hs.runs hs.queues h.commits ((h.check_eq howner).trans hpost) hcode
  have htrap : op.trapAt s.h (op.trapOf (newEntry i op s.h) ⟨code, BitVec.ofNat 64 tval, none⟩) = ⟨code, BitVec.ofNat 64 tval, none⟩ := by
    simp [QOp.trapAt, QOp.trapOf, h.vector]
  rwa [htrap] at hrun

/-- With its checks passed it runs at its commit; of the state that its run leaves only the PC of its hart goes on. -/
theorem completes (hpost : op.post s s.cur (newEntry i op s.h) = (s, none)) (hready : op.ready s s.cur (newEntry i op s.h) = true) {v : State}
    (hrun : op.run (s.issues i) s.cur (s.entryOf i op) 0 (s.entryOf i op).len = { state := v }) (hv : v.cur = s.cur) :
    ∃ t, exec i s = .next t ∧ t.UnitsAre v s.cur (coreOf s.cur) (v.hart s.cur).advance (v.core (coreOf s.cur)) := by
  have hgo : s.issueTest s.cur op (newEntry i op s.h) = .go [] [] := by
    have hnames : ∀ a e, op.names a e = [] := by rw [← h.usual]; exact fun _ _ => rfl
    have hroom : s.unitsFree s.cur op.kind false = true := by
      rcases h.kind with hk | hk
      · simp [State.unitsFree, hk, hs.room]
      · simp [State.unitsFree, hk]
    simp [State.issueTest, hnames, Core.issueTest, hroom, hready]
  have hcommit := h.commits.trans (commitQueued_of_go hs.runs hs.queues h.entry ((h.check_eq howner).trans hpost) hgo (by rw [← h.usual]; rfl))
  have hu := chargeOnly_issues s i
  have hucur : (s.issues i).cur = s.cur := hu.same.cur_eq
  have hland : (s.issues i).landOwn s.cur = s.issues i := State.landOwn_of_stores_nil ((hu.stores _).trans hs.prompt.empty)
  have hstarts : (s.entryOf i op).startsAt = 0 := by
    change (if op.vector then s.h.es else 0) = 0
    rw [h.vector]
    rfl
  have hwhole : op.whole (s.issues i) (s.entryOf i op) = ((v.dropUses s.cur [s.entryOf i op]).modH fun a => a).modH Hart.advance := by
    have hbegin : op.begin_ (s.issues i) s.cur (s.entryOf i op) = s.issues i := by
      have hstart : ∀ u g e, op.start u g e = u := by rw [← h.usual]; exact fun _ _ _ => rfl
      rw [QOp.begin_, hstart, hland, ite_self]
    have hclosing : op.closing v s.cur (s.entryOf i op) = (v, none) := by rw [← h.usual]; rfl
    have hfinish : ∀ t, op.finish t s.cur (s.entryOf i op) = t := by rw [← h.usual]; exact fun _ => rfl
    have hatEnd : op.atEnd = fun a => a := by rw [← h.usual]; rfl
    have hredefine : ∀ e a, op.redefine e a = a := by rw [← h.usual]; exact fun _ _ => rfl
    have hcompleted : ∀ a, op.completed 0 a = a := fun a => by
      unfold QOp.completed
      rw [fctlSet_zero, h.vector]
      rfl
    have hsampled : (s.entryOf i op).sampled = none := rfl
    simp only [QOp.whole, hucur, hbegin, hstarts, hrun, hclosing, QOp.retire, State.emitSample, hsampled, hfinish, hatEnd, hv, hredefine, hcompleted]
  refine ⟨_, hcommit.trans (congrArg _ hwhole), ?_⟩
  have hend := (((State.UnitsAre.refl v v.cur (coreOf v.cur)).dropUses h.noTile).modH fun a => a).modH Hart.advance
  rwa [hv] at hend

end RunsCommand

end Sys2Proof.Machine
end

section
/-! TFETCH, TDRAIN, TILEREL, ROINV, SQOPEN and SQCLOSE without a completion object (R155, R198, R201, R206, R212). -/
namespace Sys2Proof.Machine

/-! ### Issue of an operation -/

/-- A state with an operation more in flight. -/
def State.withOp (u : State) (h : Nat) (kind : OpKind) : State := { u with ops := u.ops ++ [u.opOf h kind 0], nextOp := u.nextOp + 1 }

section
variable {s : State} {i : Instr} {op : QOp}

/-- A command without a completion object whose run puts its operation in flight and changes its core. -/
theorem RunsCommand.issuesOn (h : RunsCommand s i op) (hs : CanIssue s) (howner : op.owner = true → s.h.owns = true)
    (hpost : op.post s s.cur (newEntry i op s.h) = (s, none)) (hready : op.ready s s.cur (newEntry i op s.h) = true) {kind : OpKind} {f : Core → Core}
    (hrun : op.run (s.issues i) s.cur (s.entryOf i op) 0 (s.entryOf i op).len =
      { state := ((s.issues i).withOp s.cur kind).modCore (coreOf s.cur) f }) :
    IssuesOn i s (s.issues i) kind 0 (f ((s.issues i).core (coreOf s.cur))) := by
  have hcur : (s.issues i).cur = s.cur := (chargeOnly_issues s i).same.cur_eq
  have hdone := h.completes hs howner hpost hready hrun
  clear hrun
  generalize s.issues i = u at *
  obtain ⟨t, hexec, ht⟩ := hdone hcur
  exact ⟨t, hexec, ht.hart, ht.harts, ht.core.trans (State.core_modCore_same ..), fun c hne => (ht.cores c hne).trans (State.core_modCore_ne _ _ hne),
    ht.same.trans (.modCore_self (u.withOp s.cur kind) ..)⟩

/-- One whose run changes only its hart and its core. -/
theorem RunsCommand.completesOn (h : RunsCommand s i op) (hs : CanIssue s) (howner : op.owner = true → s.h.owns = true)
    (hpost : op.post s s.cur (newEntry i op s.h) = (s, none)) (hready : op.ready s s.cur (newEntry i op s.h) = true) {v : State} {a : Hart} {k : Core}
    (hrun : op.run (s.issues i) s.cur (s.entryOf i op) 0 (s.entryOf i op).len = { state := v })
    (hv : v.UnitsAre (s.issues i) s.cur (coreOf s.cur) a k) : CompletesOn i s (s.issues i) a.advance k := by
  have hcur : (s.issues i).cur = s.cur := (chargeOnly_issues s i).same.cur_eq
  obtain ⟨t, hexec, ht⟩ := h.completes hs howner hpost hready hrun (hv.same.cur_eq.trans hcur)
  exact ⟨t, hexec, ht.hart.trans (congrArg _ hv.hart), ht.core.trans hv.core, fun g hne => (ht.harts g hne).trans (hv.harts g hne),
    fun c hne => (ht.cores c hne).trans (hv.cores c hne),
    ht.same.trans hv.same⟩

end

theorem engineArg_eq (reason oper : Nat) : engineArg reason oper = ⟨15, BitVec.ofNat 64 (reason * 256 + oper), none⟩ := rfl

theorem ChargeOnly.pc {s u : State} (hu : ChargeOnly s u) (g : Nat) : (u.hart g).pc = (s.hart g).pc := by
  obtain ⟨v, b, hg⟩ := hu.hart g
  rw [hg]

theorem ChargeOnly.ctx {s u : State} (hu : ChargeOnly s u) (g : Nat) : (u.hart g).ctx = (s.hart g).ctx := by
  obtain ⟨v, b, hg⟩ := hu.hart g
  rw [hg]

theorem ChargeOnly.tile {s u : State} (hu : ChargeOnly s u) (c t : Nat) : (u.core c).tile t = (s.core c).tile t := by
  obtain ⟨m, l, hc⟩ := hu.core c
  rw [hc]
  rfl

/-! ### Rows of a tile in memory (R206) -/

theorem rowBytes_eq (C : Word) : rowBytes C = C.toNat % 65536 := by simp [rowBytes, bits]

theorem rowPitch_eq (C : Word) : rowPitch C = BitVec.ofInt 64 (C.toInt / 65536) := by
  have hlt := C.isLt
  rw [rowPitch]
  congr 1
  rw [BitVec.toInt_eq_toNat_cond]
  simp only [sxi, bits]
  split_ifs <;> omega

/-- The checks of the row descriptor and the row address in their order. -/
theorem rowChecks_eq (e : QEntry) : rowChecks e =
    if e.vc.toNat % 65536 ∉ [32, 64, 128, 256, 512, 1024, 2048, 4096] then some ⟨15, BitVec.ofNat 64 (256 + 3), none⟩
    else if e.vb.toNat % 32 ≠ 0 then some ⟨15, BitVec.ofNat 64 2, none⟩
    else if e.vc.toNat / 65536 % 32 ≠ 0 then some ⟨15, BitVec.ofNat 64 3, none⟩ else none := by
  have hlt := e.vc.isLt
  have hpitch : bits e.vc.toNat 63 16 % 32 = e.vc.toNat / 65536 % 32 := by
    simp only [bits]
    omega
  have hsize : ((!([32, 64, 128, 256, 512, 1024, 2048, 4096].contains (e.vc.toNat % 65536))) = true) =
      (e.vc.toNat % 65536 ∉ [32, 64, 128, 256, 512, 1024, 2048, 4096]) := by simp
  simp only [rowChecks, firstTrap, rowBytes_eq, hpitch, hsize, bne_iff_ne, engineArg_eq]

theorem rowChecks_of_okay {e : QEntry} (h : RowsOkay e.vb e.vc) : rowChecks e = none := by
  obtain ⟨⟨n, hlo, hhi, hn⟩, hrow, hpitch⟩ := h
  rw [rowChecks_eq, if_neg, if_neg (by omega), if_neg (by omega)]
  rw [hn, not_not]
  interval_cases n <;> decide

end Sys2Proof.Machine
end

section
/-! The commands on tiles: what each checks, and its run on the state that the charge left (R155, R206, R207). -/
namespace Sys2Proof.Machine

section
variable {s : State} {a b c : Reg}

theorem opTfetch_runs : RunsCommand s (.tfetch 0 a b c) (opTfetch 0 a b c) := ⟨rfl, rfl, rfl, .inl rfl, rfl⟩
theorem opTdrain_runs : RunsCommand s (.tdrain 0 a b c) (opTdrain 0 a b c) := ⟨rfl, rfl, rfl, .inl rfl, rfl⟩
theorem opTilerel_runs : RunsCommand s (.tilerel a) (opTilerel a) := ⟨rfl, rfl, rfl, .inr rfl, rfl⟩
theorem opRoinv_runs : RunsCommand s .roinv opRoinv := ⟨rfl, rfl, rfl, .inr rfl, rfl⟩
theorem opSqopen_runs : RunsCommand s (.sqopen 0 a b c) (opSqopen 0 a b c) := ⟨rfl, rfl, rfl, .inl rfl, rfl⟩
theorem opSqclose_runs : RunsCommand s (.sqclose 0 a) (opSqclose 0 a) := ⟨rfl, rfl, rfl, .inl rfl, rfl⟩

/-- The checks of the row operands, in the registers of a command. -/
def State.rowTrap (s : State) (b c : Reg) : Option Trap :=
  if (s.h.getX c).toNat % 65536 ∉ [32, 64, 128, 256, 512, 1024, 2048, 4096] then some ⟨15, BitVec.ofNat 64 (256 + 3), none⟩
  else if (s.h.getX b).toNat % 32 ≠ 0 then some ⟨15, BitVec.ofNat 64 2, none⟩
  else if (s.h.getX c).toNat / 65536 % 32 ≠ 0 then some ⟨15, BitVec.ofNat 64 3, none⟩ else none

theorem opTfetch_post : (opTfetch 0 a b c).post s s.cur (newEntry (.tfetch 0 a b c) (opTfetch 0 a b c) s.h) =
    (s, (tileCheck s s.cur (s.h.getX a) Tile.forFill).or
      ((firstTrap [(s.inStreamArea (coreOf s.cur) (4096 * (s.h.getX a).toNat) 4096, engineArg 3 1)]).or (s.rowTrap b c))) :=
  congrArg (fun r => (s, (tileCheck s s.cur (s.h.getX a) Tile.forFill).or
    ((firstTrap [(s.inStreamArea (coreOf s.cur) (4096 * (s.h.getX a).toNat) 4096, engineArg 3 1)]).or r)))
    (rowChecks_eq (newEntry (.tfetch 0 a b c) (opTfetch 0 a b c) s.h))

theorem opTdrain_post : (opTdrain 0 a b c).post s s.cur (newEntry (.tdrain 0 a b c) (opTdrain 0 a b c) s.h) =
    (s, (tileCheck s s.cur (s.h.getX a) Tile.forDrain).or (s.rowTrap b c)) :=
  congrArg (fun r => (s, (tileCheck s s.cur (s.h.getX a) Tile.forDrain).or r)) (rowChecks_eq (newEntry (.tdrain 0 a b c) (opTdrain 0 a b c) s.h))

theorem opTilerel_post : (opTilerel a).post s s.cur (newEntry (.tilerel a) (opTilerel a) s.h) =
    (s, tileCheck s s.cur (s.h.getX a) Tile.forRelease) := rfl

theorem rowTrap_of_okay (h : RowsOkay (s.h.getX b) (s.h.getX c)) : s.rowTrap b c = none :=
  (rowChecks_eq (newEntry (.tdrain 0 0 b c) (opTdrain 0 0 b c) s.h)).symm.trans (rowChecks_of_okay h)

theorem tileCheck_eq_none {v : Word} {allowed : Tile → Bool} (h : MayUseTile s v) (hrow : allowed (s.tileAt v) = true) :
    tileCheck s s.cur v allowed = none := by
  rw [tileCheck_of_mayUse h, if_pos hrow]

/-- A tile that TFETCH may fill leaves the checks of the rows. -/
theorem opTfetch_post_of_empty (hmay : MayUseTile s (s.h.getX a)) (hst : (s.tileAt (s.h.getX a)).st = .empty)
    (harea : s.inStreamArea (coreOf s.cur) (4096 * (s.h.getX a).toNat) 4096 = false) :
    (opTfetch 0 a b c).post s s.cur (newEntry (.tfetch 0 a b c) (opTfetch 0 a b c) s.h) = (s, s.rowTrap b c) := by
  rw [opTfetch_post, tileCheck_eq_none hmay (by simp [Tile.forFill, hst]), harea]
  rfl

/-- A tile that TDRAIN may drain leaves the checks of the rows. -/
theorem opTdrain_post_of_ready (hmay : MayUseTile s (s.h.getX a)) (hst : (s.tileAt (s.h.getX a)).st = .ready) :
    (opTdrain 0 a b c).post s s.cur (newEntry (.tdrain 0 a b c) (opTdrain 0 a b c) s.h) = (s, s.rowTrap b c) := by
  rw [opTdrain_post, tileCheck_eq_none hmay (by simp [Tile.forDrain, hst])]
  rfl

section
variable {u : State} (hu : ChargeOnly s u) {e : QEntry} (hva : e.va = s.h.getX a) (hvb : e.vb = s.h.getX b) (hvc : e.vc = s.h.getX c)
  (hvd : e.vd = 0) (hpc : e.pc = s.h.pc)
include hu hvd hpc

/-- An operation without a completion object starts. -/
theorem startOp_eq_withOp (kind : State → OpKind) : u.startOp s.cur 0 e.vd e.pc kind = { state := u.withOp s.cur (kind u) } := by
  rw [hvd, hpc, show s.h.pc = (u.hart s.cur).pc from (hu.pc s.cur).symm]
  rfl

include hva hvb hvc

/-- TFETCH puts its fill in flight, and the tile's entry is FILLING and owned. -/
theorem startFill_eq (lo hi : Nat) : startFill 0 u s.cur e lo hi =
    { state := (u.withOp s.cur (.fill (s.h.getX a).toNat (s.h.getX b) ((s.h.getX c).toNat % 65536) (BitVec.ofInt 64 ((s.h.getX c).toInt / 65536)))).modCore
        (coreOf s.cur) fun k => k.setTile (s.h.getX a).toNat { k.tile (s.h.getX a).toNat with st := .filling, owner := some s.h.ctx, flt := false } } := by
  rw [startFill, startOp_eq_withOp hu hvd hpc, hva, hvb, hvc, rowBytes_eq, rowPitch_eq]
  simp only [Done.andThen, State.modTile]
  rw [show ((u.withOp s.cur _).hart s.cur).ctx = s.h.ctx from hu.ctx s.cur]

/-- TDRAIN puts its drain in flight, and the tile's entry is DRAINING. -/
theorem startDrain_eq (lo hi : Nat) : startDrain 0 u s.cur e lo hi =
    { state := (u.withOp s.cur (.drain (s.h.getX a).toNat (s.h.getX b) ((s.h.getX c).toNat % 65536) (BitVec.ofInt 64 ((s.h.getX c).toInt / 65536)))).modCore
        (coreOf s.cur) fun k => k.setTile (s.h.getX a).toNat { k.tile (s.h.getX a).toNat with st := .draining, flt := false } } := by
  rw [startDrain, startOp_eq_withOp hu hvd hpc, hva, hvb, hvc, rowBytes_eq, rowPitch_eq]
  rfl

end

/-- TILEREL leaves the tile's entry EMPTY. -/
theorem opTilerel_run {u : State} (hu : ChargeOnly s u) {e : QEntry} (hva : e.va = s.h.getX a) (lo hi : Nat) : (opTilerel a).run u s.cur e lo hi =
    { state := u.modCore (coreOf s.cur) fun k => k.setTile (s.h.getX a).toNat ((k.tile (s.h.getX a).toNat).released s.h.sup) } := by
  have hsup : (u.hart s.cur).sup = s.h.sup := by
    obtain ⟨v, b, hg⟩ := hu.hart s.cur
    rw [hg]
    rfl
  rw [← hsup, ← hva]
  rfl

/-! ### Stream queues (R198, R201) -/

/-- The queue that SQOPEN opens. -/
def State.opened (s : State) (a b c : Reg) : Stream :=
  ⟨s.h.getX a, s.h.getX b, s.h.getX c, 0, 0, 0, false, (s.h.getX c).toNat % 65536 == 0, 0, none, s.xctx s.cur, s.h.pc, false, 0⟩

theorem ChargeOnly.xctx {u : State} (hu : ChargeOnly s u) (g : Nat) : u.xctx g = s.xctx g := by
  obtain ⟨v, b, hg⟩ := hu.hart g
  have hcamp : (u.camp (campOf g)).sroot = (s.camp (campOf g)).sroot := by rw [hu.same.sameHomes.camp]
  have hslot : ∀ k x, u.keySlotFor k x = s.keySlotFor k x := fun k x => (congrArg (fun t => State.keySlotFor t k x) hu.same :)
  rw [State.xctx, hcamp, hslot, hg]
  rfl

theorem ChargeOnly.stream {u : State} (hu : ChargeOnly s u) (g q : Nat) : u.stream g q = s.stream g q := by
  obtain ⟨v, b, hg⟩ := hu.hart g
  rw [State.stream, hg]
  rfl

/-- A queue without a completion object writes none. -/
theorem State.streamObject_eq_self {t : State} {v : Stream} (h : v.objPa = none) (g : Nat) (w : Word) : t.streamObject g v w = t := by
  rw [State.streamObject, h]
  rfl

section
variable {u : State} (hu : ChargeOnly s u) {e : QEntry}
include hu

theorem opSqopen_run (hva : e.va = s.h.getX a) (hvb : e.vb = s.h.getX b) (hvc : e.vc = s.h.getX c) (hvd : e.vd = 0) (hpc : e.pc = s.h.pc) (lo hi : Nat) :
    (opSqopen 0 a b c).run u s.cur e lo hi =
      { state := u.modHart s.cur (Hart.setStream ((s.h.getX c).toNat / 2 ^ 22 % 2) (some (s.opened a b c))) } := by
  have hopened : { sqDesc e with objPa := none, x := u.xctx s.cur, done := (sqDesc e).count == 0 } = s.opened a b c := by
    rw [hu.xctx]
    simp [sqDesc, State.opened, Stream.count, bits, hva, hvb, hvc, hvd, hpc]
  have hqueue : (s.opened a b c).queue = (s.h.getX c).toNat / 2 ^ 22 % 2 := rfl
  have hrun : (opSqopen 0 a b c).run u s.cur e lo hi =
      { state := if (s.opened a b c).done then (u.modHart s.cur (Hart.setStream (s.opened a b c).queue (some (s.opened a b c)))).streamObject s.cur
          (s.opened a b c) (engineStatus codeOK 0 0) else u.modHart s.cur (Hart.setStream (s.opened a b c).queue (some (s.opened a b c))) } := by
    rw [← hopened]
    rfl
  rw [hrun, hqueue]
  congr 1
  exact ite_self _

theorem opSqclose_run (hva : e.va = s.h.getX a) {v : Stream} (hv : s.stream s.cur ((s.h.getX a).toNat % 2) = some v) (hparked : v.parked = false)
    (hend : v.done = true ∨ v.objPa = none) (lo hi : Nat) :
    (opSqclose 0 a).run u s.cur e lo hi = { state := u.modHart s.cur (Hart.setStream ((s.h.getX a).toNat % 2) none) } := by
  have hopen : u.openStream s.cur (e.va.toNat % 2) = some v := by
    rw [State.openStream, hu.stream, hva, hv]
    simp [hparked]
  have hclose : u.streamClose s.cur (e.va.toNat % 2) v = u.modHart s.cur (Hart.setStream (e.va.toNat % 2) none) := by
    rcases hend with hdone | hobj
    · simp [State.streamClose, hdone]
    · simp only [State.streamClose, State.streamObject_eq_self hobj, ite_self]
  simp only [opSqclose, hopen]
  change { state := u.streamClose s.cur (e.va.toNat % 2) v : Done } = _
  rw [hclose, hva]

end

theorem opSqclose_post : (opSqclose 0 a).post s s.cur (newEntry (.sqclose 0 a) (opSqclose 0 a) s.h) =
    (s, if (s.openStream s.cur ((s.h.getX a).toNat % 2)).isSome then none else some ⟨15, BitVec.ofNat 64 (2 * 256 + 1), none⟩) := rfl

/-- The checks of SQOPEN pass for a descriptor inside its limits, a queue that is not open and an area that is free. -/
theorem opSqopen_post (hA : (s.h.getX a).toNat % 64 = 0) (hB : (s.h.getX b).toNat % 64 = 0) (hC : (s.h.getX c).toNat / 2 ^ 35 = 0)
    (hbit : (s.h.getX c).getLsbD 23 = false)
    (harea : (s.h.getX c).toNat / 2 ^ 24 % 2 ^ 11 * 1024 + 2 * 2 ^ ((s.h.getX c).toNat / 2 ^ 20 % 4) * 1024 ≤ 2048 * 1024)
    (hopen : s.stream s.cur ((s.h.getX c).toNat / 2 ^ 22 % 2) = none)
    (htiles : s.tileBusy (coreOf s.cur) ((s.h.getX c).toNat / 2 ^ 24 % 2 ^ 11 * 1024) (2 * 2 ^ ((s.h.getX c).toNat / 2 ^ 20 % 4) * 1024) = false)
    (hareas : s.inStreamArea (coreOf s.cur) ((s.h.getX c).toNat / 2 ^ 24 % 2 ^ 11 * 1024) (2 * 2 ^ ((s.h.getX c).toNat / 2 ^ 20 % 4) * 1024) = false) :
    (opSqopen 0 a b c).post s s.cur (newEntry (.sqopen 0 a b c) (opSqopen 0 a b c) s.h) = (s, none) := by
  set e := newEntry (.sqopen 0 a b c) (opSqopen 0 a b c) s.h
  have hqueue : (sqDesc e).queue = (s.h.getX c).toNat / 2 ^ 22 % 2 := rfl
  have hstart : (sqDesc e).area.1 = (s.h.getX c).toNat / 2 ^ 24 % 2 ^ 11 * 1024 := rfl
  have hlen : (sqDesc e).area.2 = 2 * 2 ^ ((s.h.getX c).toNat / 2 ^ 20 % 4) * 1024 := rfl
  have hva : e.va = s.h.getX a := rfl
  have hvb : e.vb = s.h.getX b := rfl
  have hvc : e.vc = s.h.getX c := rfl
  have hhigh : bits (s.h.getX c).toNat 63 35 = 0 := by rw [bits, hC]; rfl
  have hlow : bit (s.h.getX c).toNat 23 = false := by
    rw [← hbit, BitVec.getLsbD, Nat.testBit_eq_decide_div_mod_eq]
    rfl
  have hchecks : firstTrap [((s.stream s.cur (sqDesc e).queue).isSome, engineArg 2 3),
      (areaMeets s (coreOf s.cur) (sqDesc e).area.1 (sqDesc e).area.2, engineArg 3 3),
      (e.va.toNat % 64 != 0, engineArg 0 1),
      (e.vb.toNat % 64 != 0, engineArg 0 2),
      (bits e.vc.toNat 63 35 != 0 || bit e.vc.toNat 23 || decide (0x200000 < (sqDesc e).area.1 + (sqDesc e).area.2), engineArg 1 3)] = none := by
    rw [hqueue, hstart, hlen, hva, hvb, hvc, hopen, hhigh, hlow, hA, hB]
    have hlim : ¬0x200000 < (s.h.getX c).toNat / 2 ^ 24 % 2 ^ 11 * 1024 + 2 * 2 ^ ((s.h.getX c).toNat / 2 ^ 20 % 4) * 1024 := by omega
    simp only [areaMeets, htiles, hareas, hlim]
    rfl
  exact congrArg (Prod.mk s) hchecks

end

end Sys2Proof.Machine
end

section
/-! The commands on tiles, stream queues and the read-only buffer as a whole: their effect where their checks pass, and their traps (R155, R157,
R195, R198, R201, R206, R212). -/
namespace Sys2Proof.Machine

theorem State.issues_h (s : State) (i : Instr) : (s.issues i).h = (s.issues i).hart s.cur :=
  congrArg (s.issues i).hart (chargeOnly_issues s i).same.cur_eq

section
variable {s : State} {a b c : Reg} (hs : CanIssue s)
include hs

theorem tfetch_issuesOn (hmay : MayUseTile s (s.h.getX a)) (hst : (s.tileAt (s.h.getX a)).st = .empty)
    (harea : s.inStreamArea (coreOf s.cur) (4096 * (s.h.getX a).toNat) 4096 = false) (hrows : RowsOkay (s.h.getX b) (s.h.getX c)) :
    IssuesOn (.tfetch 0 a b c) s (s.issues (.tfetch 0 a b c))
      (.fill (s.h.getX a).toNat (s.h.getX b) ((s.h.getX c).toNat % 65536) (BitVec.ofInt 64 ((s.h.getX c).toInt / 65536))) 0
      (((s.issues (.tfetch 0 a b c)).core (coreOf s.cur)).setTile (s.h.getX a).toNat
        { s.tileAt (s.h.getX a) with st := .filling, owner := some s.h.ctx, flt := false }) := by
  have hu := chargeOnly_issues s (.tfetch 0 a b c)
  have hpost : (opTfetch 0 a b c).post s s.cur (newEntry (.tfetch 0 a b c) (opTfetch 0 a b c) s.h) = (s, none) := by
    rw [opTfetch_post_of_empty hmay hst harea, rowTrap_of_okay hrows]
  have hissue := opTfetch_runs.issuesOn hs nofun hpost rfl (startFill_eq hu rfl rfl rfl rfl rfl 0 0)
  rwa [hu.tile] at hissue

theorem tdrain_issuesOn (hmay : MayUseTile s (s.h.getX a)) (hst : (s.tileAt (s.h.getX a)).st = .ready)
    (huses : (s.tileAt (s.h.getX a)).uses = 0) (hrows : RowsOkay (s.h.getX b) (s.h.getX c)) :
    IssuesOn (.tdrain 0 a b c) s (s.issues (.tdrain 0 a b c))
      (.drain (s.h.getX a).toNat (s.h.getX b) ((s.h.getX c).toNat % 65536) (BitVec.ofInt 64 ((s.h.getX c).toInt / 65536))) 0
      (((s.issues (.tdrain 0 a b c)).core (coreOf s.cur)).setTile (s.h.getX a).toNat
        { s.tileAt (s.h.getX a) with st := .draining, flt := false }) := by
  have hu := chargeOnly_issues s (.tdrain 0 a b c)
  have hpost : (opTdrain 0 a b c).post s s.cur (newEntry (.tdrain 0 a b c) (opTdrain 0 a b c) s.h) = (s, none) := by
    rw [opTdrain_post_of_ready hmay hst, rowTrap_of_okay hrows]
  have hready : (opTdrain 0 a b c).ready s s.cur (newEntry (.tdrain 0 a b c) (opTdrain 0 a b c) s.h) = true :=
    (congrArg _ (beq_iff_eq.mpr huses)).trans (Bool.or_true _)
  have hissue := opTdrain_runs.issuesOn hs nofun hpost hready (startDrain_eq hu rfl rfl rfl rfl rfl 0 0)
  rwa [hu.tile] at hissue

theorem tilerel_completesOn (howns : s.h.owns = true) (hmay : MayUseTile s (s.h.getX a)) (huses : (s.tileAt (s.h.getX a)).uses = 0)
    (hst : (s.tileAt (s.h.getX a)).forRelease = true) :
    CompletesOn (.tilerel a) s (s.issues (.tilerel a)) (s.issues (.tilerel a)).h.advance
      (((s.issues (.tilerel a)).core (coreOf s.cur)).setTile (s.h.getX a).toNat
        ⟨.empty, if s.h.sup then (s.tileAt (s.h.getX a)).owner else none, (s.tileAt (s.h.getX a)).st == .ready && (s.tileAt (s.h.getX a)).flt, 0⟩) := by
  have hu := chargeOnly_issues s (.tilerel a)
  have hpost : (opTilerel a).post s s.cur (newEntry (.tilerel a) (opTilerel a) s.h) = (s, none) := by
    rw [opTilerel_post, tileCheck_eq_none hmay hst]
  have hready : (opTilerel a).ready s s.cur (newEntry (.tilerel a) (opTilerel a) s.h) = true :=
    (congrArg _ (beq_iff_eq.mpr huses)).trans (Bool.or_true _)
  have hdone := opTilerel_runs.completesOn hs (fun _ => howns) hpost hready (opTilerel_run hu rfl 0 _) ((State.UnitsAre.refl ..).modCore _)
  rw [hu.tile, Tile.released, Bool.and_comm, ← State.issues_h] at hdone
  exact hdone

theorem roinv_completesOn : CompletesOn .roinv s (s.issues .roinv) (s.issues .roinv).h.advance
    { (s.issues .roinv).core (coreOf s.cur) with ro := [] } := by
  rw [State.issues_h]
  exact opRoinv_runs.completesOn hs nofun rfl rfl rfl ((State.UnitsAre.refl ..).modCore _)

theorem sqopen_completesOn (howns : s.h.owns = true) (hA : (s.h.getX a).toNat % 64 = 0) (hB : (s.h.getX b).toNat % 64 = 0) (hC : (s.h.getX c).toNat / 2 ^ 35 = 0)
    (hbit : (s.h.getX c).getLsbD 23 = false)
    (harea : (s.h.getX c).toNat / 2 ^ 24 % 2 ^ 11 * 1024 + 2 * 2 ^ ((s.h.getX c).toNat / 2 ^ 20 % 4) * 1024 ≤ 2048 * 1024)
    (hopen : s.stream s.cur ((s.h.getX c).toNat / 2 ^ 22 % 2) = none)
    (htiles : s.tileBusy (coreOf s.cur) ((s.h.getX c).toNat / 2 ^ 24 % 2 ^ 11 * 1024) (2 * 2 ^ ((s.h.getX c).toNat / 2 ^ 20 % 4) * 1024) = false)
    (hareas : s.inStreamArea (coreOf s.cur) ((s.h.getX c).toNat / 2 ^ 24 % 2 ^ 11 * 1024) (2 * 2 ^ ((s.h.getX c).toNat / 2 ^ 20 % 4) * 1024) = false) :
    CompletesOn (.sqopen 0 a b c) s (s.issues (.sqopen 0 a b c))
      (Hart.setStream ((s.h.getX c).toNat / 2 ^ 22 % 2) (some (s.opened a b c)) (s.issues (.sqopen 0 a b c)).h).advance
      ((s.issues (.sqopen 0 a b c)).core (coreOf s.cur)) := by
  rw [State.issues_h]
  exact opSqopen_runs.completesOn hs (fun _ => howns) (opSqopen_post hA hB hC hbit harea hopen htiles hareas) rfl
    (opSqopen_run (chargeOnly_issues ..) rfl rfl rfl rfl rfl 0 _) ((State.UnitsAre.refl ..).modHart _)

theorem sqclose_completesOn (howns : s.h.owns = true) {v : Stream} (hv : s.stream s.cur ((s.h.getX a).toNat % 2) = some v) (hparked : v.parked = false)
    (hend : v.done = true ∨ v.objPa = none) :
    CompletesOn (.sqclose 0 a) s (s.issues (.sqclose 0 a)) (Hart.setStream ((s.h.getX a).toNat % 2) none (s.issues (.sqclose 0 a)).h).advance
      ((s.issues (.sqclose 0 a)).core (coreOf s.cur)) := by
  have hpost : (opSqclose 0 a).post s s.cur (newEntry (.sqclose 0 a) (opSqclose 0 a) s.h) = (s, none) := by
    rw [opSqclose_post, State.openStream, hv]
    simp [hparked]
  rw [State.issues_h]
  exact opSqclose_runs.completesOn hs (fun _ => howns) hpost rfl (opSqclose_run (chargeOnly_issues ..) rfl hv hparked hend 0 _)
    ((State.UnitsAre.refl ..).modHart _)

theorem sqclose_trapsAt (howns : s.h.owns = true) (hv : s.stream s.cur ((s.h.getX a).toNat % 2) = none) : TrapsAt (.sqclose 0 a) s 15 (2 * 256 + 1) none := by
  refine opSqclose_runs.trapsAt hs (fun _ => howns) ?_ (by decide)
  rw [opSqclose_post, State.openStream, hv]
  rfl

end

/-! ### Traps -/

/-- TILE_STATE of a command on the tile of `v` whose rows of the table are `allowed`, with the TVAL of R157: for a number that is no tile, for a tile of
another context, and for a state outside the rows. -/
theorem RunsCommand.tileTraps {s : State} {i : Instr} {op : QOp} (h : RunsCommand s i op) (hs : CanIssue s) (howner : op.owner = true → s.h.owns = true)
    {v : Word} {allowed : Tile → Bool} {later : Option Trap}
    (hpost : op.post s s.cur (newEntry i op s.h) = (s, (tileCheck s s.cur v allowed).or later)) :
    (512 ≤ v.toNat → TrapsAt i s 13 (v.toNat % 512) none) ∧
    (v.toNat < 512 → s.h.sup = false → (∃ o, (s.tileAt v).owner = some o ∧ o ≠ s.h.ctx) →
      TrapsAt i s 13 (2 ^ 13 + tileCode (s.tileAt v) * 2 ^ 11 + v.toNat) none) ∧
    (MayUseTile s v → allowed (s.tileAt v) = false → TrapsAt i s 13 (2 * 2 ^ 13 + tileCode (s.tileAt v) * 2 ^ 11 + v.toNat) none) := by
  refine ⟨fun hout => h.trapsAt hs howner ?_ (by decide), fun hlt hkernel hforeign => h.trapsAt hs howner ?_ (by decide),
    fun hmay hrow => h.trapsAt hs howner ?_ (by decide)⟩
  · rw [hpost, tileCheck_of_outside hout]
    rfl
  · rw [hpost, tileCheck_of_foreign hlt hkernel hforeign]
    rfl
  · rw [hpost, tileCheck_of_mayUse hmay, hrow]
    rfl

/-- ENGINE_ARG of a command on rows of a tile, in the order of its operands: the size of a row, the address, the stride. -/
theorem RunsCommand.rowTraps {s : State} {i : Instr} {op : QOp} (h : RunsCommand s i op) (hs : CanIssue s) (howner : op.owner = true → s.h.owns = true)
    {b c : Reg} (hpost : op.post s s.cur (newEntry i op s.h) = (s, s.rowTrap b c)) :
    ((s.h.getX c).toNat % 65536 ∉ [32, 64, 128, 256, 512, 1024, 2048, 4096] → TrapsAt i s 15 (256 + 3) none) ∧
    ((s.h.getX c).toNat % 65536 ∈ [32, 64, 128, 256, 512, 1024, 2048, 4096] → (s.h.getX b).toNat % 32 ≠ 0 → TrapsAt i s 15 2 none) ∧
    ((s.h.getX c).toNat % 65536 ∈ [32, 64, 128, 256, 512, 1024, 2048, 4096] → (s.h.getX b).toNat % 32 = 0 →
      (s.h.getX c).toNat / 65536 % 32 ≠ 0 → TrapsAt i s 15 3 none) := by
  refine ⟨fun hsize => h.trapsAt hs howner ?_ (by decide), fun hsize hrow => h.trapsAt hs howner ?_ (by decide),
    fun hsize hrow hpitch => h.trapsAt hs howner ?_ (by decide)⟩
  · rw [hpost, State.rowTrap, if_pos hsize]
  · rw [hpost, State.rowTrap, if_neg (not_not.mpr hsize), if_pos hrow]
  · rw [hpost, State.rowTrap, if_neg (not_not.mpr hsize), if_neg (not_not.mpr hrow), if_pos hpitch]

/-- TILEREL's rows of the table: READY, and EMPTY with an owner after a fault. -/
theorem forRelease_eq_false {t : Tile} :
    (t.st ∉ [TileState.ready, .empty] ∨ t.st = .empty ∧ (t.owner = none ∨ t.flt = false)) → t.forRelease = false := by
  obtain ⟨st, owner, flt, uses⟩ := t
  rintro (hst | ⟨rfl, rfl | rfl⟩)
  · cases st <;> simp_all [Tile.forRelease]
  · simp [Tile.forRelease]
  · simp [Tile.forRelease]

theorem forRelease_eq_true {t : Tile} (h : t.st = .ready ∨ t.st = .empty ∧ t.owner ≠ none ∧ t.flt = true) : t.forRelease = true := by
  rcases h with hst | ⟨hst, howner, hflt⟩
  · simp [Tile.forRelease, hst]
  · simp [Tile.forRelease, hst, hflt, Option.isSome_iff_ne_none, howner]

end Sys2Proof.Machine
end

section
open Sys2Proof Sys2Proof.Machine

/-- Settles O44: each command runs at its commit once its checks pass, and a check that fails traps before any effect. -/
theorem tilesAndStreams : Obligations.TilesAndStreams := by
  intro s a b c hs A B C t k done
  refine ⟨fun hmay hst harea hrows => tfetch_issuesOn hs hmay hst harea hrows, fun hmay hst huses hrows => tdrain_issuesOn hs hmay hst huses hrows,
    ?tilerel, ?roinv, ?sqopen, ?sqclose, fun howns hv => sqclose_trapsAt hs howns hv, ?tiles, ?rows⟩
  case tilerel =>
    intro hmay howns huses hst
    simp only [done, id_eq]
    exact tilerel_completesOn hs howns hmay huses (forRelease_eq_true hst)
  case roinv =>
    simp only [done, id_eq]
    exact roinv_completesOn hs
  case sqopen =>
    intro q area slots howns hA hB hC hbit harea hopen htiles hareas
    exact sqopen_completesOn hs howns hA hB hC hbit harea hopen htiles hareas
  case sqclose =>
    intro v howns hv hparked hend
    exact sqclose_completesOn hs howns hv hparked hend
  case tiles =>
    intro i rows hi howns
    simp only [List.mem_cons, Prod.mk.injEq, List.not_mem_nil, or_false] at hi
    rcases hi with ⟨rfl, rfl⟩ | ⟨rfl, rfl⟩ | ⟨rfl, rfl⟩
    · obtain ⟨hout, hforeign, hrow⟩ := opTfetch_runs.tileTraps hs nofun (opTfetch_post (s := s) (a := a) (b := b) (c := c))
      refine ⟨hout, hforeign, fun hmay hst => hrow hmay ?_⟩
      have hne : t.st ≠ .empty := by simpa using hst
      exact beq_eq_false_iff_ne.mpr hne
    · obtain ⟨hout, hforeign, hrow⟩ := opTdrain_runs.tileTraps hs nofun (opTdrain_post (s := s) (a := a) (b := b) (c := c))
      refine ⟨hout, hforeign, fun hmay hst => hrow hmay ?_⟩
      have hne : t.st ≠ .ready := by simpa using hst
      exact beq_eq_false_iff_ne.mpr hne
    · obtain ⟨hout, hforeign, hrow⟩ := opTilerel_runs.tileTraps hs (fun _ => howns rfl)
        ((opTilerel_post (s := s) (a := a)).trans (congrArg (Prod.mk s) (Option.or_none).symm))
      refine ⟨hout, hforeign, fun hmay hst => hrow hmay (forRelease_eq_false (t := t) ?_)⟩
      simpa using hst
  case rows =>
    intro i hi hmay hfetch hdrain
    simp only [List.mem_cons, List.not_mem_nil, or_false] at hi
    rcases hi with rfl | rfl
    · obtain ⟨hst, harea⟩ := hfetch rfl
      exact opTfetch_runs.rowTraps hs nofun (opTfetch_post_of_empty hmay hst harea)
    · exact opTdrain_runs.rowTraps hs nofun (opTdrain_post_of_ready hmay (hdrain rfl))

end

section
/-! An NVMe completion for a far read that has to wait (R349, R361). -/
namespace Sys2Proof.Machine

/-- A completion for an operation that may not go on leaves the state. -/
theorem nvmeCompletion_of_waiting {s : State} {slot : StagedSlot} {g : Staging} (hslot : FMap.find? s.staging slot.index = some g) (hcq : g.cq = slot.cq)
    (hwaits : s.running g.op = none) (status : Nat) : exec (.nvmeCompletion slot status) s = .next s := by
  have hlent : (FMap.find? s.staging slot.index).filter (fun g => g.cq == slot.cq) = some g := by
    rw [hslot, Option.filter_some, if_pos (beq_iff_eq.mpr hcq)]
  change execNvmeCompletion slot status s = _
  rw [execNvmeCompletion, hlent]
  simp only [hwaits]

/-- The entry of an object of KIND 2 whose queues lie at 0. -/
def nvmeEntry : List Byte := 2 :: List.replicate 63 0

/-- A far read of hart 0's supervisor that has submitted its only command; its eight bytes go to SATP in the hart's save page. -/
def rootRead : Op := ⟨4, 0, none, ⟨0, true, 0, 5, 0⟩, .fread 0 nvmeEntry 0 8 0x1A00 [] 0, 0, none, 0x100, 8, none, [], 0⟩

/-- Slot 9 is lent to the far read, and the queue of hart 0 holds an instruction. -/
def rootAwaited : State :=
  { State.reset.setHart 0 { Hart.reset 0 with run := .running, queue := [newEntry .roinv opRoinv (Hart.reset 0)] } with
    ops := [rootRead]
    staging := [(9, ⟨4, 0, 8, 0⟩)] }

/-- It goes on only once that queue is empty. -/
theorem rootRead_waits : rootAwaited.running 4 = none := by decide +kernel

end Sys2Proof.Machine
end

section
open Sys2Proof Sys2Proof.Machine

/-- Refutes O57. Its clause on NVMe completions has the slot come free for any far read that is alone in flight; unlike the other clauses it does not ask
that the operation may go on. One that stores to SATP while its hart's queue holds an instruction may not (R349): the completion changes nothing, and
the slot stays lent. -/
theorem not_engineEvents : ¬ Obligations.EngineEvents := by
  intro h
  obtain ⟨-, -, -, -, -, -, -, -, hnvme, -⟩ := h rootAwaited rootAwaited rootAwaited rootRead []
  obtain ⟨t, -, hexec, hfree, -⟩ := hnvme ⟨0, 9⟩ 0 0 8 0 nvmeEntry 0x1A00 ⟨4, 0, 8, 0⟩ 0 rfl rfl rfl rfl rfl (by decide +kernel)
  have ht : rootAwaited = t := Host.Outcome.next.inj ((nvmeCompletion_of_waiting rfl rfl rootRead_waits 0).symm.trans hexec)
  rw [← ht] at hfree
  exact absurd hfree (by decide +kernel)

end
